-- ==== Sys2Proof/Word.lean ====
section
/-! DEFINITION. The word and byte types (R4, R5) and the sparse table used for registers and for memory. -/

namespace Sys2Proof

/-- R5: a word is 32 bits. -/
abbrev Word := BitVec 32

/-- One byte of a memory, a packet or a record. -/
abbrev Byte := BitVec 8

/-- A sparse table: the keys that differ from the table's default, in rising order.  A memory is one with
byte values, so that two equal memories are equal lists. -/
abbrev Tab (α : Type) := List (Nat × α)

end Sys2Proof
end

