-- ==== Sys2Proof/Syntax.lean ====
section
/-! DEFINITION. The commands of the block: one constructor of `Instr` per row of the operation table.
An operand names the object the command acts on (a function, a lane, an engine, a stream) or carries what the
outside world brings with the event (a packet, a pixel line, the result of a transfer). -/

namespace Sys2Proof

/-- Where a Cusayn Command Protocol packet comes from (R384).  A lane and the service package hold their packets
in State; a management message carries its own. -/
inductive Src where
  | lane (fn lane : Nat)
  | mgmt (sess : Nat) (pkt : List Word)
  | service
  deriving DecidableEq, Repr

/-- Header check of a received CSI-2 packet (R77): no error, one corrected bit, or uncorrectable. -/
inductive Ecc where
  | good | corrected | bad
  deriving DecidableEq, Repr

/-- What came back for a read of a stream pass (R316). -/
inductive ReadOutcome where
  | good | flitCorrected | flitBad | hbmRetry | hbmExhausted | unsupported | aborted | poisoned
  | envelopeBad
  deriving DecidableEq, Repr

/-- The read of a pass that something comes back for (R39): its address and the generation tag it was issued under. -/
structure ReadRef where
  addr : Nat
  tag : Nat
  deriving DecidableEq, Repr

/-- What a scrub read of a row finds (R282, R283). -/
inductive RowError where
  | none | single (word : Nat) | double
  deriving DecidableEq, Repr

/-- The link an SPDM message arrives on (R398): the DOE mailbox of a port's PF0, or MCTP over one of the two
management links (0 RGMII, 1 I3C). -/
inductive SpdmLink where
  | doe (port : Nat)
  | mctp (link : Nat)
  deriving DecidableEq, Repr

/-- How an MCTP message came (R374): the sender's MAC and IPv6 address and UDP port and the UDP port it was sent to, on the
RGMII link; its message type, the endpoint IDs of sender and device, and its tag. -/
structure MctpVia where
  mac : List Byte
  ip : List Byte
  src : Nat
  dst : Nat
  type : Nat
  eid : Nat
  own : Nat
  tag : Nat
  deriving DecidableEq, Repr

/-- The parts of an SPDM request that the manual gives a meaning. -/
structure SpdmReq where
  /-- slot, measurement index, session or key index the request names -/
  param : Nat
  /-- offset of a GET_CERTIFICATE portion -/
  offset : Nat
  /-- length of a GET_CERTIFICATE portion -/
  length : Nat
  /-- the request asks for a signature -/
  sign : Bool
  /-- bytes of the message that authenticate the requester, or its algorithm selection -/
  body : List Byte
  /-- how it came, on a management link -/
  via : MctpVia
  deriving DecidableEq, Repr

/-- The 802.1AS messages that a MAC receives and acts on (R373). -/
inductive GptpMsg where
  /-- a synchronization with its correction: the master's time in ns -/
  | sync (origin : Nat)
  /-- the peer's request for the link delay, with what identifies it -/
  | delayReq (peer : List Byte)
  /-- the peer's answer to the device's request: the peer's times of its receipt and of the answer, in ns -/
  | delayResp (received sent : Nat)
  deriving DecidableEq, Repr

/-- The commands: writes and reads of the block's registers, packets of its protocols, events at its pins and
the completions of its own sequencers. -/
inductive Instr where
  -- Cusayn Command Protocol (R378 to R395)
  | hello (src : Src)
  | capsRead (src : Src)
  | echo (src : Src)
  | regionMap (src : Src)
  | regionUnmap (src : Src)
  | windowOpen (src : Src)
  | windowClose (src : Src)
  | graphLoad (src : Src)
  | graphArm (src : Src)
  | graphDisarm (src : Src)
  | graphUnload (src : Src)
  | jobSubmit (src : Src)
  | jobCancel (src : Src)
  | streamRearm (src : Src)
  | queuePush (src : Src)
  | queuePop (src : Src)
  | sensorProfile (src : Src)
  | sensorSettings (src : Src)
  | streamStart (src : Src)
  | streamStop (src : Src)
  | txConfig (src : Src)
  | sessionOpen (src : Src)
  | sessionClose (src : Src)
  | jobKey (src : Src)
  | statsRead (src : Src)
  | logRead (src : Src)
  | fwBlock (src : Src)
  | fwCommit (src : Src)
  | fwConfirm (src : Src)
  | fwStatus (src : Src)
  | packetWindowWrite (fn lane off : Nat) (dws : List Word)
  | hostLaneConsWrite (fn lane : Nat) (v : Word)
  | hostLaneCfgWrite (fn lane : Nat) (v : Word)
  | modWindowEnd (fn lane : Nat)
  -- register accesses
  | regRead (sess off : Nat)
  | regWrite (sess off : Nat) (v : Word)
  | registerWrite (rq off : Nat) (v : Word)
  | rcRegisterRead (rq off : Nat)
  | w1cRegisterWrite (rq off : Nat) (v : Word)
  | mmioMisshapedAccess (rq off size : Nat) (wr : Bool)
  | mmioHoleAccess (rq off : Nat) (wr : Bool)
  | pwrTimeLoRead (rq : Nat)
  | seqSluiceLastLoRead (rq : Nat)
  | camFsiLastLoRead (rq n : Nat)
  | secIsoTimeLoRead (rq : Nat)
  | safCauseTimeLoRead (rq : Nat)
  | partitionClear (rq : Nat) (v : Word)
  | spdArrValueWrite (rq : Nat) (v : Word)
  | spdSlicePwrWrite (rq : Nat) (v : Word)
  | bankPowerDownDone (slice bank : Nat)
  | bankPowerUpDone (slice bank : Nat)
  | spdSliceCacheWrite (rq : Nat) (v : Word)
  | cacheInv (rq : Nat) (v : Word)
  | spdWheelCfgWrite (rq : Nat) (v : Word)
  | mrqCfgWrite (rq : Nat) (v : Word)
  | strCtxOwnerWrite (rq : Nat) (v : Word)
  | isoCommit (rq : Nat) (v : Word)
  | isolationEpoch
  | credCommit (rq : Nat) (v : Word)
  | pkgWindowWrite (rq off : Nat) (v : Word)
  | pkgErase (rq : Nat) (v : Word)
  | pkgEraseDone
  | pkgCommit (rq : Nat) (v : Word)
  | pkgCommitDone
  | vcoreSetPointReached
  | arclkSwitchDone
  -- camera ports and sensor control
  | csi2FrameStart (port vc num : Nat) (ecc : Ecc)
  | csi2LineStart (port vc num : Nat) (ecc : Ecc)
  | csi2LongPacket (port vc dt : Nat) (payload : List Byte) (ecc : Ecc) (crcOk : Bool)
  | embeddedData (port vc : Nat) (payload : List Byte) (ecc : Ecc) (crcOk : Bool)
  | csi2FrameEnd (port vc num : Nat) (ecc : Ecc)
  | lineTimeout (stream : Nat)
  | streamLoss (stream : Nat)
  | lineLanded (stream : Nat)
  | settingsWindowOpen (stream : Nat)
  | settingsWindowClose (stream : Nat)
  | sensorTransferDone (stream : Nat) (ack : Bool) (dataBytes : Nat)
  | i2cStretchTimeout (stream dataBytes : Nat)
  | sensorIbi (port addr data : Nat)
  | fsyncOutAssert (k : Nat)
  | fsyncOutDeassert (k : Nat)
  | fsyncInEdge (n : Nat) (rising : Bool)
  -- frame-graph sequencer
  | timerTrigger (tmpl : Nat)
  | handleTrigger (mrq : Nat)
  | handleClaim (mrq : Nat)
  | timeWaitExpiry (tmpl slot node : Nat) (second : Bool)
  | gangStarveGuard (prio : Nat)
  | shareWindowEnd
  -- engines
  | icoreTask (core : Nat)
  | ispFrameRecord (core : Nat)
  | wpeResample (core unit : Nat)
  | wpeMeshInvert (core unit : Nat)
  | pyeTask (core : Nat)
  | steTask (core : Nat)
  | ofeTask (core : Nat)
  | kpeDetect (core : Nat)
  | kpeTrack (core : Nat)
  | kpeMatch (core : Nat)
  | ncoreTaskDispatch
  | todConv2d (core : Nat)
  | todMatmul (core : Nat)
  | todAttention (core : Nat)
  | todEltwise (core : Nat)
  | todAct (core : Nat)
  | todNorm (core : Nat)
  | todPool (core : Nat)
  | todResize (core : Nat)
  | todReduce (core : Nat)
  | todSoftmax (core : Nat)
  | todGather (core : Nat)
  | todScatter (core : Nat)
  | todTransform (core : Nat)
  | todQuant (core : Nat)
  | todTopk (core : Nat)
  | todNms (core : Nat)
  | todArgmax (core : Nat)
  | streamCopy (ctx : Nat)
  | streamTensor (ctx : Nat)
  | streamReadReturn (ctx : Nat) (outcome : ReadOutcome) (read : ReadRef)
  | pcieCompletionTimeout (ctx : Nat) (read : ReadRef)
  | publishEthernet (mac : Nat)
  | ethRecordCommit (mac : Nat)
  | ethFrameSent (mac : Nat)
  | publishHostRing (port : Nat)
  | publishCsi2Tx (tx : Nat)
  | csi2TxCommit (tx : Nat)
  | fwSettings
  | fwRearm
  | fwPush
  | fwCounterSet
  | fwNotify
  | millracePushAccept (mrq : Nat)
  | taskComplete (engine : Nat)
  | sluiceWindowEnd (sluice : Nat)
  | instanceDrained (tmpl slot : Nat)
  -- remote windows
  | windowWrite (fn req off : Nat) (data : List Byte)
  | windowRead (fn req off len : Nat) (atomic : Bool)
  | windowWriteLanded (win : Nat)
  -- scratchpad
  | scrubRow (slice group : Nat) (err : RowError)
  | eccWriteback (slice : Nat)
  | sliceIdleRepair (slice : Nat)
  | repairCopyDone (slice : Nat)
  | wheelPoisonFill (core wheel : Nat)
  -- functional safety
  | checkIntervalStart
  | goldenRunDone (engine disagree : Nat)
  | safeHbToggle
  | safetyRecordRepeat
  | scpLockstepMismatch
  | siLockstepMismatch
  | clockFault
  | sslCsFall
  | sslNop
  | sslSelect (index : Nat)
  | sslAckTransient
  | sslBadFrame (frame : List Bool)
  -- power
  | supplyWarn
  | supplyWarnEnd
  | supplyReset
  | supplyResetEnd
  | powerMeasure (milliwatts : Nat)
  | thermalStepDown (temp : Int)
  | thermalStepUp (temp : Int)
  | thermalTrip (temp : Int)
  | thermtripAssert
  | ceWindowEnd
  | engineIdle (engine : Nat)
  | coreNap (unit : Nat)
  | unitWakeDone (unit : Nat)
  | sleepEntry
  | sleepWakeDone
  | prewake (tmpl : Nat)
  | prewakeExpire (tmpl : Nat)
  | deviceTimeTick
  /-- `enabled`: PTM is enabled on the port's PF0, as system software last set it in its configuration space -/
  | ptmRequest (port : Nat) (enabled : Bool)
  | ptmResponse (port master : Nat)
  | gptpMessage (mac : Nat) (msg : GptpMsg)
  -- Ethernet and host ports
  | ethArpRequest (mac : Nat) (sha spa tpa : List Byte)
  | ethNeighborSolicitation (port : Nat) (src target sll : List Byte)
  | ethIcmpEcho (port : Nat) (v6 : Bool) (mac src dst body : List Byte)
  | ethRxDrop (mac : Nat) (frame : List Byte)
  | ethLinkChange (mac : Nat) (up : Bool)
  | flr (fn : Nat)
  | perstAssert (port : Nat)
  | hotReset (port : Nat)
  | vfEnableClear (port : Nat)
  | linkDown (port : Nat)
  | linkUp (port speed width : Nat)
  | msixUnmask (fn vec : Nat)
  | doeDiscovery (port index : Nat)
  | doeAbort (port : Nat)
  -- SPDM
  | getVersion (link : SpdmLink) (req : SpdmReq)
  | getCapabilities (link : SpdmLink) (req : SpdmReq)
  | negotiateAlgorithms (link : SpdmLink) (req : SpdmReq)
  | getDigests (link : SpdmLink) (req : SpdmReq)
  | getCertificate (link : SpdmLink) (req : SpdmReq)
  | challenge (link : SpdmLink) (req : SpdmReq)
  | getMeasurements (link : SpdmLink) (req : SpdmReq)
  | keyExchange (link : SpdmLink) (req : SpdmReq)
  | finish (link : SpdmLink) (req : SpdmReq)
  | endSession (link : SpdmLink) (req : SpdmReq)
  | heartbeat (link : SpdmLink) (req : SpdmReq)
  | keyUpdate (link : SpdmLink) (req : SpdmReq)
  | getEncapsulatedRequest (link : SpdmLink) (req : SpdmReq)
  | deliverEncapsulatedResponse (link : SpdmLink) (req : SpdmReq)
  | spdmUnsupportedRequest (link : SpdmLink) (code : Nat) (req : SpdmReq)
  | sessionHandshakeTimeout (sess : Nat)
  -- boot and reset
  | aonPowerUp (bifurcated : Bool)
  | powerOff
  | resetAssert
  | resetRelease
  | selfTestDone (missed : Option Nat)
  | trialCountStore
  | trialRunExpiry
  | functionResetDone (fn : Nat)
  | pmbusTransferDone (ok : Bool)
  | mgtLinkChange (up : Bool) (speed : Nat)
  | peerDelayRequest (mac : Nat)
  deriving DecidableEq, Repr

end Sys2Proof
end

