-- ==== Sys2Proof/Decode.lean ====
section
/-! DEFINITION. No row of the operation table gives its command any bits: a word spells no command. -/

namespace Sys2Proof

/-- The command a word of the operation table spells: none, as no row has an encoding. -/
def decodeTableWord (_nbits _w : Nat) : Option Instr := none

end Sys2Proof
end

