-- ==== Sys2Proof/Machine/Bits.lean ====
section
/-! DEFINITION. Bit fields, two's complement, byte order (R4, R5), rounding and saturation, CRCs, and the
operations of the sparse table. -/

namespace Sys2Proof.Machine

/-! ### Sparse tables -/

/-- The value a table holds under a key; `d` is what an unlisted key reads as. -/
def tget {α : Type} (d : α) : Tab α → Nat → α
  | [], _ => d
  | (k, v) :: t, q => if q < k then d else if q = k then v else tget d t q

/-- Set one key; setting the default removes the entry, so that equal tables are equal lists. -/
def tset {α : Type} [DecidableEq α] (d : α) : Tab α → Nat → α → Tab α
  | [], q, v => if v = d then [] else [(q, v)]
  | (k, w) :: t, q, v =>
    if q < k then (if v = d then (k, w) :: t else (q, v) :: (k, w) :: t)
    else if q = k then (if v = d then t else (q, v) :: t)
    else (k, w) :: tset d t q v

/-- Change one key's value. -/
def tmod {α : Type} [DecidableEq α] (d : α) (t : Tab α) (q : Nat) (f : α → α) : Tab α :=
  tset d t q (f (tget d t q))

/-- The canonical form: keys strictly rising and above `lo`, no entry equal to the default. -/
def twfFrom {α : Type} [DecidableEq α] (d : α) : Nat → Tab α → Bool
  | _, [] => true
  | lo, (k, v) :: t => decide (lo ≤ k) && !decide (v = d) && twfFrom d (k + 1) t

/-- The canonical form of a whole table. -/
def twf {α : Type} [DecidableEq α] (d : α) (t : Tab α) : Bool := twfFrom d 0 t

/-- Keys strictly rising and at least `lo`. -/
def tkeys {α : Type} : Nat → Tab α → Bool
  | _, [] => true
  | lo, (k, _) :: t => decide (lo ≤ k) && tkeys (k + 1) t

/-- Remove every key for which `p` holds. -/
def tdrop {α : Type} (t : Tab α) (p : Nat → Bool) : Tab α := t.filter (fun e => !p e.1)

/-! ### Bit fields -/

/-- Bits [hi:lo] of a value. -/
def bits (w hi lo : Nat) : Nat := (w >>> lo) % 2 ^ (hi + 1 - lo)

/-- One bit of a value. -/
def bit (w n : Nat) : Bool := (w >>> n) % 2 == 1

/-- A Boolean as a bit. -/
def b2n (b : Bool) : Nat := if b then 1 else 0

/-- `n` bits read as two's complement. -/
def sx (n w : Nat) : Int :=
  let v := w % 2 ^ n
  if 2 ^ (n - 1) ≤ v then (v : Int) - (2 ^ n : Nat) else v

/-- An integer as `n` bits of two's complement. -/
def ux (n : Nat) (i : Int) : Nat := (i % ((2 ^ n : Nat) : Int)).toNat

/-- The nearest value of `[lo, hi]`. -/
def clampI (lo hi x : Int) : Int := if x < lo then lo else if hi < x then hi else x

/-- The nearest value of `[lo, hi]`, unsigned. -/
def clampN (lo hi x : Nat) : Nat := if x < lo then lo else if hi < x then hi else x

/-- Ceiling division. -/
def cdiv (a b : Nat) : Nat := (a + b - 1) / b

/-- Round down to a multiple. -/
def downTo (a m : Nat) : Nat := a / m * m

/-- Round up to a multiple. -/
def upTo (a m : Nat) : Nat := cdiv a m * m

/-- `a / b` rounded to the nearest integer, ties to even; `b` positive. -/
def rneDiv (a : Int) (b : Nat) : Int :=
  let q := a / (b : Int)
  let r := a % (b : Int)
  if 2 * r < b then q else if (b : Int) < 2 * r then q + 1 else if q % 2 = 0 then q else q + 1

/-- `a / b` rounded to the nearest integer, ties toward plus infinity; `b` positive. -/
def rhuDiv (a : Int) (b : Nat) : Int := (2 * a + b) / (2 * (b : Int))

/-- `a / b` rounded to the nearest integer, ties away from zero; `b` positive. -/
def rhaDiv (a : Int) (b : Nat) : Int :=
  if a < 0 then -(((2 * (-a) + b) / (2 * (b : Int)))) else (2 * a + b) / (2 * (b : Int))

/-- `a / b` rounded toward zero. -/
def tzDiv (a : Int) (b : Nat) : Int := Int.tdiv a b

/-- Serial comparison modulo 2³²: `a` before `b`. -/
def serLt (a b : Nat) : Bool :=
  let d := (b + 2 ^ 32 - a % 2 ^ 32) % 2 ^ 32
  decide (0 < d) && decide (d < 2 ^ 31)

/-- Add with saturation at 2³² − 1 (R74: counters saturate). -/
def sat32 (n : Nat) : Nat := min n (2 ^ 32 - 1)

/-- Wrap modulo 2³². -/
def w32 (n : Nat) : Nat := n % 2 ^ 32

/-- Wrap modulo 2⁶⁴. -/
def w64 (n : Nat) : Nat := n % 2 ^ 64

/-- Bitwise OR of a list. -/
def orAll (l : List Nat) : Nat := l.foldl (· ||| ·) 0

/-- Sum of a list of integers. -/
def sumI (l : List Int) : Int := l.foldl (· + ·) 0

/-- Sum of a list. -/
def sumN (l : List Nat) : Nat := l.foldl (· + ·) 0

/-- Change one element of a list. -/
def lmod {α : Type} (l : List α) (n : Nat) (f : α → α) : List α := l.modify n f

/-- The first of `n`, counting up from `p` and wrapping at `m`, for which `ok` holds: the rotating pointer of R36. -/
def rotFind (m p : Nat) (ok : Nat → Bool) : Option Nat :=
  (List.range m).foldl (fun r i =>
    match r with
    | some x => some x
    | none => let x := (p + i) % m; if ok x then some x else none) none

/-! ### Byte order -/

/-- Little-endian value of bytes (R4). -/
def leNat : List Byte → Nat
  | [] => 0
  | b :: t => b.toNat + 256 * leNat t

/-- Big-endian value of bytes, for network headers (R364). -/
def beNat (l : List Byte) : Nat := leNat l.reverse

/-- `n` little-endian bytes of a value (R4). -/
def leBytes : Nat → Nat → List Byte
  | 0, _ => []
  | n + 1, v => BitVec.ofNat 8 v :: leBytes n (v / 256)

/-- `n` big-endian bytes of a value. -/
def beBytes (n v : Nat) : List Byte := (leBytes n v).reverse

/-- A structure of 32-bit words as bytes, word 0 first (R5). -/
def wordsBytes (l : List Nat) : List Byte := l.flatMap (leBytes 4)

/-- A label's characters as bytes. -/
def ascii (t : String) : List Byte := t.toList.map (fun c => BitVec.ofNat 8 c.toNat)

/-- Word `k` of a structure held as words. -/
def wd (l : List Nat) (k : Nat) : Nat := l.getD k 0

/-- A 48-bit address in words `k` and `k + 1` (R389). -/
def addr48 (l : List Nat) (k : Nat) : Nat := wd l k + 2 ^ 32 * bits (wd l (k + 1)) 15 0

/-- A 64-bit value in words `k` and `k + 1`. -/
def u64 (l : List Nat) (k : Nat) : Nat := wd l k + 2 ^ 32 * wd l (k + 1)

/-! ### Cyclic codes -/

/-- One byte into a reflected CRC. -/
def crcByte (poly : Nat) (c : Nat) (b : Byte) : Nat :=
  (List.range 8).foldl (fun x _ => if x % 2 = 1 then (x / 2) ^^^ poly else x / 2) (c ^^^ b.toNat)

/-- CRC-32C, reflected Castagnoli, of RFC 3720 (R364). -/
def crc32c (l : List Byte) : Nat := (l.foldl (crcByte 0x82F63B78) 0xFFFFFFFF) ^^^ 0xFFFFFFFF

/-- CRC-8 of the Safety Status Link: polynomial 0x2F, initial value 0xFF, final XOR 0xFF, most significant bit
first, over the 24 bits [31:8] of a frame (R447). -/
def crc8 (v24 : Nat) : Nat :=
  ((List.range 24).foldl (fun c i =>
    let top := (c / 128) % 2
    let inb := (v24 >>> (23 - i)) % 2
    let c2 := (c * 2) % 256
    if top ^^^ inb = 1 then c2 ^^^ 0x2F else c2) 0xFF) ^^^ 0xFF

end Sys2Proof.Machine
end

