-- ==== Sys2Proof/Machine/Flags.lean ====
section
/-! DEFINITION. The VALIDITY field (R12 to R14): how flags combine and how the byte is formed. -/

namespace Sys2Proof.Machine

/-- INVALID, UNCHECKED, DEGRADED and STALE, at their places in the VALIDITY byte (R12). -/
def fInvalid : Nat := 2
def fUnchecked : Nat := 4
def fDegraded : Nat := 8
def fStale : Nat := 16

/-- R14: what an input's VALIDITY byte contributes, bits [4:1]. -/
def flagBits (v : Nat) : Nat := v &&& 0x1E

/-- R13, R14: the VALIDITY byte of an output whose flags are `f`: VALID is 1 exactly when bits [4:1] are 0. -/
def validity (f : Nat) : Nat := if flagBits f = 0 then 1 else flagBits f

/-- R90: DEGRADED is set exactly when any of STATUS bits [10:0] is 1. -/
def degraded (status : Nat) : Bool := decide (bits status 10 0 ≠ 0)

end Sys2Proof.Machine
end

