-- ==== Sys2Proof/Machine/State.lean ====
section
/-! DEFINITION. The state of the block as plain data, why a command may stop, and the state right after reset.

Registers that software reads and writes stand in `regs`, one 32-bit word under `offset + 2^24 × index`, where
`offset` is the register's place in the MMIO region (R26) and `index` the object a selector shows (a sluice, a
stream, a wheel) or 0; the map of what each register is, with its reset value and rights, is `Machine/Regs.lean`.
Everything else the manual gives the device stands in the block structures below. -/

namespace Sys2Proof.Machine

/-- Why the block stops with a fault. -/
inductive Fault where
  /-- Raised by any command whose operand cannot occur: it names an object the device does not have (port 16, core 64,
  lane 16), or carries a field of another length than its format has.
  Safe: the outside world cannot send such a command. -/
  | noSuchObject
  deriving DecidableEq, Repr

/-- Why the block refuses a command. -/
inductive Refusal where
  /-- Raised by a dispatch arm whose command has no meaning yet.  Safe: nothing is claimed about it. -/
  | notModelled (mnemonic : String)
  deriving DecidableEq, Repr

/-! ### Frame-graph sequencer (R42 to R75) -/

/-- A node-table entry (R47). -/
structure Node where
  cls : Nat
  prio : Nat
  ordered : Bool
  group : Nat
  serial : Bool
  coreSet : Nat
  stripes : Nat
  gang : Nat
  height : Nat
  depInit : Nat
  outFirst : Nat
  outCount : Nat
  w0Kind : Nat
  w0Obj : Nat
  w0Val : Nat
  w1Kind : Nat
  w1Obj : Nat
  w1Val : Nat
  work : Nat
  workCount : Nat
  sluice : Nat
  sluiceEn : Bool
  early : Nat
  late : Nat
  /-- GEN, the entry's generation tag the device writes at load (R38, R47) -/
  gen : Nat
  deriving DecidableEq, Repr

/-- An edge-table entry (R49). -/
structure Edge where
  dst : Nat
  kind : Nat
  prev : Bool
  halo : Nat
  deriving DecidableEq, Repr

/-- Where one task of an instance stands. -/
inductive Phase where
  | waiting | ready | running | held | done
  deriving DecidableEq, Repr

/-- One stripe of one node of an instance: its dependence counter (R56), its external waits still to be satisfied
(R59) and where its task stands. -/
structure Cell where
  dep : Nat
  w0 : Bool
  w1 : Bool
  phase : Phase
  /-- bits [4:1] its completed task carried (R14, R153) -/
  flags : Nat
  deriving DecidableEq, Repr

/-- One node of an instance. -/
structure NodeSt where
  cells : List Cell
  /-- handles delivered by its HANDLE waits -/
  handles : List Nat
  /-- its tasks carry PREV_ABSENT (R58) -/
  prevAbsent : Bool
  /-- bits [4:1] of the VALIDITY of its outputs so far (R14) -/
  flags : Nat
  /-- tasks stamped complete, whether or not they are released (R432) -/
  stamped : Nat
  /-- latest completion stamp -/
  lastStamp : Nat
  /-- its sluice has given a verdict (R426) -/
  verdict : Bool
  /-- a stripe of it failed its dispatch check (R154) -/
  failed : Bool
  deriving DecidableEq, Repr

/-- A JOB_SUBMIT that waits for its trigger's outcome (R390). -/
structure Job where
  /-- the waiting source: 16f + l for a lane, 512 + session, 600 for the service list -/
  src : Nat
  fn : Nat
  tag : Nat
  jobId : Nat
  key : Option Nat
  deriving DecidableEq, Repr

/-- A trigger that fired (R51, R55). -/
structure Trig where
  time : Nat
  /-- triggering stream, or 255 -/
  stream : Nat
  /-- serial of the frame that fired it, 0 for none -/
  serial : Nat
  frameNo : Nat
  handle : Option Nat
  job : Option Job
  /-- the trigger before it was skipped (R58) -/
  skipped : Bool := false
  deriving DecidableEq, Repr

/-- State of an instance slot (R52). -/
inductive SlotSt where
  | free | running | draining
  deriving DecidableEq, Repr

/-- An instance slot with the instance it holds. -/
structure Inst where
  st : SlotSt
  slotTag : Nat
  nodeTag : Nat
  seq : Nat
  trig : Nat
  frameTime : Nat
  stale : Bool
  stream : Nat
  frameNo : Nat
  /-- serial of the frame that fired it (R509), 0 for none -/
  serial : Nat
  handle : Option Nat
  jobId : Nat
  key : Option Nat
  nodes : List NodeSt
  /-- indices of PREV edges not yet satisfied (R58) -/
  prevPend : List Nat
  /-- device time of its start (R60) -/
  started : Nat
  /-- order of starting among all instances (R60) -/
  order : Nat
  lastStamp : Nat
  /-- run-time prediction mark of R459 -/
  predicted : Bool
  deriving DecidableEq, Repr

/-- What is kept of an instance that has ended (R58): its sequence number, which nodes completed, and their flags. -/
structure Ended where
  seq : Nat
  nodesDone : List Bool
  flags : List Nat
  deriving DecidableEq, Repr

/-- A loaded graph template (R43, R45). -/
structure Tmpl where
  tenant : Nat
  trigKind : Nat
  policy : Nat
  trigObj : Nat
  param0 : Nat
  param1 : Nat
  prewakeLead : Nat
  coreSets : List Nat
  nodes : List Node
  edges : List Edge
  nodeBase : Nat
  edgeBase : Nat
  armed : Bool
  /-- COUNTER threshold (R51) -/
  threshold : Nat
  /-- next exact TIMER firing time -/
  nextFire : Nat
  nextSeq : Nat
  pending : List Trig
  /-- a trigger has been skipped since the last that was taken (R58) -/
  skipped : Bool
  /-- the next sequence number is the first since numbering restarted -/
  fresh : Bool
  slots : List Inst
  ended : List Ended
  /-- PUB_SEQ of each PUBLISH node (R364) -/
  pubSeq : Tab Nat
  /-- unload once every slot is FREE (R353) -/
  doomed : Bool
  /-- predicted time already served by a pre-wake (R459) -/
  prewoken : Nat
  deriving DecidableEq, Repr

/-- What the header-only record of an aborted instance's PUBLISH node carries (R68): the node's entry is kept with it, and
the PUB_SEQ it has when its template has been unloaded since. -/
structure Orphan where
  flags : Nat
  frameTime : Nat
  stream : Nat
  serial : Nat
  frameNo : Nat
  node : Node
  unloaded : Option Nat
  deriving DecidableEq, Repr

/-- A task on a ready list (R61). -/
structure Task where
  tmpl : Nat
  slot : Nat
  seq : Nat
  node : Nat
  stripe : Nat
  tag : Nat
  cls : Nat
  prio : Nat
  tenant : Nat
  since : Nat
  /-- the engine its descriptor names (R304, R365) -/
  obj : Nat
  orphan : Option Orphan
  deriving DecidableEq, Repr

/-- An entry of the track table that is not FREE (R211). -/
structure Track where
  id : Nat
  /-- 1 TENTATIVE, 2 CONFIRMED, 3 LOST -/
  state : Nat
  misses : Nat
  age : Nat
  /-- last position, u16.16 -/
  x : Nat
  y : Nat
  /-- velocity in 1/16 pixel per frame -/
  vx : Int
  vy : Int
  /-- Harris score at spawn, FP32 -/
  score : Nat
  slot : Nat
  dvalid : Bool
  dkind : Nat
  frame : Nat
  deriving DecidableEq, Repr

/-- A push a task still has to make (R124, R321). -/
structure Push where
  mrq : Nat
  handle : Nat
  tmpl : Nat
  slot : Nat
  seq : Nat
  tag : Nat
  prio : Nat
  requester : Nat
  deriving DecidableEq, Repr

/-- A region mapped by REGION_MAP (R390). -/
structure Region where
  pcie : Nat
  size4k : Nat
  dev : Nat
  deriving DecidableEq, Repr

/-- A dispatched task on its engine. -/
structure Run where
  task : Task
  eng : Nat
  gang : List Nat
  start : Nat
  /-- run time in ARCLK cycles, as the chapter's figures give it -/
  cycles : Nat
  /-- bits [4:1] its outputs carry so far -/
  flags : Nat
  /-- the work is done but for what a stall holds back -/
  worked : Bool
  stalled : Bool
  cancelled : Bool
  /-- the record of a PUBLISH task is committed (R68) -/
  committed : Bool
  /-- next TOD of an NCORE task, or next line of a transfer -/
  pos : Nat
  pushes : List Push
  refetch : Nat
  hbmRetry : Nat
  /-- HBM reads being retried: address, retries issued, time of the first failure (R40) -/
  retries : List (Nat × Nat × Nat)
  /-- addresses whose one re-fetch is under way (R316) -/
  refetched : List Nat
  /-- slots a stream pass has used of its next piece (R313), the partition a TRACK task holds, 1 where a frame's last
  stripe waits for the frame to close -/
  aux : Nat
  /-- what the task took from its descriptor when it was dispatched -/
  info : List Nat
  /-- releases it makes when it completes: wheel, lines of a stripe, lines kept; with 0 lines of a stripe the RELEASE
  value itself (R107, R143, R296) -/
  releases : List (Nat × Nat × Nat)
  /-- changes of a track partition that take effect at its completion (R213) -/
  commit : List (Nat × Option Track)
  /-- the streams its instance was triggered by or waits on, with the address of the frame's metadata record (R91) -/
  records : List (Nat × Nat)
  /-- bytes its members wrote since the last gang barrier, with the rank plus 1 that wrote each (R250) -/
  unsynced : Tab Nat
  /-- the region that a host read of a pass is in flight to, when it has been unmapped since (R389) -/
  lent : Option (Nat × Region)
  deriving DecidableEq, Repr

/-- A completion stamped but not yet released (R432). -/
structure Held where
  run : Run
  stamp : Nat
  /-- check interval the completion belongs to -/
  iv : Nat
  /-- engines whose golden run of the interval has not passed -/
  wait : List Nat
  deriving DecidableEq, Repr

/-- The verdicts of one sluice (R426, R73). -/
structure Sluice where
  bound : Option (Nat × Nat)
  faults : List Nat
  lastPass : Option Nat
  lastTime : Nat
  deriving DecidableEq, Repr

/-- The sequencer. -/
structure Seq where
  tmpls : Tab (Option Tmpl)
  ready : List Task
  runs : List Run
  held : List Held
  pushes : List Push
  sluices : Tab Sluice
  /-- rotating pointers of R36, one per arbiter -/
  ptrs : Tab Nat
  /-- consecutive slots each stream context has had a request ready without a grant, up to 63 (R313) -/
  slotWait : Tab Nat
  /-- dispatched or retired ORDERED tasks are found by what is still to come; the next instance order -/
  order : Nat
  /-- engine time used in the share window, keyed tenant × 16 + class (R65) -/
  share : Tab Nat
  /-- engine time used in the share window, per engine (R74) -/
  busy : Tab Nat
  windowStart : Nat
  /-- current generation tag of a node-table entry, keyed by its place in the table (R38) -/
  entryTags : Tab Nat
  /-- instances still to be aborted: template, slot, flags, reason-log already made -/
  toAbort : List (Nat × Nat × Nat)
  /-- the starvation guard holds for the head of this priority's NCORE list (R63) -/
  guard : List Nat
  /-- no further dispatch (R425, cause 0x03) -/
  halted : Bool
  /-- node-table entries that hold an uncorrectable error which no instance has read yet, and failing ones (R469) -/
  nodeUpsets : List Nat
  nodeBad : List Nat
  deriving DecidableEq, Repr

/-! ### Command protocol (R378 to R395) -/

/-- What a waiting command waits for (R385). -/
inductive WaitFor where
  | job (tmpl : Nat)
  | windowClosed (win : Nat)
  | slotsFree (tmpl : Nat)
  | slotFree (tmpl slot seq : Nat)
  | streamStopped (stream : Nat)
  /-- no request to a function's region remains in flight (R389) -/
  | regionFree (fn region : Nat)
  /-- a QUEUE_PUSH that has not won the arbitration of its millrace (R321): millrace, handle, tenant -/
  | pushTurn (mrq handle tenant : Nat)
  deriving DecidableEq, Repr

/-- A command that holds its source until its condition is met. -/
structure Waiter where
  what : WaitFor
  /-- header word 0 and TAG of the packet -/
  head : Nat
  tag : Nat
  applied : Nat
  r0 : Nat
  deriving DecidableEq, Repr

/-- A command lane (R378 to R380, R395). -/
structure Lane where
  staging : Tab Word
  queue : List (List Word)
  credits : Nat
  replies : Nat
  /-- TAG of the first discarded packet and the count -/
  viol : Option (Nat × Nat)
  unannounced : Nat
  modStart : Option Nat
  ringLo : Word
  ringHi : Word
  cfg : Word
  moder : Word
  cons : Nat
  noring : Nat
  deriving DecidableEq, Repr

/-- A PCIe function. -/
structure Fn where
  negotiated : Option Nat
  regions : Tab (Option Region)
  /-- a function reset is in progress (R353) -/
  resetting : Bool
  maxPayload : Nat
  maxRead : Nat
  /-- MSI-X Enable and Function Mask of the function's MSI-X capability (R361) -/
  msixEn : Bool
  msixMask : Bool
  deriving DecidableEq, Repr

/-- A PCIe port (R351, R354). -/
structure Port where
  up : Bool
  speed : Nat
  width : Nat
  ptmEn : Bool
  ptmLast : Nat
  ptmOut : Bool
  /-- DOE mailbox: response not yet replaced or aborted, and the device time until which it is busy -/
  doeResp : List Byte
  doeFree : Nat
  deriving DecidableEq, Repr

/-- A log entry (R392). -/
structure LogEntry where
  code : Nat
  tenant : Nat
  seq : Nat
  time : Nat
  engine : Nat
  d0 : Nat
  d1 : Nat
  d2 : Nat
  /-- retry counts of lower levels (R41): HBM read retries, and from bit 8 on re-fetches -/
  retry : Nat
  deriving DecidableEq, Repr

/-! ### Windows, millraces, streams (R303 to R330) -/

/-- State of a remote window (R325). -/
inductive WinSt where
  | closed | opened | draining
  deriving DecidableEq, Repr

/-- An accepted window write that has not landed: who sent it, and the device time of its acceptance (R329). -/
structure WinWrite where
  req : Nat
  stamp : Nat
  dev : Nat
  data : List Byte
  deriving DecidableEq, Repr

/-- A remote window (R325 to R330). -/
structure Window where
  st : WinSt
  hbm : Bool
  readEn : Bool
  arrEn : Bool
  anyReq : Bool
  reqs : List Nat
  aperture : Nat
  size : Nat
  base : Nat
  counter : Nat
  flight : List WinWrite
  openPoint : Nat
  closePoint : Nat
  /-- it has held its aperture range since it was last opened -/
  ranged : Bool
  /-- order of opening among the function's windows (R329) -/
  openSeq : Nat
  /-- requesters that wrote late since the close: count, sequence number of the log entry -/
  late : Tab (Nat × Nat)
  revoked : Bool
  deriving DecidableEq, Repr

/-! ### Scratchpad (R274 to R302) -/

/-- A wheel's counters and origins (R293 to R297). -/
structure Wheel where
  /-- producing and consuming node: 2^20 × template + node, once they have accessed it -/
  pNode : Option Nat
  cNode : Option Nat
  tail : Nat
  release : Nat
  /-- values above TAIL whose places are written -/
  written : List Nat
  /-- current and previous origin of the producer, with the frame it names -/
  pOrg : Nat
  pFrame : Nat
  pPrev : Nat
  pPrevFrame : Option Nat
  /-- current and previous origin of the consumer -/
  cOrg : Nat
  cFrame : Nat
  cPrev : Nat
  cPrevFrame : Option Nat
  pUsed : Bool
  cUsed : Bool
  /-- image height of the frames -/
  height : Nat
  /-- values still to be poisoned (R297), frame by frame: first, end -/
  fill : List (Nat × Nat)
  deriving DecidableEq, Repr

/-- A line of a slice's cache (R288): the HBM line it holds, its way in the set, the bytes written since it was filled as
a mask, and its contents. -/
structure CacheLine where
  line : Nat
  way : Nat
  dirt : Nat
  data : List Byte
  deriving DecidableEq, Repr

/-- The scratchpad's state beside its contents. -/
structure Spd where
  /-- poisoned rows: first row, row after the last, reason code (R283) -/
  poison : List (Nat × Nat × Nat)
  /-- banks cleared in BANK_ON whose power-down is not finished, key 16 × slice + bank -/
  goingDown : List Nat
  goingUp : List Nat
  /-- banks without power -/
  off : List Nat
  /-- cache configuration in force per slice: banks -/
  cacheBanks : Tab Nat
  /-- cache change or invalidation awaiting the core's next task boundary -/
  cachePend : List Nat
  /-- cached HBM lines per slice, most recently used first -/
  cacheLines : Tab (List CacheLine)
  /-- HBM lines that hold an uncorrectable check pattern (R290) -/
  hbmBad : List Nat
  wheels : Tab (Option Wheel)
  /-- arrival counters, key 256 × core + counter, V-cores from core 64 -/
  arr : Tab Nat
  /-- scrub position per bank group, key 4 × slice + group; passes completed -/
  scrubAt : Tab Nat
  scrubPasses : Tab Nat
  /-- time of the last scrub read per bank group -/
  scrubTime : Tab Nat
  /-- word with a corrected error seen on the last pass, plus 1, per row -/
  ceWord : Tab Nat
  writeback : List Nat
  /-- errors in the stored rows that no read or scrub has found yet (R282) -/
  upsets : Tab RowError
  /-- a repair copy under way per slice: the row -/
  copying : Tab (Option Nat)
  /-- latest access per slice, for slice idle -/
  lastUse : Tab Nat
  deriving DecidableEq, Repr

/-! ### Camera ports and sensor control (R76 to R102) -/

/-- A frame of a stream (R83, R91). -/
structure Frame where
  serial : Nat
  index : Nat
  fs : Nat
  fn : Nat
  close : Option Nat
  status : Nat
  /-- lines received or delivered, pad lines included -/
  lines : Nat
  received : Nat
  padded : Nat
  crc : Nat
  overrun : Nat
  eccCorr : Nat
  hdrDrop : Nat
  /-- epochs of the final record -/
  eff : Nat
  req : Nat
  /-- number of the last line placed, and of the line-start packet awaiting its line -/
  lastNum : Nat
  nextNum : Option Nat
  /-- embedded data so far; counter, exposure and gain it reported -/
  emb : List Byte
  /-- it arrived before the first pixel line (R100) -/
  embFirst : Bool
  embFc : Option Nat
  embExp : Option Nat
  embGain : Option Nat
  /-- a write of the frame faulted and was logged (R91) -/
  faulted : Bool
  lastLine : List Byte
  /-- transmit ports that forwarded the stream when the frame started, and the lines kept for them (R102) -/
  fwdTo : List Nat
  fwd : List (List Byte)
  deriving DecidableEq, Repr

/-- A line in the input buffer that has not landed; a pad line takes no room (R89, R107). -/
structure BufLine where
  serial : Nat
  line : Nat
  pad : Bool
  data : List Byte
  deriving DecidableEq, Repr

/-- A settings set (R95). -/
structure SetRec where
  epoch : Nat
  entries : List (Nat × Nat)
  deriving DecidableEq, Repr

/-- A set completely written (R97, R99). -/
structure Written where
  epoch : Nat
  /-- completion stamp, and the frame index it counts from once a frame has started after it -/
  stamp : Nat
  n : Option Nat
  exp : Option Nat
  gain : Option Nat
  deriving DecidableEq, Repr

/-- A stream slot (R80 to R100). -/
structure Stream where
  desc : List Nat
  tenant : Nat
  started : Bool
  opened : Bool
  stopping : Bool
  frames : List Frame
  serial : Nat
  index : Nat
  corr : Int
  prevFs : Option Nat
  lossRaised : Bool
  lastPkt : Nat
  /-- last frame whose counter arrived: counter, index -/
  counterAt : Option (Nat × Nat)
  /-- it opened with a bound landing wheel (R106) -/
  landed : Bool
  /-- times at which the slot's streams stopped, latest first (R509) -/
  stops : List Nat
  /-- lines in the input buffer not yet landed -/
  buf : List BufLine
  /-- next row of a non-pixel ring -/
  ringRow : Nat
  lastEpoch : Option Nat
  reqEpoch : Nat
  lastEff : Nat
  pend : Option SetRec
  writing : Option SetRec
  /-- entry under way, attempts made of it, any data byte acknowledged in this window -/
  entry : Nat
  attempts : Nat
  acked : Bool
  /-- a transfer is under way, since when -/
  busy : Option Nat
  /-- a cancelled transfer whose end is awaited: when it was cancelled, when it began (R98) -/
  ending : Option (Nat × Nat)
  /-- the set in the writing place is being written, in its window or at once before the stream opens -/
  active : Bool
  /-- the open write window -/
  window : Option (Nat × Nat)
  /-- windows still to open: opening and closing instant -/
  windows : List (Nat × Nat)
  failures : Nat
  /-- the profile in force for the stream, and the one under which the set in the writing place is being written (R511) -/
  wprofile : List Nat
  sprofile : List Nat
  written : List Written
  initialEpoch : Nat
  /-- stamp of a partial write not yet followed by a frame start; ranges of frame indices that are flagged -/
  partialAt : Option Nat
  partials : List (Nat × Option Nat)
  deriving DecidableEq, Repr

/-- A frame-sync output (R101). -/
structure Fso where
  asserted : Bool
  since : Nat
  /-- assertions due of a slaved output -/
  due : List Nat
  /-- latest periodic assertion served, in units of 4 ns, plus 1 -/
  lastDue : Nat
  /-- CTRL, PERIOD and PHASE in force; the registers' values take effect at the next deasserted instant -/
  ctrl : Nat
  period : Nat
  phase : Nat
  deriving DecidableEq, Repr

/-- A transmit port, CAM14 or CAM15 (R102). -/
structure Tx where
  mode : Nat
  contClk : Bool
  source : Nat
  vc : Nat
  rate : Nat
  deriving DecidableEq, Repr

/-- A CSI-2 frame under way (R102, R371): virtual channel, data type, bytes per line, the header line as committed and
as an abort leaves it, the lines' bytes. -/
structure TxFrame where
  vc : Nat
  dt : Nat
  line : Nat
  head : List Byte
  cut : List Byte
  pay : List Byte
  deriving DecidableEq, Repr

/-- The camera port block. -/
structure Cam where
  streams : Tab (Option Stream)
  profiles : Tab (Option (Nat × List Nat))
  fso : Tab Fso
  fsiLast : Tab Nat
  fsiEdge : Tab (Option Nat)
  tx : Tab Tx
  txFrame : Tab (Option TxFrame)
  /-- sensor buses initialised as I3C (bit 0), and the static addresses given a dynamic one on each (R93) -/
  busInit : Tab Bool
  dynamic : Tab (List Nat)
  lastTraffic : Tab Nat
  deriving DecidableEq, Repr

/-! ### Ethernet and publication (R364 to R373) -/

/-- A frame ahead of the transmit queues (R369): its bytes, or an 802.1AS message that carries times (R373): a delay
request, the answer to a peer's and its follow-up. -/
inductive Ahead where
  | bytes (l : List Byte)
  | delayReq
  | delayResp (peer : List Byte) (received : Int)
  | delayFollow (peer : List Byte) (sent : Int)
  deriving DecidableEq, Repr

/-- A MAC (R368 to R373). -/
structure Mac where
  /-- datagrams queued per priority, and those ahead of all queues -/
  queues : Tab (List (List Byte))
  ahead : List Ahead
  sending : Option (List Byte)
  link : Bool
  asCapable : Bool
  /-- 802.1AS (R373): delay requests sent, when the one not yet answered went out, and the measured link delay, in ns -/
  asSeq : Nat
  asSent : Option Int
  linkDelay : Option Int
  arpTimes : List Nat
  ndTimes : List Nat
  echoTimes : List Nat
  deriving DecidableEq, Repr

/-! ### Safety (R425 to R453) -/

/-- What the Safety Island keeps of one checked engine. -/
structure EngSaf where
  /-- the interval's golden run waits for the engine -/
  pending : Bool
  /-- interval of the run under way, and its kind: 0 golden run, 1 repeat after a disagreement, 2 repeat after a
  range check -/
  running : Option Nat
  runKind : Nat
  /-- a repeat waits: its kind as above, 0 for none, and its interval -/
  again : Nat
  againInt : Nat
  /-- the golden run of this interval has passed -/
  passed : Bool
  /-- outputs of this interval carry INVALID (R435) -/
  bad : Option Nat
  /-- elements outside tolerance of the last run that disagreed -/
  elems : Nat
  /-- SAF_ENG_STAT.LAST -/
  last : Nat
  /-- intervals of the transients -/
  transients : List Nat
  /-- consecutive intervals that ended UNCHECKED -/
  streak : Nat
  fenced : Bool
  firstDone : Bool
  deriving DecidableEq, Repr

/-- The Safety Island. -/
structure Saf where
  safe : Bool
  ready : Bool
  cause : Nat
  causeEng : Nat
  causeTime : Nat
  later : Nat
  safeN : Bool
  hb : Bool
  selfTested : Bool
  selfFailed : Bool
  intervals : Nat
  intStart : Nat
  intLen : Nat
  intEnd : Nat
  transientCount : Nat
  sslTransient : Bool
  sslFrames : Nat
  sslSel : Nat
  sslErr : Bool
  recSeq : Nat
  recSends : Nat
  lastRec : Nat
  engs : Tab EngSaf
  /-- an interval that lies in SLEEP so far (R458) -/
  slept : Bool
  deriving DecidableEq, Repr

/-! ### Security (R396 to R424) -/

/-- A key slot (R404). -/
structure KeySlot where
  kind : Nat
  tenant : Nat
  sess : Nat
  jobId : Nat
  nonce : Nat
  /-- the key: of a session in HANDSHAKE its decapsulation key, of an OPEN one its export master secret (R402, R406) -/
  key : List Byte
  deriving DecidableEq, Repr

/-- A host session (R402, R403). -/
structure Sess where
  fn : Nat
  open_ : Bool
  since : Nat
  slot : Nat
  /-- its SPDM transcript so far -/
  said : List Byte
  deriving DecidableEq, Repr

/-- A management session (R375, R416). -/
structure MSess where
  link : Nat
  /-- 0 hand-shaking, 1 mutual authentication requested, 2 signature delivered, 3 open -/
  stage : Nat
  owner : Bool
  key : Nat
  negotiated : Option Nat
  since : Nat
  /-- its decapsulation key until FINISH, then its export master secret (R402) -/
  secret : List Byte
  /-- its SPDM transcript so far -/
  said : List Byte
  /-- the requester's key as it was when the session opened (R414, R416), and the encapsulated CHALLENGE sent -/
  owned : List Byte
  asked : List Byte
  /-- its CCP packets that wait their turn, oldest first (R385, R388) -/
  packets : List (List Word)
  deriving DecidableEq, Repr

/-- An SPDM connection (R398). -/
structure Conn where
  /-- how the last request came -/
  via : MctpVia
  version : Bool
  caps : Bool
  algs : Bool
  /-- the messages that its signatures cover: of the negotiation, of certificates, of measurements not yet signed -/
  said : List Byte
  certs : List Byte
  meas : List Byte
  deriving DecidableEq, Repr

/-- The security engine. -/
structure Sec where
  pending : Bool
  epoch : Nat
  epochTime : Nat
  hostOwner : Bool
  errCode : Nat
  errTenant : Nat
  errWord : Nat
  shadow : Tab Word
  table : Tab Word
  slots : Tab (Option KeySlot)
  sessions : Tab (Option Sess)
  nextSess : Nat
  msessions : Tab (Option MSess)
  conns : Tab Conn
  staging : Tab Byte
  /-- credential block in force, none when locked or unclaimed -/
  cred : Option (List Byte)
  credResult : Nat
  locked : Bool
  deriving DecidableEq, Repr

/-- The layered identity of R396: the lock on the two sources, the compound secrets and private keys held, what each
layer measured, and the public keys and fused security version that the alias certificates name, and these. -/
structure Dice where
  locked : Bool
  uds : Option (List Byte)
  deviceKey : Option (List Byte)
  cdi1 : Option (List Byte)
  alias1 : Option (List Byte)
  cdi2 : Option (List Byte)
  /-- the L2 alias private key: identity key slot 0 (R404) -/
  slot0 : Option (List Byte)
  m1 : List Byte
  m2 : List Byte
  pub1 : List Byte
  pub2 : List Byte
  svn : Nat
  /-- the certificates of the two alias keys (R397) -/
  cert1 : List Byte
  cert2 : List Byte
  /-- identity key slots 1 to 15: device firmware keys (R404) -/
  fwKeys : List (List Byte)
  deriving DecidableEq, Repr

/-! ### Power, boot and the always-on domain (R454 to R505) -/

/-- Power state of the device while it has power (R455). -/
inductive PwrSt where
  | run | sleep | waking
  deriving DecidableEq, Repr

/-- An access that arrived in SLEEP and completes in RUN (R457). -/
structure Deferred where
  rq : Nat
  off : Nat
  wr : Option Word
  deriving DecidableEq, Repr

/-- The power and clock controller. -/
structure Pwr where
  st : PwrSt
  env : Nat
  envTarget : Nat
  /-- 0 idle, 1 voltage rising, 2 frequency switching -/
  change : Nat
  volt : Nat
  thermal : Nat
  sag : Bool
  lastDown : Nat
  lastUp : Nat
  power : List Nat
  duty : Nat
  /-- last reading of each tile, and the readings of the last second: time, tile, value -/
  temps : List Int
  tempLog : List (Nat × Nat × Int)
  tripAt : Option Nat
  thermtrip : Bool
  idleSince : Option Nat
  waiting : List Deferred
  /-- engines in IDLE, with the time it began plus 1; units in NAP; engines waking -/
  idle : Tab Nat
  nap : List Nat
  waking : List Nat
  /-- units covered by a pre-wake, with the predicted time -/
  prewoken : Tab Nat
  /-- time since which each engine has had no task -/
  engIdle : Tab Nat
  ceCount : Tab Nat
  ceWindow : Nat
  /-- N-cores whose spare tensor engine waits for the next GRAPH_ARM, and for the core's task boundary after it -/
  teWait : List Nat
  teArmed : List Nat
  pmbusFails : Nat
  pmbusBusy : Bool
  /-- offset still to be slewed away, its fraction in units of 2000 steps, and since when |offset| ≤ 1 µs (R28) -/
  slewLeft : Int
  slewStep : Nat
  lockSince : Option Nat
  deriving DecidableEq, Repr

/-- A firmware image in flash (R476): the header fields the boot uses, and the image's bytes; none of the image that
the part leaves the factory with, which are not given. -/
structure Image where
  svn : Nat
  cfgFmt : Nat
  bytes : List Byte
  deriving DecidableEq, Repr

/-- A configuration block in flash (R476, R477). -/
structure CfgBlock where
  ver : Nat
  fmt : Nat
  derived : Bool
  bytes : List Byte
  deriving DecidableEq, Repr

/-- A copy of the update state record (R482); its CRC is computed. -/
structure UpdRec where
  seq : Nat
  state : Nat
  /-- install phase: 0 none, 1 copy to keep, 2 write to active -/
  phase : Nat
  boots : Nat
  seconds : Nat
  deriving DecidableEq, Repr

/-- Fuses and flash, which every reset keeps (R455, R474 to R487). -/
structure Nv where
  svnFuses : Nat
  credFuses : Nat
  spareNcore : Nat
  spareVcore : Nat
  spareIcore : Nat
  spareTe : List Nat
  spareNode : Nat
  /-- retired node-table entries (R469) -/
  nodeRetired : List Nat
  /-- units fenced whose spare is brought in at the next boot, and those without a spare: engine references -/
  fenced : List Nat
  lost : List Nat
  /-- how often a spare has taken a core's index: N-cores 0 to 63, V-cores 64 to 67 (R275, R468) -/
  substituted : Tab Nat
  /-- rows queued for repair, with the reason; spare rows in use and retired rows -/
  rowQueue : List (Nat × Nat)
  rowSpares : Tab Nat
  rowRetired : List Nat
  /-- the row each spare row in use stands for, key 128 × group + spare, when field repair put it there -/
  rowSubs : Tab (Option Nat)
  repairLog : List (List Nat)
  hbmRepaired : Nat
  hbmRetired : List Nat
  hbmQueued : List Nat
  creds : List (List Byte)
  updState : Nat
  bootsLeft : Nat
  runSeconds : Nat
  /-- the two copies of the update state record -/
  rec0 : UpdRec
  rec1 : UpdRec
  active : Option Image
  keep : Option Image
  staging : Tab Byte
  stagedBlocks : List Nat
  /-- the verified image that waits in staging -/
  staged : Option Image
  cfg0 : Option CfgBlock
  cfg1 : Option CfgBlock
  pkg0 : Tab Byte
  pkg1 : Tab Byte
  pkgNext : Nat
  pkgErased : List Nat
  loaderOk : Bool
  /-- the DeviceID certificate of the identity partition (R397, R475); none as manufactured -/
  identity : Option (List Byte)
  deriving DecidableEq, Repr

/-- The boot process. -/
structure Boot where
  phase : Nat
  keepBoot : Bool
  cfgArea : Nat
  readyMs : Nat
  runningSvn : Nat
  keepSvn : Nat
  releasedAt : Nat
  pkgBusy : Nat
  pkgResult : Nat
  pkgDirty : Tab Bool
  /-- the service list: packets left, index, stopped -/
  service : List (List Word)
  serviceAt : Nat
  serviceStopped : Bool
  /-- the service has just stopped: its templates are still to be disarmed and unloaded (R377) -/
  serviceEnding : Bool
  trialStored : Nat
  configApplied : Bool
  /-- digest of the service package in force (R400) -/
  pkgDigest : Option (List Byte)
  deriving DecidableEq, Repr

/-! ### Engines -/

/-- What an image core keeps of a stream (R109 to R131). -/
structure IspCtx where
  stream : Nat
  /-- serial of the frame under way, 0 for none, and its index -/
  serial : Nat
  index : Nat
  /-- parameter slot, SEQ and EPOCH selected for the frame -/
  slot : Nat
  pseq : Nat
  epoch : Nat
  /-- lines of the frame read so far, as pixel codes, and the lines of stage 5 (pipe state) -/
  lines : List (List Nat)
  five : List (List Nat)
  /-- lines of the frame whose stripes ran, first and one past the last of each -/
  ran : List (Nat × Nat)
  /-- index of the last frame whose stripes all wrote history; stripes of this one that did -/
  lastHist : Option Nat
  hist : Nat
  /-- the frame uses the flow plane; it restarted the history -/
  flow : Bool
  reset : Bool
  /-- VALIDITY of the outputs so far, an OR over the stripes -/
  valid : List Nat
  /-- address of the selected parameter block -/
  block : Nat
  /-- first row of the saved state, once a stripe has run -/
  sra : Option Nat
  deriving DecidableEq, Repr

/-- Frame multiplexing (R131): the stream and the node whose frame holds a core. -/
structure IspLock where
  stream : Nat
  tmpl : Nat
  slot : Nat
  seq : Nat
  node : Nat
  deriving DecidableEq, Repr

/-- A parameter bank of an image core: stream, slot and SEQ, and the words of the block (R113, R128). -/
structure IspBank where
  stream : Nat
  slot : Nat
  pseq : Nat
  words : List Nat
  deriving DecidableEq, Repr

/-- State an engine carries from stripe to stripe in its context rows (R149, R166, R193): the task that left it, and its
contents, whose layout in the rows is internal. -/
structure EngCtx where
  tmpl : Nat
  slot : Nat
  seq : Nat
  node : Nat
  stripe : Nat
  rows : List (List Int)
  deriving DecidableEq, Repr

/-- The accumulators a tenant holds on an N-core (R268, R269): the task that held them, the layout of the TOD that did,
and one 32-bit accumulator per output element of the core's share, keyed by row-major index. -/
structure Acc where
  tmpl : Nat
  slot : Nat
  seq : Nat
  node : Nat
  stripe : Nat
  /-- held by the last TOD of its task -/
  final : Bool
  shape : List Nat
  split : Nat
  gang : Nat
  vals : Tab Nat
  /-- HOLD_ROW -/
  row : Nat
  /-- saved to those rows, with the draw of their open layout -/
  saved : Option Nat
  deriving DecidableEq, Repr

/-- Results and messages the block sends out, oldest first. -/
inductive Out where
  /-- data returned for a register read -/
  | data (rq : Nat) (v : Word)
  /-- a PCIe completion: 0 success, 1 Unsupported Request, 4 Completer Abort -/
  | completion (fn status : Nat) (bytes : List Byte)
  /-- a management reply -/
  | mgmt (sess : Nat) (bytes : List Byte)
  /-- a frame handed to a MAC's PHY; 2 is the management link -/
  | frame (mac : Nat) (bytes : List Byte)
  /-- a packet sent by CAM14 or CAM15 -/
  | csi2 (tx vc dt : Nat) (bytes : List Byte)
  /-- a transfer started on a sensor bus: bus kind and, for I2C, the speed code (R94) -/
  | sensor (port bus speed addr : Nat) (bytes : List Byte)
  /-- DISEC: Hot-Join disabled on an I3C bus; SETDASA: a static address gets its dynamic address -/
  | disec (port : Nat)
  | setdasa (port static dynamic : Nat)
  /-- a word shifted out on the Safety Status Link -/
  | ssl (w : Word)
  /-- a level on FSYNC_OUTk -/
  | fsync (k : Nat) (level : Bool)
  | ptmRequest (port : Nat)
  /-- an MCTP packet on the I3C link -/
  | i3c (bytes : List Byte)
  /-- an SPDM response: link (0, 1 DOE; 2, 3 MCTP), response code, body -/
  | spdm (link code : Nat) (body : List Byte)
  | doe (port : Nat) (body : List Byte)
  /-- VOUT_COMMAND written to the core-rail regulator -/
  | pmbus (addr word : Nat)
  /-- a level on BOOT_RESET_N -/
  | bootReset (level : Bool)
  deriving DecidableEq, Repr

/-- The whole state of the block. -/
structure State where
  /-- commands waiting, first in first out -/
  pending : List Instr
  /-- device time in ns (R27) -/
  now : Nat
  powered : Bool
  /-- what holds everything outside the always-on domain in reset: bit 0 RESET_N low, bit 1 a supply below its reset
  threshold, bit 2 THERMTRIP_N -/
  held : Nat
  bifurcated : Bool
  /-- HBM and scratch, by device physical address (R24) -/
  mem : List Host.Cell
  /-- the memories behind the PCIe ports, by PCIe address -/
  host0 : List Host.Cell
  host1 : List Host.Cell
  regs : Tab Word
  /-- selectors and time shadows, one copy per requester: key 2^24 × requester + offset -/
  sel : Tab Word
  msix : Tab Word
  msixPend : List Nat
  seq : Seq
  /-- queued handles per millrace -/
  mrq : Tab (List Nat)
  /-- base rings, key 64 × context + entry -/
  ring : Tab (Option Nat)
  windows : Tab Window
  lanes : Tab Lane
  fns : Tab Fn
  ports : Tab Port
  waits : Tab (Option Waiter)
  log : List LogEntry
  logNext : Nat
  /-- tenants of the entries already overwritten, oldest first (R392) -/
  logGone : List Nat
  spd : Spd
  cam : Cam
  isp : Tab (Option IspCtx)
  /-- parameter banks, key 2 × core + bank -/
  ispBanks : Tab (Option IspBank)
  ispLock : Tab (Option IspLock)
  /-- failed stripes of a stream's frame: serial and the flags of the four outputs (R109, R125) -/
  ispLost : Tab (Nat × List Nat)
  /-- what the image cores had gathered of the last frames of a stopped stream, for their records (R126) -/
  ispKept : Tab (List IspCtx)
  /-- contexts of pyramid, stereo and flow nodes, by their first row -/
  ctxs : Tab (Option EngCtx)
  tracks : Tab (Option Track)
  /-- held accumulators, key 64 × core + tenant -/
  accs : Tab (Option Acc)
  macs : Tab Mac
  saf : Saf
  sec : Sec
  pwr : Pwr
  nv : Nv
  boot : Boot
  dice : Dice
  /-- availability masks of N-, V- and I-cores, and CAP_GEN (R358, R360) -/
  availN : Nat
  availV : Nat
  availI : Nat
  capGen : Nat
  out : List Out
  /-- the model's own counter: the free values of an open result are drawn at it -/
  free : Nat
  deriving DecidableEq, Repr


/-! ### Right after reset -/

/-- A lane before its ring is enabled (R379, R380, R395). -/
def laneReset : Lane where
  staging := []
  queue := []
  credits := 32
  replies := 0
  viol := none
  unannounced := 0
  modStart := none
  ringLo := 0
  ringHi := 0
  cfg := 0x0000000A
  moder := 0x00000001
  cons := 0
  noring := 0

/-- A function after reset: no version negotiated, no regions (R383, R390).  The payload and read-request sizes are
PCI Express configuration fields (R351, R315); PRESUMED at the values R327 asks the integrator to set.  DESIGN CHOICE (log
entry 208): system software has enabled MSI-X and masks no function. -/
def fnReset : Fn where
  negotiated := none
  regions := []
  resetting := false
  maxPayload := 512
  maxRead := 512
  msixEn := true
  msixMask := false

/-- A port after reset: link down (HOST_PORT_LINK). -/
def portReset : Port where
  up := false
  speed := 0
  width := 0
  ptmEn := false
  ptmLast := 0
  ptmOut := false
  doeResp := []
  doeFree := 0

/-- A window after reset: CLOSED (WIN_STAT). -/
def windowReset : Window where
  st := .closed
  hbm := false
  readEn := false
  arrEn := false
  anyReq := false
  reqs := []
  aperture := 0
  size := 0
  base := 0
  counter := 0
  flight := []
  openPoint := 0
  closePoint := 0
  ranged := false
  openSeq := 0
  late := []
  revoked := false

/-- A MAC after reset (ETH_MAC_CFG): link down, queues empty. -/
def macReset : Mac where
  queues := []
  ahead := []
  sending := none
  link := false
  asCapable := false
  asSeq := 0
  asSent := none
  linkDelay := none
  arpTimes := []
  ndTimes := []
  echoTimes := []

/-- A frame-sync output after reset: off, deasserted (CAM_FSO_CTRL). -/
def fsoReset : Fso where
  asserted := false
  since := 0
  due := []
  lastDue := 0
  ctrl := 0x01000000
  period := 0
  phase := 0

/-- A transmit port after reset: receive (CAM_PORT_CFG.TX). -/
def txReset : Tx where
  mode := 0
  contClk := false
  source := 0
  vc := 0
  rate := 4000

/-- A sluice after reset: not bound (SEQ_SLUICE_BIND). -/
def sluiceReset : Sluice where
  bound := none
  faults := []
  lastPass := none
  lastTime := 0

/-- A checked engine after reset: active, no golden run made yet (SAF_ENG_STAT). -/
def engReset : EngSaf where
  pending := false
  running := none
  runKind := 0
  again := 0
  againInt := 0
  passed := false
  bad := none
  elems := 0
  last := 0
  transients := []
  streak := 0
  fenced := false
  firstDone := false

/-- An SPDM connection before GET_VERSION. -/
def connReset : Conn := {
  via := { mac := [], ip := [], src := 0, dst := 0, type := 5, eid := 0, own := 0, tag := 0 }, version := false, caps := false, algs := false, said := [], certs := [], meas := [] }

/-- The sequencer after reset: nothing loaded (SEQ_NODE_FREE, SEQ_EDGE_FREE). -/
def seqReset : Seq where
  tmpls := []
  ready := []
  runs := []
  held := []
  pushes := []
  sluices := []
  ptrs := []
  slotWait := []
  order := 0
  share := []
  busy := []
  windowStart := 0
  entryTags := []
  toAbort := []
  guard := []
  halted := false
  nodeUpsets := []
  nodeBad := []

/-- The scratchpad after reset: every bank powered, no cache banks, no wheel enabled, counters 0. -/
def spdReset : Spd where
  poison := []
  goingDown := []
  goingUp := []
  off := []
  cacheBanks := []
  cachePend := []
  cacheLines := []
  hbmBad := []
  wheels := []
  arr := []
  scrubAt := []
  scrubPasses := []
  scrubTime := []
  ceWord := []
  writeback := []
  upsets := []
  copying := []
  lastUse := []

/-- The camera port block after reset: no stream started. -/
def camReset : Cam where
  streams := []
  profiles := []
  fso := []
  fsiLast := []
  fsiEdge := []
  tx := []
  txFrame := []
  busInit := []
  dynamic := []
  lastTraffic := []

/-- The Safety Island after reset: safe state, cause 0x0A (R438), SAFE_N low. -/
def safReset : Saf where
  safe := true
  ready := false
  cause := 0x0A
  causeEng := 0xFFFF
  causeTime := 0
  later := 0
  safeN := false
  hb := false
  selfTested := false
  selfFailed := false
  intervals := 0
  intStart := 0
  intLen := 33300000
  intEnd := 0
  transientCount := 0
  sslTransient := false
  sslFrames := 0
  sslSel := 0
  sslErr := false
  recSeq := 0
  recSends := 0
  lastRec := 0
  engs := []
  slept := false

/-- The security engine after reset: no session, epoch 0. -/
def secReset : Sec where
  pending := false
  epoch := 0
  epochTime := 0
  hostOwner := false
  errCode := 0
  errTenant := 0
  errWord := 0
  shadow := []
  table := []
  slots := []
  sessions := []
  nextSess := 1
  msessions := []
  conns := []
  staging := []
  cred := none
  credResult := 0
  locked := false

/-- The power controller after reset: envelope P2 (PWR_STAT.ENV), core rail at 0.75 V (R498), duty 1,000 permille. -/
def pwrReset : Pwr where
  st := .run
  env := 1
  envTarget := 1
  change := 0
  volt := 750
  thermal := 0
  sag := false
  lastDown := 0
  lastUp := 0
  power := []
  duty := 16
  temps := [-64, -64, -64, -64]
  tempLog := []
  tripAt := none
  thermtrip := false
  idleSince := none
  waiting := []
  idle := []
  nap := []
  waking := []
  prewoken := []
  engIdle := []
  ceCount := []
  ceWindow := 0
  teWait := []
  teArmed := []
  pmbusFails := 0
  pmbusBusy := false
  slewLeft := 0
  slewStep := 0
  lockSince := none

/-- Fuses and flash as the part leaves the factory: unclaimed, every spare unused, a firmware image of SVN 0 in the
active slot.  DESIGN CHOICE: the manual gives "Fused" and "From flash" as their resets. -/
def nvFactory : Nv where
  svnFuses := 0
  credFuses := 0
  spareNcore := 4
  spareVcore := 1
  spareIcore := 1
  spareTe := List.replicate 64 1
  spareNode := 3932
  nodeRetired := []
  fenced := []
  lost := []
  substituted := []
  rowQueue := []
  rowSpares := []
  rowRetired := []
  rowSubs := []
  repairLog := []
  hbmRepaired := 0
  hbmRetired := []
  hbmQueued := []
  creds := []
  updState := 0
  bootsLeft := 0
  runSeconds := 0
  rec0 := { seq := 0, state := 0, phase := 0, boots := 0, seconds := 0 }
  rec1 := { seq := 1, state := 0, phase := 0, boots := 0, seconds := 0 }
  active := some { svn := 0, cfgFmt := 1, bytes := [] }
  keep := none
  staging := []
  stagedBlocks := []
  staged := none
  cfg0 := none
  cfg1 := none
  pkg0 := []
  pkg1 := []
  pkgNext := 0
  pkgErased := []
  loaderOk := true
  identity := none

/-- The boot process at the ROM (BOOT_STAT.PHASE 0, KEEP_SVN 0xFF). -/
def bootReset : Boot where
  phase := 0
  keepBoot := false
  cfgArea := 0
  readyMs := 0
  runningSvn := 0
  keepSvn := 0xFF
  releasedAt := 0
  pkgBusy := 0
  pkgResult := 0
  pkgDirty := []
  service := []
  serviceAt := 0
  serviceStopped := false
  serviceEnding := false
  trialStored := 0
  configApplied := false
  pkgDigest := none

/-- No layer has run and the sources are open (R396). -/
def diceReset : Dice where
  locked := false
  uds := none
  deviceKey := none
  cdi1 := none
  alias1 := none
  cdi2 := none
  slot0 := none
  m1 := []
  m2 := []
  pub1 := []
  pub2 := []
  svn := 0
  cert1 := []
  cert2 := []
  fwKeys := []

/-- The block right after reset: every register at its reset value, device time 0, the ROM about to boot, the command
queue empty. -/
def State.reset : State where
  pending := []
  now := 0
  powered := true
  held := 0
  bifurcated := false
  mem := []
  host0 := []
  host1 := []
  regs := []
  sel := []
  msix := []
  msixPend := []
  seq := seqReset
  mrq := []
  ring := []
  windows := []
  lanes := []
  fns := []
  ports := []
  waits := []
  log := []
  logNext := 0
  logGone := []
  spd := spdReset
  cam := camReset
  isp := []
  ispBanks := []
  ispLock := []
  ispLost := []
  ispKept := []
  ctxs := []
  tracks := []
  accs := []
  macs := []
  saf := safReset
  sec := secReset
  pwr := pwrReset
  nv := nvFactory
  boot := bootReset
  dice := diceReset
  availN := 2 ^ 64 - 1
  availV := 15
  availI := 15
  capGen := 0
  out := []
  free := 0

end Sys2Proof.Machine
end

