-- ==== Sys2Proof/Machine/RegMap.lean ====
section
/-! DEFINITION. The register map: every register's place in the MMIO region (R26: block base plus the offset of its
table), how it repeats, the selector that chooses its object, and the bits of each access type (R7).  Reset values
other than 0 are in `regInit`.  The lane registers of R395 lie in the lanes' apertures and are not listed here. -/

namespace Sys2Proof.Machine

namespace R
def pwrTimeLo : Nat := 0x480100
def pwrTimeHi : Nat := 0x480104
def pwrTimeCtrl : Nat := 0x480108
def pwrTimeOffset : Nat := 0x48010c
def seqNodeFree : Nat := 0x0
def seqNodeRun : Nat := 0x4
def seqEdgeFree : Nat := 0x8
def seqEdgeRun : Nat := 0xc
def seqGangStarve : Nat := 0x10
def seqStaleCnt : Nat := 0x14
def seqAbortCnt : Nat := 0x18
def seqSluiceSel : Nat := 0x100
def seqSluiceBind : Nat := 0x104
def seqSluiceNode : Nat := 0x108
def seqSluiceFaults : Nat := 0x10c
def seqSluiceLastLo : Nat := 0x110
def seqSluiceLastHi : Nat := 0x114
def seqObsSel : Nat := 0x200
def seqObsDepth : Nat := 0x204
def seqObsMaxdepth : Nat := 0x208
def seqObsHist0 : Nat := 0x240
def seqObsHist1 : Nat := 0x244
def seqObsHist2 : Nat := 0x248
def seqObsHist3 : Nat := 0x24c
def seqObsHist4 : Nat := 0x250
def seqObsHist5 : Nat := 0x254
def seqObsHist6 : Nat := 0x258
def seqObsHist7 : Nat := 0x25c
def seqObsHist8 : Nat := 0x260
def seqObsHist9 : Nat := 0x264
def seqObsHist10 : Nat := 0x268
def seqObsHist11 : Nat := 0x26c
def seqObsHist12 : Nat := 0x270
def seqObsHist13 : Nat := 0x274
def seqObsHist14 : Nat := 0x278
def seqObsHist15 : Nat := 0x27c
def seqBusySel : Nat := 0x300
def seqBusy : Nat := 0x304
def seqLatSel : Nat := 0x400
def seqLatLast : Nat := 0x404
def seqLatMax : Nat := 0x408
def seqTmplSkip : Nat := 0x40c
def seqTmplQovf : Nat := 0x410
def seqTmplReplaced : Nat := 0x414
def seqTmplAborted : Nat := 0x418
def camPortCfg : Nat := 0x40000
def camPortStat : Nat := 0x40004
def camPortEccCorr : Nat := 0x40008
def camPortEccDrop : Nat := 0x4000c
def camPortCrcErr : Nat := 0x40010
def camPortOrphan : Nat := 0x40014
def camPortUnclaimed : Nat := 0x40018
def camStreamSel : Nat := 0x40800
def camStreamStat : Nat := 0x40804
def camStreamIndex : Nat := 0x40808
def camStreamEpoch : Nat := 0x4080c
def camStreamReplaced : Nat := 0x40810
def camFsoCtrl : Nat := 0x41000
def camFsoPeriod : Nat := 0x41004
def camFsoPhase : Nat := 0x41008
def camFsiCtrl : Nat := 0x41100
def camFsiLastLo : Nat := 0x41110
def camFsiLastHi : Nat := 0x41114
def ispLandSel : Nat := 0x80000
def ispLand : Nat := 0x80004
def ispLandMissing : Nat := 0x80008
def ispCoreStat : Nat := 0x80100
def ispCoreSwitch : Nat := 0x80104
def ispCoreLoad : Nat := 0x80108
def ispCoreFallback : Nat := 0x8010c
def ispCoreTnrReset : Nat := 0x80110
def ispCoreFault : Nat := 0x80114
def ispCoreEarly : Nat := 0x80118
def ispCorePress : Nat := 0x8011c
def wpeEngStat : Nat := 0xc0100
def wpeEngOutside : Nat := 0xc0104
def wpeEngClip : Nat := 0xc0108
def wpeEngSlow : Nat := 0xc010c
def wpeEngFault : Nat := 0xc0110
def pyeEngStat : Nat := 0x100100
def pyeEngFault : Nat := 0x100104
def steEngStat : Nat := 0x140100
def steEngRange : Nat := 0x140104
def steEngPlaus : Nat := 0x140108
def steEngStall : Nat := 0x14010c
def steEngFault : Nat := 0x140110
def ofeEngStat : Nat := 0x180100
def ofeEngRange : Nat := 0x180104
def ofeEngPlaus : Nat := 0x180108
def ofeEngBudget : Nat := 0x18010c
def ofeEngStall : Nat := 0x180110
def ofeEngFault : Nat := 0x180114
def kpePartSel : Nat := 0x1c0000
def kpePartRange : Nat := 0x1c0004
def kpePartOwner : Nat := 0x1c0008
def kpePartCtrl : Nat := 0x1c000c
def kpePartActive : Nat := 0x1c0010
def kpePartNextid : Nat := 0x1c0014
def kpePartLast : Nat := 0x1c0018
def kpeEngStat : Nat := 0x1c0100
def kpeEngRange : Nat := 0x1c0104
def kpeEngDrop : Nat := 0x1c0108
def kpeEngLock : Nat := 0x1c010c
def kpeEngFault : Nat := 0x1c0110
def ncMcastRows : Nat := 0x200000
def ncWcompErr : Nat := 0x200004
def ncCoreStat : Nat := 0x200100
def ncCoreTods : Nat := 0x200104
def ncCoreSwitch : Nat := 0x200108
def ncCoreSwmax : Nat := 0x20010c
def ncCoreFault : Nat := 0x200110
def ncCoreSat : Nat := 0x200114
def ncCoreChain : Nat := 0x200118
def spdArbCfg : Nat := 0x240000
def spdScrubCfg : Nat := 0x240004
def spdScrubPass : Nat := 0x240008
def spdSliceSel : Nat := 0x240100
def spdSliceCe : Nat := 0x240104
def spdSliceUe : Nat := 0x240108
def spdSliceRepair : Nat := 0x24010c
def spdSlicePwr : Nat := 0x240110
def spdSliceCache : Nat := 0x240114
def spdSliceHit : Nat := 0x240118
def spdSliceMiss : Nat := 0x24011c
def spdSliceStall : Nat := 0x240120
def spdSliceWaitmax : Nat := 0x240124
def spdWheelSel : Nat := 0x240200
def spdWheelCfg : Nat := 0x240204
def spdWheelSize : Nat := 0x240208
def spdWheelTail : Nat := 0x24020c
def spdWheelHead : Nat := 0x240210
def spdWheelRelease : Nat := 0x240214
def spdWheelStall : Nat := 0x240218
def spdArrSel : Nat := 0x240300
def spdArrValue : Nat := 0x240304
def strCtxSel : Nat := 0x280000
def strCtxOwner : Nat := 0x280004
def strCtxStat : Nat := 0x280008
def strCtxBytes : Nat := 0x28000c
def strCtxStarved : Nat := 0x280010
def strCtxFault : Nat := 0x280014
def strCtxRefetch : Nat := 0x280018
def strEngGrants : Nat := 0x280100
def mrqSel : Nat := 0x2c0000
def mrqCfg : Nat := 0x2c0004
def mrqCount : Nat := 0x2c0008
def mrqStale : Nat := 0x2c000c
def mrqDrop : Nat := 0x2c0010
def mrqFull : Nat := 0x2c0014
def winSel : Nat := 0x300000
def winStat : Nat := 0x300004
def winAccepted : Nat := 0x300008
def winDropShape : Nat := 0x30000c
def winDenied : Nat := 0x300010
def winLate : Nat := 0x300014
def winFnUnclaimed : Nat := 0x300100
def hostPortLink : Nat := 0x340000
def hostPortDldown : Nat := 0x340004
def hostPortDiscard : Nat := 0x340008
def hostFnSel : Nat := 0x340100
def hostFnMmioShape : Nat := 0x340104
def hostFnMmioHole : Nat := 0x340108
def hostFnWrDenied : Nat := 0x34010c
def ethMacCfg : Nat := 0x380000
def ethMacAddrLo : Nat := 0x380004
def ethMacAddrHi : Nat := 0x380008
def ethIp4 : Nat := 0x38000c
def ethIp60 : Nat := 0x380010
def ethIp61 : Nat := 0x380014
def ethIp62 : Nat := 0x380018
def ethIp63 : Nat := 0x38001c
def ethPhyDly : Nat := 0x380020
def ethTxRec : Nat := 0x380024
def ethTxLinkdrop : Nat := 0x380028
def ethRxDrop : Nat := 0x38002c
def ethDevTag : Nat := 0x380400
def mgtStat : Nat := 0x3c0000
def mgtUdpPort : Nat := 0x3c0004
def mgtAuthFail : Nat := 0x3c0008
def mgtCmdDenied : Nat := 0x3c000c
def secIsoCtrl : Nat := 0x400000
def secIsoEpoch : Nat := 0x400004
def secIsoTimeLo : Nat := 0x400008
def secIsoTimeHi : Nat := 0x40000c
def secSlotSel : Nat := 0x400100
def secSlotStat : Nat := 0x400104
def secSlotFree : Nat := 0x400108
def secCredCtrl : Nat := 0x400200
def secEnvFail : Nat := 0x400300
def secAuthFail : Nat := 0x400304
def safCfg : Nat := 0x440000
def safNetPort : Nat := 0x440004
def safStat : Nat := 0x440008
def safCauseEng : Nat := 0x44000c
def safCauseTimeLo : Nat := 0x440010
def safCauseTimeHi : Nat := 0x440014
def safStreamCritLo : Nat := 0x440018
def safStreamCritHi : Nat := 0x44001c
def safIntervalCnt : Nat := 0x440020
def safSslErr : Nat := 0x440024
def safEngSel : Nat := 0x440100
def safEngStat : Nat := 0x440104
def safEngFail : Nat := 0x440108
def safEngTransient : Nat := 0x44010c
def safEngUnchecked : Nat := 0x440110
def pwrStat : Nat := 0x480000
def pwrEnv : Nat := 0x480004
def pwrSleepCfg : Nat := 0x480008
def pwrIrq : Nat := 0x48000c
def pwrPkg : Nat := 0x480010
def pwrTemp : Nat := 0x480014
def pwrCeLimit : Nat := 0x480018
def pwrPrewakeLate : Nat := 0x48001c
def pwrSpare : Nat := 0x480200
def pwrSpareNode : Nat := 0x480204
def pwrSpareHbm : Nat := 0x480208
def pwrRepairLog : Nat := 0x48020c
def bootStat : Nat := 0x4c0000
def bootTime : Nat := 0x4c0004
def bootFuse : Nat := 0x4c0008
def bootTrial : Nat := 0x4c000c
def bootStaged : Nat := 0x4c0010
def bootPkgCtrl : Nat := 0x4c0100
def bootPkgAddr : Nat := 0x4c0104
end R

/-- One register, or one family of equal registers `stride` bytes apart: its offset in the MMIO region, the selector
whose value chooses the object it shows (0 for none), and its RW, W1C, RC and WO bits. -/
structure RegDef where
  off : Nat
  stride : Nat
  count : Nat
  sel : Nat
  rw : Nat
  w1c : Nat
  rc : Nat
  wo : Nat
  deriving DecidableEq, Repr

/-- The register map, part 0. -/
def regTable0 : List RegDef := [
  ⟨R.pwrTimeLo, 4, 1, 0, 0x0, 0x0, 0x0, 0x0⟩,
  ⟨R.pwrTimeHi, 4, 1, 0, 0x0, 0x0, 0x0, 0x0⟩,
  ⟨R.pwrTimeCtrl, 4, 1, 0, 0x207, 0x0, 0x0, 0x0⟩,
  ⟨R.pwrTimeOffset, 4, 1, 0, 0x0, 0x0, 0x0, 0x0⟩,
  ⟨R.seqNodeFree, 4, 1, 0, 0x0, 0x0, 0x0, 0x0⟩,
  ⟨R.seqNodeRun, 4, 1, 0, 0x0, 0x0, 0x0, 0x0⟩,
  ⟨R.seqEdgeFree, 4, 1, 0, 0x0, 0x0, 0x0, 0x0⟩,
  ⟨R.seqEdgeRun, 4, 1, 0, 0x0, 0x0, 0x0, 0x0⟩,
  ⟨R.seqGangStarve, 4, 1, 0, 0xffff, 0x0, 0x0, 0x0⟩,
  ⟨R.seqStaleCnt, 4, 1, 0, 0x0, 0x0, 0xffffffff, 0x0⟩,
  ⟨R.seqAbortCnt, 4, 1, 0, 0x0, 0x0, 0xffffffff, 0x0⟩,
  ⟨R.seqSluiceSel, 4, 1, 0, 0x1ff, 0x0, 0x0, 0x0⟩,
  ⟨R.seqSluiceBind, 4, 1, R.seqSluiceSel, 0x0, 0x0, 0x0, 0x0⟩,
  ⟨R.seqSluiceNode, 4, 1, R.seqSluiceSel, 0x0, 0x0, 0x0, 0x0⟩,
  ⟨R.seqSluiceFaults, 4, 1, R.seqSluiceSel, 0x0, 0x0, 0xffffffff, 0x0⟩,
  ⟨R.seqSluiceLastLo, 4, 1, R.seqSluiceSel, 0x0, 0x0, 0x0, 0x0⟩,
  ⟨R.seqSluiceLastHi, 4, 1, R.seqSluiceSel, 0x0, 0x0, 0x0, 0x0⟩,
  ⟨R.seqObsSel, 4, 1, 0, 0x7f, 0x0, 0x0, 0x0⟩,
  ⟨R.seqObsDepth, 4, 1, R.seqObsSel, 0x0, 0x0, 0x0, 0x0⟩,
  ⟨R.seqObsMaxdepth, 4, 1, R.seqObsSel, 0x0, 0x0, 0xffffff, 0x0⟩,
  ⟨R.seqObsHist0, 4, 1, R.seqObsSel, 0x0, 0x0, 0xffffffff, 0x0⟩,
  ⟨R.seqObsHist1, 4, 1, R.seqObsSel, 0x0, 0x0, 0xffffffff, 0x0⟩,
  ⟨R.seqObsHist2, 4, 1, R.seqObsSel, 0x0, 0x0, 0xffffffff, 0x0⟩,
  ⟨R.seqObsHist3, 4, 1, R.seqObsSel, 0x0, 0x0, 0xffffffff, 0x0⟩,
  ⟨R.seqObsHist4, 4, 1, R.seqObsSel, 0x0, 0x0, 0xffffffff, 0x0⟩,
  ⟨R.seqObsHist5, 4, 1, R.seqObsSel, 0x0, 0x0, 0xffffffff, 0x0⟩,
  ⟨R.seqObsHist6, 4, 1, R.seqObsSel, 0x0, 0x0, 0xffffffff, 0x0⟩,
  ⟨R.seqObsHist7, 4, 1, R.seqObsSel, 0x0, 0x0, 0xffffffff, 0x0⟩,
  ⟨R.seqObsHist8, 4, 1, R.seqObsSel, 0x0, 0x0, 0xffffffff, 0x0⟩,
  ⟨R.seqObsHist9, 4, 1, R.seqObsSel, 0x0, 0x0, 0xffffffff, 0x0⟩,
  ⟨R.seqObsHist10, 4, 1, R.seqObsSel, 0x0, 0x0, 0xffffffff, 0x0⟩,
  ⟨R.seqObsHist11, 4, 1, R.seqObsSel, 0x0, 0x0, 0xffffffff, 0x0⟩,
  ⟨R.seqObsHist12, 4, 1, R.seqObsSel, 0x0, 0x0, 0xffffffff, 0x0⟩,
  ⟨R.seqObsHist13, 4, 1, R.seqObsSel, 0x0, 0x0, 0xffffffff, 0x0⟩,
  ⟨R.seqObsHist14, 4, 1, R.seqObsSel, 0x0, 0x0, 0xffffffff, 0x0⟩,
  ⟨R.seqObsHist15, 4, 1, R.seqObsSel, 0x0, 0x0, 0xffffffff, 0x0⟩,
  ⟨R.seqBusySel, 4, 1, 0, 0xffff, 0x0, 0x0, 0x0⟩,
  ⟨R.seqBusy, 4, 1, R.seqBusySel, 0x0, 0x0, 0x0, 0x0⟩,
  ⟨R.seqLatSel, 4, 1, 0, 0xff, 0x0, 0x0, 0x0⟩,
  ⟨R.seqLatLast, 4, 1, R.seqLatSel, 0x0, 0x0, 0x0, 0x0⟩,
  ⟨R.seqLatMax, 4, 1, R.seqLatSel, 0x0, 0x0, 0xffffffff, 0x0⟩,
  ⟨R.seqTmplSkip, 4, 1, R.seqLatSel, 0x0, 0x0, 0xffffffff, 0x0⟩,
  ⟨R.seqTmplQovf, 4, 1, R.seqLatSel, 0x0, 0x0, 0xffffffff, 0x0⟩,
  ⟨R.seqTmplReplaced, 4, 1, R.seqLatSel, 0x0, 0x0, 0xffffffff, 0x0⟩,
  ⟨R.seqTmplAborted, 4, 1, R.seqLatSel, 0x0, 0x0, 0xffffffff, 0x0⟩]

/-- The register map, part 1. -/
def regTable1 : List RegDef := [
  ⟨R.camPortCfg, 64, 16, 0, 0xffff001f, 0x0, 0x0, 0x0⟩,
  ⟨R.camPortStat, 64, 16, 0, 0x0, 0x0, 0x0, 0x0⟩,
  ⟨R.camPortEccCorr, 64, 16, 0, 0x0, 0x0, 0xffffffff, 0x0⟩,
  ⟨R.camPortEccDrop, 64, 16, 0, 0x0, 0x0, 0xffffffff, 0x0⟩,
  ⟨R.camPortCrcErr, 64, 16, 0, 0x0, 0x0, 0xffffffff, 0x0⟩,
  ⟨R.camPortOrphan, 64, 16, 0, 0x0, 0x0, 0xffffffff, 0x0⟩,
  ⟨R.camPortUnclaimed, 64, 16, 0, 0x0, 0x0, 0xffffffff, 0x0⟩,
  ⟨R.camStreamSel, 4, 1, 0, 0x3f, 0x0, 0x0, 0x0⟩,
  ⟨R.camStreamStat, 4, 1, R.camStreamSel, 0x0, 0x2, 0x0, 0x0⟩,
  ⟨R.camStreamIndex, 4, 1, R.camStreamSel, 0x0, 0x0, 0x0, 0x0⟩,
  ⟨R.camStreamEpoch, 4, 1, R.camStreamSel, 0x0, 0x0, 0x0, 0x0⟩,
  ⟨R.camStreamReplaced, 4, 1, R.camStreamSel, 0x0, 0x0, 0xffffffff, 0x0⟩,
  ⟨R.camFsoCtrl, 16, 8, 0, 0xffff001f, 0x0, 0xff00, 0x0⟩,
  ⟨R.camFsoPeriod, 16, 8, 0, 0xffffffff, 0x0, 0x0, 0x0⟩,
  ⟨R.camFsoPhase, 16, 8, 0, 0xffffffff, 0x0, 0x0, 0x0⟩,
  ⟨R.camFsiCtrl, 4, 1, 0, 0xf, 0x0, 0x0, 0x0⟩,
  ⟨R.camFsiLastLo, 8, 4, 0, 0x0, 0x0, 0x0, 0x0⟩,
  ⟨R.camFsiLastHi, 8, 4, 0, 0x0, 0x0, 0x0, 0x0⟩,
  ⟨R.ispLandSel, 4, 1, 0, 0x3f, 0x0, 0x0, 0x0⟩,
  ⟨R.ispLand, 4, 1, R.ispLandSel, 0x3fff01, 0x0, 0x0, 0x0⟩,
  ⟨R.ispLandMissing, 4, 1, R.ispLandSel, 0x0, 0x0, 0xffffffff, 0x0⟩,
  ⟨R.ispCoreStat, 32, 4, 0, 0x0, 0x0, 0x0, 0x0⟩,
  ⟨R.ispCoreSwitch, 32, 4, 0, 0x0, 0x0, 0xffffffff, 0x0⟩,
  ⟨R.ispCoreLoad, 32, 4, 0, 0x0, 0x0, 0xffffffff, 0x0⟩,
  ⟨R.ispCoreFallback, 32, 4, 0, 0x0, 0x0, 0xffffffff, 0x0⟩,
  ⟨R.ispCoreTnrReset, 32, 4, 0, 0x0, 0x0, 0xffffffff, 0x0⟩,
  ⟨R.ispCoreFault, 32, 4, 0, 0x0, 0x0, 0xffffffff, 0x0⟩,
  ⟨R.ispCoreEarly, 32, 4, 0, 0x0, 0x0, 0xffffffff, 0x0⟩,
  ⟨R.ispCorePress, 32, 4, 0, 0x0, 0x0, 0xffffffff, 0x0⟩,
  ⟨R.wpeEngStat, 32, 8, 0, 0x0, 0x0, 0x0, 0x0⟩,
  ⟨R.wpeEngOutside, 32, 8, 0, 0x0, 0x0, 0xffffffff, 0x0⟩,
  ⟨R.wpeEngClip, 32, 8, 0, 0x0, 0x0, 0xffffffff, 0x0⟩,
  ⟨R.wpeEngSlow, 32, 8, 0, 0x0, 0x0, 0xffffffff, 0x0⟩,
  ⟨R.wpeEngFault, 32, 8, 0, 0x0, 0x0, 0xffffffff, 0x0⟩,
  ⟨R.pyeEngStat, 32, 4, 0, 0x0, 0x0, 0x0, 0x0⟩,
  ⟨R.pyeEngFault, 32, 4, 0, 0x0, 0x0, 0xffffffff, 0x0⟩,
  ⟨R.steEngStat, 32, 4, 0, 0x0, 0x0, 0x0, 0x0⟩,
  ⟨R.steEngRange, 32, 4, 0, 0x0, 0x0, 0xffffffff, 0x0⟩,
  ⟨R.steEngPlaus, 32, 4, 0, 0x0, 0x0, 0xffffffff, 0x0⟩,
  ⟨R.steEngStall, 32, 4, 0, 0x0, 0x0, 0xffffffff, 0x0⟩,
  ⟨R.steEngFault, 32, 4, 0, 0x0, 0x0, 0xffffffff, 0x0⟩,
  ⟨R.ofeEngStat, 32, 4, 0, 0x0, 0x0, 0x0, 0x0⟩,
  ⟨R.ofeEngRange, 32, 4, 0, 0x0, 0x0, 0xffffffff, 0x0⟩,
  ⟨R.ofeEngPlaus, 32, 4, 0, 0x0, 0x0, 0xffffffff, 0x0⟩,
  ⟨R.ofeEngBudget, 32, 4, 0, 0x0, 0x0, 0xffffffff, 0x0⟩]

/-- The register map, part 2. -/
def regTable2 : List RegDef := [
  ⟨R.ofeEngStall, 32, 4, 0, 0x0, 0x0, 0xffffffff, 0x0⟩,
  ⟨R.ofeEngFault, 32, 4, 0, 0x0, 0x0, 0xffffffff, 0x0⟩,
  ⟨R.kpePartSel, 4, 1, 0, 0x3f, 0x0, 0x0, 0x0⟩,
  ⟨R.kpePartRange, 4, 1, R.kpePartSel, 0xffffffff, 0x0, 0x0, 0x0⟩,
  ⟨R.kpePartOwner, 4, 1, R.kpePartSel, 0xfffffff, 0x0, 0x0, 0x0⟩,
  ⟨R.kpePartCtrl, 4, 1, R.kpePartSel, 0x1f9, 0x0, 0x0, 0x2⟩,
  ⟨R.kpePartActive, 4, 1, R.kpePartSel, 0x0, 0x0, 0x0, 0x0⟩,
  ⟨R.kpePartNextid, 4, 1, R.kpePartSel, 0x0, 0x0, 0x0, 0x0⟩,
  ⟨R.kpePartLast, 4, 1, R.kpePartSel, 0x0, 0x0, 0x0, 0x0⟩,
  ⟨R.kpeEngStat, 32, 4, 0, 0x0, 0x0, 0x0, 0x0⟩,
  ⟨R.kpeEngRange, 32, 4, 0, 0x0, 0x0, 0xffffffff, 0x0⟩,
  ⟨R.kpeEngDrop, 32, 4, 0, 0x0, 0x0, 0xffffffff, 0x0⟩,
  ⟨R.kpeEngLock, 32, 4, 0, 0x0, 0x0, 0xffffffff, 0x0⟩,
  ⟨R.kpeEngFault, 32, 4, 0, 0x0, 0x0, 0xffffffff, 0x0⟩,
  ⟨R.ncMcastRows, 4, 1, 0, 0x0, 0x0, 0xffffffff, 0x0⟩,
  ⟨R.ncWcompErr, 4, 1, 0, 0x0, 0x0, 0xffffffff, 0x0⟩,
  ⟨R.ncCoreStat, 32, 64, 0, 0x0, 0x0, 0x0, 0x0⟩,
  ⟨R.ncCoreTods, 32, 64, 0, 0x0, 0x0, 0xffffffff, 0x0⟩,
  ⟨R.ncCoreSwitch, 32, 64, 0, 0x0, 0x0, 0xffffffff, 0x0⟩,
  ⟨R.ncCoreSwmax, 32, 64, 0, 0x0, 0x0, 0xffff, 0x0⟩,
  ⟨R.ncCoreFault, 32, 64, 0, 0x0, 0x0, 0xffffffff, 0x0⟩,
  ⟨R.ncCoreSat, 32, 64, 0, 0x0, 0x0, 0xffffffff, 0x0⟩,
  ⟨R.ncCoreChain, 32, 64, 0, 0x0, 0x0, 0xffffffff, 0x0⟩,
  ⟨R.spdArbCfg, 4, 1, 0, 0xff, 0x0, 0x0, 0x0⟩,
  ⟨R.spdScrubCfg, 4, 1, 0, 0x1ffffff, 0x0, 0x0, 0x0⟩,
  ⟨R.spdScrubPass, 4, 1, 0, 0x0, 0x0, 0x0, 0x0⟩,
  ⟨R.spdSliceSel, 4, 1, 0, 0x3f, 0x0, 0x0, 0x0⟩,
  ⟨R.spdSliceCe, 4, 1, R.spdSliceSel, 0x0, 0x0, 0xffffffff, 0x0⟩,
  ⟨R.spdSliceUe, 4, 1, R.spdSliceSel, 0x0, 0x0, 0xffffffff, 0x0⟩,
  ⟨R.spdSliceRepair, 4, 1, R.spdSliceSel, 0x0, 0x0, 0x0, 0x0⟩,
  ⟨R.spdSlicePwr, 4, 1, R.spdSliceSel, 0xffff, 0x0, 0x0, 0x0⟩,
  ⟨R.spdSliceCache, 4, 1, R.spdSliceSel, 0x1f, 0x0, 0x0, 0x20⟩,
  ⟨R.spdSliceHit, 4, 1, R.spdSliceSel, 0x0, 0x0, 0xffffffff, 0x0⟩,
  ⟨R.spdSliceMiss, 4, 1, R.spdSliceSel, 0x0, 0x0, 0xffffffff, 0x0⟩,
  ⟨R.spdSliceStall, 4, 1, R.spdSliceSel, 0x0, 0x0, 0xffffffff, 0x0⟩,
  ⟨R.spdSliceWaitmax, 4, 1, R.spdSliceSel, 0x0, 0x0, 0xffff, 0x0⟩,
  ⟨R.spdWheelSel, 4, 1, 0, 0x3fff, 0x0, 0x0, 0x0⟩,
  ⟨R.spdWheelCfg, 4, 1, R.spdWheelSel, 0x3fff0001, 0x0, 0x0, 0x0⟩,
  ⟨R.spdWheelSize, 4, 1, R.spdWheelSel, 0x7fff7fff, 0x0, 0x0, 0x0⟩,
  ⟨R.spdWheelTail, 4, 1, R.spdWheelSel, 0x0, 0x0, 0x0, 0x0⟩,
  ⟨R.spdWheelHead, 4, 1, R.spdWheelSel, 0x0, 0x0, 0x0, 0x0⟩,
  ⟨R.spdWheelRelease, 4, 1, R.spdWheelSel, 0x0, 0x0, 0x0, 0x0⟩,
  ⟨R.spdWheelStall, 4, 1, R.spdWheelSel, 0x0, 0x0, 0xffffffff, 0x0⟩,
  ⟨R.spdArrSel, 4, 1, 0, 0x1ffff, 0x0, 0x0, 0x0⟩,
  ⟨R.spdArrValue, 4, 1, R.spdArrSel, 0xffffffff, 0x0, 0x0, 0x0⟩]

/-- The register map, part 3. -/
def regTable3 : List RegDef := [
  ⟨R.strCtxSel, 4, 1, 0, 0xff, 0x0, 0x0, 0x0⟩,
  ⟨R.strCtxOwner, 4, 1, R.strCtxSel, 0xff01, 0x0, 0x0, 0x0⟩,
  ⟨R.strCtxStat, 4, 1, R.strCtxSel, 0x0, 0x0, 0x0, 0x0⟩,
  ⟨R.strCtxBytes, 4, 1, R.strCtxSel, 0x0, 0x0, 0xffffffff, 0x0⟩,
  ⟨R.strCtxStarved, 4, 1, R.strCtxSel, 0x0, 0x0, 0xffffffff, 0x0⟩,
  ⟨R.strCtxFault, 4, 1, R.strCtxSel, 0x0, 0x0, 0xffffffff, 0x0⟩,
  ⟨R.strCtxRefetch, 4, 1, R.strCtxSel, 0x0, 0x0, 0xffffffff, 0x0⟩,
  ⟨R.strEngGrants, 16, 4, 0, 0x0, 0x0, 0xffffffff, 0x0⟩,
  ⟨R.mrqSel, 4, 1, 0, 0x3ff, 0x0, 0x0, 0x0⟩,
  ⟨R.mrqCfg, 4, 1, R.mrqSel, 0xff0003, 0x0, 0x0, 0x0⟩,
  ⟨R.mrqCount, 4, 1, R.mrqSel, 0x0, 0x0, 0x0, 0x0⟩,
  ⟨R.mrqStale, 4, 1, R.mrqSel, 0x0, 0x0, 0xffffffff, 0x0⟩,
  ⟨R.mrqDrop, 4, 1, R.mrqSel, 0x0, 0x0, 0xffffffff, 0x0⟩,
  ⟨R.mrqFull, 4, 1, R.mrqSel, 0x0, 0x0, 0xffffffff, 0x0⟩,
  ⟨R.winSel, 4, 1, 0, 0x7ff, 0x0, 0x0, 0x0⟩,
  ⟨R.winStat, 4, 1, R.winSel, 0x0, 0x0, 0x0, 0x0⟩,
  ⟨R.winAccepted, 4, 1, R.winSel, 0x0, 0x0, 0xffffffff, 0x0⟩,
  ⟨R.winDropShape, 4, 1, R.winSel, 0x0, 0x0, 0xffffffff, 0x0⟩,
  ⟨R.winDenied, 4, 1, R.winSel, 0x0, 0x0, 0xffffffff, 0x0⟩,
  ⟨R.winLate, 4, 1, R.winSel, 0x0, 0x0, 0xffffffff, 0x0⟩,
  ⟨R.winFnUnclaimed, 4, 32, 0, 0x0, 0x0, 0xffffffff, 0x0⟩,
  ⟨R.hostPortLink, 16, 2, 0, 0x0, 0x0, 0x0, 0x0⟩,
  ⟨R.hostPortDldown, 16, 2, 0, 0x0, 0x0, 0xffffffff, 0x0⟩,
  ⟨R.hostPortDiscard, 16, 2, 0, 0x0, 0x0, 0xffffffff, 0x0⟩,
  ⟨R.hostFnSel, 4, 1, 0, 0x3f, 0x0, 0x0, 0x0⟩,
  ⟨R.hostFnMmioShape, 4, 1, R.hostFnSel, 0x0, 0x0, 0xffffffff, 0x0⟩,
  ⟨R.hostFnMmioHole, 4, 1, R.hostFnSel, 0x0, 0x0, 0xffffffff, 0x0⟩,
  ⟨R.hostFnWrDenied, 4, 1, R.hostFnSel, 0x0, 0x0, 0xffffffff, 0x0⟩,
  ⟨R.ethMacCfg, 256, 2, 0, 0x3fff0017, 0x0, 0x0, 0x0⟩,
  ⟨R.ethMacAddrLo, 256, 2, 0, 0xffffffff, 0x0, 0x0, 0x0⟩,
  ⟨R.ethMacAddrHi, 256, 2, 0, 0xffff, 0x0, 0x0, 0x0⟩,
  ⟨R.ethIp4, 256, 2, 0, 0xffffffff, 0x0, 0x0, 0x0⟩,
  ⟨R.ethIp60, 256, 2, 0, 0xffffffff, 0x0, 0x0, 0x0⟩,
  ⟨R.ethIp61, 256, 2, 0, 0xffffffff, 0x0, 0x0, 0x0⟩,
  ⟨R.ethIp62, 256, 2, 0, 0xffffffff, 0x0, 0x0, 0x0⟩,
  ⟨R.ethIp63, 256, 2, 0, 0xffffffff, 0x0, 0x0, 0x0⟩,
  ⟨R.ethPhyDly, 256, 2, 0, 0xffffffff, 0x0, 0x0, 0x0⟩,
  ⟨R.ethTxRec, 256, 2, 0, 0x0, 0x0, 0xffffffff, 0x0⟩,
  ⟨R.ethTxLinkdrop, 256, 2, 0, 0x0, 0x0, 0xffffffff, 0x0⟩,
  ⟨R.ethRxDrop, 256, 2, 0, 0x0, 0x0, 0xffffffff, 0x0⟩,
  ⟨R.ethDevTag, 4, 1, 0, 0xffff, 0x0, 0x0, 0x0⟩,
  ⟨R.mgtStat, 4, 1, 0, 0x0, 0x0, 0x0, 0x0⟩,
  ⟨R.mgtUdpPort, 4, 1, 0, 0xffff, 0x0, 0x0, 0x0⟩,
  ⟨R.mgtAuthFail, 4, 1, 0, 0x0, 0x0, 0xffffffff, 0x0⟩,
  ⟨R.mgtCmdDenied, 4, 1, 0, 0x0, 0x0, 0xffffffff, 0x0⟩]

/-- The register map, part 4. -/
def regTable4 : List RegDef := [
  ⟨R.secIsoCtrl, 4, 1, 0, 0x4, 0x0, 0x0, 0x1⟩,
  ⟨R.secIsoEpoch, 4, 1, 0, 0x0, 0x0, 0x0, 0x0⟩,
  ⟨R.secIsoTimeLo, 4, 1, 0, 0x0, 0x0, 0x0, 0x0⟩,
  ⟨R.secIsoTimeHi, 4, 1, 0, 0x0, 0x0, 0x0, 0x0⟩,
  ⟨R.secSlotSel, 4, 1, 0, 0xff, 0x0, 0x0, 0x0⟩,
  ⟨R.secSlotStat, 4, 1, R.secSlotSel, 0x0, 0x0, 0x0, 0x0⟩,
  ⟨R.secSlotFree, 4, 1, 0, 0x0, 0x0, 0x0, 0x0⟩,
  ⟨R.secCredCtrl, 4, 1, 0, 0x0, 0x0, 0x0, 0x1⟩,
  ⟨R.secEnvFail, 4, 1, 0, 0x0, 0x0, 0xffffffff, 0x0⟩,
  ⟨R.secAuthFail, 4, 1, 0, 0x0, 0x0, 0xffffffff, 0x0⟩,
  ⟨R.safCfg, 4, 1, 0, 0x7fffff, 0x0, 0x0, 0x0⟩,
  ⟨R.safNetPort, 4, 1, 0, 0xffff, 0x0, 0x0, 0x0⟩,
  ⟨R.safStat, 4, 1, 0, 0x0, 0x8, 0x0, 0x0⟩,
  ⟨R.safCauseEng, 4, 1, 0, 0x0, 0x0, 0x0, 0x0⟩,
  ⟨R.safCauseTimeLo, 4, 1, 0, 0x0, 0x0, 0x0, 0x0⟩,
  ⟨R.safCauseTimeHi, 4, 1, 0, 0x0, 0x0, 0x0, 0x0⟩,
  ⟨R.safStreamCritLo, 4, 1, 0, 0xffffffff, 0x0, 0x0, 0x0⟩,
  ⟨R.safStreamCritHi, 4, 1, 0, 0xffffffff, 0x0, 0x0, 0x0⟩,
  ⟨R.safIntervalCnt, 4, 1, 0, 0x0, 0x0, 0x0, 0x0⟩,
  ⟨R.safSslErr, 4, 1, 0, 0x0, 0x0, 0xffffffff, 0x0⟩,
  ⟨R.safEngSel, 4, 1, 0, 0xffff, 0x0, 0x0, 0x0⟩,
  ⟨R.safEngStat, 4, 1, R.safEngSel, 0x0, 0x0, 0x0, 0x0⟩,
  ⟨R.safEngFail, 4, 1, R.safEngSel, 0x0, 0x0, 0xffffffff, 0x0⟩,
  ⟨R.safEngTransient, 4, 1, R.safEngSel, 0x0, 0x0, 0xffffffff, 0x0⟩,
  ⟨R.safEngUnchecked, 4, 1, R.safEngSel, 0x0, 0x0, 0xffffffff, 0x0⟩,
  ⟨R.pwrStat, 4, 1, 0, 0x0, 0x4, 0x0, 0x0⟩,
  ⟨R.pwrEnv, 4, 1, 0, 0x3, 0x0, 0x0, 0x0⟩,
  ⟨R.pwrSleepCfg, 4, 1, 0, 0xffff0001, 0x0, 0x0, 0x0⟩,
  ⟨R.pwrIrq, 4, 1, 0, 0xfff0fff, 0x0, 0x0, 0x0⟩,
  ⟨R.pwrPkg, 4, 1, 0, 0x0, 0x0, 0x0, 0x0⟩,
  ⟨R.pwrTemp, 4, 1, 0, 0x0, 0x0, 0x0, 0x0⟩,
  ⟨R.pwrCeLimit, 4, 1, 0, 0xffff, 0x0, 0x0, 0x0⟩,
  ⟨R.pwrPrewakeLate, 4, 1, 0, 0x0, 0x0, 0xffffffff, 0x0⟩,
  ⟨R.pwrSpare, 4, 1, 0, 0x0, 0x0, 0x0, 0x0⟩,
  ⟨R.pwrSpareNode, 4, 1, 0, 0x0, 0x0, 0x0, 0x0⟩,
  ⟨R.pwrSpareHbm, 4, 1, 0, 0x0, 0x0, 0x0, 0x0⟩,
  ⟨R.pwrRepairLog, 4, 1, 0, 0x0, 0x0, 0x0, 0x0⟩,
  ⟨R.bootStat, 4, 1, 0, 0x0, 0x0, 0x0, 0x0⟩,
  ⟨R.bootTime, 4, 1, 0, 0x0, 0x0, 0x0, 0x0⟩,
  ⟨R.bootFuse, 4, 1, 0, 0x0, 0x0, 0x0, 0x0⟩,
  ⟨R.bootTrial, 4, 1, 0, 0x0, 0x0, 0x0, 0x0⟩,
  ⟨R.bootStaged, 4, 1, 0, 0x0, 0x0, 0x0, 0x0⟩,
  ⟨R.bootPkgCtrl, 4, 1, 0, 0x0, 0x0, 0x0, 0x3⟩,
  ⟨R.bootPkgAddr, 4, 1, 0, 0xfffffff, 0x0, 0x0, 0x0⟩]

/-- The register map. -/
def regTable : List RegDef := regTable0 ++ regTable1 ++ regTable2 ++ regTable3 ++ regTable4

/-- Reset values that are not 0 (the register tables' Reset columns). -/
def regInit (off : Nat) : Nat :=
  if off = R.seqGangStarve then 0xc8
  else if off = R.camPortCfg then 0xfa00004
  else if off = R.camFsoCtrl then 0x1000000
  else if off = R.kpePartNextid then 0x1
  else if off = R.spdArbCfg then 0x20
  else if off = R.spdScrubCfg then 0x3e8
  else if off = R.spdSlicePwr then 0xffff
  else if off = R.spdWheelSize then 0x10001
  else if off = R.mrqCfg then 0xf0000
  else if off = R.ethMacCfg then 0x5dc0000
  else if off = R.mgtUdpPort then 0xc3c8
  else if off = R.safCfg then 0x68214
  else if off = R.safNetPort then 0xc3c9
  else if off = R.pwrEnv then 0x1
  else if off = R.pwrSleepCfg then 0x640000
  else if off = R.pwrCeLimit then 0x3e8
  else 0

/-- The register at an MMIO offset: its definition and its number within its family. -/
def findReg (o : Nat) : Option (RegDef × Nat) :=
  match regTable.find? (fun d => decide (d.off ≤ o) && decide ((o - d.off) % d.stride = 0)
      && decide ((o - d.off) / d.stride < d.count)) with
  | some d => some (d, (o - d.off) / d.stride)
  | none => none

end Sys2Proof.Machine
end

