-- ==== Sys2Proof/Config.lean ====
section
/-! DEFINITION. What the manual leaves open: free values, one constant without a body for each.  No proof can
evaluate them, so a statement about one holds whatever the value is.  The first argument `n` of a constant is a draw
of the state's counter `free` where two occurrences need not agree. -/

namespace Sys2Proof.Config

/-- Contents of a byte the manual calls lost or unrecoverable (R292, R412). -/
opaque lostByte : Nat → Nat → Byte

/-- The status with which STREAM_START and GRAPH_ARM are refused before camera-ready (R480 gives none). -/
opaque notReadyStatus : Nat

/-- Which element DETAIL names where the device chooses it (R386). -/
opaque detailChoice : Nat → Nat

/-- The order in which the terms of a sum are added, where the manual fixes none (R237 to R239): a draw, a step. -/
opaque sumOrder : Nat → Nat → Nat

/-- The knots of the built-in activation tables, within the bound of R241: function code, knot. -/
opaque actKnot : Nat → Nat → Nat

/-- A table's result between two knots, within the bound of R241: the table's words, FP32 encoding of the argument. -/
opaque tableApprox : List Nat → Nat → Nat

/-- Exponential, reciprocal and reciprocal square root within the bounds of R243 and R244. -/
opaque expApprox : Nat → Nat
opaque recipApprox : Nat → Nat
opaque rsqrtApprox : Nat → Nat

/-- Square root of REDUCE L2, of relative error 2⁻²³ (R263). -/
opaque sqrtApprox : Nat → Nat

/-- Angle functions of the warp engine, on FP32 encodings, within the error the model allows them (R138). -/
opaque sinApprox : Nat → Nat
opaque cosApprox : Nat → Nat
opaque atan2Approx : Nat → Nat → Nat

/-- The dynamic address the controller of a port assigns from a profile's static one (R93). -/
opaque dynamicAddr : Nat → Nat → Nat

/-- A word the manual gives no value: a draw. -/
opaque freeWord : Nat → Nat

/-- Where the inverse bilinear equation of a cell has more than one solution (R145): the cell's corners and the point;
which of the solutions is taken, both parameters in 1/2⁴⁰. -/
opaque meshSolve : List Int → Int × Int

/-- Kernels of the image pipe whose arithmetic the manual does not give: stage, parameters' digest, neighbourhood. -/
opaque ispKernel : Nat → List Nat → List Int → Int

/-- The entry code under which a plausibility failure is logged (R425 gives none). -/
opaque plausCode : Nat

/-- The image of which the flow refinement takes its gradients: CUR, or PREV as sampled (R187). -/
opaque gradCur : Bool

/-- Real-valued refinement whose order of summation the manual leaves free (R183, R214): a draw and the inputs. -/
opaque refine : Nat → List Int → Int

/-- The true random source: a draw, the place of the byte (R402, R404, R412). -/
opaque randomByte : Nat → Nat → Byte

/-- The identity as manufactured: the certificates of the Phineast root and intermediate and of the DeviceID key
(R397), and the device firmware keys of the identity slots (R404). -/
opaque rootCert : List Byte
opaque interCert : List Byte
opaque deviceIdCert : List Byte
opaque identityKey : Nat → List Byte

/-- Fields of an alias certificate the manual gives no value for: layer, and 0 serial number, 1 issuer, 2 validity,
3 subject, 4 extensions beside the TcbInfo. -/
opaque certField : Nat → Nat → List Byte

/-- SPDM fields the manual gives no value for: CTExponent, whether measurements are fresh, the heartbeat period, the
blocks of the TCB, the ROM's version, and the vendor ID of PF0's configuration space (R398 to R400). -/
opaque ctExponent : Byte
opaque measFresh : Bool
opaque heartbeatPeriod : Byte
opaque tcbBlocks : List Nat
opaque romVersion : Nat
opaque vendorId : Nat

/-- The two sources of the unique device secret, OTP and physically unclonable (R396), and the resident loader. -/
opaque otpSecret : List Byte
opaque pufResponse : List Byte
opaque loaderImage : List Byte

/-- Keys held in fuses, ROM or the loader. -/
opaque firmwareKey : List Byte
opaque deviceIdHash : List Byte

/-- Fields of the IP headers the manual gives no value for: identification of a datagram, time to live or hop limit,
flow label, and the source port of safety records (R368, R444). -/
opaque ipIdent : Nat → Nat
opaque ipTtl : Nat
opaque ipFlow : Nat
opaque safetySrcPort : Nat

/-- A host answers a packet's read through a region with an Unsupported Request or Completer Abort (R508): a draw, the
device address. -/
opaque hostRefuses : Nat → Nat → Bool

/-- Own addresses of the management link, which no register holds (R374): MAC address and IPv6 address. -/
opaque mgtMac : List Byte
opaque mgtIp6 : List Byte

/-- Fields of an 802.1AS message of a MAC, which IEEE 802.1AS lays out and R373 does not: what follows the Ethernet header
of message type `kind`, for a port, a sequence number, a peer and a time. -/
opaque asMessage : (kind port seq : Nat) → List Byte → Int → List Byte

/-- How long a DOE mailbox is busy with an object, in ns (R363). -/
opaque doeTime : Nat → Nat

/-- The DOE Discovery answer to an index beyond the protocols of R363. -/
opaque doeBeyond : Nat → List Byte

/-- The core distance table's byte for an ordered pair of places (R359), from the package's floor plan: places 0 to 63
are those of the N-cores as built, 64 to 67 of the V-cores, and 68 more for each spare that has taken the index (R275). -/
opaque distance : Nat → Nat → Byte

/-- The fused core-rail set point of an envelope in mV (R460). -/
opaque railMv : Nat → Nat

/-- Contents of the physical package that no interface writes: tile of a unit, physical number of a spare (R471). -/
opaque tileOf : Nat → Nat
opaque physOf : Nat → Nat

/-- Fields of a forwarded frame's header line that the manual gives no value for (R102, R364): payload type, template,
sequence number, publication count, channel. -/
opaque forwardField : Nat → Nat

/-- A stack has a post-package repair resource left for a row's bank (R470): row, rows repaired so far. -/
opaque hbmSpare : Nat → Nat → Bool

/-- The conversion of a configuration block to another format (R487): the new format, the old block. -/
opaque convertCfg : Nat → List Byte → List Byte

/-- Errors that strike stored words between two ticks of device time (R282, R469): each a row of the scratchpad, or 2^20
and an entry of the node table, with 0 to 31 for a single-bit error in that word of the row and 32 for one that is not
correctable. -/
opaque upsets : Nat → List (Nat × Nat)

end Sys2Proof.Config
end

