-- ==== Sys2Proof/Machine/Crypto.lean ====
section
/-! DEFINITION. The security engine's algorithms, which the manual names (R396, R399, R402, R406, R408): SHA3 and SHAKE
(FIPS 202), HMAC and HKDF (RFC 5869), AES-256-GCM and AES-256-XTS, ML-KEM-768 (FIPS 203), ML-DSA-44 (FIPS 204).  PRESUMED: log entry
21. -/

namespace Sys2Proof.Machine

/-! ### Keccak (FIPS 202) -/

/-- Rotate 64 bits left. -/
def rotl64 (x n : Nat) : Nat := ((x <<< n) ||| (x >>> (64 - n))) % 2 ^ 64

/-- Rotation of the lane x + 5y. -/
def keccakRot : List Nat :=
  [0, 1, 62, 28, 27, 36, 44, 6, 55, 20, 3, 10, 43, 25, 39, 41, 45, 15, 21, 8, 18, 2, 61, 56, 14]

/-- Constants of the 24 rounds. -/
def keccakRc : List Nat :=
  [0x0000000000000001, 0x0000000000008082, 0x800000000000808A, 0x8000000080008000, 0x000000000000808B,
   0x0000000080000001, 0x8000000080008081, 0x8000000000008009, 0x000000000000008A, 0x0000000000000088,
   0x0000000080008009, 0x000000008000000A, 0x000000008000808B, 0x800000000000008B, 0x8000000000008089,
   0x8000000000008003, 0x8000000000008002, 0x8000000000000080, 0x000000000000800A, 0x800000008000000A,
   0x8000000080008081, 0x8000000000008080, 0x0000000080000001, 0x8000000080008008]

/-- One round on 25 lanes. -/
def keccakRound (a : List Nat) (rc : Nat) : List Nat :=
  let at_ := fun (l : List Nat) (i : Nat) => l.getD i 0
  let c := (List.range 5).map (fun x => at_ a x ^^^ at_ a (x + 5) ^^^ at_ a (x + 10) ^^^ at_ a (x + 15) ^^^ at_ a (x + 20))
  let d := (List.range 5).map (fun x => at_ c ((x + 4) % 5) ^^^ rotl64 (at_ c ((x + 1) % 5)) 1)
  let b := (List.range 25).map (fun k =>
    let i := (k % 5 + 3 * (k / 5)) % 5 + 5 * (k % 5)
    rotl64 (at_ a i ^^^ at_ d (i % 5)) (at_ keccakRot i))
  (List.range 25).map (fun k =>
    let r := k / 5 * 5
    let v := at_ b k ^^^ ((2 ^ 64 - 1 - at_ b ((k % 5 + 1) % 5 + r)) &&& at_ b ((k % 5 + 2) % 5 + r))
    if k = 0 then v ^^^ rc else v)

/-- The permutation. -/
def keccakF (a : List Nat) : List Nat := keccakRc.foldl keccakRound a

/-- Bytes padded to a multiple of the rate under a domain suffix. -/
def keccakPad (rate suffix : Nat) (m : List Byte) : List Byte :=
  let q := rate - m.length % rate
  m ++ (if q = 1 then [BitVec.ofNat 8 (suffix + 0x80)]
        else BitVec.ofNat 8 suffix :: List.replicate (q - 2) 0 ++ [0x80])

/-- Absorb blocks of `rate` bytes. -/
def keccakAbsorb (rate : Nat) : Nat → List Nat → List Byte → List Nat
  | 0, a, _ => a
  | n + 1, a, m =>
    let b := m.take rate
    keccakAbsorb rate n (keccakF ((List.range 25).map (fun k => a.getD k 0 ^^^ leNat ((b.drop (8 * k)).take 8))))
      (m.drop rate)

/-- Squeeze blocks of `rate` bytes. -/
def keccakSqueeze (rate : Nat) : Nat → List Nat → List Byte
  | 0, _ => []
  | n + 1, a => (a.flatMap (leBytes 8)).take rate ++ keccakSqueeze rate n (keccakF a)

/-- `n` bytes of the sponge. -/
def keccak (rate suffix n : Nat) (m : List Byte) : List Byte :=
  let p := keccakPad rate suffix m
  (keccakSqueeze rate (cdiv n rate) (keccakAbsorb rate (p.length / rate) (List.replicate 25 0) p)).take n

def sha3 (m : List Byte) : List Byte := keccak 136 0x06 32 m
def sha3_512 (m : List Byte) : List Byte := keccak 72 0x06 64 m
def shake128 (n : Nat) (m : List Byte) : List Byte := keccak 168 0x1F n m
def shake256 (n : Nat) (m : List Byte) : List Byte := keccak 136 0x1F n m

/-! ### HMAC and HKDF over SHA3-256 -/

/-- HMAC; the block of SHA3-256 has 136 bytes. -/
def hmac (key m : List Byte) : List Byte :=
  let k0 := if 136 < key.length then sha3 key else key
  let k := k0 ++ List.replicate (136 - k0.length) 0
  sha3 (k.map (· ^^^ 0x5C) ++ sha3 (k.map (· ^^^ 0x36) ++ m))

/-- HKDF-Extract. -/
def hkdfExtract (salt ikm : List Byte) : List Byte := hmac salt ikm

/-- Blocks T(i) of HKDF-Expand. -/
def hkdfBlocks (prk info : List Byte) : Nat → Nat → List Byte → List Byte
  | 0, _, _ => []
  | n + 1, i, t =>
    let t1 := hmac prk (t ++ info ++ leBytes 1 i)
    t1 ++ hkdfBlocks prk info n (i + 1) t1

/-- HKDF-Expand to `n` bytes. -/
def hkdfExpand (prk info : List Byte) (n : Nat) : List Byte := (hkdfBlocks prk info (cdiv n 32) 1 []).take n

/-! ### AES-256 -/

/-- Multiply by x in GF(2⁸). -/
def gfDouble (a : Nat) : Nat := let b := 2 * a; if 256 ≤ b then b ^^^ 0x11B else b

/-- Multiply in GF(2⁸). -/
def gfMul (a b : Nat) : Nat :=
  ((List.range 8).foldl (fun (r : Nat × Nat) i => (if bit b i then r.1 ^^^ r.2 else r.1, gfDouble r.2)) (0, a)).1

/-- The inverse in GF(2⁸): x²⁵⁴. -/
def gfInv (x : Nat) : Nat :=
  let sq := fun y => gfMul y y
  let x2 := sq x
  let x4 := sq x2
  let x8 := sq x4
  let x16 := sq x8
  let x32 := sq x16
  let x64 := sq x32
  gfMul x2 (gfMul x4 (gfMul x8 (gfMul x16 (gfMul x32 (gfMul x64 (sq x64))))))

/-- Rotate a byte left. -/
def rotl8 (x n : Nat) : Nat := (x <<< n ||| x >>> (8 - n)) % 256

/-- The S-box: the inverse, then the affine map. -/
def aesSbox (x : Nat) : Nat :=
  let i := gfInv x
  i ^^^ rotl8 i 1 ^^^ rotl8 i 2 ^^^ rotl8 i 3 ^^^ rotl8 i 4 ^^^ 0x63

/-- The inverse S-box. -/
def aesSboxInv (x : Nat) : Nat := gfInv (rotl8 x 1 ^^^ rotl8 x 3 ^^^ rotl8 x 6 ^^^ 0x05)

/-- The key schedule: the last eight words of the schedule so far give the next. -/
def aesWords : Nat → Nat → List (List Nat) → List (List Nat)
  | 0, _, w => w
  | n + 1, i, w =>
    let t := w.getD (i - 1) []
    let sub := fun (l : List Nat) => l.map aesSbox
    let rc := (List.range (i / 8 - 1)).foldl (fun r _ => gfDouble r) 1
    let u := if i % 8 = 0 then
        (match sub (t.drop 1 ++ t.take 1) with | a :: l => (a ^^^ rc) :: l | [] => [])
      else if i % 8 = 4 then sub t else t
    aesWords n (i + 1) (w ++ [List.zipWith (· ^^^ ·) (w.getD (i - 8) []) u])

/-- The 15 round keys of 16 bytes. -/
def aesKeys (key : List Byte) : List (List Nat) :=
  let k := (List.range 8).map (fun i => (List.range 4).map (fun j => (key.getD (4 * i + j) 0).toNat))
  let w := aesWords 52 8 k
  (List.range 15).map (fun r => (List.range 4).flatMap (fun j => w.getD (4 * r + j) []))

/-- ShiftRows on 16 bytes in columns. -/
def aesShift (b : List Nat) : List Nat := (List.range 16).map (fun k => b.getD ((k + 4 * (k % 4)) % 16) 0)

/-- MixColumns. -/
def aesMix (b : List Nat) : List Nat :=
  (List.range 16).map (fun k =>
    let c := fun i => b.getD (k / 4 * 4 + (k + i) % 4) 0
    gfDouble (c 0) ^^^ gfDouble (c 1) ^^^ c 1 ^^^ c 2 ^^^ c 3)

/-- One block under the round keys. -/
def aesBlock (ks : List (List Nat)) (b : List Nat) : List Nat :=
  let add := fun (x : List Nat) (r : Nat) => List.zipWith (· ^^^ ·) x (ks.getD r [])
  let mid := (List.range 13).foldl (fun x r => add (aesMix (aesShift (x.map aesSbox))) (r + 1)) (add b 0)
  add (aesShift (mid.map aesSbox)) 14

/-- InvShiftRows. -/
def aesShiftInv (b : List Nat) : List Nat := (List.range 16).map (fun k => b.getD ((k + 16 - 4 * (k % 4)) % 16) 0)

/-- InvMixColumns. -/
def aesMixInv (b : List Nat) : List Nat :=
  (List.range 16).map (fun k =>
    let c := fun i => b.getD (k / 4 * 4 + (k + i) % 4) 0
    gfMul (c 0) 14 ^^^ gfMul (c 1) 11 ^^^ gfMul (c 2) 13 ^^^ gfMul (c 3) 9)

/-- The inverse cipher. -/
def aesBlockInv (ks : List (List Nat)) (b : List Nat) : List Nat :=
  let add := fun (x : List Nat) (r : Nat) => List.zipWith (· ^^^ ·) x (ks.getD r [])
  let back := fun (x : List Nat) => (aesShiftInv x).map aesSboxInv
  add (back ((List.range 13).foldl (fun x r => aesMixInv (add (back x) (13 - r))) (add b 14))) 0

/-! ### XTS (R411) -/

/-- The tweaks of the blocks of a data unit: the encrypted unit number, doubled in GF(2¹²⁸) from block to block. -/
def xtsTweaks (ks : List (List Nat)) (unit : Nat) : Nat → List (List Nat) :=
  let dbl := fun (t : Nat) => if 2 ^ 128 ≤ 2 * t then (2 * t - 2 ^ 128) ^^^ 0x87 else 2 * t
  let t0 := leNat ((aesBlock ks ((leBytes 16 unit).map BitVec.toNat)).map (BitVec.ofNat 8))
  fun n => (List.range n).map (fun j => (leBytes 16 ((List.range j).foldl (fun t _ => dbl t) t0)).map BitVec.toNat)

/-- A data unit of whole blocks under a block cipher and a key of 64 bytes: key 1, then key 2. -/
def xtsUnit (cipher : List (List Nat) → List Nat → List Nat) (key : List Byte) (unit : Nat) (m : List Byte) : List Byte :=
  let k1 := aesKeys (key.take 32)
  let tw := xtsTweaks (aesKeys (key.drop 32)) unit (m.length / 16)
  tw.zipIdx.flatMap (fun t =>
    let b := ((m.drop (16 * t.2)).take 16).map BitVec.toNat
    (List.zipWith (· ^^^ ·) (cipher k1 (List.zipWith (· ^^^ ·) b t.1)) t.1).map (BitVec.ofNat 8))

/-- Encrypt and decrypt a data unit. -/
def xtsSeal (key : List Byte) (unit : Nat) (m : List Byte) : List Byte := xtsUnit aesBlock key unit m
def xtsOpen (key : List Byte) (unit : Nat) (m : List Byte) : List Byte := xtsUnit aesBlockInv key unit m

/-! ### GCM -/

/-- Multiply in GF(2¹²⁸), blocks as big-endian numbers. -/
def ghashMul (x y : Nat) : Nat :=
  ((List.range 128).foldl (fun (r : Nat × Nat) i =>
    (if bit x (127 - i) then r.1 ^^^ r.2 else r.1,
     if r.2 % 2 = 1 then (r.2 / 2) ^^^ (0xE1 * 2 ^ 120) else r.2 / 2)) (0, y)).1

/-- GHASH of bytes, the last block filled with zeros. -/
def ghash (h : Nat) : Nat → Nat → List Byte → Nat
  | 0, y, _ => y
  | n + 1, y, m =>
    let b := m.take 16
    ghash h n (ghashMul (y ^^^ beNat (b ++ List.replicate (16 - b.length) 0)) h) (m.drop 16)

/-- A big-endian block. -/
def aesCounter (ks : List (List Nat)) (n : Nat) : List Byte :=
  (aesBlock ks ((beBytes 16 n).map BitVec.toNat)).map (BitVec.ofNat 8)

/-- Counter mode from the block after J0. -/
def gcmCtr (ks : List (List Nat)) (j : Nat) (m : List Byte) : List Byte :=
  List.zipWith (· ^^^ ·) m ((List.range (cdiv m.length 16)).flatMap (fun i => aesCounter ks (j + 1 + i)))

/-- J0 of a 96-bit nonce, given as a little-endian number. -/
def gcmJ0 (nonce : Nat) : Nat := beNat (leBytes 12 nonce) * 2 ^ 32 + 1

/-- The ciphertext. -/
def gcmSeal (key : List Byte) (nonce : Nat) (plain : List Byte) : List Byte :=
  gcmCtr (aesKeys key) (gcmJ0 nonce) plain

/-- The tag of 16 bytes over the additional data and the ciphertext. -/
def gcmTag (key : List Byte) (nonce : Nat) (aad cipher : List Byte) : List Byte :=
  let ks := aesKeys key
  let h := beNat (aesCounter ks 0)
  let y := ghash h (cdiv cipher.length 16) (ghash h (cdiv aad.length 16) 0 aad) cipher
  let z := ghashMul (y ^^^ (8 * aad.length * 2 ^ 64 + 8 * cipher.length)) h
  List.zipWith (· ^^^ ·) (beBytes 16 z) (aesCounter ks (gcmJ0 nonce))

/-- The plaintext of a ciphertext. -/
def gcmOpen (key : List Byte) (nonce : Nat) (cipher : List Byte) : List Byte :=
  gcmCtr (aesKeys key) (gcmJ0 nonce) cipher

end Sys2Proof.Machine
end

