-- ==== Sys2Proof/Machine/Lattice.lean ====
section
/-! DEFINITION. ML-KEM-768 (FIPS 203) and ML-DSA-44 (FIPS 204), which the manual names (R396, R402, R414, R416).
PRESUMED: log entry 21. -/

namespace Sys2Proof.Machine

/-! ### Polynomials of degree below 256 as lists of coefficients -/

/-- Reverse the low `n` bits. -/
def bitRev (n x : Nat) : Nat := (List.range n).foldl (fun r i => 2 * r + b2n (bit x i)) 0

/-- Powers modulo `q` by squaring over 24 bits of the exponent. -/
def powMod (q b e : Nat) : Nat :=
  ((List.range 24).foldl (fun (r : Nat × Nat) i => (if bit e i then r.1 * r.2 % q else r.1, r.2 * r.2 % q)) (1, b % q)).1

def polyAdd (q : Nat) (a b : List Nat) : List Nat := List.zipWith (fun x y => (x + y) % q) a b
def polySub (q : Nat) (a b : List Nat) : List Nat := List.zipWith (fun x y => (x + q - y) % q) a b

/-- Number-theoretic transform of `d` layers from tree node `k`, with roots `z`. -/
def ntt (q : Nat) (z : Nat → Nat) : Nat → Nat → List Nat → List Nat
  | 0, _, l => l
  | d + 1, k, l =>
    let lo := l.take (l.length / 2)
    let hi := (l.drop (l.length / 2)).map (fun x => x * z k % q)
    ntt q z d (2 * k) (polyAdd q lo hi) ++ ntt q z d (2 * k + 1) (polySub q lo hi)

/-- Its inverse, without the division by 2 of each layer; `z` gives the inverse roots. -/
def nttInv (q : Nat) (z : Nat → Nat) : Nat → Nat → List Nat → List Nat
  | 0, _, l => l
  | d + 1, k, l =>
    let lo := nttInv q z d (2 * k) (l.take (l.length / 2))
    let hi := nttInv q z d (2 * k + 1) (l.drop (l.length / 2))
    polyAdd q lo hi ++ (polySub q lo hi).map (fun x => x * z k % q)

/-- Values of `n` bits packed into bytes, low bits first. -/
def packBits (n : Nat) (l : List Nat) : List Byte :=
  leBytes (n * l.length / 8) (l.foldr (fun x r => x + 2 ^ n * r) 0)

/-- Values of `n` bits unpacked from bytes. -/
def unpackBits (n : Nat) (b : List Byte) : List Nat :=
  let v := leNat b
  (List.range (8 * b.length / n)).map (fun i => (v >>> (n * i)) % 2 ^ n)

/-- Sum of products of two vectors of transformed polynomials. -/
def dotPoly (q : Nat) (mul : List Nat → List Nat → List Nat) (a b : List (List Nat)) : List Nat :=
  (List.zipWith mul a b).foldl (polyAdd q) (List.replicate 256 0)

/-! ### ML-KEM-768 -/

def kemQ : Nat := 3329
def kemZ (k : Nat) : Nat := powMod kemQ 17 (bitRev 7 k)
def kemZi (k : Nat) : Nat := powMod kemQ 17 (256 - bitRev 7 k)
def kemNtt (l : List Nat) : List Nat := ntt kemQ kemZ 7 1 l
def kemNttInv (l : List Nat) : List Nat := (nttInv kemQ kemZi 7 1 l).map (fun x => x * 3303 % kemQ)

/-- Products of pairs modulo X² − ζ^(2·BitRev(i) + 1). -/
def kemMul (a b : List Nat) : List Nat :=
  (List.range 128).flatMap (fun i =>
    let a0 := a.getD (2 * i) 0
    let a1 := a.getD (2 * i + 1) 0
    let b0 := b.getD (2 * i) 0
    let b1 := b.getD (2 * i + 1) 0
    [(a0 * b0 + a1 * b1 % kemQ * powMod kemQ 17 (2 * bitRev 7 i + 1)) % kemQ, (a0 * b1 + a1 * b0) % kemQ])

/-- SampleNTT: two values of 12 bits from every three bytes, those below q. -/
def kemSample (seed : List Byte) : List Nat :=
  ((unpackBits 12 (shake128 1344 seed)).filter (fun x => decide (x < kemQ))).take 256

/-- SamplePolyCBD of η = 2. -/
def kemNoise (seed : List Byte) (n : Nat) : List Nat :=
  (unpackBits 4 (shake256 128 (seed ++ leBytes 1 n))).map (fun x =>
    (b2n (bit x 0) + b2n (bit x 1) + kemQ - b2n (bit x 2) - b2n (bit x 3)) % kemQ)

/-- Entry of the public matrix in row `i`, column `j`. -/
def kemEntry (rho : List Byte) (i j : Nat) : List Nat := kemSample (rho ++ leBytes 1 j ++ leBytes 1 i)

def kemCompress (d x : Nat) : Nat := (2 * x * 2 ^ d + kemQ) / (2 * kemQ) % 2 ^ d
def kemExpand (d y : Nat) : Nat := (2 * kemQ * y + 2 ^ d) / 2 ^ (d + 1)

/-- The key pair of two seeds of 32 bytes: encapsulation key, decapsulation key. -/
def kemKeys (d z : List Byte) : List Byte × List Byte :=
  let g := sha3_512 (d ++ [3])
  let rho := g.take 32
  let sigma := g.drop 32
  let s := (List.range 3).map (fun i => kemNtt (kemNoise sigma i))
  let e := (List.range 3).map (fun i => kemNtt (kemNoise sigma (3 + i)))
  let t := (List.range 3).map (fun i =>
    polyAdd kemQ (dotPoly kemQ kemMul ((List.range 3).map (kemEntry rho i)) s) (e.getD i []))
  let ek := t.flatMap (packBits 12) ++ rho
  (ek, s.flatMap (packBits 12) ++ ek ++ sha3 ek ++ z)

/-- Polynomial `i` of packed ones of `n` bits. -/
def polyAt (n : Nat) (b : List Byte) (i : Nat) : List Nat := unpackBits n ((b.drop (32 * n * i)).take (32 * n))

/-- K-PKE encryption of a message under coins. -/
def kemEncrypt (ek m coins : List Byte) : List Byte :=
  let rho := ek.drop 1152
  let t := (List.range 3).map (fun i => (polyAt 12 ek i).map (· % kemQ))
  let y := (List.range 3).map (fun i => kemNtt (kemNoise coins i))
  let u := (List.range 3).map (fun i => polyAdd kemQ
    (kemNttInv (dotPoly kemQ kemMul ((List.range 3).map (fun j => kemEntry rho j i)) y)) (kemNoise coins (3 + i)))
  let v := polyAdd kemQ (polyAdd kemQ (kemNttInv (dotPoly kemQ kemMul t y)) (kemNoise coins 6))
    ((unpackBits 1 m).map (kemExpand 1))
  u.flatMap (fun p => packBits 10 (p.map (kemCompress 10))) ++ packBits 4 (v.map (kemCompress 4))

/-- Encapsulation: ciphertext and secret of a message of 32 bytes. -/
def kemEncaps (ek m : List Byte) : List Byte × List Byte :=
  let g := sha3_512 (m ++ sha3 ek)
  (kemEncrypt ek m (g.drop 32), g.take 32)

/-- Decapsulation: the secret a ciphertext of 1,088 bytes carries. -/
def kemShared (dk c : List Byte) : List Byte :=
  let ek := (dk.drop 1152).take 1184
  let s := (List.range 3).map (polyAt 12 dk)
  let u := (List.range 3).map (fun i => kemNtt ((polyAt 10 c i).map (kemExpand 10)))
  let v := (polyAt 4 (c.drop 960) 0).map (kemExpand 4)
  let w := polySub kemQ v (kemNttInv (dotPoly kemQ kemMul s u))
  let m := packBits 1 (w.map (kemCompress 1))
  let g := sha3_512 (m ++ (dk.drop 2336).take 32)
  if kemEncrypt ek m (g.drop 32) = c then g.take 32 else shake256 32 ((dk.drop 2368).take 32 ++ c)

/-! ### ML-DSA-44 -/

def dsaQ : Nat := 8380417
def dsaZ (k : Nat) : Nat := powMod dsaQ 1753 (bitRev 8 k)
def dsaZi (k : Nat) : Nat := powMod dsaQ 1753 (512 - bitRev 8 k)
def dsaNtt (l : List Nat) : List Nat := ntt dsaQ dsaZ 8 1 l
def dsaNttInv (l : List Nat) : List Nat := (nttInv dsaQ dsaZi 8 1 l).map (fun x => x * 8347681 % dsaQ)
def dsaMul (a b : List Nat) : List Nat := List.zipWith (fun x y => x * y % dsaQ) a b

/-- A residue's value of least magnitude. -/
def dsaCentre (x : Nat) : Int := if dsaQ / 2 < x then (x : Int) - dsaQ else x

/-- An integer's residue. -/
def dsaRes (x : Int) : Nat := (x % (dsaQ : Int)).toNat

/-- Greatest magnitude of a vector. -/
def dsaNorm (v : List (List Nat)) : Nat := v.foldl (fun m p => p.foldl (fun m x => max m (dsaCentre x).natAbs) m) 0

/-- RejNTTPoly: values of 23 bits from every three bytes, those below q. -/
def dsaUniform (seed : List Byte) : List Nat :=
  (((unpackBits 24 (shake128 1344 seed)).map (· % 2 ^ 23)).filter (fun x => decide (x < dsaQ))).take 256

/-- RejBoundedPoly of η = 2. -/
def dsaSmall (seed : List Byte) : List Nat :=
  (((unpackBits 4 (shake256 408 seed)).filter (fun x => decide (x < 15))).take 256).map (fun x =>
    (dsaQ + 2 - x % 5) % dsaQ)

/-- The public matrix, transformed. -/
def dsaMatrix (rho : List Byte) : List (List (List Nat)) :=
  (List.range 4).map (fun r => (List.range 4).map (fun s => dsaUniform (rho ++ leBytes 1 s ++ leBytes 1 r)))

/-- Matrix times a transformed vector, transformed back. -/
def dsaTimes (a : List (List (List Nat))) (v : List (List Nat)) : List (List Nat) :=
  a.map (fun row => dsaNttInv (dotPoly dsaQ dsaMul row v))

/-- A challenge times a vector of polynomials. -/
def dsaScale (c : List Nat) (v : List (List Nat)) : List (List Nat) :=
  v.map (fun p => dsaNttInv (dsaMul (dsaNtt c) (dsaNtt p)))

/-- Power2Round: the high part above 13 bits, the low one of least magnitude. -/
def dsaHigh13 (r : Nat) : Nat := (r + 4095) / 8192
def dsaLow13 (r : Nat) : Int := (r : Int) - 8192 * dsaHigh13 r

/-- Decompose by 2γ₂ = 190464: HighBits and LowBits. -/
def dsaSplit (r : Nat) : Nat × Int :=
  let m := r % 190464
  let r0 : Int := if 95232 < m then (m : Int) - 190464 else m
  if (r : Int) - r0 = dsaQ - 1 then (0, r0 - 1) else ((((r : Int) - r0) / 190464).toNat, r0)

/-- UseHint. -/
def dsaUseHint (h r : Nat) : Nat :=
  let d := dsaSplit r
  if h = 0 then d.1 else if 0 < d.2 then (d.1 + 1) % 44 else (d.1 + 43) % 44

/-- SampleInBall: 39 coefficients of ±1. -/
def dsaBallStep (bs : List Byte) (signs : Nat) : Nat → Nat → List Byte → List Nat → List Nat
  | 0, _, _, c => c
  | n + 1, i, rest, c =>
    let skip := rest.dropWhile (fun b => decide (i < b.toNat))
    let j := (skip.headD 0).toNat
    let v := if bit signs (i + 39 - 256) then dsaQ - 1 else 1
    dsaBallStep bs signs n (i + 1) (skip.drop 1) ((c.set i (c.getD j 0)).set j v)

def dsaBall (seed : List Byte) : List Nat :=
  let b := shake256 544 seed
  dsaBallStep b (leNat (b.take 8)) 39 217 (b.drop 8) (List.replicate 256 0)

/-- The key pair of a seed of 32 bytes: public key of 1,312 bytes, private key of 2,560. -/
def dsaKeys (seed : List Byte) : List Byte × List Byte :=
  let g := shake256 128 (seed ++ [4, 4])
  let rho := g.take 32
  let rho' := (g.drop 32).take 64
  let small := (List.range 8).map (fun r => dsaSmall (rho' ++ leBytes 2 r))
  let s1 := small.take 4
  let s2 := small.drop 4
  let t := List.zipWith (polyAdd dsaQ) (dsaTimes (dsaMatrix rho) (s1.map dsaNtt)) s2
  let pk := rho ++ t.flatMap (fun p => packBits 10 (p.map dsaHigh13))
  let eta := fun (p : List Nat) => packBits 3 (p.map (fun x => (2 - dsaCentre x).toNat))
  (pk, rho ++ g.drop 96 ++ shake256 64 pk ++ s1.flatMap eta ++ s2.flatMap eta ++
    t.flatMap (fun p => packBits 13 (p.map (fun x => (4096 - dsaLow13 x).toNat))))

/-- w1Encode. -/
def dsaW1 (w : List (List Nat)) : List Byte := w.flatMap (packBits 6)

/-- HintBitPack of four polynomials with at most 80 ones. -/
def dsaHintBytes (h : List (List Nat)) : List Byte :=
  let pos := h.map (fun p => (p.zipIdx.filter (fun x => x.1 != 0)).map Prod.snd)
  let l := pos.flatten
  (l ++ List.replicate (80 - l.length) 0).map (BitVec.ofNat 8) ++
    (List.range 4).map (fun i => BitVec.ofNat 8 (sumN ((pos.take (i + 1)).map List.length)))

/-- HintBitUnpack: none for bytes that are no hint. -/
def dsaHints (b : List Byte) : Option (List (List Nat)) :=
  let l := b.map BitVec.toNat
  let ends := l.drop 80
  let begins := 0 :: ends
  let rising := fun (x : List Nat) => (List.zipWith (fun a b => decide (a < b)) x (x.drop 1)).all id
  let parts := (List.range 4).map (fun i => ((l.take (ends.getD i 0)).drop (begins.getD i 0)))
  if (List.range 4).all (fun i => decide (begins.getD i 0 ≤ ends.getD i 0)) && decide (ends.getD 3 0 ≤ 80) &&
      parts.all rising && ((l.take 80).drop (ends.getD 3 0)).all (· == 0) then
    some (parts.map (fun p => (List.range 256).map (fun k => b2n (p.contains k))))
  else none

/-- The digest of a message under an empty context. -/
def dsaDigest (tr m : List Byte) : List Byte := shake256 64 (tr ++ [0, 0] ++ m)

/-- One attempt after another of the signing loop. -/
def dsaTry (a : List (List (List Nat))) (s1 s2 t0 : List (List Nat)) (mu rho : List Byte) : Nat → Nat → List Byte
  | 0, _ => []
  | f + 1, kappa =>
    let y := (List.range 4).map (fun r =>
      (unpackBits 18 (shake256 576 (rho ++ leBytes 2 (kappa + r)))).map (fun x => dsaRes (131072 - (x : Int))))
    let w := dsaTimes a (y.map dsaNtt)
    let ct := shake256 32 (mu ++ dsaW1 (w.map (fun p => p.map (fun x => (dsaSplit x).1))))
    let c := dsaBall ct
    let z := List.zipWith (polyAdd dsaQ) y (dsaScale c s1)
    let r := List.zipWith (polySub dsaQ) w (dsaScale c s2)
    let low := r.map (fun p => p.map (fun x => dsaRes (dsaSplit x).2))
    let ct0 := dsaScale c t0
    let h := List.zipWith (List.zipWith (fun x y =>
      b2n ((dsaSplit ((x + y) % dsaQ)).1 != (dsaSplit x).1))) r ct0
    if 130994 ≤ dsaNorm z || 95154 ≤ dsaNorm low || 95232 ≤ dsaNorm ct0 || 80 < sumN (h.map sumN) then
      dsaTry a s1 s2 t0 mu rho f (kappa + 4)
    else ct ++ z.flatMap (fun p => packBits 18 (p.map (fun x => (131072 - dsaCentre x).toNat))) ++ dsaHintBytes h

/-- A signature of 2,420 bytes with 32 random bytes. -/
def dsaSign (sk rnd m : List Byte) : List Byte :=
  let vec := fun (o n : Nat) (c : Int) =>
    (List.range 4).map (fun i => (polyAt n (sk.drop o) i).map (fun x => dsaRes (c - (x : Int))))
  let mu := dsaDigest ((sk.drop 64).take 64) m
  dsaTry (dsaMatrix (sk.take 32)) (vec 128 3 2) (vec 512 3 2) (vec 896 13 4096) mu
    (shake256 64 ((sk.drop 32).take 32 ++ rnd ++ mu)) 1000 0

/-- A signature verifies. -/
def dsaVerify (pk m sig : List Byte) : Bool :=
  let ct := sig.take 32
  let z := (List.range 4).map (fun i => (polyAt 18 (sig.drop 32) i).map (fun x => dsaRes (131072 - (x : Int))))
  match dsaHints (sig.drop 2336) with
  | none => false
  | some h =>
    let t1 := (List.range 4).map (fun i => (polyAt 10 (pk.drop 32) i).map (fun x => x * 8192 % dsaQ))
    let c := dsaBall ct
    let w := List.zipWith (polySub dsaQ) (dsaTimes (dsaMatrix (pk.take 32)) (z.map dsaNtt)) (dsaScale c t1)
    let w1 := List.zipWith (List.zipWith dsaUseHint) h w
    pk.length == 1312 && sig.length == 2420 && decide (dsaNorm z < 130994) &&
      ct == shake256 32 (dsaDigest (shake256 64 pk) m ++ dsaW1 w1)

end Sys2Proof.Machine
end

