-- ==== Sys2Proof/Machine/SpdmMsg.lean ====
section
/-! DEFINITION. The bytes of certificates and SPDM messages: X.509 alias certificates with the DICE TcbInfo extension
(R396, R397), and the responses, transcripts, signatures and key schedule of DSP0274 1.3 (R398 to R402).  PRESUMED where
the manual leaves a layout to those standards: log entries 22, 190, 191. -/

namespace Sys2Proof.Machine

/-- `n` bytes of the random source for a draw, from place `i`. -/
def randBytes (d i n : Nat) : List Byte := (List.range n).map (fun k => Config.randomByte d (i + k))

/-! ### DER -/

/-- A length. -/
def derLen (n : Nat) : List Byte :=
  if n < 128 then beBytes 1 n else if n < 256 then 0x81 :: beBytes 1 n else 0x82 :: beBytes 2 n

/-- A tagged value. -/
def der (tag : Byte) (l : List Byte) : List Byte := tag :: derLen l.length ++ l

/-- The value bytes of a natural number. -/
def derNat (n : Nat) : List Byte :=
  let k := ((List.range 8).find? (fun k => decide (n < 2 ^ (8 * (k + 1) - 1)))).getD 8
  beBytes (k + 1) n

/-- Object identifiers: id-ml-dsa-44, id-sha3-256, tcg-dice-TcbInfo. -/
def oidDsa : List Byte := der 0x06 [0x60, 0x86, 0x48, 0x01, 0x65, 0x03, 0x04, 0x03, 0x11]
def oidSha3 : List Byte := der 0x06 [0x60, 0x86, 0x48, 0x01, 0x65, 0x03, 0x04, 0x02, 0x08]
def oidTcbInfo : List Byte := der 0x06 [0x67, 0x81, 0x05, 0x05, 0x04, 0x01]

/-- The TcbInfo extension: the fused security version and the digests a layer measured (R397). -/
def tcbInfo (svn : Nat) (digests : List (List Byte)) : List Byte :=
  let info := der 0x30 (der 0x83 (derNat svn) ++
    der 0xA6 (digests.flatMap (fun d => der 0x30 (oidSha3 ++ der 0x04 d))))
  der 0x30 (oidTcbInfo ++ der 0x04 info)

/-- A public key as SubjectPublicKeyInfo. -/
def keyInfo (pk : List Byte) : List Byte := der 0x30 (der 0x30 oidDsa ++ der 0x03 (0 :: pk))

/-- What the certificate of a layer's alias key is signed over. -/
def aliasBody (layer : Nat) (pk : List Byte) (svn : Nat) (digests : List (List Byte)) : List Byte :=
  let f := Config.certField layer
  der 0x30 (der 0xA0 (der 0x02 [2]) ++ f 0 ++ der 0x30 oidDsa ++ f 1 ++ f 2 ++ f 3 ++ keyInfo pk ++
    der 0xA3 (der 0x30 (tcbInfo svn digests ++ f 4)))

/-- R396, R397: the certificate of a layer's alias key, signed by the layer below. -/
def aliasCert (layer : Nat) (pk : List Byte) (svn : Nat) (digests : List (List Byte)) (signer rnd : List Byte) : List Byte :=
  let b := aliasBody layer pk svn digests
  der 0x30 (b ++ der 0x30 oidDsa ++ der 0x03 (0 :: dsaSign signer rnd b))

/-! ### Signatures of messages -/

/-- What a signature over a transcript covers: the prefix of 100 bytes and the digest. -/
def spdmSigned (context : String) (said : List Byte) : List Byte :=
  let c := ascii context
  (List.replicate 4 (ascii "dmtf-spdm-v1.3.*")).flatten ++ List.replicate (36 - c.length) 0 ++ c ++ sha3 said

/-- A message's bytes: version, code, the rest. -/
def spdmMsg (code : Nat) (body : List Byte) : List Byte := [0x13, BitVec.ofNat 8 code] ++ body

/-! ### Responses: what follows version and code -/

/-- VERSION: version 1.3 only. -/
def versionBody : List Byte := [0, 0, 0, 1, 0x00, 0x13]

/-- CAPABILITIES: the flags of a DOE mailbox, certificates, challenge and signed measurements under alias certificates;
over MCTP sessions in the clear handshake, with mutual and encapsulated authentication, heartbeats and key updates. -/
def capsBody (doe : Bool) : List Byte :=
  let flags := (if doe then 0x40016 else 0x4F3D6) + (if Config.measFresh then 32 else 0)
  [0, 0, 0, Config.ctExponent, 0, 0] ++ leBytes 4 flags ++ leBytes 4 8192 ++ leBytes 4 8192

/-- R399: an extended algorithm: registry, vendor, algorithm. -/
def extAlg (n : Nat) : List Byte := [0x03, 0] ++ leBytes 2 Config.vendorId ++ leBytes 2 n

/-- R399: ALGORITHMS, with those the requester selects: bit 0 base hash, 1 measurement hash, 2 AEAD, 3 key schedule,
4 ML-DSA-44, 5 ML-KEM-768; the requester's own signatures follow bit 4. -/
def algsBody (sel : Nat) : List Byte :=
  let pick := fun (i v : Nat) => if bit sel i then v else 0
  let ext := fun (i n : Nat) => if bit sel i then extAlg n else []
  let alg := fun (t v : Nat) (e : List Byte) => [BitVec.ofNat 8 t, BitVec.ofNat 8 (32 + b2n (!e.isEmpty))] ++ leBytes 2 v ++ e
  let tables := alg 2 0 (ext 5 2) ++ alg 3 (pick 2 2) [] ++ alg 4 0 (ext 4 1) ++ alg 5 (pick 3 1) []
  let rest := leBytes 4 (pick 1 0x10) ++ leBytes 4 0 ++ leBytes 4 (pick 0 0x08) ++ List.replicate 12 0 ++
    [BitVec.ofNat 8 (b2n (bit sel 4)), 0, 0, 0] ++ ext 4 1 ++ tables
  [4, 0] ++ leBytes 2 (8 + rest.length) ++ [1, 0] ++ rest

/-- R397: the chain of slot 0 under the root's hash. -/
def chainOf (certs : List (List Byte)) : List Byte :=
  let c := sha3 Config.rootCert ++ certs.flatten
  leBytes 2 (4 + c.length) ++ [0, 0] ++ c

/-- DIGESTS: slots 0 to 7 exist and slot 0 is filled. -/
def digestsBody (chain : List Byte) : List Byte := [0xFF, 0x01] ++ sha3 chain

/-- CERTIFICATE: a portion of the chain of slot 0. -/
def certBody (chain : List Byte) (off len : Nat) : List Byte :=
  let part := (chain.drop off).take (min len 8184)
  [0, 0] ++ leBytes 2 part.length ++ leBytes 2 (chain.length - off - part.length) ++ part

/-- R400: a measurement block in the DMTF form: index, value type with bit 7 for a raw value, value. -/
def measBlock (n : Nat) (v : List Byte) : List Byte :=
  let ty : List Nat := [0x80, 0x01, 0x01, 0x03, 0x01, 0x03, 0x83, 0x03]
  [BitVec.ofNat 8 n, 1] ++ leBytes 2 (3 + v.length) ++ [BitVec.ofNat 8 (wd ty (n - 1))] ++ leBytes 2 v.length ++ v

/-- The measurement summary a request asks for: 0 none, 1 the TCB's blocks, otherwise all. -/
def summaryHash (kind : Nat) (block : Nat → List Byte) : List Byte :=
  if kind = 0 then [] else
    sha3 (((if kind = 1 then Config.tcbBlocks else (List.range 8).map (· + 1))).flatMap (fun n => measBlock n (block n)))

/-- CHALLENGE_AUTH but for its signature: digest of the chain, nonce, summary, no opaque data, the requester's context. -/
def authBody (chain nonce summary context : List Byte) : List Byte :=
  [0, 1] ++ sha3 chain ++ nonce ++ summary ++ [0, 0] ++ context

/-- MEASUREMENTS but for its signature; the count of blocks stands in the header when index 0 is asked. -/
def measBody (count : Nat) (blocks : List (List Byte)) (nonce context : List Byte) : List Byte :=
  [BitVec.ofNat 8 count, 0, BitVec.ofNat 8 blocks.length] ++ leBytes 3 blocks.flatten.length ++ blocks.flatten ++
    nonce ++ [0, 0] ++ context

/-! ### Sessions (R402) -/

/-- KEY_EXCHANGE with empty ExchangeData. -/
def exchangeOk (msg : List Byte) : Bool :=
  msg.take 2 == [0x13, 0xE4] && decide (42 ≤ msg.length) && msg.length == 42 + leNat ((msg.drop 40).take 2)

/-- KEY_EXCHANGE_RSP but for its signature: the session's number, whether the requester authenticates itself through
the encapsulated flow with a public key, random data, the encapsulation key, the measurement summary. -/
def exchangeBody (sess : Nat) (auth : Bool) (random ek summary : List Byte) : List Byte :=
  [Config.heartbeatPeriod, 0] ++ leBytes 2 sess ++ (if auth then [2, 0x0F] else [0, 0]) ++ random ++ ek ++ summary ++ [0, 0]

/-- The ciphertext in a FINISH message's OpaqueData, and its RequesterVerifyData, which ends the message. -/
def finishCipher (msg : List Byte) : List Byte := (msg.drop (msg.length - 1120)).take 1088
def finishVerify (msg : List Byte) : List Byte := msg.drop (msg.length - 32)

/-- The context of a derivation. -/
def binConcat (label : String) (context : List Byte) : List Byte :=
  leBytes 2 32 ++ ascii "spdm1.3 " ++ ascii label ++ context

/-- The handshake secret of a shared secret. -/
def handshakeSecret (shared : List Byte) : List Byte := hkdfExtract (List.replicate 32 0) shared

/-- Verify data of a direction over a transcript: `th1` is the digest of the key exchange. -/
def verifyData (dir : String) (shared th1 said : List Byte) : List Byte :=
  let k := hkdfExpand (handshakeSecret shared) (binConcat dir th1) 32
  hmac (hkdfExpand k (binConcat "finished" []) 32) (sha3 said)

/-- The export master secret: `th2` is the digest of the whole handshake. -/
def exportMaster (shared th2 : List Byte) : List Byte :=
  let salt := hkdfExpand (handshakeSecret shared) (binConcat "derived" []) 32
  hkdfExpand (hkdfExtract salt (List.replicate 32 0)) (binConcat "exp master" th2) 32

/-- The check of a FINISH message: `said` is the transcript of the key exchange, `cm` the digest of the requester's
public key where it has shown one. -/
def finishOk (shared said cm msg : List Byte) : Bool :=
  msg.take 2 == [0x13, 0xE5] && decide (1124 ≤ msg.length) &&
    verifyData "req hs data" shared (sha3 said) (said ++ cm ++ msg.take (msg.length - 32)) == finishVerify msg

/-- FINISH_RSP: the responder's verify data. -/
def finishRsp (shared said cm msg : List Byte) : List Byte :=
  [0, 0] ++ verifyData "rsp hs data" shared (sha3 said) (said ++ cm ++ msg ++ spdmMsg 0x65 [0, 0])

/-- The export master secret of a session that FINISH opens. -/
def sessionSecret (shared said cm msg : List Byte) : List Byte :=
  exportMaster shared (sha3 (said ++ cm ++ msg ++ spdmMsg 0x65 (finishRsp shared said cm msg)))

end Sys2Proof.Machine
end

