-- ==== Sys2Proof/WellFormed.lean ====
section
/-! DEFINITION. Well-formed commands: every operand names an object the device has.  The ranges are those of the
object directory and the units' rules: 32 functions of 16 lanes (R352, R357) and the management requester 32 (R29),
16 MiB of register space (R26), 64 streams on 16 ports of 16 virtual channels (R73, R78), 256 templates of 8 slots and
4,096 nodes (R38, R52), 1,024 millraces (R32), 512 sluices (R71), 64 slices of 16 banks (R274), 64 N-cores and 4
V-cores and I-cores (R18), 256 stream contexts (R303), 2,048 windows (R325). -/

namespace Sys2Proof

/-- A packet's source is a lane of a function, a session of the management port, or the service package. -/
def Src.wf : Src → Bool
  | .lane f l => decide (f < 32) && decide (l < 16)
  | .mgmt n _ => decide (n < 8)
  | .service => true

/-- An SPDM link is one of two DOE mailboxes or of two management links. -/
def SpdmLink.wf : SpdmLink → Bool
  | .doe p => decide (p < 2)
  | .mctp l => decide (l < 2)

/-- An engine with golden runs (R438): an array or control unit of an N-core, one of the six engines of a V-core, an
I-core, or a stream engine. -/
def goldenUnit (e : Nat) : Bool :=
  (decide (e < 0x1000) && decide (e % 64 ≤ 32)) ||
  (decide (0x4000 ≤ e) && decide (e < 0x4100) && decide (e % 64 < 6)) ||
  (decide (0x8000 ≤ e) && decide (e < 0x8100) && e % 64 == 0) ||
  (decide (0xC040 ≤ e) && decide (e < 0xC140) && e % 64 == 0)

/-- The operands name objects of the device. -/
def Instr.wf : Instr → Bool
  | .hello src => src.wf
  | .capsRead src => src.wf
  | .echo src => src.wf
  | .regionMap src => src.wf
  | .regionUnmap src => src.wf
  | .windowOpen src => src.wf
  | .windowClose src => src.wf
  | .graphLoad src => src.wf
  | .graphArm src => src.wf
  | .graphDisarm src => src.wf
  | .graphUnload src => src.wf
  | .jobSubmit src => src.wf
  | .jobCancel src => src.wf
  | .streamRearm src => src.wf
  | .queuePush src => src.wf
  | .queuePop src => src.wf
  | .sensorProfile src => src.wf
  | .sensorSettings src => src.wf
  | .streamStart src => src.wf
  | .streamStop src => src.wf
  | .txConfig src => src.wf
  | .sessionOpen src => src.wf
  | .sessionClose src => src.wf
  | .jobKey src => src.wf
  | .statsRead src => src.wf
  | .logRead src => src.wf
  | .fwBlock src => src.wf
  | .fwCommit src => src.wf
  | .fwConfirm src => src.wf
  | .fwStatus src => src.wf
  | .packetWindowWrite fn lane off _ => decide (fn < 32) && decide (lane < 16) && decide (off < 256)
  | .hostLaneConsWrite fn lane _ => decide (fn < 32) && decide (lane < 16)
  | .hostLaneCfgWrite fn lane _ => decide (fn < 32) && decide (lane < 16)
  | .modWindowEnd fn lane => decide (fn < 32) && decide (lane < 16)
  | .regRead sess _ => decide (sess < 8)
  | .regWrite sess _ _ => decide (sess < 8)
  | .registerWrite rq off _ => decide (rq < 33) && decide (off < 0x1000000)
  | .rcRegisterRead rq off => decide (rq < 33) && decide (off < 0x1000000)
  | .w1cRegisterWrite rq off _ => decide (rq < 33) && decide (off < 0x1000000)
  | .mmioMisshapedAccess rq off _ _ => decide (rq < 33) && decide (off < 0x1000000)
  | .mmioHoleAccess rq off _ => decide (rq < 33) && decide (off < 0x1000000)
  | .pwrTimeLoRead rq => decide (rq < 33)
  | .seqSluiceLastLoRead rq => decide (rq < 33)
  | .camFsiLastLoRead rq n => decide (rq < 33) && decide (n < 4)
  | .secIsoTimeLoRead rq => decide (rq < 33)
  | .safCauseTimeLoRead rq => decide (rq < 33)
  | .partitionClear rq _ => decide (rq < 33)
  | .spdArrValueWrite rq _ => decide (rq < 33)
  | .spdSlicePwrWrite rq _ => decide (rq < 33)
  | .bankPowerDownDone slice bank => decide (slice < 64) && decide (bank < 16)
  | .bankPowerUpDone slice bank => decide (slice < 64) && decide (bank < 16)
  | .spdSliceCacheWrite rq _ => decide (rq < 33)
  | .cacheInv rq _ => decide (rq < 33)
  | .spdWheelCfgWrite rq _ => decide (rq < 33)
  | .mrqCfgWrite rq _ => decide (rq < 33)
  | .strCtxOwnerWrite rq _ => decide (rq < 33)
  | .isoCommit rq _ => decide (rq < 33)
  | .isolationEpoch => true
  | .credCommit rq _ => decide (rq < 33)
  | .pkgWindowWrite rq off _ => decide (rq < 33) && decide (off < 0x10000)
  | .pkgErase rq _ => decide (rq < 33)
  | .pkgEraseDone => true
  | .pkgCommit rq _ => decide (rq < 33)
  | .pkgCommitDone => true
  | .vcoreSetPointReached => true
  | .arclkSwitchDone => true
  | .csi2FrameStart port vc _ _ => decide (port < 16) && decide (vc < 16)
  | .csi2LineStart port vc _ _ => decide (port < 16) && decide (vc < 16)
  | .csi2LongPacket port vc _ _ _ _ => decide (port < 16) && decide (vc < 16)
  | .embeddedData port vc _ _ _ => decide (port < 16) && decide (vc < 16)
  | .csi2FrameEnd port vc _ _ => decide (port < 16) && decide (vc < 16)
  | .lineTimeout stream => decide (stream < 64)
  | .streamLoss stream => decide (stream < 64)
  | .lineLanded stream => decide (stream < 64)
  | .settingsWindowOpen stream => decide (stream < 64)
  | .settingsWindowClose stream => decide (stream < 64)
  | .sensorTransferDone stream _ _ => decide (stream < 64)
  | .i2cStretchTimeout stream _ => decide (stream < 64)
  | .sensorIbi port _ _ => decide (port < 16)
  | .fsyncOutAssert k => decide (k < 8)
  | .fsyncOutDeassert k => decide (k < 8)
  | .fsyncInEdge n _ => decide (n < 4)
  | .timerTrigger tmpl => decide (tmpl < 256)
  | .handleTrigger m => decide (m < 1024)
  | .handleClaim m => decide (m < 1024)
  | .timeWaitExpiry tmpl slot node _ => decide (tmpl < 256) && decide (slot < 8) && decide (node < 4096)
  | .gangStarveGuard prio => decide (prio < 8)
  | .shareWindowEnd => true
  | .icoreTask core => decide (core < 4)
  | .ispFrameRecord core => decide (core < 4)
  | .wpeResample core unit => decide (core < 4) && decide (unit < 2)
  | .wpeMeshInvert core unit => decide (core < 4) && decide (unit < 2)
  | .pyeTask core => decide (core < 4)
  | .steTask core => decide (core < 4)
  | .ofeTask core => decide (core < 4)
  | .kpeDetect core => decide (core < 4)
  | .kpeTrack core => decide (core < 4)
  | .kpeMatch core => decide (core < 4)
  | .ncoreTaskDispatch => true
  | .todConv2d core => decide (core < 64)
  | .todMatmul core => decide (core < 64)
  | .todAttention core => decide (core < 64)
  | .todEltwise core => decide (core < 64)
  | .todAct core => decide (core < 64)
  | .todNorm core => decide (core < 64)
  | .todPool core => decide (core < 64)
  | .todResize core => decide (core < 64)
  | .todReduce core => decide (core < 64)
  | .todSoftmax core => decide (core < 64)
  | .todGather core => decide (core < 64)
  | .todScatter core => decide (core < 64)
  | .todTransform core => decide (core < 64)
  | .todQuant core => decide (core < 64)
  | .todTopk core => decide (core < 64)
  | .todNms core => decide (core < 64)
  | .todArgmax core => decide (core < 64)
  | .streamCopy ctx => decide (ctx < 256)
  | .streamTensor ctx => decide (ctx < 256)
  | .streamReadReturn ctx _ read => decide (ctx < 256) && decide (read.tag < 256)
  | .pcieCompletionTimeout ctx read => decide (ctx < 256) && decide (read.tag < 256)
  | .publishEthernet mac => decide (mac < 2)
  | .ethRecordCommit mac => decide (mac < 2)
  | .ethFrameSent mac => decide (mac < 3)
  | .publishHostRing port => decide (port < 2)
  | .publishCsi2Tx tx => decide (tx < 2)
  | .csi2TxCommit tx => decide (tx < 2)
  | .fwSettings => true
  | .fwRearm => true
  | .fwPush => true
  | .fwCounterSet => true
  | .fwNotify => true
  | .millracePushAccept m => decide (m < 1024)
  | .taskComplete engine => decide (engine < 0x10100)
  | .sluiceWindowEnd sluice => decide (sluice < 512)
  | .instanceDrained tmpl slot => decide (tmpl < 256) && decide (slot < 8)
  | .windowWrite fn _ _ _ => decide (fn < 32)
  | .windowRead fn _ _ _ _ => decide (fn < 32)
  | .windowWriteLanded win => decide (win < 2048)
  | .scrubRow slice group _ => decide (slice < 64) && decide (group < 4)
  | .eccWriteback slice => decide (slice < 64)
  | .sliceIdleRepair slice => decide (slice < 64)
  | .repairCopyDone slice => decide (slice < 64)
  | .wheelPoisonFill core wheel => decide (core < 64) && decide (wheel < 64)
  | .checkIntervalStart => true
  | .goldenRunDone engine _ => goldenUnit engine
  | .safeHbToggle => true
  | .safetyRecordRepeat => true
  | .scpLockstepMismatch => true
  | .siLockstepMismatch => true
  | .clockFault => true
  | .sslCsFall => true
  | .sslNop => true
  | .sslSelect index => decide (index < 256)
  | .sslAckTransient => true
  | .sslBadFrame _ => true
  | .supplyWarn => true
  | .supplyWarnEnd => true
  | .supplyReset => true
  | .supplyResetEnd => true
  | .powerMeasure _ => true
  | .thermalStepDown _ => true
  | .thermalStepUp _ => true
  | .thermalTrip _ => true
  | .thermtripAssert => true
  | .ceWindowEnd => true
  | .engineIdle engine => decide (engine < 65536)
  | .coreNap unit => decide (unit < 65536)
  | .unitWakeDone unit => decide (unit < 65536)
  | .sleepEntry => true
  | .sleepWakeDone => true
  | .prewake tmpl => decide (tmpl < 256)
  | .prewakeExpire tmpl => decide (tmpl < 256)
  | .deviceTimeTick => true
  | .ptmRequest port _ => decide (port < 2)
  | .ptmResponse port _ => decide (port < 2)
  | .gptpMessage mac _ => decide (mac < 2)
  | .ethArpRequest mac sha spa tpa => decide (mac < 2) && sha.length == 6 && spa.length == 4 && tpa.length == 4
  | .ethNeighborSolicitation port src target sll =>
    decide (port < 3) && src.length == 16 && target.length == 16 && sll.length == 6
  | .ethIcmpEcho port v6 mac src dst _ =>
    decide (port < 3) && mac.length == 6 && src.length == (if v6 then 16 else 4) &&
      dst.length == (if v6 then 16 else 4)
  | .ethRxDrop mac _ => decide (mac < 2)
  | .ethLinkChange mac _ => decide (mac < 2)
  | .flr fn => decide (fn < 32)
  | .perstAssert port => decide (port < 2)
  | .hotReset port => decide (port < 2)
  | .vfEnableClear port => decide (port < 2)
  | .linkDown port => decide (port < 2)
  | .linkUp port speed width =>
    decide (port < 2) && decide (1 ≤ speed) && decide (speed ≤ 5) && [1, 2, 4, 8].contains width
  | .msixUnmask fn vec => decide (fn < 32) && decide (vec < 1024)
  | .doeDiscovery port _ => decide (port < 2)
  | .doeAbort port => decide (port < 2)
  | .getVersion link _ => link.wf
  | .getCapabilities link _ => link.wf
  | .negotiateAlgorithms link _ => link.wf
  | .getDigests link _ => link.wf
  | .getCertificate link _ => link.wf
  | .challenge link _ => link.wf
  | .getMeasurements link _ => link.wf
  | .keyExchange link _ => link.wf
  | .finish link _ => link.wf
  | .endSession link _ => link.wf
  | .heartbeat link _ => link.wf
  | .keyUpdate link _ => link.wf
  | .getEncapsulatedRequest link _ => link.wf
  | .deliverEncapsulatedResponse link _ => link.wf
  | .spdmUnsupportedRequest link _ _ => link.wf
  | .sessionHandshakeTimeout sess => decide (sess < 65536)
  | .aonPowerUp _ => true
  | .powerOff => true
  | .resetAssert => true
  | .resetRelease => true
  | .selfTestDone _ => true
  | .trialCountStore => true
  | .trialRunExpiry => true
  | .functionResetDone fn => decide (fn < 32)
  | .pmbusTransferDone _ => true
  | .mgtLinkChange _ speed => decide (speed < 3)
  | .peerDelayRequest mac => decide (mac < 2)

end Sys2Proof
end

