-- ==== Sys2Proof/Machine/Ops.lean ====
section
/-! DEFINITION. The named operations over the state: registers and counters, the log, the grants of the isolation
table, address checks, memory, its encryption and poison, host writes and MSI-X messages, outputs. -/

namespace Sys2Proof.Machine

/-! ### Uniform form of a command's meaning -/

/-- A command's effect leaves the queue of waiting commands to the step. -/
def keepQueue (s t : State) : State := { t with pending := s.pending }

/-- A command whose operands name objects the device has takes effect; with others it is a fault. -/
def onObject (ok : Bool) (s : State) (eff : State → State) :
    Host.Outcome State Fault Refusal :=
  if ok then .next (keepQueue s (eff s)) else .fault .noSuchObject

/-- The part outside the always-on domain is alive: powered and not held in reset (R443, R505). -/
def alive (s : State) : Bool := s.powered && s.held == 0

/-- An effect of the part outside the always-on domain: nothing happens while it is unpowered or held in reset. -/
def whenAlive (s : State) (eff : State → State) : State := if alive s then eff s else s

/-- Outcome of a command of the part outside the always-on domain. -/
def act (ok : Bool) (s : State) (eff : State → State) : Host.Outcome State Fault Refusal :=
  onObject ok s (fun s => whenAlive s eff)

/-- An event that comes about only under its conditions: without them nothing happens. -/
def guardS (c : Bool) (s : State) (eff : State → State) : State := if c then eff s else s

/-! ### Registers, counters, selectors -/

/-- Key of a register word. -/
def rk (off idx : Nat) : Nat := off + 0x1000000 * idx

/-- A register's stored value. -/
def rget (s : State) (off idx : Nat) : Nat :=
  (tget (BitVec.ofNat 32 (regInit off)) s.regs (rk off idx)).toNat

/-- Store a register's value. -/
def rput (off idx v : Nat) (s : State) : State :=
  { s with regs := tset (BitVec.ofNat 32 (regInit off)) s.regs (rk off idx) (BitVec.ofNat 32 v) }

/-- Add to a counter, saturating (R37, R74). -/
def cnt (off idx n : Nat) (s : State) : State := rput off idx (sat32 (rget s off idx + n)) s

/-- Raise a maximum register. -/
def rmax (off idx v : Nat) (s : State) : State := rput off idx (max (rget s off idx) (min v (2 ^ 32 - 1))) s

/-- A requester's copy of a selector, or its shadow of a time register's upper word (R75, PWR_TIME_HI). -/
def selGet (s : State) (rq off : Nat) : Nat := (tget (0 : Word) s.sel (rk off rq)).toNat

/-- Set a requester's copy. -/
def selPut (rq off v : Nat) (s : State) : State :=
  { s with sel := tset (0 : Word) s.sel (rk off rq) (BitVec.ofNat 32 v) }

/-- R75, R395, R453, ...: a write dropped for rights or state is counted for its requester. -/
def countDenied (rq : Nat) (s : State) : State := cnt R.hostFnWrDenied rq 1 s

/-- R26: an access to an address holding no register is counted for its requester. -/
def countHole (rq : Nat) (s : State) : State := cnt R.hostFnMmioHole rq 1 s

/-- R11: a mis-shaped access is counted for its requester. -/
def countShape (rq : Nat) (s : State) : State := cnt R.hostFnMmioShape rq 1 s

/-- The requesters R30 names: the management port and firmware (32), and PF0 of port 0 in host-owner mode. -/
def privileged (s : State) (rq : Nat) : Bool := rq == 32 || (rq == 0 && s.sec.hostOwner)

/-- Number of PCIe functions: 32 with two ports, 16 with one (R352). -/
def nFns (s : State) : Nat := if s.bifurcated then 32 else 16

/-- The port of a function (R324). -/
def portOf (fn : Nat) : Nat := fn / 16

/-- A function is its port's PF0. -/
def isPf (fn : Nat) : Bool := fn % 16 == 0

/-- R275, R468: the place on the floor plan of the core that holds an index of the distance table. -/
def corePlace (s : State) (i : Nat) : Nat := i + 68 * tget 0 s.nv.substituted i

/-! ### Engine references (R20, R21) -/

/-- Engine reference of an N-core's engine; 32 is its control unit. -/
def engN (c e : Nat) : Nat := c * 64 + e
/-- Engine reference of a V-core's engine. -/
def engV (c e : Nat) : Nat := 0x4000 + c * 64 + e
/-- Engine reference of an I-core's stage. -/
def engI (c e : Nat) : Nat := 0x8000 + c * 64 + e
/-- Engine reference of a chip-level unit. -/
def engU (u e : Nat) : Nat := 0xC000 + u * 64 + e

/-- The sequencer keeps a stream context apart from its engine under this number. -/
def engCtx (ctx : Nat) : Nat := 0x10000 + ctx

/-- The 16-bit engine reference of an engine number: a context stands for its stream engine (R303). -/
def engRef (e : Nat) : Nat := if 0x10000 ≤ e then engU (1 + (e - 0x10000) / 64) 0 else e

/-- Status and DETAIL of a failed check. -/
abbrev Err := Nat × Nat

/-! ### Log and outputs -/

/-- R392, R41: enter a log entry with the retry counts lower levels had reached; the 4,096 newest are kept. -/
def addLogR (retry code tenant engine d0 d1 d2 : Nat) (s : State) : State :=
  let e : LogEntry := { code := code, tenant := tenant, seq := s.logNext, time := s.now, engine := engine,
                        d0 := w32 d0, d1 := w32 d1, d2 := w32 d2, retry := retry }
  if s.log.length < 4096 then { s with log := s.log ++ [e], logNext := w32 (s.logNext + 1) }
  else { s with
    log := (s.log ++ [e]).tail, logNext := w32 (s.logNext + 1),
    logGone := s.logGone ++ (s.log.take 1).map LogEntry.tenant }

/-- R392: enter a log entry. -/
def addLog (code tenant engine d0 d1 d2 : Nat) (s : State) : State := addLogR 0 code tenant engine d0 d1 d2 s

/-- Carry out a change as of an earlier device time, at which what it does is stamped. -/
def atTime (t : Nat) (f : State → State) (s : State) : State := { f { s with now := t } with now := s.now }

/-- A log entry whose data are an address, low word first. -/
def logAddr (code tenant engine a : Nat) (s : State) : State :=
  addLog code tenant engine a (a / 2 ^ 32) 0 s

/-- Send something out. -/
def emit (o : Out) (s : State) : State := { s with out := s.out ++ [o] }

/-- Advance the counter that free values are drawn at. -/
def draw (s : State) : State := { s with free := s.free + 1 }

/-! ### Isolation table (R417, R418) -/

/-- Word `k` of a tenant's entry in force. -/
def isoW (s : State) (t k : Nat) : Nat := (tget (0 : Word) s.sec.table (128 * t + k)).toNat

/-- The tenant is enabled. -/
def isoEn (s : State) (t : Nat) : Bool := bit (isoW s t 0) 0

/-- Priority cap of R61. -/
def prioCap (s : State) (t : Nat) : Nat := bits (isoW s t 0) 3 1

/-- KEY_QUOTA of R405. -/
def keyQuota (s : State) (t : Nat) : Nat := bits (isoW s t 0) 15 8

/-- Windows the function may open. -/
def winCount (s : State) (t : Nat) : Nat := bits (isoW s t 0) 22 16

/-- Millrace granted. -/
def mrqGranted (s : State) (t m : Nat) : Bool :=
  let w := isoW s t 1
  isoEn s t && decide (bits w 9 0 ≤ m) && decide (m < bits w 9 0 + bits w 20 10)

/-- Stream context granted. -/
def ctxGranted (s : State) (t c : Nat) : Bool :=
  let w := isoW s t 2
  isoEn s t && decide (bits w 7 0 ≤ c) && decide (c < bits w 7 0 + bits w 16 8)

/-- TEMPLATE_MAX. -/
def templateMax (s : State) (t : Nat) : Nat := bits (isoW s t 2) 25 17

/-- Camera stream granted. -/
def streamGranted (s : State) (t st : Nat) : Bool := isoEn s t && bit (isoW s t (3 + st / 32)) (st % 32)

/-- A mask of eight words. -/
def maskAt (s : State) (t k : Nat) : Nat :=
  (List.range 8).foldl (fun a i => a + isoW s t (k + i) * 2 ^ (32 * i)) 0

/-- Core mask of a kind: 0 N-core, 1 V-core, 2 I-core. -/
def coreMask (s : State) (t kind : Nat) : Nat := if isoEn s t then maskAt s t (8 + 8 * kind) else 0

/-- SHARE of a class in permille. -/
def shareOf (s : State) (t c : Nat) : Nat :=
  if isoEn s t then bits (isoW s t (32 + c / 3)) (10 * (c % 3) + 9) (10 * (c % 3)) else 0

/-- HBM ranges: base, length, encrypted. -/
def hbmRanges (s : State) (t : Nat) : List (Nat × Nat × Bool) :=
  if isoEn s t then
    (List.range 8).map (fun i => (bits (isoW s t (40 + 2 * i)) 23 0 * 0x200000,
      bits (isoW s t (41 + 2 * i)) 23 0 * 0x200000, bit (isoW s t (41 + 2 * i)) 24))
  else []

/-- SRA ranges: first row, rows. -/
def sraRanges (s : State) (t : Nat) : List (Nat × Nat) :=
  if isoEn s t then
    (List.range 8).map (fun i => (bits (isoW s t (56 + 2 * i)) 23 0, bits (isoW s t (57 + 2 * i)) 23 0))
  else []

/-- `[a, a + n)` is covered by the union of ranges. -/
def coveredBy : Nat → List (Nat × Nat) → Nat → Nat → Bool
  | 0, _, _, n => n == 0
  | f + 1, rs, a, n =>
    if n = 0 then true
    else match rs.find? (fun r => decide (r.1 ≤ a) && decide (a < r.1 + r.2)) with
      | some r => coveredBy f rs (r.1 + r.2) (n - (r.1 + r.2 - a))
      | none => false

/-- `[a, a + n)` lies within the ranges. -/
def covered (rs : List (Nat × Nat)) (a n : Nat) : Bool := coveredBy (rs.length + 1) rs a n

/-- The tenant's SRA grant holds every row of `[r, r + n)`. -/
def sraGrant (s : State) (t r n : Nat) : Bool := covered (sraRanges s t) r n

/-- The tenant's HBM grant holds `[a, a + n)`. -/
def hbmGrant (s : State) (t a n : Nat) : Bool := covered ((hbmRanges s t).map (fun r => (r.1, r.2.1))) a n

/-- The tenant holds a memory key (R412); the service-mode tenant's is kept from boot. -/
def hasMemKey (s : State) (t : Nat) : Bool :=
  t == 32 || s.sec.slots.any (fun e => match e.2 with
    | some k => k.kind == 3 && k.tenant == t
    | none => false)

/-! ### The address map (R24, R25) -/

def hbmBytes : Nat := 0xC00000000
def scratchBase : Nat := 0x010000000000
def scratchBytes : Nat := 0x20000000
def mmioBase : Nat := 0x020000000000
def hostBase : Nat := 0x800000000000
def hostTop : Nat := 0x1000000000000

/-- An address in the populated scratch aperture. -/
def isScratch (a : Nat) : Bool := decide (scratchBase ≤ a) && decide (a < scratchBase + scratchBytes)

/-- Scratch row of an aperture address. -/
def rowOf (a : Nat) : Nat := (a - scratchBase) / 512

/-- Aperture address of a scratch row (R24). -/
def rowAddr (r : Nat) : Nat := scratchBase + r * 512

/-- Bank of a row, numbered 16 × slice + bank (R274). -/
def bankOf (row : Nat) : Nat := row / 1024

/-- A row of a bank that serves as cache (R288): not addressable. -/
def inCache (s : State) (row : Nat) : Bool :=
  let n := tget 0 s.spd.cacheBanks (row / 16384)
  decide (16 - n ≤ (row / 1024) % 16)

/-- Some row of `[r, r + n)` lies in a cache bank. -/
def anyCache (s : State) (r n : Nat) : Bool :=
  s.spd.cacheBanks.any (fun e =>
    let lo := e.1 * 16384 + (16 - e.2) * 1024
    let hi := (e.1 + 1) * 16384
    decide (lo < r + n) && decide (r < hi))

/-- The regions of a function. -/
def regionsOf (s : State) (fn : Nat) : List Region := (tget fnReset s.fns fn).regions.filterMap (fun e => e.2)

/-- The region of a function that holds a device address. -/
def regionOf (s : State) (fn a : Nat) : Option Region :=
  (regionsOf s fn).find? (fun r => decide (r.dev ≤ a) && decide (a < r.dev + (r.size4k + 1) * 4096))

/-- R25, R390: every address of `[a, a + n)` is mapped by a region of the function, whichever. -/
def hostMapped (s : State) (fn a n : Nat) : Bool :=
  covered ((regionsOf s fn).map (fun r => (r.dev, (r.size4k + 1) * 4096))) a n

/-- What a range of addresses is. -/
inductive Where where
  | hbm | scratch | host | nowhere
  deriving DecidableEq, Repr

/-- Where `[a, a + n)` lies for a tenant (R25); the service-mode tenant has no regions. -/
def whereIs (s : State) (t a n : Nat) : Where :=
  if a + n ≤ hbmBytes then
    (if s.nv.hbmRetired.any (fun r => decide (a < r + 1024) && decide (r < a + n)) then .nowhere else .hbm)
  else if scratchBase ≤ a ∧ a + n ≤ scratchBase + scratchBytes then
    (if anyCache s (rowOf a) (cdiv (a + n - scratchBase) 512 - rowOf a) then .nowhere else .scratch)
  else if hostBase ≤ a ∧ t < 32 then
    (if hostMapped s t a n && (regionOf s t a).isSome then .host else .nowhere)
  else .nowhere

/-- R508: where a range named by a command lies: a retired HBM row is still populated, and faults when it is reached. -/
def whereNamed (s : State) (t a n : Nat) : Where := if a + n ≤ hbmBytes then .hbm else whereIs s t a n

/-- R508: a range named by a command, checked before its rights: it lies wholly in populated memory or in regions of
the function. -/
def rangePopulated (s : State) (t a n : Nat) : Bool :=
  match whereNamed s t a n with
  | .nowhere => false
  | _ => true

/-- R508: the range lies within the tenant's HBM or SRA grant; regions need no grant. -/
def rangeGranted (s : State) (t a n : Nat) : Bool :=
  match whereNamed s t a n with
  | .hbm => hbmGrant s t a n
  | .scratch => sraGrant s t (rowOf a) (cdiv (a + n - scratchBase) 512 - rowOf a)
  | .host => true
  | .nowhere => false

/-! ### Poison (R283) -/

/-- A bank accepts no write: powered down or about to be (R292). -/
def bankDead (s : State) (row : Nat) : Bool :=
  s.spd.off.contains (bankOf row) || s.spd.goingDown.contains (bankOf row)

/-- Reason a row is poisoned, 0 for none: a retired row stays one (R287), and a row of a bank without power is lost
whatever mark it carried. -/
def rowPoison (s : State) (row : Nat) : Nat :=
  if s.nv.rowRetired.contains row then 3
  else if bankDead s row then 2
  else match s.spd.poison.find? (fun e => decide (e.1 ≤ row) && decide (row < e.2.1)) with
  | some e => e.2.2
  | none => 0

/-- The row holds an error SECDED cannot correct that no read has found yet (R282, R283). -/
def hiddenUe (s : State) (row : Nat) : Bool := tget RowError.none s.spd.upsets row == .double

/-- The lowest of a list of rows. -/
def lowest (l : List Nat) : Option Nat := match l with | [] => none | x :: t => some (t.foldl min x)

/-- The least row of `[lo, hi)` in `[r, r + n)`. -/
def meets (r n lo hi : Nat) : Option Nat := if lo < r + n ∧ r < hi then some (max r lo) else none

/-- R283: the first row of `[r, r + n)` whose read returns poison, with the reason. -/
def readPoison (s : State) (r n : Nat) : Option (Nat × Nat) :=
  let rows := s.nv.rowRetired.filterMap (fun x => meets r n x (x + 1)) ++
    (s.spd.off ++ s.spd.goingDown).filterMap (fun k => meets r n (k * 1024) ((k + 1) * 1024)) ++
    s.spd.poison.filterMap (fun e => meets r n e.1 e.2.1) ++
    s.spd.upsets.filterMap (fun e => if e.2 = .double then meets r n e.1 (e.1 + 1) else none)
  (lowest rows).map (fun x => (x, if rowPoison s x = 0 then 1 else rowPoison s x))

/-- The first row of `[r, r + n)` that a whole-row write finds without power: it returns poison and writes nothing
(R292); the write of a retired row is dropped in silence (R287). -/
def deadRow (s : State) (r n : Nat) : Option (Nat × Nat) :=
  let c := (s.spd.off ++ s.spd.goingDown).filterMap (fun k => match meets r n (k * 1024) ((k + 1) * 1024) with
    | some lo => ((List.range (s.nv.rowRetired.length + 1)).map (· + lo)).find? (fun x =>
        decide (x < r + n) && decide (x < (k + 1) * 1024) && !s.nv.rowRetired.contains x)
    | none => none)
  (lowest c).map (fun x => (x, 2))

/-- The first row whose poison a write of `[a, a + n)` returns: a row written in part is read first (R276), a row
written whole is not. -/
def writePoison (s : State) (a n : Nat) : Option (Nat × Nat) :=
  let r0 := rowOf a
  let r1 := cdiv (a + n - scratchBase) 512
  let lo := if a % 512 = 0 then r0 else r0 + 1
  let hi := if (a + n) % 512 = 0 then r1 else r1 - 1
  match (if lo = r0 then none else readPoison s r0 1) with
  | some x => some x
  | none =>
    match deadRow s lo (hi - lo) with
    | some x => some x
    | none => if hi = r1 ∨ hi < lo then none else readPoison s hi 1

/-- Cut `[lo, hi)` out of the poison list. -/
def poisonCut (l : List (Nat × Nat × Nat)) (lo hi : Nat) : List (Nat × Nat × Nat) :=
  l.flatMap (fun e =>
    if e.2.1 ≤ lo ∨ hi ≤ e.1 then [e]
    else (if e.1 < lo then [(e.1, lo, e.2.2)] else []) ++ (if hi < e.2.1 then [(hi, e.2.1, e.2.2)] else []))

/-- Set the poison mark of rows `[lo, hi)`. -/
def setPoison (lo hi reason : Nat) (s : State) : State :=
  { s with spd := { s.spd with poison := (lo, hi, reason) :: poisonCut s.spd.poison lo hi } }

/-- Clear the poison mark of rows `[lo, hi)`. -/
def clearPoison (lo hi : Nat) (s : State) : State :=
  { s with spd := { s.spd with poison := poisonCut s.spd.poison lo hi } }

/-! ### Memory -/

/-- Read one byte of a memory; an unlisted byte reads 0 (DESIGN CHOICE). -/
def mget (m : List Host.Cell) (a : Nat) : Byte := tget (0 : Byte) m a

/-- Write one byte of a memory, keeping the canonical form. -/
def mput (m : List Host.Cell) (a : Nat) (b : Byte) : List Host.Cell := tset (0 : Byte) m a b

/-- The canonical form of a memory: addresses strictly rising, no entry equal to 0. -/
def Memory.wf (m : List Host.Cell) : Bool := twf (0 : Byte) m

/-- Write consecutive bytes. -/
def mputs (m : List Host.Cell) (a : Nat) : List Byte → List Host.Cell
  | [] => m
  | b :: t => mputs (mput m a b) (a + 1) t

/-- Read consecutive bytes. -/
def mgets (m : List Host.Cell) (a n : Nat) : List Byte := (List.range n).map (fun i => mget m (a + i))

/-! ### HBM encryption (R411, R412) -/

/-- An ENC range of a tenant holds `[a, a + n)` in part. -/
def encMeets (s : State) (t a n : Nat) : Bool :=
  (hbmRanges s t).any (fun r => r.2.2 && decide (a < r.1 + r.2.1) && decide (r.1 < a + n))

/-- R412: the range lies in an ENC range of a tenant that holds no memory key. -/
def keyless (s : State) (t a n : Nat) : Bool := encMeets s t a n && !hasMemKey s t

/-- R411: the memory key under which `[a, a + n)` is stored, in part at least. -/
def encKey (s : State) (a n : Nat) : Option (List Byte) :=
  s.sec.slots.findSome? (fun e => match e.2 with
    | some k => if k.kind == 3 && encMeets s k.tenant a n then some k.key else none
    | none => none)

/-- R411: a data unit of 64 bytes as its owner reads it. -/
def unitGet (s : State) (m : List Host.Cell) (u : Nat) : List Byte :=
  match encKey s (64 * u) 64 with
  | some k => xtsOpen k u (mgets m (64 * u) 64)
  | none => mgets m (64 * u) 64

/-- R411: store a data unit. -/
def unitPut (s : State) (u : Nat) (l : List Byte) (m : List Host.Cell) : List Host.Cell :=
  match encKey s (64 * u) 64 with
  | some k => mputs m (64 * u) (xtsSeal k u l)
  | none => mputs m (64 * u) l

/-- Read HBM through its encryption. -/
def hbmGets (s : State) (a n : Nat) : List Byte :=
  if (encKey s a n).isSome then
    (((List.range (cdiv (a + n) 64 - a / 64)).flatMap (fun i => unitGet s s.mem (a / 64 + i))).drop (a % 64)).take n
  else mgets s.mem a n

/-- R411: write HBM through its encryption: a write of part of a data unit is read, merged and written. -/
def hbmPuts (s : State) (a : Nat) (l : List Byte) : List Host.Cell :=
  if (encKey s a l.length).isSome then
    (List.range (cdiv (a + l.length) 64 - a / 64)).foldl (fun m i =>
      let u := a / 64 + i
      let o := 64 * u - a
      let d := a - 64 * u
      let old := unitGet s m u
      let new := (l.drop o).take (64 - d)
      unitPut s u (old.take d ++ new ++ old.drop (d + new.length)) m) s.mem
  else mputs s.mem a l

/-- The memory behind a port. -/
def hostMem (s : State) (port : Nat) : List Host.Cell := if port = 0 then s.host0 else s.host1

/-- Replace the memory behind a port. -/
def setHostMem (port : Nat) (m : List Host.Cell) (s : State) : State :=
  if port = 0 then { s with host0 := m } else { s with host1 := m }

/-- The port's link. -/
def portSt (s : State) (p : Nat) : Port := tget portReset s.ports p

/-- Change a port. -/
def modPort (p : Nat) (f : Port → Port) (s : State) : State :=
  { s with ports := tmod portReset s.ports p f }

/-- R363: the port's DOE mailbox is still busy with an object. -/
def doeBusy (s : State) (p : Nat) : Bool := decide (s.now < (portSt s p).doeFree)

/-- R363: the mailbox takes an object and holds its response. -/
def doeAnswer (p : Nat) (body : List Byte) (s : State) : State :=
  draw (modPort p (fun q => { q with doeResp := body, doeFree := s.now + Config.doeTime s.free }) s)

/-- R315: the requests one access of `[a, a + n)` through a function's regions makes: each within one region, within one
4 KiB page, and of at most `lim` bytes; PCIe address, place within the access, length. -/
def hostPieces (s : State) (fn lim : Nat) : Nat → Nat → Nat → Nat → List (Nat × Nat × Nat)
  | 0, _, _, _ => []
  | f + 1, a, i, n =>
    if n = 0 then []
    else match regionOf s fn a with
      | none => []
      | some r =>
        let p := r.pcie + (a - r.dev)
        let m := min (min n (max 1 lim)) (min (r.dev + (r.size4k + 1) * 4096 - a) (4096 - p % 4096))
        (p, i, m) :: hostPieces s fn lim f (a + m) (i + m) (n - m)

/-- R354: one posted write, which carries the function's requester ID (R315), toward its port: discarded and counted
while the link is down. -/
def hostPut (fn a : Nat) (l : List Byte) (s : State) : State :=
  if (portSt s (portOf fn)).up then setHostMem (portOf fn) (mputs (hostMem s (portOf fn)) a l) s
  else cnt R.hostPortDiscard (portOf fn) 1 s

/-- One byte as a tenant reads it: HBM through its encryption, scratch, or host memory through its region. -/
def rdByte (s : State) (t a : Nat) : Byte :=
  if hostBase ≤ a then
    match regionOf s t a with
    | some r => mget (hostMem s (portOf t)) (r.pcie + (a - r.dev))
    | none => 0
  else if a < hbmBytes ∧ (encKey s a 1).isSome then (unitGet s s.mem (a / 64)).getD (a % 64) 0
  else mget s.mem a

/-- Bytes as a tenant reads them. -/
def rdBytes (s : State) (t a n : Nat) : List Byte := (List.range n).map (fun i => rdByte s t (a + i))

/-- 32-bit words as a tenant reads them (R4). -/
def rdWords (s : State) (t a n : Nat) : List Nat :=
  (List.range n).map (fun i => leNat (rdBytes s t (a + 4 * i) 4))

/-- A little-endian value of `n` bytes as a tenant reads it. -/
def rdN (s : State) (t a n : Nat) : Nat := leNat (rdBytes s t a n)

/-- A request reached the slices of rows `[r, r + n)` (R286: slice idle). -/
def touchRows (r n : Nat) (s : State) : State :=
  let a := r / 16384
  { s with spd := { s.spd with
    lastUse := (List.range (cdiv (r + n) 16384 - a)).foldl (fun t i => tset 0 t (a + i) s.now) s.spd.lastUse } }

/-! ### Errors in stored rows (R282 to R287) -/

/-- R471: the words of a repair-log entry. -/
def repairWords (kind reason eng time addr spare : Nat) : List Nat :=
  let w := [kind + reason * 2 ^ 8 + (Config.tileOf (if eng = 0xFFFF then addr else eng) % 4) * 2 ^ 16,
    eng + (Config.physOf eng % 65536) * 2 ^ 16, time % 2 ^ 32, time / 2 ^ 32 % 2 ^ 32, addr % 2 ^ 32,
    addr / 2 ^ 32 % 2 ^ 32, spare % 2 ^ 32]
  w ++ [crc32c (wordsBytes w)]

/-- R471, R472: enter a repair-log entry and its log entry; a full log is logged as such. -/
def logRepair (kind reason eng addr spare : Nat) (s : State) : State :=
  if 65536 ≤ s.nv.repairLog.length then addLog 0x0205 63 eng kind reason 0 s
  else addLog 0x0204 63 eng kind reason 0
    { s with nv := { s.nv with repairLog := s.nv.repairLog ++ [repairWords kind reason eng s.now addr spare] } }

/-- Bank group of a row, as 4 × slice + group. -/
def groupOf (row : Nat) : Nat := row / 4096

/-- Spare rows of a group still free for rows not yet queued. -/
def sparesLeft (s : State) (g : Nat) : Nat :=
  128 - tget 0 s.nv.rowSpares g - (s.nv.rowQueue.filter (fun r => groupOf r.1 == g)).length

/-- R286, R287: queue a row for repair, or retire it when no spare of its group remains. -/
def queueRow (row reason : Nat) (s : State) : State :=
  if s.nv.rowRetired.contains row || s.nv.rowQueue.any (fun r => r.1 == row) then s
  else if sparesLeft s (groupOf row) = 0 then
    logRepair 4 reason 0xFFFF row 0xFFFFFFFF { s with nv := { s.nv with rowRetired := s.nv.rowRetired ++ [row] } }
  else logRepair 3 reason 0xFFFF row (tget 0 s.nv.rowSpares (groupOf row))
    { s with nv := { s.nv with rowQueue := s.nv.rowQueue ++ [(row, reason)] } }

/-- A row's undiscovered error is gone: found, written over or lost. -/
def clearUpset (row : Nat) (s : State) : State :=
  { s with spd := { s.spd with upsets := tset RowError.none s.spd.upsets row .none } }

/-- R282, R283: a read or scrub found an error that cannot be corrected: poison, counted, queued for repair. -/
def rowUe (row : Nat) (s : State) : State :=
  if rowPoison s row = 3 then clearUpset row s
  else queueRow row 4 (cnt R.spdSliceUe (row / 16384) 1 (setPoison row (row + 1) 1 (clearUpset row s)))

/-- R282: a read found a single-bit error: delivered corrected, counted, and a write-back of the row is queued. -/
def rowCe (row : Nat) (s : State) : State :=
  cnt R.spdSliceCe (row / 16384) 1 { s with spd := { s.spd with
    writeback := if s.spd.writeback.contains row then s.spd.writeback else s.spd.writeback ++ [row] } }

/-- R282: the single-bit errors that a read of rows `[r, r + n)` finds. -/
def findCe (r n : Nat) (s : State) : State :=
  s.spd.upsets.foldl (fun s e => match e.2 with
    | .single _ => if r ≤ e.1 ∧ e.1 < r + n then rowCe e.1 s else s
    | _ => s) s

/-- A read of `[a, a + n)` reached memory. -/
def touchRead (a n : Nat) (s : State) : State :=
  if isScratch a ∧ n ≠ 0 then
    findCe (rowOf a) (cdiv (a + n - scratchBase) 512 - rowOf a)
      (touchRows (rowOf a) (cdiv (a + n - scratchBase) 512 - rowOf a) s)
  else s

/-- Rows `[r, r + n)` are written but for those that take no write: their stored errors are gone, and queued
write-backs are dropped (R282). -/
def freshRows (r n : Nat) (dead : Nat → Bool) (s : State) : State :=
  let hit := fun x => decide (r ≤ x) && decide (x < r + n) && !dead x
  { s with spd := { s.spd with
    upsets := s.spd.upsets.filter (fun e => !hit e.1), writeback := s.spd.writeback.filter (fun x => !hit x) } }

/-- Write bytes but in rows that take no write. -/
def putWhere (dead : Nat → Bool) (rows : List Nat) (a : Nat) (l : List Byte) (m : List Host.Cell) : List Host.Cell :=
  if rows.any dead then
    (l.zipIdx).foldl (fun m e => if dead (rowOf (a + e.2)) then m else mput m (a + e.2) e.1) m
  else mputs m a l

/-- R283: whole rows written lose their poison mark, `n` rows from `r0` being touched. -/
def clearWhole (whole : List Nat) (r0 n : Nat) (s : State) : State :=
  if whole.length = n then clearPoison r0 (r0 + n) s else whole.foldl (fun s r => clearPoison r (r + 1) s) s

/-- R290: HBM lines written whole hold no check pattern any more. -/
def freshLines (a n : Nat) (s : State) : State :=
  { s with spd := { s.spd with hbmBad := s.spd.hbmBad.filter (fun l => !(decide (a ≤ l * 512) && decide (l * 512 + 512 ≤ a + n))) } }

/-- Write device memory: a write to a retired row is dropped and counted (R287), one to an unpowered bank writes
nothing (R292), a row written in part is read first (R276), and a whole row written loses its poison mark (R283). -/
def devPut (a : Nat) (l : List Byte) (s : State) : State :=
  if isScratch a then
    let r0 := rowOf a
    let n := cdiv (a + l.length - scratchBase) 512 - r0
    let rows := (List.range n).map (· + r0)
    let dead := fun r => bankDead s r || rowPoison s r == 3
    let bad := rows.filter (fun r => rowPoison s r == 3)
    let full := fun r => decide (a ≤ rowAddr r) && decide (rowAddr r + 512 ≤ a + l.length)
    let s0 := (rows.filter (fun r => !full r)).foldl (fun s r => findCe r 1 s) s
    clearWhole (rows.filter (fun r => full r && !dead r)) r0 n (freshRows r0 n dead
      (touchRows r0 n (bad.foldl (fun s r => cnt R.spdSliceUe (r / 16384) 1 s)
        { s0 with mem := putWhere dead rows a l s0.mem })))
  else freshLines a l.length { s with mem := hbmPuts s a l }

/-- Write as a tenant: device memory, or posted writes through its regions (R315, R355, R361). -/
def wrBytes (t a : Nat) (l : List Byte) (s : State) : State :=
  if hostBase ≤ a then
    (hostPieces s t (tget fnReset s.fns t).maxPayload l.length a 0 l.length).foldl
      (fun s p => hostPut t p.1 ((l.drop p.2.1).take p.2.2) s) s
  else devPut a l s

/-! ### Access checks of tasks (R25, R283, R301) -/

/-- What an access of a task meets: nothing, or the log entry it enters. -/
inductive Chk where
  | ok
  | unmapped (a : Nat)
  | denied (a : Nat)
  | poison (row reason : Nat)
  | check (a : Nat)
  | timeout (a : Nat)
  deriving DecidableEq, Repr

/-- R290: the first HBM line of `[a, a + n)` that holds an uncorrectable check pattern. -/
def badLine (s : State) (a n : Nat) : Option Nat :=
  lowest (s.spd.hbmBad.filter (fun l => decide (l * 512 < a + n) && decide (a < (l + 1) * 512)))

/-- R470: an uncorrectable HBM row is queued for repair. -/
def queueHbm (a : Nat) (s : State) : State :=
  let row := a / 1024 * 1024
  { s with nv := { s.nv with
    hbmQueued := if s.nv.hbmQueued.contains row then s.nv.hbmQueued else s.nv.hbmQueued ++ [row] } }

/-- Check a read or a write of `[a, a + n)` by a tenant's task.  A write of part of a row reads the row first (R276);
a read through a region ends as a completion timeout while the port's link is down (R354). -/
def chkAccess (s : State) (t a n : Nat) (wr : Bool) : Chk :=
  if n = 0 then .ok
  else match whereIs s t a n with
  | .nowhere => .unmapped a
  | .host => if wr || (portSt s (portOf t)).up then .ok else .timeout a
  | .hbm =>
    if !hbmGrant s t a n then .unmapped a
    else if keyless s t a n then .unmapped a
    else match (if wr then none else badLine s a n) with
      | some l => .check (l * 512)
      | none => .ok
  | .scratch =>
    let r0 := rowOf a
    let n' := cdiv (a + n - scratchBase) 512 - r0
    if !sraGrant s t r0 n' then .denied a
    else match (if wr then writePoison s a n else readPoison s r0 n') with
      | none => .ok
      | some (r, why) => .poison r why

/-- The first failing access of a list of reads and writes. -/
def chkAll (s : State) (t : Nat) (reads writes : List (Nat × Nat)) : Chk :=
  let step := fun (c : Chk) (e : (Nat × Nat) × Bool) => match c with
    | .ok => chkAccess s t e.1.1 e.1.2 e.2
    | c => c
  ((reads.map (fun r => (r, false))) ++ (writes.map (fun r => (r, true)))).foldl step .ok

/-- What a read that ends in poison leaves: its slice was used (R286), and an uncorrectable error it found is marked, counted
and queued (R283, R286). -/
def markPoison (c : Chk) (s : State) : State :=
  match c with
  | .poison r _ => touchRows r 1 (if hiddenUe s r then rowUe r s else s)
  | _ => s

/-- What a tenant's read of `[a, a + n)` leaves behind in the scratchpad, whether it succeeds or meets poison. -/
def readMark (t a n : Nat) (s : State) : State :=
  match chkAccess s t a n false with
  | .ok => touchRead a n s
  | c => markPoison c s

/-- Enter the log entry of a failed access (R25, R283, R301); a read that finds an uncorrectable error poisons its row.
A read of an HBM line with an uncorrectable check pattern is entered as the fault that made it was (R290; DESIGN CHOICE,
log entry 175: DATA0 is the HBM line); a read that a host never answers is entered as one of an address that holds
nothing (DESIGN CHOICE, log entry 187). -/
def logChk (c : Chk) (t eng : Nat) (s : State) : State :=
  match c with
  | .ok => s
  | .unmapped a => logAddr 0x0001 t eng a s
  | .denied a => logAddr 0x0002 t eng a s
  | .poison r why => addLog 0x0003 t eng r why 0 (markPoison c s)
  | .check a => addLog 0x0003 t eng (a / 512) 1 0 (queueHbm a s)
  | .timeout a => logAddr 0x0001 t eng a s

/-- R508: a host ends a read of a packet's range with a completion error: it answers as it likes (log entry 196). -/
def hostRefuses (s : State) (a : Nat) : Bool := decide (hostBase ≤ a) && Config.hostRefuses s.free a

/-- A read through a region has drawn the host's answer. -/
def drawHost (a : Nat) (s : State) : State := if hostBase ≤ a then draw s else s

/-! ### Functions, MSI-X -/

/-- A function's state. -/
def fnSt (s : State) (f : Nat) : Fn := tget fnReset s.fns f

/-- Change a function. -/
def modFn (f : Nat) (g : Fn → Fn) (s : State) : State := { s with fns := tmod fnReset s.fns f g }

/-- R361: MSI-X entries of a function. -/
def msixCount (fn : Nat) : Nat := if isPf fn then 1024 else 64

/-- Word `k` of an MSI-X table entry; every vector is masked at reset, as the PCIe specification has it. -/
def msixW (s : State) (fn vec k : Nat) : Nat :=
  (tget (0 : Word) s.msix (fn * 4096 + vec * 4 + k)).toNat

/-- Word 3 of an entry is held complemented in bit 0, so that an unlisted entry is masked. -/
def msixMasked (s : State) (fn vec : Nat) : Bool := (fnSt s fn).msixMask || !bit (msixW s fn vec 3) 0

/-- R361: an event on a vector sends its message, or sets its pending bit while masked.  Events of a function under
reset send none (R353). -/
def msixEvent (fn vec : Nat) (s : State) : State :=
  if (fnSt s fn).resetting || !(fnSt s fn).msixEn || decide (msixCount fn ≤ vec) then s
  else if msixMasked s fn vec then
    (if s.msixPend.contains (fn * 4096 + vec) then s else { s with msixPend := s.msixPend ++ [fn * 4096 + vec] })
  else hostPut fn (msixW s fn vec 0 + 2 ^ 32 * msixW s fn vec 1) (leBytes 4 (msixW s fn vec 2)) s

/-! ### Availability -/

/-- A core of a kind is set in the availability mask (R19). -/
def coreAvail (s : State) (kind c : Nat) : Bool :=
  if kind = 0 then bit s.availN c else if kind = 1 then bit s.availV c else bit s.availI c

/-- Enabled cores of a kind (R18). -/
def coreCount (kind : Nat) : Nat := if kind = 0 then 64 else 4

/-- Kind of core a class runs on (R22): 0 N-core, 1 V-core, 2 I-core, 3 none. -/
def classKind (cls : Nat) : Nat :=
  if cls = 0 then 2 else if 1 ≤ cls ∧ cls ≤ 5 then 1 else if cls = 6 ∨ cls = 7 then 0 else 3

end Sys2Proof.Machine
end

