-- ==== Sys2Proof/Machine/Cache.lean ====
section
/-! DEFINITION. Cache mode (R288 to R291): the cache of a slice before HBM, its lines, task boundaries and errors. -/

namespace Sys2Proof.Machine

/-- First row of bank `b` of a slice. -/
def bankRow (slice b : Nat) : Nat := (16 * slice + b) * 1024

/-- Cache banks of core `c` in force. -/
def cacheN (s : State) (c : Nat) : Nat := tget 0 s.spd.cacheBanks c

/-- Lines of core `c`'s cache, most recently used first. -/
def cacheOf (s : State) (c : Nat) : List CacheLine := tget [] s.spd.cacheLines c

/-- Replace them. -/
def putCache (c : Nat) (l : List CacheLine) (s : State) : State :=
  { s with spd := { s.spd with cacheLines := tset [] s.spd.cacheLines c l } }

/-- R288: the set of a line with `n` cache banks. -/
def cacheSet (n line : Nat) : Nat := line % (128 * n)

/-- Row of the slice that holds a cached line: set by set, the eight ways in order (log entry 173). -/
def cacheRow (c n : Nat) (l : CacheLine) : Nat := bankRow c (16 - n) + cacheSet n l.line * 8 + l.way

/-- A mask of bytes `[i, i + k)` of a line. -/
def byteMask (i k : Nat) : Nat := (2 ^ k - 1) * 2 ^ i

/-- R289: a line's written bytes go to HBM. -/
def flushLine (l : CacheLine) (s : State) : State :=
  if l.dirt = 0 then s
  else if l.dirt = byteMask 0 512 then freshLines (l.line * 512) 512 { s with mem := hbmPuts s (l.line * 512) l.data }
  else
    let old := hbmGets s (l.line * 512) 512
    { s with mem := hbmPuts s (l.line * 512) (List.zipWith (fun o e => if bit l.dirt e.2 then e.1 else o) old l.data.zipIdx) }

/-- R290, R286: a read found an uncorrectable error in a cache row: counted, and the row is queued for repair. -/
def cacheRowUe (row : Nat) (s : State) : State :=
  queueRow row 4 (cnt R.spdSliceUe (row / 16384) 1 (clearUpset row s))

/-- R67, R290: the instance of the task that runs on core `c` is aborted: a row its core read is uncorrectable. -/
def abortUser (c row : Nat) (s : State) : State :=
  s.seq.runs.foldl (fun s r =>
    if r.gang.contains c && !r.cancelled then
      addLog 0x0003 r.task.tenant (engRef r.eng) row 1 0
        { s with seq := { s.seq with toAbort := s.seq.toAbort ++ [(r.task.tmpl, r.task.slot, 2)] } }
    else s) s

/-- R290: an uncorrectable error in a dirty line: it leaves the cache, HBM takes an uncorrectable check pattern in its place,
and the owning instance is aborted. -/
def dropBad (c : Nat) (x : CacheLine) (s : State) : State :=
  let row := cacheRow c (cacheN s c) x
  let s1 := cacheRowUe row (putCache c ((cacheOf s c).filter (fun y => y.line != x.line)) s)
  abortUser c row
    { s1 with spd := { s1.spd with hbmBad := if s1.spd.hbmBad.contains x.line then s1.spd.hbmBad else s1.spd.hbmBad ++ [x.line] } }

/-- A dirty line that holds an uncorrectable error. -/
def lineLost (s : State) (c : Nat) (x : CacheLine) : Bool := x.dirt != 0 && hiddenUe s (cacheRow c (cacheN s c) x)

/-- R289: every dirty line of core `c` is written back; one that cannot be read is lost (R290). -/
def cacheFlush (c : Nat) (s0 : State) : State :=
  if (cacheOf s0 c).all (fun l => l.dirt == 0) then s0
  else
    let s := ((cacheOf s0 c).filter (lineLost s0 c)).foldl (fun s x => dropBad c x s) s0
    let l := cacheOf s c
    putCache c (l.map (fun x => { x with dirt := 0 })) (l.foldl (fun s x => flushLine x s) s)

/-- R290: a scrub or a copy of a cache row found an uncorrectable error: a clean line is invalidated, a dirty one lost. -/
def cacheRowBad (row : Nat) (s : State) : State :=
  let c := row / 16384
  match (cacheOf s c).find? (fun x => cacheRow c (cacheN s c) x == row) with
  | some x =>
    if x.dirt ≠ 0 then dropBad c x s
    else cacheRowUe row (putCache c ((cacheOf s c).filter (fun y => y.line != x.line)) s)
  | none => cacheRowUe row s

/-- R289, R291: a task boundary of core `c`: a change of BANKS takes effect, and an invalidation. -/
def cacheBoundary (c : Nat) (s : State) : State :=
  if s.spd.cachePend.contains c then
    let n := bits (rget s R.spdSliceCache c) 3 0
    let o := cacheN s c
    let s1 := putCache c [] { s with spd := { s.spd with
      cachePend := s.spd.cachePend.filter (· != c), cacheBanks := tset 0 s.spd.cacheBanks c n } }
    if n < o then setPoison (bankRow c (16 - o)) (bankRow c (16 - n)) 5 s1 else s1
  else s

/-- R289: a task starts on core `c`: every line is invalidated unless KEEP_CLEAN; a tenant switch takes them all. -/
def cacheStart (c : Nat) (switch : Bool) (s : State) : State :=
  let s1 := cacheBoundary c s
  if (switch || !bit (rget s1 R.spdSliceCache c) 4) && !(cacheOf s1 c).isEmpty then putCache c [] s1 else s1

/-- R289: a task on core `c` ends: its dirty lines go to HBM, and the core is at a task boundary. -/
def cacheEnd (c : Nat) (s : State) : State := cacheBoundary c (cacheFlush c s)

/-- R288: put a line in its set: the least recently used way of a full set goes, and what it holds that is written goes
to HBM, or is lost (R290). -/
def cacheFill (c n : Nat) (line : Nat) (data : List Byte) (s : State) : State :=
  let l := cacheOf s c
  let same := l.filter (fun x => cacheSet n x.line == cacheSet n line)
  let victim := if 8 ≤ same.length then same.getLast? else none
  let way := match victim with
    | some v => v.way
    | none => ((List.range 8).find? (fun w => !same.any (fun x => x.way == w))).getD 0
  let s1 := match victim with
    | some v => if lineLost s c v then dropBad c v s else flushLine v s
    | none => s
  let x : CacheLine := { line := line, way := way, dirt := 0, data := data }
  freshRows (cacheRow c n x) 1 (fun _ => false)
    (touchRows (cacheRow c n x) 1 (putCache c (x :: l.filter (fun y => victim != some y)) s1))

/-- R288: core `c` accesses an HBM line: a hit makes it the latest used, a miss brings it in, fetched unless `whole`.
R290: an uncorrectable error in a clean line invalidates it, and it is fetched again. -/
def cacheTouch (c line : Nat) (whole : Bool) (s : State) : State :=
  let n := cacheN s c
  if n = 0 then s
  else
    let miss := fun (s : State) => cacheFill c n line (if whole then List.replicate 512 0 else hbmGets s (line * 512) 512)
      (cnt R.spdSliceMiss c 1 s)
    match (cacheOf s c).find? (fun x => x.line == line) with
    | none => miss s
    | some x =>
      let rest := (cacheOf s c).filter (fun y => y.line != line)
      let row := cacheRow c n x
      if hiddenUe s row && x.dirt == 0 then miss (putCache c rest (cacheRowUe row s))
      else findCe row 1 (touchRows row 1 (putCache c (x :: rest) (cnt R.spdSliceHit c 1 s)))

/-- HBM lines that ranges touch, each once, in ascending order. -/
def linesOf (l : List (Nat × Nat)) : List Nat :=
  (l.foldl (fun (t : Tab Nat) x =>
    if x.2 = 0 ∨ hbmBytes < x.1 + x.2 then t
    else (List.range ((x.1 + x.2 - 1) / 512 - x.1 / 512 + 1)).foldl (fun t i => tset 0 t (x.1 / 512 + i) 1) t) []).map (·.1)

/-- R290: a dirty line among those a core accesses that holds an uncorrectable error. -/
def dirtyBad (s : State) (c : Nat) (lines : List Nat) : Option CacheLine :=
  if cacheN s c = 0 then none else (cacheOf s c).find? (fun x => lines.contains x.line && lineLost s c x)

/-- R288: core `c` reads HBM. -/
def cacheReads (c : Nat) (reads : List (Nat × Nat)) (s : State) : State :=
  if cacheN s c = 0 then s else (linesOf reads).foldl (fun s l => cacheTouch c l false s) s

/-- Bytes of a cached line after a write of `[i, i + k)` in it. -/
def patchLine (x : CacheLine) (i : Nat) (l : List Byte) : CacheLine :=
  { x with data := x.data.take i ++ l ++ x.data.drop (i + l.length), dirt := x.dirt ||| byteMask i l.length }

/-- R288: core `c` writes bytes of one HBM line. -/
def cacheWriteLine (c a : Nat) (l : List Byte) (s : State) : State :=
  let s1 := cacheTouch c (a / 512) (decide (l.length = 512)) s
  putCache c ((cacheOf s1 c).map (fun x => if x.line = a / 512 then patchLine x (a % 512) l else x)) s1

/-- R288: core `c` writes HBM, line by line. -/
def cacheWrite (c : Nat) : Nat → Nat → List Byte → State → State
  | 0, _, _, s => s
  | f + 1, a, l, s =>
    if l.isEmpty then s
    else
      let n := 512 - a % 512
      cacheWrite c f (a + n) (l.drop n) (cacheWriteLine c a (l.take n) s)

/-- HBM as core `c` sees it, through its cache. -/
def cacheView (s : State) (c : Nat) : State :=
  (cacheOf s c).foldl (fun s x => { s with mem := hbmPuts s (x.line * 512) x.data }) s

/-- R250, R289: a barrier of a gang: what its members hold dirty goes to HBM, and no other member keeps a copy of it. -/
def cacheSync (gang : List Nat) (s : State) : State :=
  let dirty := gang.flatMap (fun c => ((cacheOf s c).filter (fun x => x.dirt != 0)).map (fun x => (c, x.line)))
  if dirty.isEmpty then s
  else
    let s1 := gang.foldl (fun s c => cacheFlush c s) s
    gang.foldl (fun s c => putCache c ((cacheOf s c).filter (fun x => !dirty.any (fun d => d.1 != c && d.2 == x.line))) s) s1

end Sys2Proof.Machine
end

