-- ==== Sys2Proof/Machine/Wheel.lean ====
section
/-! DEFINITION. Wheels (R293 to R298): places, counters, origins of successive frames, releases and the ends of
producers and consumers.  Counters are held unwrapped; a register read shows them modulo 2³². -/

namespace Sys2Proof.Machine

/-- Key of wheel `w` of N-core `c`, as SPD_WHEEL_SEL writes it. -/
def wheelKey (c w : Nat) : Nat := c + 256 * w

/-- The wheel is enabled. -/
def wheelEn (s : State) (k : Nat) : Bool := bit (rget s R.spdWheelCfg k) 0

/-- BASE_ROW as a row of the scratchpad. -/
def wheelBase (s : State) (k : Nat) : Nat := (k % 256) * 16384 + bits (rget s R.spdWheelCfg k) 29 16

/-- PLACE_ROWS. -/
def placeRows (s : State) (k : Nat) : Nat := bits (rget s R.spdWheelSize k) 30 16

/-- Places of a wheel: ⌊ROWS / PLACE_ROWS⌋ (R293). -/
def places (s : State) (k : Nat) : Nat := bits (rget s R.spdWheelSize k) 14 0 / max 1 (placeRows s k)

/-- A wheel right after EN is written (R298). -/
def wheelZero : Wheel where
  pNode := none
  cNode := none
  tail := 0
  release := 0
  written := []
  pOrg := 0
  pFrame := 0
  pPrev := 0
  pPrevFrame := none
  cOrg := 0
  cFrame := 0
  cPrev := 0
  cPrevFrame := none
  pUsed := false
  cUsed := false
  height := 0
  fill := []

/-- A wheel's state. -/
def wheelSt (s : State) (k : Nat) : Wheel := (tget none s.spd.wheels k).getD wheelZero

/-- Replace a wheel's state. -/
def putWheel (k : Nat) (w : Wheel) (s : State) : State :=
  { s with spd := { s.spd with wheels := tset none s.spd.wheels k (some w) } }

/-- HEAD: min(RELEASE, TAIL) (R294). -/
def wheelHead (w : Wheel) : Nat := min w.release w.tail

/-- The next origin: ⌈(O + H) / P⌉ × P (R295). -/
def nextOrigin (p o h : Nat) : Nat := cdiv (o + h) (max 1 p) * max 1 p

/-- Values a frame leaves unwritten count as written when TAIL reaches them (R295). -/
def isGap (p : Nat) (w : Wheel) (v : Nat) : Bool :=
  w.pUsed && ((decide (w.pOrg + w.height ≤ v) && decide (v < nextOrigin p w.pOrg w.height))
    || (decide (w.pPrev + w.height ≤ v) && decide (v < w.pOrg)))

/-- TAIL moves over written and never-written values (R294). -/
def advanceTail (p : Nat) : Nat → Wheel → Wheel
  | 0, w => w
  | f + 1, w =>
    if w.written.contains w.tail then
      advanceTail p f { w with tail := w.tail + 1, written := w.written.filter (· != w.tail) }
    else if isGap p w w.tail then advanceTail p f { w with tail := w.tail + 1 }
    else w

/-- Let TAIL catch up. -/
def settleTail (p : Nat) (w : Wheel) : Wheel := advanceTail p (2 * p + w.written.length + 2) w

/-- A frame a side has not yet accessed comes after its current one, by serial comparison (R295). -/
def laterFrame (used : Bool) (cur frame : Nat) : Bool := !used || serLt cur frame

/-- Values of the gap before the current origin that TAIL has still to pass: they are kept as written when their frame is
dropped. -/
def oldGap (w : Wheel) : List Nat :=
  let lo := max w.tail (w.pPrev + w.height)
  if w.pPrevFrame.isSome then (List.range (w.pOrg - lo)).map (· + lo) else []

/-- Producer steps to a frame it has not yet accessed (R295). -/
def pStep (p : Nat) (w : Wheel) (frame h : Nat) : Wheel :=
  if !w.pUsed then { w with pUsed := true, pFrame := frame, height := h }
  else if !laterFrame w.pUsed w.pFrame frame then w
  else settleTail p { w with written := oldGap w ++ w.written.filter (fun v => !(oldGap w).contains v),
                             pPrev := w.pOrg, pPrevFrame := some w.pFrame, pOrg := nextOrigin p w.pOrg w.height,
                             pFrame := frame, height := h }

/-- Consumer steps to a frame it has not yet accessed (R295). -/
def cStep (p : Nat) (w : Wheel) (frame : Nat) : Wheel :=
  if !w.cUsed then { w with cUsed := true, cFrame := frame }
  else if !laterFrame w.cUsed w.cFrame frame then w
  else { w with cPrev := w.cOrg, cPrevFrame := some w.cFrame, cOrg := nextOrigin p w.cOrg w.height, cFrame := frame }

/-- Producer's origin of a frame; none when it is older than the two it keeps. -/
def pOrigin (w : Wheel) (frame : Nat) : Option Nat :=
  if w.pUsed && w.pFrame == frame then some w.pOrg
  else if w.pPrevFrame == some frame then some w.pPrev else none

/-- Consumer's origin of a frame. -/
def cOrigin (w : Wheel) (frame : Nat) : Option Nat :=
  if w.cUsed && w.cFrame == frame then some w.cOrg
  else if w.cPrevFrame == some frame then some w.cPrev else none

/-- Room for value `v`: v < HEAD + P (R294). -/
def wheelRoom (p : Nat) (w : Wheel) (v : Nat) : Bool := decide (v < wheelHead w + p)

/-- Address of line `j` of a frame: place j mod P (R295). -/
def lineAddr (s : State) (k j : Nat) : Nat :=
  rowAddr (wheelBase s k + (j % max 1 (places s k)) * placeRows s k)

/-- Mark value `v` written. -/
def markWritten (p v : Nat) (w : Wheel) : Wheel :=
  settleTail p { w with written := if w.written.contains v ∨ v < w.tail then w.written else v :: w.written }

/-- Raise RELEASE (R296). -/
def raiseRelease (v : Nat) (w : Wheel) : Wheel := { w with release := max w.release v }

/-- A cycle in which the producer stalled full or the consumer stalled empty. -/
def wheelStall (k : Nat) (s : State) : State := cnt R.spdWheelStall k 1 s

/-- Name of a node for a wheel; 256 + stream stands for a camera's template. -/
def nodeName (tmpl node : Nat) : Nat := tmpl * 1048576 + node

/-- R296: the consuming side is done with a frame: RELEASE rises to the frame's next origin.  One that never accessed
the frame steps to it first. -/
def consumerDone (p frame h : Nat) (w : Wheel) : Wheel :=
  let w0 := { w with height := if w.height = 0 then h else w.height }
  let w1 := cStep p w0 frame
  match cOrigin w1 frame with
  | some o => raiseRelease (nextOrigin p o w1.height) w1
  | none => w1

/-- R297: the producing node's instance has ended: what is unwritten of the frame waits to be poisoned.  One that never
accessed the frame steps to it first. -/
def producerDone (p frame h : Nat) (w : Wheel) : Wheel :=
  let w1 := pStep p w frame h
  match pOrigin w1 frame with
  | some o =>
    let e := nextOrigin p o w1.height
    if w1.tail < o + w1.height ∧ ¬ w1.fill.any (fun x => x.2 == e) then { w1 with fill := w1.fill ++ [(max o w1.tail, e)] }
    else w1
  | none => w1

/-- R295: origin, on the consumer's side, of a frame that a camera port names: the port's own; for a frame it has not
begun, the next. -/
def landOrigin (p serial : Nat) (w : Wheel) : Option Nat :=
  match pOrigin w serial with
  | some o => some o
  | none =>
    if !w.pUsed then some 0
    else if serLt w.pFrame serial then some (nextOrigin p w.pOrg w.height) else none

/-- R295: the image core's first access to a frame on its landing wheel: its origin is the port's.  Frames it never
accesses are released once it has released all it accessed. -/
def landStep (p serial : Nat) (w : Wheel) : Wheel :=
  match cOrigin w serial, landOrigin p serial w with
  | none, some o =>
    if laterFrame w.cUsed w.cFrame serial then
      let done := !w.cUsed || decide (nextOrigin p w.cOrg w.height ≤ w.release)
      let w1 := { w with
        cPrev := w.cOrg, cPrevFrame := if w.cUsed then some w.cFrame else none, cOrg := o, cFrame := serial, cUsed := true }
      if done then raiseRelease o w1 else w1
    else w
  | _, _ => w

/-- R296: a landing wheel's consumer is done with a frame of the camera. -/
def landDone (p serial h : Nat) (w : Wheel) : Wheel :=
  let w1 := landStep p serial { w with height := if w.height = 0 then h else w.height }
  match cOrigin w1 serial with
  | some o => raiseRelease (nextOrigin p o w1.height) w1
  | none => w1

/-- R297: write one poison place, of the frame that ended first, as room allows. -/
def poisonFillStep (k : Nat) (s : State) : State :=
  let w := wheelSt s k
  let p := places s k
  match w.fill with
  | [] => s
  | (v, e) :: rest =>
    if e ≤ v then putWheel k { w with fill := rest } s
    else if !wheelRoom p w v then s
    else
      let r := wheelBase s k + (v % max 1 p) * placeRows s k
      let skip := w.written.contains v || isGap p w v || decide (v < w.tail)
      let w1 := if w.written.contains v || isGap p w v then w else markWritten p v w
      let s1 := if skip then s else setPoison r (r + placeRows s k) 4 (touchRows r (placeRows s k) s)
      putWheel k { w1 with fill := if e ≤ v + 1 then rest else (v + 1, e) :: rest } s1

end Sys2Proof.Machine
end

