-- ==== Sys2Proof/Machine/Image.lean ====
section
/-! DEFINITION. Image references (R133), and which wheels a node's descriptor names as sources and as destinations
(R296, R297). -/

namespace Sys2Proof.Machine

/-! ### Image references (R133) -/

/-- An image reference. -/
structure ImgRef where
  w0 : Nat
  w1 : Nat
  w2 : Nat
  w3 : Nat
  deriving DecidableEq, Repr

/-- The reference in words `k` to `k + 3`. -/
def imgAt (l : List Nat) (k : Nat) : ImgRef := { w0 := wd l k, w1 := wd l (k + 1), w2 := wd l (k + 2), w3 := wd l (k + 3) }

def ImgRef.wheel (i : ImgRef) : Bool := bit i.w1 16
def ImgRef.pix (i : ImgRef) : Nat := bits i.w1 19 17
def ImgRef.planes (i : ImgRef) : Nat := bits i.w1 21 20
def ImgRef.width (i : ImgRef) : Nat := bits i.w2 13 0 + 1
def ImgRef.height (i : ImgRef) : Nat := bits i.w2 29 16 + 1
def ImgRef.rows (i : ImgRef) : Nat := bits i.w3 15 0
def ImgRef.base (i : ImgRef) : Nat := i.w0 + 2 ^ 32 * bits i.w1 15 0
/-- Key of the wheel it names. -/
def ImgRef.key (i : ImgRef) : Nat := bits i.w0 7 0 + 256 * bits i.w0 13 8

/-- Bytes of a pixel: U8 and INT8 one, U32 four, the others two. -/
def pixBytes (pix : Nat) : Nat := if pix = 0 ∨ pix = 3 then 1 else if pix = 5 then 4 else 2

/-- Number of planes. -/
def ImgRef.nPlanes (i : ImgRef) : Nat := if i.planes = 0 then 1 else if i.planes = 1 then 2 else 3

/-- Lines of a plane: the chroma plane of YUV420SP has half. -/
def ImgRef.planeH (i : ImgRef) (q : Nat) : Nat := if i.planes = 1 ∧ q = 1 then i.height / 2 else i.height

/-- Bytes of a line of a plane. -/
def ImgRef.lineLen (i : ImgRef) : Nat := i.width * pixBytes i.pix

/-- Nonzero reserved bits or a reserved encoding. -/
def ImgRef.reserved (i : ImgRef) : Bool :=
  decide (5 < i.pix) || i.planes == 3 || decide (bits i.w1 31 22 ≠ 0) || decide (bits i.w2 15 14 ≠ 0) ||
  decide (bits i.w2 31 30 ≠ 0) || decide (bits i.w3 31 16 ≠ 0) ||
  (i.wheel && (decide (bits i.w0 31 14 ≠ 0) || decide (bits i.w1 15 0 ≠ 0)))

/-- R133, R298: the rules of an image but for the length of its lines: LINE_ROWS 1 or more, a linear base on a row, a wheel of one plane
that is enabled and whose place has LINE_ROWS rows, sizes within 8,192. -/
def ImgRef.placed (i : ImgRef) (s : State) : Bool :=
  decide (1 ≤ i.rows) && decide (i.width ≤ 8192) && decide (i.height ≤ 8192) &&
  (if i.wheel then i.planes == 0 && (decide (64 ≤ bits i.w0 7 0) || (wheelEn s i.key && placeRows s i.key == i.rows))
   else i.base % 512 == 0) &&
  (i.planes != 1 || (i.width % 2 == 0 && i.height % 2 == 0))

/-- R133, R298: the rules of an image; its lines have room. -/
def ImgRef.rules (i : ImgRef) (s : State) : Bool := i.placed s && decide (i.lineLen ≤ i.rows * 512)

/-- R298: the image names a core at or above the enabled count. -/
def ImgRef.range (i : ImgRef) : Bool := i.wheel && decide (64 ≤ bits i.w0 7 0)

/-- A failed task's zero lines have a format and a place in an image: one to a wheel needs the wheel, of its lines' size. -/
def ImgRef.sink (i : ImgRef) (s : State) : Bool :=
  decide (i.pix ≤ 5) && i.planes != 3 &&
  (!i.wheel || (decide (bits i.w0 7 0 < 64) && wheelEn s i.key && placeRows s i.key == i.rows))

/-- Bytes of a zero line: its own, and no more than LINE_ROWS hold. -/
def ImgRef.zeroLen (i : ImgRef) : Nat := min i.lineLen (i.rows * 512)

/-- Address of line `j` of a plane; of a wheel, that of its place. -/
def ImgRef.line (i : ImgRef) (s : State) (q j : Nat) : Nat :=
  if i.wheel then lineAddr s i.key j
  else i.base + (q * i.height + j) * i.rows * 512

/-- Code of a pixel. -/
def ImgRef.code (i : ImgRef) (s : State) (tn q x y : Nat) : Nat :=
  rdN s tn (i.line s q y + x * pixBytes i.pix) (pixBytes i.pix)

/-- Value of a pixel of an integer format. -/
def pixInt (pix code : Nat) : Int :=
  if pix = 3 then sx 8 code else if pix = 4 then sx 16 code else (code : Int)

/-- Code of an integer value clamped to an integer format. -/
def pixCode (pix : Nat) (v : Int) : Nat :=
  if pix = 0 then (clampI 0 255 v).toNat else if pix = 3 then ux 8 (clampI (-128) 127 v)
  else if pix = 4 then ux 16 (clampI (-32768) 32767 v) else if pix = 5 then ux 32 v
  else (clampI 0 65535 v).toNat

/-! ### Fields of descriptors that the wheels of a node depend on -/

def stCost (d : List Nat) : Nat := bits (wd d 0) 1 0
def stEdge (d : List Nat) : Bool := bit (wd d 0) 7
def stFeat (d : List Nat) : Bool := decide (2 ≤ stCost d)
/-- The four words at `k` are all zeros. -/
def zero4 (d : List Nat) (k : Nat) : Bool := (List.range 4).all (fun i => wd d (k + i) == 0)
def kpOp (d : List Nat) : Nat := bits (wd d 0) 1 0
def dtKind (d : List Nat) : Nat := bits (wd d 8) 22 21
def tkLevels (d : List Nat) : Nat := bits (wd d 8) 8 6
def wpInvert (d : List Nat) : Bool := bit (wd d 0) 3
def pyMode (d : List Nat) : Nat := bits (wd d 0) 1 0
def pyLevels (d : List Nat) : Nat := bits (wd d 0) 5 2
/-- Images a pyramid task writes: number of DST entries used. -/
def pyOuts (d : List Nat) : Nat := if pyMode d = 0 then pyLevels d else if pyMode d = 1 then pyLevels d + 1 else 1

/-! ### The wheels a node names (R295 to R297) -/

/-- A wheel that a reference names, with the height of its frames. -/
def ImgRef.named (i : ImgRef) : List (Nat × Nat) := if i.wheel && !i.range then [(i.key, i.height)] else []

/-- Positions of the references a descriptor reads, by class. -/
def srcAt (cls : Nat) (d : List Nat) : List Nat :=
  if cls = 1 then
    (if stFeat d then [24, 28] else [16, 20]) ++ (if stFeat d && stEdge d then [16] else [])
  else if cls = 3 then
    (if kpOp d = 0 then 20 :: (if dtKind d = 2 then [24] else [])
     else if kpOp d = 1 then (List.range (min 7 (tkLevels d + 1))).flatMap (fun k => [24 + 4 * k, 52 + 4 * k]) else [])
  else if cls = 4 then (if wpInvert d then [] else [20])
  else if cls = 5 then [8]
  else []

/-- Positions of the references a descriptor writes, by class. -/
def dstAt (cls : Nat) (d : List Nat) : List Nat :=
  if cls = 1 then ((List.range 4).map (fun q => 32 + 4 * q)).filter (fun k => k == 32 || !zero4 d k)
  else if cls = 4 then (if wpInvert d then [] else [24])
  else if cls = 5 then (List.range (min 8 (pyOuts d))).map (fun k => 16 + 4 * k)
  else []

/-- One side of a COPY (R307): its wheel, whose frame is the lines the copy fills. -/
def copyNamed (s : State) (d : List Nat) (side k : Nat) : List (Nat × Nat) :=
  if bit (wd d 7) side && !bit (wd d 0) 8 && decide (bits (wd d k) 7 0 < 64) then
    let key := bits (wd d k) 7 0 + 256 * bits (wd d k) 13 8
    [(key, wd d 6 / max 1 (placeRows s key * 512))]
  else []

/-- Height of a stream's frames. -/
def streamHeight (s : State) (st : Nat) : Nat :=
  match tget none s.cam.streams st with | some v => bits (wd v.desc 1) 31 16 | none => 0

/-- The landing wheel bound to a stream (R106). -/
def landKey (s : State) (st : Nat) : Nat :=
  let l := rget s R.ispLand st
  wheelKey (bits l 15 8) (bits l 21 16)

/-- Wheels a node reads, by class and descriptor, with their frames' heights; a wheel that is not enabled counts for
nothing. -/
def readsWheels (s : State) (cls : Nat) (d : List Nat) : List (Nat × Nat) :=
  (if cls = 0 then (if bit (rget s R.ispLand (bits (wd d 0) 5 0)) 0 then
      [(landKey s (bits (wd d 0) 5 0), streamHeight s (bits (wd d 0) 5 0))] else [])
   else if cls = 7 then copyNamed s d 0 2
   else (srcAt cls d).flatMap (fun k => (imgAt d k).named)).filter (fun e => wheelEn s e.1 && decide (0 < e.2))

/-- Wheels a node writes, by class and descriptor, with their frames' heights. -/
def writesWheels (s : State) (cls : Nat) (d : List Nat) : List (Nat × Nat) :=
  (if cls = 0 then (List.range 4).flatMap (fun o =>
      let w := (d.drop (16 + 8 * o)).take 8
      if bit (wd d 0) (16 + o) && bit (wd w 0) 4 && decide (bits (wd w 4) 7 0 < 64) then
        [(wheelKey (bits (wd w 4) 7 0) (bits (wd w 4) 13 8), bits (wd w 3) 29 16 + 1)]
      else [])
   else if cls = 7 then copyNamed s d 1 4
   else (dstAt cls d).flatMap (fun k => (imgAt d k).named) ++
     (if cls = 1 ∧ bits (wd d 0) 22 20 ≠ 0 ∧ bit (wd d 49) 16 then
        [(bits (wd d 48) 7 0 + 256 * bits (wd d 48) 13 8, (imgAt d 32).height)] else [])).filter
    (fun e => wheelEn s e.1 && decide (0 < e.2))

end Sys2Proof.Machine
end

