-- ==== Sys2Proof/Machine/Lane.lean ====
section
/-! DEFINITION. Replies of the command protocol (R386 to R388): the record, the lane's ring, its moderation, the
management session and the service list. -/

namespace Sys2Proof.Machine

/-- A source of packets as a number: 16f + l for lane l of function f, 512 + n for management session n, 600 for the
service list (R384). -/
def srcNum : Src → Nat
  | .lane f l => 16 * f + l
  | .mgmt n _ => 512 + n
  | .service => 600

/-- A lane's state. -/
def laneSt (s : State) (n : Nat) : Lane := tget laneReset s.lanes n

/-- Change a lane. -/
def modLane (n : Nat) (g : Lane → Lane) (s : State) : State := { s with lanes := tmod laneReset s.lanes n g }

/-- RING_SLOTS: 2^SLOTS_LOG2, 5 to 12; other values behave as 5 (R395). -/
def ringSlots (l : Lane) : Nat :=
  let k := bits l.cfg.toNat 4 1
  2 ^ (if 5 ≤ k ∧ k ≤ 12 then k else 5)

/-- RING_BASE. -/
def ringBase (l : Lane) : Nat := l.ringLo.toNat + 2 ^ 32 * l.ringHi.toNat

/-- The ring is enabled. -/
def laneEn (l : Lane) : Bool := bit l.cfg.toNat 0

/-- The opcodes of R389. -/
def opcodes : List Nat :=
  [0x01, 0x02, 0x03, 0x10, 0x11, 0x12, 0x13, 0x20, 0x21, 0x22, 0x23, 0x24, 0x25, 0x30, 0x31, 0x32,
   0x40, 0x41, 0x42, 0x43, 0x44, 0x50, 0x51, 0x52, 0x60, 0x61, 0x70, 0x71, 0x72, 0x73]

/-- R386: a reply record. -/
def replyRecord (status opcode lane tag applied detail r0 r1 r2 : Nat) : List Byte :=
  wordsBytes [status + opcode * 256 + lane * 65536, tag, applied % 2 ^ 32, applied / 2 ^ 32 % 2 ^ 32, detail,
    r0, r1, r2]

/-- R388: account a signalled reply: at MOD_COUNT, or with MOD_US 0, one message; otherwise the window runs. -/
def signalReply (n : Nat) (s : State) : State :=
  let l := laneSt s n
  let u := l.unannounced + 1
  let m := l.moder.toNat
  if bits m 31 16 = 0 ∨ max 1 (bits m 7 0) ≤ u then
    msixEvent (n / 16) (bits l.cfg.toNat 26 16) (modLane n (fun l => { l with unannounced := 0, modStart := none }) s)
  else modLane n (fun l => { l with unannounced := u, modStart := some (l.modStart.getD s.now) }) s

/-- R387: put a reply record into the lane's ring, then the producer index, both under the function's ID. -/
def ringReply (n : Nat) (rec : List Byte) (s : State) : State :=
  let l := laneSt s n
  let k := l.replies
  let a := ringBase l
  let s1 := hostPut (n / 16) (a + 32 * (k % ringSlots l)) rec s
  let s2 := hostPut (n / 16) (a + 32 * ringSlots l) (leBytes 4 (w32 (k + 1))) s1
  modLane n (fun l => { l with replies := w32 (k + 1) }) s2

/-- Answer packets whose opcode is reserved as they reach the lane's head: RESERVED_NONZERO, word 0 (R382, R10). -/
def pumpQueue (n : Nat) : List (List Word) → State → State
  | [], s => modLane n (fun l => { l with queue := [] }) s
  | p :: q, s =>
    let w0 := (p.getD 0 0).toNat
    if opcodes.contains (bits w0 7 0) then modLane n (fun l => { l with queue := p :: q }) s
    else
      let s1 := ringReply n (replyRecord 0x01 (bits w0 7 0) (n % 16) (p.getD 1 0).toNat s.now 0 0 0 0) s
      pumpQueue n q (if bit w0 8 then signalReply n s1 else s1)

/-- Take the next packets of a lane, unless its function is under reset. -/
def pumpLane (n : Nat) (s : State) : State := pumpQueue n (laneSt s n).queue s

/-- The source is an Owner session, or PF0 of port 0 in host-owner mode. -/
def ownerSrc (s : State) (src : Nat) : Bool :=
  if src < 512 then decide (src < 16) && s.sec.hostOwner
  else match tget none s.sec.msessions (src - 512) with
    | some m => decide (src < 600) && m.owner
    | none => false

/-- R377: a command of the Owner that is applied ends the stop of the service (DEDUCED, log entry 195). -/
def ownerActs (src status : Nat) (s : State) : State :=
  if s.boot.serviceStopped && status == 0 && ownerSrc s src then
    { s with boot := { s.boot with serviceStopped := false } }
  else s

/-- R386 to R388: reply to the packet at the head of its source.  A function under reset receives none (R353); a
failed packet stops the service list (R377). -/
def reply (src head tag status applied detail r0 r1 r2 : Nat) (s0 : State) : State :=
  let op := bits head 7 0
  let s := ownerActs src status s0
  if src < 512 then
    if (fnSt s (src / 16)).resetting then s
    else
      let s1 := ringReply src (replyRecord status op (src % 16) tag applied detail r0 r1 r2) s
      let s2 := modLane src (fun l => { l with queue := l.queue.tail }) s1
      pumpLane src (if bit head 8 then signalReply src s2 else s2)
  else if src < 600 then emit (.mgmt (src - 512) (replyRecord status op 0 tag applied detail r0 r1 r2)) s
  else if status = 0 then
    { s with boot := { s.boot with service := s.boot.service.tail, serviceAt := s.boot.serviceAt + 1 } }
  else addLog 0x0016 32 0xFFFF s.boot.serviceAt status 0
    { s with boot := { s.boot with service := [], serviceStopped := true, serviceEnding := true } }

/-- A source's waiting command. -/
def waiterOf (s : State) (src : Nat) : Option Waiter := tget none s.waits src

/-- Hold a source until a condition is met (R385). -/
def setWait (src : Nat) (w : Waiter) (s : State) : State := { s with waits := tset none s.waits src (some w) }

/-- Answer a waiting command and let its source go on. -/
def replyWait (src : Nat) (w : Waiter) (status detail r0 r1 : Nat) (s : State) : State :=
  reply src w.head w.tag status w.applied detail r0 r1 0 { s with waits := tset none s.waits src none }

end Sys2Proof.Machine
end

