-- ==== Sys2Proof/Machine/Net.lean ====
section
/-! DEFINITION. Result records and the Ethernet side of the device: the record header (R364), datagrams (R368), the
transmit queues (R369). -/

namespace Sys2Proof.Machine

/-! ### Result record header (R364) -/

/-- The fields of a record header that its publisher chooses. -/
structure RecHdr where
  validity : Nat
  ptype : Nat
  tmpl : Nat
  stream : Nat
  sequence : Nat
  frameIndex : Nat
  frameTime : Nat
  commit : Nat
  eff : Nat
  req : Nat
  len : Nat
  pubSeq : Nat
  channel : Nat
  deriving DecidableEq, Repr

/-- Header words 0 to 14 of a segment. -/
def hdrWords (s : State) (h : RecHdr) (seg cntSeg off : Nat) : List Nat :=
  let tc := rget s R.pwrTimeCtrl 0
  [0x01 + h.validity * 2 ^ 8 + h.ptype * 2 ^ 16,
   bits (rget s R.ethDevTag 0) 15 0 + h.tmpl * 2 ^ 16 + h.stream * 2 ^ 24,
   w32 h.sequence, w32 h.frameIndex,
   h.frameTime % 2 ^ 32, h.frameTime / 2 ^ 32 % 2 ^ 32, h.commit % 2 ^ 32, h.commit / 2 ^ 32 % 2 ^ 32,
   h.eff + h.req * 2 ^ 16, h.len, w32 h.pubSeq, seg + cntSeg * 2 ^ 16, off,
   h.channel + b2n (bit tc 8) * 2 ^ 16 + bits tc 2 0 * 2 ^ 17, 0]

/-- A segment: header with REC_CRC over words 0 to 14 and the segment's payload, then the payload. -/
def segBytes (s : State) (h : RecHdr) (seg cntSeg off : Nat) (pay : List Byte) : List Byte :=
  let w := wordsBytes (hdrWords s h seg cntSeg off)
  w ++ leBytes 4 (crc32c (w ++ pay)) ++ pay

/-! ### Datagrams -/

/-- Ones' complement sum of 16-bit words. -/
def onesSum (l : List Byte) : Nat :=
  let rec go : List Byte → Nat → Nat
    | a :: b :: t, acc => go t (acc + a.toNat * 256 + b.toNat)
    | [a], acc => acc + a.toNat * 256
    | [], acc => acc
  go l 0

/-- Internet checksum. -/
def inetSum (l : List Byte) : Nat :=
  let f := fun n => n % 65536 + n / 65536
  0xFFFF - f (f (f (onesSum l)))

/-- Own MAC address of MAC `m`. -/
def ownMac (s : State) (m : Nat) : List Byte :=
  leBytes 4 (rget s R.ethMacAddrLo m) ++ leBytes 2 (rget s R.ethMacAddrHi m)

/-- Own IPv4 address, first octet first. -/
def ownIp4 (s : State) (m : Nat) : List Byte := beBytes 4 (rget s R.ethIp4 m)

/-- Own IPv6 address. -/
def ownIp6 (s : State) (m : Nat) : List Byte :=
  beBytes 4 (rget s R.ethIp60 m) ++ beBytes 4 (rget s R.ethIp61 m) ++ beBytes 4 (rget s R.ethIp62 m) ++
  beBytes 4 (rget s R.ethIp63 m)

/-- A UDP datagram with its checksum over the pseudo-header. -/
def udp (srcIp dstIp : List Byte) (sp dp : Nat) (pay : List Byte) : List Byte :=
  let len := 8 + pay.length
  let h0 := beBytes 2 sp ++ beBytes 2 dp ++ beBytes 2 len
  let pseudo := srcIp ++ dstIp ++ (if srcIp.length = 4 then [0, 17] ++ beBytes 2 len
    else beBytes 4 len ++ [0, 0, 0, 17])
  let c := inetSum (pseudo ++ h0 ++ [0, 0] ++ pay)
  h0 ++ beBytes 2 (if c = 0 then 0xFFFF else c) ++ pay

/-- An IPv4 packet with DF set (R368). -/
def ip4 (srcIp dstIp : List Byte) (proto dscp ident : Nat) (pay : List Byte) : List Byte :=
  let h := fun c => beBytes 2 (0x4500 + dscp * 4) ++ beBytes 2 (20 + pay.length) ++
    beBytes 2 (Config.ipIdent ident % 65536) ++ beBytes 2 0x4000 ++ beBytes 1 (Config.ipTtl % 256) ++ beBytes 1 proto ++
    beBytes 2 c ++ srcIp ++ dstIp
  h (inetSum (h 0)) ++ pay

/-- An IPv6 packet. -/
def ip6 (srcIp dstIp : List Byte) (next dscp hop : Nat) (pay : List Byte) : List Byte :=
  beBytes 4 (0x60000000 + dscp * 4 * 2 ^ 20 + Config.ipFlow % 2 ^ 20) ++ beBytes 2 pay.length ++ beBytes 1 next ++
  beBytes 1 hop ++ srcIp ++ dstIp ++ pay

/-- An Ethernet frame from destination address to payload, with an optional 802.1Q tag; preamble and FCS are the
PHY layer's. -/
def etherFrame (dst src : List Byte) (vlan : Option Nat) (etype : Nat) (pay : List Byte) : List Byte :=
  dst ++ src ++ (match vlan with | some t => beBytes 2 0x8100 ++ beBytes 2 t | none => []) ++ beBytes 2 etype ++ pay

/-! ### Transmit queues (R369) -/

/-- A MAC's state. -/
def macSt (s : State) (m : Nat) : Mac := tget macReset s.macs m

/-- Change a MAC. -/
def modMac (m : Nat) (f : Mac → Mac) (s : State) : State := { s with macs := tmod macReset s.macs m f }

/-- The MAC sends: enabled and its link up. -/
def macUp (s : State) (m : Nat) : Bool := (macSt s m).link && bit (rget s R.ethMacCfg m) 0

/-- MTU in force: 1,280 to 9,000 (R372). -/
def macMtu (s : State) (m : Nat) : Nat := clampN 1280 9000 (bits (rget s R.ethMacCfg m) 29 16)

/-- The next frame: those ahead of the queues, then the highest non-empty queue. -/
def nextFrame (q : Mac) : Option (Ahead × Mac) :=
  match q.ahead with
  | f :: t => some (f, { q with ahead := t })
  | [] =>
    match ((List.range 8).map (fun i => 7 - i)).find? (fun k => !(tget [] q.queues k).isEmpty) with
    | some k =>
      match tget [] q.queues k with
      | f :: t => some (.bytes f, { q with queues := tset [] q.queues k t })
      | [] => none
    | none => none

/-- A frame's bytes as it goes out (R373: 802.1AS messages go to the link's peer). -/
def frameBytes (s : State) (m : Nat) (f : Ahead) : List Byte :=
  let as' := fun (kind : Nat) (peer : List Byte) (t : Int) =>
    etherFrame [0x01, 0x80, 0xC2, 0x00, 0x00, 0x0E] (ownMac s m) none 0x88F7 (Config.asMessage kind m (macSt s m).asSeq peer t)
  match f with
  | .bytes l => l
  | .delayReq => as' 2 [] 0
  | .delayResp p t => as' 3 p t
  | .delayFollow p t => as' 10 p t

/-- R373: what sending an 802.1AS message leaves behind: its time, corrected by the PHY's latency. -/
def frameGone (s : State) (m : Nat) (f : Ahead) (q : Mac) : Mac :=
  let t : Int := (s.now + bits (rget s R.ethPhyDly m) 15 0 : Nat)
  match f with
  | .delayReq => { q with asSeq := (q.asSeq + 1) % 65536, asSent := some t }
  | .delayResp p _ => { q with ahead := .delayFollow p t :: q.ahead }
  | _ => q

/-- Start sending when nothing is under way. -/
def macKick (m : Nat) (s : State) : State :=
  let q := macSt s m
  if q.sending.isSome then s
  else match nextFrame q with
  | some (f, q') =>
    let l := frameBytes s m f
    emit (.frame m l) (modMac m (fun _ => { frameGone s m f q' with sending := some l }) s)
  | none => s

/-- Queue frames at a priority, or discard and count them while the link is down (R369). -/
def queueFrames (m pcp : Nat) (l : List (List Byte)) (s : State) : State :=
  if macUp s m then
    macKick m (modMac m (fun q => { q with queues := tset [] q.queues pcp (tget [] q.queues pcp ++ l) }) s)
  else cnt R.ethTxLinkdrop m l.length s

/-- Send a frame ahead of the queues. -/
def sendAhead (m : Nat) (f : Ahead) (s : State) : State :=
  if macUp s m then macKick m (modMac m (fun q => { q with ahead := q.ahead ++ [f] }) s)
  else cnt R.ethTxLinkdrop m 1 s

/-- Send a frame on the management link (R374). -/
def sendOwn (f : Ahead) (s : State) : State := macKick 2 (modMac 2 (fun q => { q with ahead := q.ahead ++ [f] }) s)

/-- Bytes waiting in a MAC's transmit buffer (R368). -/
def macUsed (q : Mac) : Nat :=
  sumN (q.queues.map (fun e => sumN (e.2.map List.length))) +
  sumN (q.ahead.map (fun f => match f with | .bytes l => l.length | _ => 0))

/-- R372: at most 100 answers of a kind per second; the times of those in the last second. -/
def recentTimes (now : Nat) (l : List Nat) : List Nat := l.filter (fun t => decide (now < t + 1000000000))

end Sys2Proof.Machine
end

