-- ==== Sys2Proof/Machine/Safe.lean ====
section
/-! DEFINITION. Safe state (R440 to R444): its entry, the causes kept, the safety record. -/

namespace Sys2Proof.Machine

/-- R444: the payload of a safety record. -/
def safetyPayload (s : State) : List Byte :=
  wordsBytes ([s.saf.cause + min s.saf.recSends 255 * 2 ^ 8 + s.saf.causeEng * 2 ^ 16,
    s.saf.causeTime % 2 ^ 32, s.saf.causeTime / 2 ^ 32 % 2 ^ 32, w32 s.saf.intervals, min s.saf.later 255]
    ++ List.replicate 11 0)

/-- R444: the header of a safety record. -/
def safetyHdr (s : State) : RecHdr where
  validity := 0x02
  ptype := 0x01
  tmpl := 0
  stream := 0xFF
  sequence := s.saf.recSeq
  frameIndex := 0
  frameTime := s.saf.causeTime
  commit := s.now
  eff := 0
  req := 0
  len := 64
  pubSeq := s.saf.recSeq
  channel := 0

/-- R444: the frame that carries a safety record on MAC `m`: IPv4 to 255.255.255.255 when the MAC has an IPv4 address,
otherwise IPv6 to ff02::1; none with neither. -/
def safetyFrame (s : State) (m : Nat) : Option (List Byte) :=
  let rec_ := segBytes s (safetyHdr s) 0 1 0 (safetyPayload s)
  let port := bits (rget s R.safNetPort 0) 15 0
  let bc : List Byte := List.replicate 6 0xFF
  if rget s R.ethIp4 m ≠ 0 then
    let d : List Byte := List.replicate 4 0xFF
    some (etherFrame bc (ownMac s m) none 0x0800
      (ip4 (ownIp4 s m) d 17 0 s.free (udp (ownIp4 s m) d (Config.safetySrcPort % 65536) port rec_)))
  else if ownIp6 s m ≠ List.replicate 16 0 then
    let d : List Byte := [0xFF, 0x02] ++ List.replicate 13 0 ++ [0x01]
    some (etherFrame bc (ownMac s m) none 0x86DD
      (ip6 (ownIp6 s m) d 17 0 (Config.ipTtl % 256) (udp (ownIp6 s m) d (Config.safetySrcPort % 65536) port rec_)))
  else none

/-- R440, R444: send the safety record on each MAC enabled by NET_EN. -/
def sendSafety (s : State) : State :=
  let en := bits (rget s R.safCfg 0) 22 21
  let f := fun (s' : State) (m : Nat) =>
    if bit en m then match safetyFrame s m with | some fr => sendAhead m (.bytes fr) s' | none => s' else s'
  let s1 := f (f s 0) 1
  draw { s1 with saf := { s1.saf with recSeq := w32 (s1.saf.recSeq + 1), recSends := s1.saf.recSends + 1,
                                      lastRec := s1.now } }

/-- The interval in progress (R427): intervals begun, less one. -/
def intervalNow (s : State) : Nat := s.saf.intervals - 1

/-- R440, R441: safe state with a cause.  Every cause is logged.  The first is kept, the lowest of one instant; a cause
found before READY replaces 0x0A (R438, R439).  SAFE_N goes low, the heartbeat holds its level, a safety record goes
out. -/
def enterSafe (cause eng : Nat) (s : State) : State :=
  let s1 := addLog 0x0100 63 eng cause (intervalNow s) 0 s
  if s.saf.safe && s.saf.cause != 0x0A then
    (if s.now = s.saf.causeTime ∧ cause < s.saf.cause then
      { s1 with saf := { s1.saf with later := s1.saf.later + 1, cause := cause, causeEng := eng } }
     else { s1 with saf := { s1.saf with later := s1.saf.later + 1 } })
  else sendSafety { s1 with saf := { s1.saf with safe := true, cause := cause, causeEng := eng, causeTime := s1.now,
                                                 later := 0, safeN := false, recSends := 0 } }

/-- R425: a lockstep mismatch of the sequencer's processors also stops all dispatch. -/
def haltSequencer (s : State) : State := { s with seq := { s.seq with halted := true } }

end Sys2Proof.Machine
end

