-- ==== Sys2Proof/Machine/Seq.lean ====
section
/-! DEFINITION. The frame-graph sequencer (R42 to R75, R509, R510): instances, dependences, ready lists, dispatch,
completion, abort, sluices. -/

namespace Sys2Proof.Machine

/-! ### Access -/

/-- A loaded template. -/
def tmplAt (s : State) (t : Nat) : Option Tmpl := tget none s.seq.tmpls t

/-- Change the sequencer. -/
def modSeq (f : Seq → Seq) (s : State) : State := { s with seq := f s.seq }

/-- Replace a template. -/
def putTmpl (t : Nat) (v : Option Tmpl) (s : State) : State :=
  modSeq (fun q => { q with tmpls := tset none q.tmpls t v }) s

/-- Change a loaded template. -/
def modTmpl (t : Nat) (f : Tmpl → Tmpl) (s : State) : State :=
  match tmplAt s t with
  | some v => putTmpl t (some (f v)) s
  | none => s

/-- An instance slot of a template. -/
def instAt (s : State) (t k : Nat) : Option Inst := (tmplAt s t).bind (fun v => v.slots[k]?)

/-- Change an instance slot. -/
def modInst (t k : Nat) (f : Inst → Inst) (s : State) : State :=
  modTmpl t (fun v => { v with slots := v.slots.modify k f }) s

/-- A FREE slot that has never been used. -/
def instFree : Inst where
  st := .free
  slotTag := 0
  nodeTag := 0
  seq := 0
  trig := 0
  frameTime := 0
  stale := false
  stream := 255
  frameNo := 0
  serial := 0
  handle := none
  jobId := 0
  key := none
  nodes := []
  prevPend := []
  started := 0
  order := 0
  lastStamp := 0
  predicted := false

/-- A node of a template. -/
def nodeAt (v : Tmpl) (n : Nat) : Option Node := v.nodes[n]?

/-- Every in-edge of a node: index of the edge, source node, edge. -/
def edgesOf (v : Tmpl) : List (Nat × Nat × Edge) :=
  v.nodes.zipIdx.flatMap (fun n =>
    (List.range n.1.outCount).filterMap (fun i => (v.edges[n.1.outFirst + i]?).map (fun e => (n.1.outFirst + i, n.2, e))))

/-- R47: DEP_INIT, in-edges plus external waits. -/
def depInit (v : Tmpl) (n : Nat) : Nat :=
  ((edgesOf v).filter (fun e => e.2.2.dst == n)).length +
  (match nodeAt v n with
   | some d => b2n (d.w0Kind != 0) + b2n (d.w1Kind != 0)
   | none => 0)

/-- A slot is not FREE. -/
def slotBusy (i : Inst) : Bool := i.st != .free

/-- Any slot of a template is not FREE. -/
def tmplBusy (v : Tmpl) : Bool := v.slots.any slotBusy

/-- R39: work issued under a tag is current while its slot still holds the instance under that tag. -/
def taskLive (s : State) (k : Task) : Bool :=
  match instAt s k.tmpl k.slot with
  | some i => i.st == .running && i.seq == k.seq && i.nodeTag == k.tag
  | none => false

/-! ### Frames of an instance (R509) -/

/-- A stream slot's state. -/
def streamAt (s : State) (st : Nat) : Option Stream := tget none s.cam.streams st

/-- A frame was open at a time: started at or before it and not closed by then (R34, R509). -/
def openAt (t : Nat) (f : Frame) : Bool :=
  decide (f.fs ≤ t) && (match f.close with | some c => decide (t < c) | none => true)

/-- R509: the frame of an instance on a stream, where it has started. -/
def frameOf (s : State) (i : Inst) (st : Nat) : Option Frame :=
  match streamAt s st with
  | none => none
  | some v =>
    if i.stream = st then v.frames.find? (fun f => f.serial == i.serial)
    else match v.frames.find? (openAt i.frameTime) with
      | some f => some f
      | none => (v.frames.reverse.find? (fun f => decide (i.frameTime < f.fs))).filter
          (fun f => !v.stops.any (fun x => decide (i.frameTime < x) && decide (x ≤ f.fs)))

/-- The instance was triggered by the stream or waits on it. -/
def usesStream (v : Tmpl) (i : Inst) (st : Nat) : Bool :=
  i.stream == st || v.nodes.any (fun n => (n.w0Kind == 1 && n.w0Obj == st) || (n.w1Kind == 1 && n.w1Obj == st))

/-- R91: the metadata records of the frames of a task's instance. -/
def recordsOf (s : State) (k : Task) : List (Nat × Nat) :=
  match tmplAt s k.tmpl, instAt s k.tmpl k.slot with
  | some v, some i =>
    if k.orphan.isSome then []
    else (List.range 64).filterMap (fun st =>
      if usesStream v i st then
        match streamAt s st, frameOf s i st with
        | some x, some f => some (st, addr48 x.desc 7 + 64 * (f.index % 8))
        | _, _ => none
      else none)
  | _, _ => []

/-! ### Ends of a node's use of its wheels (R296, R297) -/

/-- The words of a node's descriptor that name its wheels. -/
def wheelWords (s : State) (v : Tmpl) (nd : Node) : List Nat :=
  if s.spd.wheels.isEmpty then [] else rdWords s v.tenant nd.work 64

/-- R296: a node is done with its instance's frame of every wheel it reads; on a landing wheel the frame is the
camera's (R295, R509). -/
def consumed (t : Nat) (v : Tmpl) (i : Inst) (n : Nat) (nd : Node) (s : State) : State :=
  let d := wheelWords s v nd
  (readsWheels s nd.cls d).foldl (fun s e =>
    let w := wheelSt s e.1
    let p := places s e.1
    if w.cNode.isSome ∧ w.cNode ≠ some (nodeName t n) then s
    else
      let w1 := { w with cNode := some (nodeName t n) }
      if nd.cls = 0 then
        (match frameOf s i (bits (wd d 0) 5 0) with
         | some f => putWheel e.1 (landDone p f.serial e.2 w1) s
         | none => s)
      else putWheel e.1 (consumerDone p i.seq e.2 w1) s) s

/-- R297: a node's instance has ended: what it left unwritten of its frame on each wheel waits to be poisoned. -/
def produced (t : Nat) (v : Tmpl) (i : Inst) (n : Nat) (nd : Node) (s : State) : State :=
  (writesWheels s nd.cls (wheelWords s v nd)).foldl (fun s e =>
    let w := wheelSt s e.1
    if w.pNode.isSome ∧ w.pNode ≠ some (nodeName t n) then s
    else putWheel e.1 (producerDone (places s e.1) i.seq e.2 { w with pNode := some (nodeName t n) }) s) s

/-- R296, R297: an instance ends, normally or by abort. -/
def wheelsEnd (t : Nat) (v : Tmpl) (i : Inst) (s : State) : State :=
  v.nodes.zipIdx.foldl (fun s e => produced t v i e.2 e.1 (consumed t v i e.2 e.1 s)) s

/-- R296: a consuming node's last task of a frame completes. -/
def wheelsNodeDone (t k n : Nat) (s : State) : State :=
  match tmplAt s t, instAt s t k with
  | some v, some i => (match v.nodes[n]? with | some nd => consumed t v i n nd s | none => s)
  | _, _ => s

/-- R59: a CAM_STRIPE wait is satisfied for a stripe: its last line, halo included, is received, or the frame closed. -/
def camReady (s : State) (i : Inst) (nd : Node) (st stripe halo : Nat) : Bool :=
  match frameOf s i st, streamAt s st with
  | some f, some v =>
    let h := bits (wd v.desc 1) 31 16
    let need := if nd.height = 0 then h else min (nd.height * (stripe + 1) + halo) h
    f.close.isSome || decide (need ≤ f.lines)
  | _, _ => false

/-! ### Ready lists (R61, R69) -/

/-- Index of an observed list, as SEQ_OBS_SEL writes it. -/
def obsIdx (cls prio : Nat) : Nat := cls + 16 * prio

/-- Present depth of a list. -/
def depthOf (s : State) (cls prio : Nat) : Nat :=
  (s.seq.ready.filter (fun k => k.cls == cls && k.prio == prio)).length

/-- A node's core set as a mask. -/
def coreSetOf (v : Tmpl) (nd : Node) : Nat := v.coreSets.getD nd.coreSet 0

/-- R74: SEQ_OBS_MAXDEPTH is raised to a list's present depth. -/
def noteDepth (cls prio : Nat) (s : State) : State :=
  rmax R.seqObsMaxdepth (obsIdx cls prio) (depthOf s cls prio) s

/-- R69: the eligible set of a node, as a mask. -/
def eligibleMask (s : State) (v : Tmpl) (nd : Node) : Nat :=
  let k := classKind nd.cls
  let av := if k = 0 then s.availN else if k = 1 then s.availV else s.availI
  coreSetOf v nd &&& av &&& coreMask s v.tenant k

/-- The class takes part in core-set dispatch. -/
def coreClass (cls : Nat) : Bool := decide (cls ≤ 6)

/-- Ask for an abort; it is carried out when the present change is complete. -/
def wantAbort (t k flags : Nat) (s : State) : State :=
  modSeq (fun q => { q with toAbort := q.toAbort ++ [(t, k, flags)] }) s

/-- An abort of the instance has been asked for. -/
def abortAsked (s : State) (t k : Nat) : Bool := s.seq.toAbort.any (fun a => a.1 == t && a.2.1 == k)

/-- R304, R365: the engine a STREAM or PUBLISH descriptor names, read when the task becomes ready. -/
def descEngine (s : State) (v : Tmpl) (nd : Node) : Nat :=
  let w := rdN s v.tenant nd.work 4
  if nd.cls = 7 then engCtx (bits w 7 0)
  else if nd.cls = 8 then
    (if bits w 1 0 = 1 then engU 0x07 (portOf v.tenant % 2)
     else if bits w 1 0 = 2 then engU 0x06 (14 + bits w 2 2) else engU 0x08 (bits w 2 2))
  else engU 0x00 0

/-- R61: the first joined before the second, or both at one device time and in the order of sequence number, node index and
stripe index. -/
def joinsBefore (x k : Task) : Bool :=
  decide (x.since < k.since) ||
  (x.since == k.since && (serLt x.seq k.seq || (x.seq == k.seq &&
    (decide (x.node < k.node) || (x.node == k.node && decide (x.stripe ≤ k.stripe))))))

/-- R61: a task joins the lists behind the last task that comes before it. -/
def joinList (k : Task) : List Task → List Task
  | [] => [k]
  | x :: t => if (x :: t).any (fun y => joinsBefore y k) then x :: joinList k t else k :: x :: t

/-- A node-table entry holds a node (R43). -/
def entryHeld (s : State) (e : Nat) : Bool :=
  s.seq.tmpls.any (fun x => match x.2 with
    | some v => decide (v.nodeBase ≤ e) && decide (e < v.nodeBase + v.nodes.length)
    | none => false)

/-- R469: a spare entry takes a failing one's place; with none left the entry is retired. -/
def replaceEntry (e : Nat) (s : State) : State :=
  let s1 := modSeq (fun q => { q with nodeBad := q.nodeBad.filter (· != e) }) s
  if 0 < s1.nv.spareNode then
    logRepair 5 4 0xFFFF e (Config.physOf (0x100000 + e) % 2 ^ 32) { s1 with nv := { s1.nv with spareNode := s1.nv.spareNode - 1 } }
  else logRepair 6 4 0xFFFF e 0xFFFFFFFF { s1 with nv := { s1.nv with nodeRetired := s1.nv.nodeRetired ++ [e] } }

/-- R469: an entry with an uncorrectable error is read: it is failing, and is replaced at once if it holds no node. -/
def entryFails (e : Nat) (s : State) : State :=
  let s1 := modSeq (fun q => { q with
    nodeUpsets := q.nodeUpsets.filter (· != e), nodeBad := if q.nodeBad.contains e then q.nodeBad else q.nodeBad ++ [e] }) s
  if entryHeld s e then s1 else replaceEntry e s1

/-- The entry cannot be read: it holds an uncorrectable error, or is failing (R469). -/
def unreadable (s : State) (e : Nat) : Bool := s.seq.nodeUpsets.contains e || s.seq.nodeBad.contains e

/-- R61, R69, R304: a task whose counter has reached 0 joins its ready list, or aborts its instance. -/
def joinReady (t k n stripe : Nat) (s : State) : State :=
  match tmplAt s t, instAt s t k with
  | some v, some i =>
    match nodeAt v n with
    | none => s
    | some nd =>
      if i.st != .running then s
      else if unreadable s (v.nodeBase + n) then wantAbort t k 2 (entryFails (v.nodeBase + n) s)
      else if coreClass nd.cls && eligibleMask s v nd == 0 then
        -- one abort, one entry: stripes that become ready with it add none
        if abortAsked s t k then s else
        let kind := classKind nd.cls
        let av := if kind = 0 then s.availN else if kind = 1 then s.availV else s.availI
        wantAbort t k 2 (addLog 0x0005 v.tenant 0xFFFF t n (if coreSetOf v nd &&& av = 0 then 1 else 2) s)
      else
        let c := if nd.cls = 7 ∨ nd.cls = 8 then chkAccess s v.tenant nd.work (if nd.cls = 8 then 128 else 4) false else .ok
        if c ≠ .ok then wantAbort t k 2 (logChk c v.tenant (engU 0x00 0) s)
        else
          let prio := min nd.prio (prioCap s v.tenant)
          let task : Task := {
            tmpl := t, slot := k, seq := i.seq, node := n, stripe := stripe, tag := i.nodeTag,
            cls := nd.cls, prio := prio, tenant := v.tenant, since := s.now,
            obj := if nd.cls = 7 ∨ nd.cls = 8 ∨ nd.cls = 9 then descEngine s v nd else 0, orphan := none }
          let s1 := modSeq (fun q => { q with ready := joinList task q.ready })
            (if nd.cls = 7 ∨ nd.cls = 8 then touchRead nd.work (if nd.cls = 8 then 128 else 4) s else s)
          let s2 := modInst t k (fun i => { i with nodes := i.nodes.modify n (fun m =>
            { m with cells := m.cells.modify stripe (fun c => { c with phase := .ready }) }) }) s1
          noteDepth nd.cls prio s2
  | _, _ => s

/-- One cell of an instance. -/
def cellAt (s : State) (t k n stripe : Nat) : Option Cell :=
  (instAt s t k).bind (fun i => (i.nodes[n]?).bind (fun m => m.cells[stripe]?))

/-- Change one cell. -/
def modCell (t k n stripe : Nat) (f : Cell → Cell) (s : State) : State :=
  modInst t k (fun i => { i with nodes := i.nodes.modify n (fun m => { m with cells := m.cells.modify stripe f }) }) s

/-- R56: decrement a dependence counter; at 0 its task becomes ready. -/
def decCell (t k n stripe : Nat) (s : State) : State :=
  match cellAt s t k n stripe with
  | some c =>
    if c.phase != .waiting || c.dep == 0 then s
    else
      let s1 := modCell t k n stripe (fun c => { c with dep := c.dep - 1 }) s
      if c.dep = 1 then joinReady t k n stripe s1 else s1
  | none => s

/-- Decrement every stripe of a node once. -/
def decNode (t k n : Nat) (s : State) : State :=
  match (tmplAt s t).bind (fun v => nodeAt v n) with
  | some nd => (List.range nd.stripes).foldl (fun s i => decCell t k n i s) s
  | none => s

/-! ### External waits (R59) -/

/-- Value of an arrival counter named as in R51. -/
def arrKey (obj : Nat) : Nat := (bits obj 15 8 + 64 * bits obj 16 16) * 256 + bits obj 7 0

/-- Value of an arrival counter. -/
def arrVal (s : State) (obj : Nat) : Nat := tget 0 s.spd.arr (arrKey obj)

/-- A wait of a stripe holds now: camera stripe, counter, time.  HANDLE waits are satisfied by their claim. -/
def waitHolds (s : State) (i : Inst) (nd : Node) (stripe kind obj val : Nat) : Bool :=
  if kind = 1 then camReady s i nd obj stripe val
  else if kind = 3 then decide (val ≤ arrVal s obj)
  else if kind = 4 then decide (i.trig + val ≤ s.now)
  else false

/-- Evaluate one wait of one stripe and decrement its counter if it has just been satisfied. -/
def pollWait (t k n stripe : Nat) (second : Bool) (s : State) : State :=
  match tmplAt s t, instAt s t k, cellAt s t k n stripe with
  | some v, some i, some c =>
    match nodeAt v n with
    | some nd =>
      let kind := if second then nd.w1Kind else nd.w0Kind
      let obj := if second then nd.w1Obj else nd.w0Obj
      let val := if second then nd.w1Val else nd.w0Val
      if i.st == .running && !(if second then c.w1 else c.w0) && waitHolds s i nd stripe kind obj val then
        decCell t k n stripe (modCell t k n stripe (fun c => if second then { c with w1 := true } else { c with w0 := true }) s)
      else s
    | none => s
  | _, _, _ => s

/-- Every stripe of every node of every running instance whose node has a wait of the kind on the object. -/
def waitCells (s : State) (kind : Nat) (obj : Option Nat) : List (Nat × Nat × Nat × Nat × Bool) :=
  s.seq.tmpls.flatMap (fun e => match e.2 with
    | none => []
    | some v => v.slots.zipIdx.flatMap (fun i =>
      if i.1.st != .running then []
      else v.nodes.zipIdx.flatMap (fun nd =>
        let hit := fun (k o : Nat) => k == kind && (match obj with | some x => o == x | none => true)
        let one := fun (b : Bool) => (List.range nd.1.stripes).map
          (fun st => ((e.1, i.2, nd.2, st, b) : Nat × Nat × Nat × Nat × Bool))
        (if hit nd.1.w0Kind nd.1.w0Obj then one false else []) ++
        (if hit nd.1.w1Kind nd.1.w1Obj then one true else []))))

/-- Evaluate every wait of a kind on an object. -/
def pollWaits (kind : Nat) (obj : Option Nat) (s : State) : State :=
  (waitCells s kind obj).foldl (fun s c => pollWait c.1 c.2.1 c.2.2.1 c.2.2.2.1 c.2.2.2.2 s) s

/-! ### Starting an instance (R52, R55, R56, R58) -/

/-- Has a node of the previous instance completed, as far as is known?  None when there is no record of it: it was
skipped or there was none. -/
def prevDone (v : Tmpl) (seq n : Nat) : Option Bool :=
  let p := w32 (seq + 2 ^ 32 - 1)
  match v.slots.find? (fun i => slotBusy i && i.seq == p) with
  | some i => some (match i.nodes[n]? with
      | some m => m.cells.all (fun c => c.phase == .done)
      | none => false)
  | none => (v.ended.find? (fun e => e.seq == p)).map (fun e => e.nodesDone.getD n false)

/-- The previous instance is running. -/
def prevRunning (v : Tmpl) (seq : Nat) : Bool :=
  v.slots.any (fun i => i.st == .running && i.seq == w32 (seq + 2 ^ 32 - 1))

/-- R58: what a PREV edge into instance `seq` is at its start: pending, satisfied, or satisfied with PREV_ABSENT. -/
def prevAtStart (v : Tmpl) (seq src : Nat) : Nat :=
  match prevDone v seq src with
  | some true => 1
  | some false => if prevRunning v seq && !v.fresh && !v.skipped then 0 else 2
  | none => 2

/-- A node's state at the start of an instance. -/
def startNode (v : Tmpl) (seq : Nat) (nd : Node) (n : Nat) : NodeSt :=
  let pe := (edgesOf v).filter (fun e => e.2.2.dst == n && e.2.2.prev)
  let sat := (pe.filter (fun e => prevAtStart v seq e.2.1 != 0)).length
  { cells := List.replicate nd.stripes { dep := depInit v n - sat, w0 := nd.w0Kind == 0, w1 := nd.w1Kind == 0,
                                         phase := .waiting, flags := 0 },
    handles := [], prevAbsent := pe.any (fun e => prevAtStart v seq e.2.1 == 2), flags := 0, stamped := 0,
    lastStamp := 0, verdict := false, failed := false }

/-- PREV edges that stay pending at the start. -/
def startPrev (v : Tmpl) (seq : Nat) : List Nat :=
  ((edgesOf v).filter (fun e => e.2.2.prev && prevAtStart v seq e.2.1 == 0)).map (fun e => e.1)

/-- R56: the tasks whose counters start at 0 become ready, in node and stripe order. -/
def joinStart (t k : Nat) (s : State) : State :=
  match instAt s t k with
  | some i =>
    (i.nodes.zipIdx.flatMap (fun m => m.1.cells.zipIdx.filterMap (fun c =>
      if c.1.dep = 0 then some (m.2, c.2) else none))).foldl (fun s x => joinReady t k x.1 x.2 s) s
  | none => s

/-- R390: the source that still waits for the outcome of a JOB_SUBMIT: its session may have ended since, or a new one
taken its number. -/
def jobWaiter (s : State) (t time : Nat) (j : Job) : Option Waiter :=
  (waiterOf s j.src).filter (fun w => w.what == .job t && w.tag == j.tag && w.applied == time)

/-- R91: a write of one of the instance's frames has faulted. -/
def onFaulted (s : State) (t k : Nat) : Bool :=
  match tmplAt s t, instAt s t k with
  | some v, some i => (List.range 64).any (fun st => usesStream v i st && (frameOf s i st).any (fun f => f.faulted))
  | _, _ => false

/-- R91: an instance that starts on such a frame is aborted. -/
def abortFaultedNow (t k : Nat) (s : State) : State := if onFaulted s t k then wantAbort t k 2 s else s

/-- R52, R55: start an instance in slot `k`.  One started from a pending trigger takes its start time as trigger time,
keeps the event's time as frame time and carries STALE.  R58: whether trigger s − 1 was skipped is the trigger's own. -/
def startInst (t k : Nat) (g : Trig) (waited : Bool) (s : State) : State :=
  match tmplAt s t with
  | none => s
  | some v =>
    let sq := v.nextSeq
    let stale := waited && v.trigKind != 4
    let vg := { v with skipped := g.skipped }
    let s1 := modInst t k (fun i => { i with
      st := .running, seq := sq, trig := if waited then s.now else g.time, frameTime := g.time, stale := stale,
      stream := g.stream, frameNo := g.frameNo, serial := g.serial, handle := g.handle,
      jobId := (g.job.map Job.jobId).getD 0, key := g.job.bind Job.key,
      nodes := v.nodes.zipIdx.map (fun n => startNode vg sq n.1 n.2), prevPend := startPrev vg sq,
      started := s.now, order := s.seq.order, lastStamp := 0,
      predicted := v.prewoken != 0 }) s
    let s2 := modTmpl t (fun v => { v with nextSeq := w32 (sq + 1), fresh := false, prewoken := 0 }) s1
    let s3 := modSeq (fun q => { q with order := q.order + 1 }) s2
    let s4 := joinStart t k s3
    let s5 := pollWaits 4 none (pollWaits 3 none (pollWaits 1 none s4))
    let s6 := match g.job with
      | some j =>
        match jobWaiter s5 t g.time j with
        | some w => replyWait j.src w 0 0 sq (k + 256 * b2n waited) s5
        | none => s5
      | none => s5
    abortFaultedNow t k s6

/-- The lowest-numbered FREE slot. -/
def freeSlot (v : Tmpl) : Option Nat := (v.slots.zipIdx.find? (fun i => i.1.st == .free)).map (fun i => i.2)

/-- R390: answer a JOB_SUBMIT whose trigger is dropped. -/
def dropJob (t : Nat) (g : Trig) (detail : Nat) (s : State) : State :=
  match g.job with
  | some j =>
    match jobWaiter s t g.time j with
    | some w => replyWait j.src w 0x13 detail 0 0 s
    | none => s
  | none => s

/-- R58: a trigger that is taken carries whether the one before it was skipped. -/
def takeTrig (v : Tmpl) (g : Trig) : Trig := { g with skipped := v.skipped }

/-- The template's mark that a trigger was skipped, set or taken over by the trigger that is taken (R58). -/
def markSkipped (t : Nat) (b : Bool) (s : State) : State := modTmpl t (fun v => { v with skipped := b }) s

/-- R54: the RUNNING instance of the lowest sequence number whose abort has not been asked for. -/
def oldestLive (s : State) (t : Nat) (v : Tmpl) : Option (Inst × Nat) :=
  (v.slots.zipIdx.filter (fun i => i.1.st == .running && !abortAsked s t i.2)).foldl
    (fun (r : Option (Inst × Nat)) i => match r with
      | some o => if serLt i.1.seq o.1.seq then some i else some o
      | none => some i) none

/-- R52, R54: a trigger fires.  Without a FREE slot the policy decides.  A trigger that REPLACE displaces counts as
skipped for the one that takes its place (R58). -/
def fireTrigger (t : Nat) (g : Trig) (s : State) : State :=
  match tmplAt s t with
  | none => s
  | some v =>
    if !v.armed then s
    else match freeSlot v with
    | some k => startInst t k (takeTrig v g) false (markSkipped t false s)
    | none =>
      if v.policy = 0 then
        dropJob t g 1 (cnt R.seqTmplSkip t 1 (markSkipped t true s))
      else if v.policy = 1 then
        (if v.pending.length < 4 then
           modTmpl t (fun v => { v with pending := v.pending ++ [takeTrig v g], skipped := false }) s
         else dropJob t g 2 (cnt R.seqTmplQovf t 1 (markSkipped t true s)))
      else
        let s1 := match oldestLive s t v with
          | some o => wantAbort t o.2 18 (cnt R.seqTmplReplaced t 1 s)
          | none => s
        let s2 := match v.pending with
          | d :: _ => dropJob t d 1 (cnt R.seqTmplSkip t 1 s1)
          | [] => s1
        modTmpl t (fun v => { v with
          pending := [{ g with skipped := v.skipped || !v.pending.isEmpty }], skipped := false }) s2

/-- R55: a slot became FREE; the oldest pending trigger starts. -/
def startPending (t : Nat) (s : State) : State :=
  match tmplAt s t with
  | some v =>
    match v.pending, freeSlot v with
    | g :: r, some k => startInst t k g true (modTmpl t (fun v => { v with pending := r }) s)
    | _, _ => s
  | none => s

/-! ### Triggers of arrival counters (R51) -/

/-- Fire a COUNTER template while its counter is at or above the threshold, which advances by the step each time. -/
def fireCounter (t : Nat) : Nat → State → State
  | 0, s => s
  | f + 1, s =>
    match tmplAt s t with
    | some v =>
      if v.armed && v.trigKind == 5 && decide (v.threshold ≤ arrVal s v.trigObj) then
        fireCounter t f (modTmpl t (fun v => { v with threshold := min (v.threshold + max 1 v.param1) (2 ^ 32) })
          (fireTrigger t { time := s.now, stream := 255, serial := 0, frameNo := 0, handle := none, job := none } s))
      else s
    | none => s

/-- Times a COUNTER template can fire at a counter value. -/
def counterFires (s : State) (v : Tmpl) : Nat :=
  (arrVal s v.trigObj + 1 - v.threshold) / max 1 v.param1 + 1

/-- A counter changed: COUNTER triggers and waits (R51, R59). -/
def counterChanged (key : Nat) (s : State) : State :=
  let hit := s.seq.tmpls.filterMap (fun e => match e.2 with
    | some v => if v.trigKind == 5 && arrKey v.trigObj == key then some (e.1, counterFires s v) else none
    | none => none)
  pollWaits 3 none (hit.foldl (fun s e => fireCounter e.1 e.2 s) s)

/-! ### Ends of instances (R53, R67, R68) -/

/-- Keep what R58 asks of an instance that has ended. -/
def recordEnd (v : Tmpl) (i : Inst) : Tmpl :=
  { v with ended := ({ seq := i.seq, nodesDone := i.nodes.map (fun m => m.cells.all (fun c => c.phase == .done)),
                       flags := i.nodes.map (fun m => m.flags) } :: v.ended).take 16 }

/-- R53, R68 step 4: release a slot. -/
def releaseSlot (t k : Nat) (s : State) : State :=
  match instAt s t k with
  | some i =>
    let s1 := modTmpl t (fun v => recordEnd v i) s
    let s2 := modInst t k (fun j => { j with
      st := .free, slotTag := (j.slotTag + 1) % 256,
      nodeTag := (j.nodeTag + 1) % 256 }) s1
    startPending t (match tmplAt s t with | some v => wheelsEnd t v i s2 | none => s2)
  | none => s

/-- R57, R58: the PREV edges out of a completed or aborted node reach the next instance. -/
def prevOut (t seq src : Nat) (absent : Bool) (s : State) : State :=
  match tmplAt s t with
  | none => s
  | some v =>
    match v.slots.zipIdx.find? (fun i => i.1.st == .running && i.1.seq == w32 (seq + 1)) with
    | none => s
    | some (i, k) =>
      ((edgesOf v).filter (fun e => e.2.1 == src && e.2.2.prev && i.prevPend.contains e.1)).foldl (fun s e =>
        decNode t k e.2.2.dst (modInst t k (fun i => { i with
          prevPend := i.prevPend.filter (· != e.1),
          nodes := i.nodes.modify e.2.2.dst (fun m => { m with prevAbsent := m.prevAbsent || absent }) }) s)) s

/-- A PUBLISH node of an aborted instance that has not run (R68). -/
def unpublished (i : Inst) (runs : List Run) (t n : Nat) : Bool :=
  match i.nodes[n]? with
  | some m => m.cells.all (fun c => c.phase == .waiting || c.phase == .ready || (c.phase == .running &&
      runs.any (fun r => r.task.tmpl == t && r.task.seq == i.seq && r.task.node == n && !r.committed)))
  | none => false

/-- The header-only publications an abort leaves (R68). -/
def orphansOf (s : State) (t k : Nat) (v : Tmpl) (i : Inst) (flags : Nat) : List Task :=
  v.nodes.zipIdx.filterMap (fun n =>
    if n.1.cls = 8 ∧ unpublished i s.seq.runs t n.2 then
      some { tmpl := t, slot := k, seq := i.seq, node := n.2, stripe := 0, tag := i.nodeTag, cls := 8,
             prio := min n.1.prio (prioCap s v.tenant), tenant := v.tenant, since := s.now,
             obj := descEngine s v n.1,
             orphan := some { flags := flags ||| (if i.stale then 16 else 0), frameTime := i.frameTime,
                              stream := i.stream, serial := i.serial, frameNo := i.frameNo, node := n.1,
                              unloaded := none } }
    else none)

/-- R102, R371: the frame under way on a transmit port ends: its header line, its lines, FE; one that an abort cuts off
has lines of zeros and a header flagged INVALID. -/
def txEnd (tx : Nat) (cut : Bool) (s : State) : State :=
  match tget none s.cam.txFrame tx with
  | none => s
  | some f =>
    let port := 14 + tx
    let pay := if cut then List.replicate f.pay.length 0 else f.pay
    let s1 := emit (.csi2 port f.vc 0x12 (if cut then f.cut else f.head))
      { s with cam := { s.cam with txFrame := tset none s.cam.txFrame tx none } }
    emit (.csi2 port f.vc 1 []) ((List.range (pay.length / max 1 f.line)).foldl (fun s i =>
      emit (.csi2 port f.vc f.dt ((pay.drop (i * f.line)).take f.line)) s) s1)

/-- The transmit port of a PUBLISH run's engine. -/
def txOf (r : Run) : Option Nat := [0, 1].find? (fun k => r.task.cls == 8 && r.eng == engU 0x06 (14 + k))

/-- R68: abort an instance.  Its tags advance, its tasks leave the lists, running tasks are cancelled (an FW task and a
committed PUBLISH task run on, the latter's CSI-2 frame cut off), the slot drains, PREV edges of the next instance are
satisfied without their source. -/
def abortInst (t k flags : Nat) (s : State) : State :=
  match tmplAt s t, instAt s t k with
  | some v, some i =>
    if i.st != .running then s
    else
      let orph := orphansOf s t k v i flags
      let mine := fun (x : Task) => x.tmpl == t && x.slot == k && x.seq == i.seq && x.orphan.isNone
      let s1 := modSeq (fun q => { q with
        ready := orph.foldl (fun l k => joinList k l) (q.ready.filter (fun x => !mine x)),
        runs := q.runs.map (fun r => if mine r.task && r.task.cls != 9 && !r.committed then { r with cancelled := true }
                                     else r) }) s
      let s2 := modInst t k (fun i => { i with st := .draining, nodeTag := (i.nodeTag + 1) % 256 }) s1
      let txs := s.seq.runs.filterMap (fun r => if mine r.task && r.committed then txOf r else none)
      let s3 := orph.foldl (fun s x => noteDepth x.cls x.prio s) (cnt R.seqTmplAborted t 1 (cnt R.seqAbortCnt 0 1
        (txs.foldl (fun s x => txEnd x true s) s2)))
      (List.range v.nodes.length).foldl (fun s n =>
        let done : Bool := match i.nodes[n]? with
          | some m => m.cells.all (fun c => c.phase == .done)
          | none => true
        if done then s else prevOut t i.seq n true s) s3
  | _, _ => s

/-- Carry out the aborts asked for, and those they lead to. -/
def doAborts : Nat → State → State
  | 0, s => s
  | f + 1, s =>
    match s.seq.toAbort with
    | [] => s
    | (t, k, fl) :: r => doAborts f (abortInst t k fl (modSeq (fun q => { q with toAbort := r }) s))

/-! ### Settling: what follows from a change at once -/

/-- A held source's condition is met (R385, R389). -/
def waitMet (s : State) (w : WaitFor) : Bool :=
  match w with
  | .job _ => false
  | .pushTurn _ _ _ => false
  | .windowClosed n => (tget windowReset s.windows n).st == .closed
  | .slotsFree t => match tmplAt s t with | some v => !tmplBusy v | none => true
  | .slotFree t k sq => match instAt s t k with | some i => i.st == .free || i.seq != sq | none => true
  | .streamStopped st => match streamAt s st with | some v => !v.started | none => true
  | .regionFree fn k => !s.seq.runs.any (fun r => r.task.tenant == fn && !r.worked && !r.cancelled &&
      (match r.lent with | some x => x.1 == k | none => false))

/-- Answer the held sources whose conditions are met. -/
def settleWaits (s : State) : State :=
  s.waits.foldl (fun s' e => match e.2 with
    | some w => if waitMet s w.what then replyWait e.1 w 0 0 w.r0 0 s' else s'
    | none => s') s

/-- The header-only publications of a template: each keeps the PUB_SEQ of its turn when the template is unloaded. -/
def keepOrphans (t : Nat) (v : Tmpl) : Tab Nat → List Task → List Task
  | _, [] => []
  | q, k :: l =>
    match k.orphan with
    | some o =>
      if k.tmpl == t && o.unloaded.isNone then
        { k with orphan := some { o with unloaded := some (tget (tget 0 v.pubSeq k.node) q k.node) } } ::
          keepOrphans t v (tset 0 q k.node (w32 (tget (tget 0 v.pubSeq k.node) q k.node + 1))) l
      else k :: keepOrphans t v q l
    | none => k :: keepOrphans t v q l

/-- R68: the header-only publications a template leaves behind when it is unloaded go on without it: those under way
first, then those still listed. -/
def orphansLeave (t : Nat) (v : Tmpl) (s : State) : State :=
  let mine := fun (r : Run) => r.task.orphan.isSome && !r.committed
  let l := keepOrphans t v [] ((s.seq.runs.filter mine).map Run.task ++ s.seq.ready)
  let n := (s.seq.runs.filter mine).length
  modSeq (fun q => { q with
    ready := l.drop n,
    runs := q.runs.map (fun r => match (l.take n).find? (fun k => mine r && k.tmpl == r.task.tmpl && k.seq == r.task.seq &&
        k.node == r.task.node) with
      | some k => { r with task := k }
      | none => r) }) s

/-- R38: the node-table entries of a template are released: the tag of each advances. -/
def entriesLeave (v : Tmpl) (s : State) : State :=
  (List.range v.nodes.length).foldl (fun s i =>
    modSeq (fun q => { q with entryTags := tmod 0 q.entryTags (v.nodeBase + i) (fun x => (x + 1) % 256) }) s) s

/-- R39: what is left of a template's work, stale by then, goes before its slots can be issued again: held completions are
counted, waiting pushes discarded. -/
def workLeaves (t : Nat) (s : State) : State :=
  let gone := fun (h : Held) => h.run.task.tmpl == t && h.run.task.orphan.isNone
  let s1 := cnt R.seqStaleCnt 0 (s.seq.held.filter gone).length s
  (s.seq.pushes.filter (fun p => p.tmpl == t)).foldl (fun s p => cnt R.mrqStale p.mrq 1 s)
    (modSeq (fun q => { q with held := q.held.filter (fun h => !gone h), pushes := q.pushes.filter (fun p => p.tmpl != t) }) s1)

/-- Entries of a template return to the free tables; its sluices are no longer bound. -/
def unloadTmpl (t : Nat) (s0 : State) : State :=
  match tmplAt s0 t with
  | some v =>
    let s := entriesLeave v (orphansLeave t v (workLeaves t s0))
    let s1 := v.nodes.foldl (fun s n => if n.sluiceEn then
      modSeq (fun q => { q with sluices := tmod sluiceReset q.sluices n.sluice (fun x => { x with bound := none, faults := [], lastPass := none }) }) s else s) s
    (s1.seq.nodeBad.filter (fun e => decide (v.nodeBase ≤ e) && decide (e < v.nodeBase + v.nodes.length))).foldl
      (fun s e => replaceEntry e s) (putTmpl t none s1)
  | none => s0

/-- R353, R377: a template whose tenant was reset, or whose service stopped, is unloaded once every slot is FREE. -/
def settleDoomed (s : State) : State :=
  s.seq.tmpls.foldl (fun s' e => match tmplAt s' e.1 with
    | some v => if v.doomed && !tmplBusy v then unloadTmpl e.1 s' else s'
    | none => s') s

/-- R51: disarm a template; with abort, abort its instances and drop its pending triggers, each JOB_SUBMIT among them
answered as R390 says. -/
def disarmAbort (t : Nat) (s : State) : State :=
  match tmplAt s t with
  | some v =>
    let s1 := v.pending.foldl (fun s g => dropJob t g 3 s) s
    let s2 := modTmpl t (fun v => { v with armed := false, pending := [] }) s1
    (v.slots.zipIdx.filter (fun i => i.1.st == .running)).foldl (fun s i => wantAbort t i.2 2 s) s2
  | none => s

/-- R377: a service that stops disarms every template of the tenant with abort and unloads them; those that the Owner
loads later stay. -/
def settleService (s : State) : State :=
  if s.boot.serviceEnding then
    s.seq.tmpls.foldl (fun s' e => match tmplAt s' e.1 with
      | some v => if v.tenant == 32 && !v.doomed then
          disarmAbort e.1 (modTmpl e.1 (fun v => { v with doomed := true }) s') else s'
      | none => s') { s with boot := { s.boot with serviceEnding := false } }
  else s

/-- Everything that follows from a change at once: aborts, held sources, unloading. -/
def settle (s : State) : State :=
  let s1 := settleService s
  settleDoomed (settleWaits (doAborts (64 + s1.seq.toAbort.length) s1))

/-! ### Sluices (R72, R73, R426) -/

/-- R426: the count of consecutive faults: those above every pass taken in. -/
def sluiceCount (x : Sluice) : Nat :=
  (x.faults.filter (fun f => match x.lastPass with | some p => serLt p f | none => true)).length

/-- A sluice's verdicts. -/
def sluiceSt (s : State) (n : Nat) : Sluice := tget sluiceReset s.seq.sluices n

/-- Change a sluice's verdicts. -/
def modSluice (n : Nat) (f : Sluice → Sluice) (s : State) : State :=
  modSeq (fun q => { q with sluices := tmod sluiceReset q.sluices n f }) s

/-- The sluice has given its verdict on a node of an instance. -/
def markVerdict (t k n : Nat) (s : State) : State :=
  modInst t k (fun i => { i with nodes := i.nodes.modify n (fun m => { m with verdict := true }) }) s

/-- R426: a pass removes every fault of a lower sequence number. -/
def sluicePass (t k n seq num : Nat) (s : State) : State :=
  modSluice num (fun x => { x with
    faults := x.faults.filter (fun f => serLt seq f),
    lastPass := some (match x.lastPass with | some p => if serLt p seq then seq else p | none => seq) })
    (markVerdict t k n s)

/-- R41: the retry counts the stream passes of a node's tasks have reached. -/
def nodeRetries (s : State) (t k n : Nat) : Nat :=
  let l := s.seq.runs.filter (fun r => r.task.tmpl == t && r.task.slot == k && r.task.node == n && !r.cancelled)
  min 255 (sumN (l.map Run.hbmRetry)) + 256 * min 255 (sumN (l.map Run.refetch))

/-- R73, R425: a sluice fault at a time: counted, logged with the retry counts of the node's passes (R41), the instance
aborted, and safe state on the SLUICE_SEQ-th consecutive one. -/
def sluiceFault (t k n seq num eng : Nat) (early : Bool) (at_ : Nat) (tenant : Nat) (s : State) : State :=
  let s1 := cnt R.seqSluiceFaults num 1 (markVerdict t k n s)
  let s2 := modSluice num (fun x => { x with lastTime := at_, faults :=
    if (match x.lastPass with | some p => serLt seq p | none => false) then x.faults else seq :: x.faults }) s1
  let s3 := atTime at_ (addLogR (nodeRetries s t k n) 0x0004 tenant (engRef eng)
    (num + b2n early * 2 ^ 15 + t * 2 ^ 16) n seq) s2
  let lim := bits (rget s3 R.safCfg 0) 20 17
  let s4 := if lim ≠ 0 ∧ lim ≤ sluiceCount (sluiceSt s3 num) then atTime at_ (enterSafe 0x05 (engRef eng)) s3 else s3
  wantAbort t k 2 s4

/-! ### Golden runs and holding (R428 to R433) -/

/-- The engine number golden runs are kept under: contexts of one stream engine share it; 0 for classes without. -/
def goldenEng (cls eng : Nat) : Option Nat :=
  if cls = 8 ∨ cls = 9 then none else some (engRef eng)

/-- What the Safety Island keeps of an engine. -/
def engSt (s : State) (e : Nat) : EngSaf := tget engReset s.saf.engs e

/-- Change it. -/
def modEng (e : Nat) (f : EngSaf → EngSaf) (s : State) : State :=
  { s with saf := { s.saf with engs := tmod engReset s.saf.engs e f } }

/-- The engines a run occupies (R63, R65, R74). -/
def runEngines (r : Run) : List Nat := if r.gang.isEmpty then [engRef r.eng] else r.gang.map (fun c => engN c 32)

/-- R428: the class makes golden runs. -/
def goldenClass (cls : Nat) : Bool := cls != 8 && cls != 9

/-- INTERVAL_US in ns (SAF_CFG): values outside 5,000 to 100,000 behave as the nearer bound. -/
def intervalNs (s : State) : Nat := clampN 5000 100000 (bits (rget s R.safCfg 0) 16 0) * 1000

/-- R34, R35: the check interval that the present time lies in, also before the row that begins it. -/
def intervalAt (s : State) : Nat :=
  if s.saf.intervals = 0 ∨ s.now < s.saf.intEnd then intervalNow s
  else intervalNow s + 1 + (s.now - s.saf.intEnd) / intervalNs s

/-- R432: the engines of a run whose golden run of the interval has not passed: its completion is held for them. -/
def holdFor (s : State) (r : Run) : List Nat :=
  if goldenClass r.task.cls && decide (0 < s.saf.intervals) then
    (runEngines r).filter (fun e => intervalAt s != intervalNow s || !(engSt s e).passed)
  else []

/-- R435: a completion of an engine whose golden run of the interval disagreed carries INVALID. -/
def goldenFlags (s : State) (r : Run) : Nat :=
  if goldenClass r.task.cls && (runEngines r).any (fun e => (engSt s e).bad == some (intervalAt s)) then fInvalid else 0

/-- R428: the engines that make golden runs: image pipes, warp, pyramid, stereo, flow, keypoint engines, N-cores,
stream engines. -/
def goldenEngines : List Nat :=
  (List.range 4).map (fun c => engI c 0) ++
  (List.range 4).flatMap (fun c => (List.range 6).map (fun e => engV c e)) ++
  (List.range 64).map (fun c => engN c 32) ++ (List.range 4).map (fun n => engU (1 + n) 0)

/-- An engine's core is set in the availability mask; stream engines always are. -/
def engAvail (s : State) (e : Nat) : Bool :=
  if e / 0x4000 = 0 then bit s.availN (bits e 13 6)
  else if e / 0x4000 = 1 then bit s.availV (bits e 13 6)
  else if e / 0x4000 = 2 then bit s.availI (bits e 13 6)
  else !(engSt s e).fenced

/-- A golden run is under way or waits for the engine: no task is dispatched to it (R429). -/
def goldenBlocks (s : State) (cls eng : Nat) : Bool :=
  match goldenEng cls eng with
  | some e => (engSt s e).pending || (engSt s e).running.isSome || (engSt s e).again != 0
  | none => false

/-! ### Completion (R53, R57) -/

/-- Bits of the completed prefix (R57). -/
def prefixLen : List Cell → Nat
  | [] => 0
  | c :: t => if c.phase == .done then 1 + prefixLen t else 0

/-- R57: the out-edges of a node when its stripe `i` has completed; `p0`, `p1` the completed prefix before and after,
`all` whether its last task has completed. -/
def outEdges (t k n i p0 p1 : Nat) (all : Bool) (s : State) : State :=
  match (tmplAt s t).bind (fun v => (nodeAt v n).map (fun nd => (v, nd))) with
  | none => s
  | some (v, nd) =>
    (List.range nd.outCount).foldl (fun s j =>
      match v.edges[nd.outFirst + j]? with
      | none => s
      | some e =>
        if e.prev then s
        else if e.kind = 0 then (if all then decNode t k e.dst s else s)
        else if e.kind = 1 then decCell t k e.dst i s
        else (List.range nd.stripes).foldl (fun s q =>
          let need := min (q + e.halo + 1) nd.stripes
          if p0 < need ∧ need ≤ p1 then decCell t k e.dst q s else s) s) s

/-- R53: an instance whose every task has completed ends; its latency is recorded. -/
def endIfDone (t k : Nat) (s : State) : State :=
  match instAt s t k with
  | some i =>
    if i.st == .running && i.nodes.all (fun m => m.cells.all (fun c => c.phase == .done)) then
      let lat := min (i.lastStamp - i.trig) (2 ^ 32 - 1)
      releaseSlot t k (rmax R.seqLatMax t lat (rput R.seqLatLast t lat s))
    else s
  | none => s

/-- R213: a TRACK task commits when its completion is released and not stale: the entries it changed, NEXT_ID, LAST_FRAME and
LAST_VALID. -/
def commitTracks (r : Run) (s : State) : State :=
  match r.task.cls, r.info with
  | 3, [p, next, frame] =>
    rput R.kpePartLast p frame (rput R.kpePartNextid p next (rput R.kpePartCtrl p (rget s R.kpePartCtrl p ||| 0x200)
      { s with tracks := r.commit.foldl (fun t e => tset none t e.1 e.2) s.tracks }))
  | _, _ => s

/-- R57: a released completion reaches the sequencer: discarded when stale, otherwise its successors are served. -/
def releaseRun (r : Run) (s0 : State) : State :=
  let k := r.task
  if k.orphan.isSome then s0
  else if !taskLive s0 k then cnt R.seqStaleCnt 0 1 s0
  else
    let s := commitTracks r s0
    let cells := fun (s : State) => ((instAt s k.tmpl k.slot).bind (fun i => i.nodes[k.node]?)).map (fun m => m.cells)
    let p0 := prefixLen ((cells s).getD [])
    let s1 := modInst k.tmpl k.slot (fun i => { i with nodes := i.nodes.modify k.node (fun m => { m with
      flags := m.flags ||| flagBits r.flags, cells := m.cells.modify k.stripe (fun c => { c with phase := .done, flags := flagBits r.flags }) }) }) s
    let cs := (cells s1).getD []
    let all := cs.all (fun c => c.phase == .done)
    let s2 := outEdges k.tmpl k.slot k.node k.stripe p0 (prefixLen cs) all s1
    let s3 := if all then wheelsNodeDone k.tmpl k.slot k.node (prevOut k.tmpl k.seq k.node false s2) else s2
    endIfDone k.tmpl k.slot s3

/-- Engine-time of a run within the present share window. -/
def runTime (s : State) (r : Run) : Nat := s.now - max r.start s.seq.windowStart

/-- R65, R74: account a run's engine-time; stream contexts that run together add, the model's choice (log entry 215). -/
def accountRun (r : Run) (s : State) : State :=
  let d := runTime s r
  let es := runEngines r
  modSeq (fun q => { q with
    share := tset 0 q.share (r.task.tenant * 16 + r.task.cls) (tget 0 q.share (r.task.tenant * 16 + r.task.cls) + d * es.length),
    busy := es.foldl (fun b e => tset 0 b e (tget 0 b e + d)) q.busy }) s

/-- R73: the engine named by a window end: the running task of lowest stripe index, for a gang the control unit of its
rank-0 member, or the sequencer. -/
def windowEndEngine (s : State) (t k n seq : Nat) : Nat :=
  let l := s.seq.runs.filter (fun r => r.task.tmpl == t && r.task.slot == k && r.task.node == n && r.task.seq == seq &&
    r.task.orphan.isNone && !r.cancelled)
  match l.foldl (fun (x : Option Run) r => match x with
      | some y => if r.task.stripe < y.task.stripe then some r else some y
      | none => some r) none with
  | some r => match r.gang with
    | c :: _ => engN c 32
    | [] => engRef r.eng
  | none => engU 0x00 0

/-- R29, R72, R432: a task's completion is stamped: its sluice judges the node's last one, and it is released, or held
for the golden run.  A completion that comes with a sluice fault, or at or after the window end, finds its instance
aborted first and is stale (R68, R34). -/
def stampRun (r : Run) (s : State) : State :=
  let k := r.task
  let fl := r.flags ||| goldenFlags s r
  let r1 := { r with flags := fl }
  if k.orphan.isSome || !taskLive s k then releaseRun r1 s
  else
    let s1 := modInst k.tmpl k.slot (fun i => { i with
      lastStamp := max i.lastStamp s.now,
      nodes := i.nodes.modify k.node (fun m => { m with
        stamped := m.stamped + 1, lastStamp := s.now,
        cells := m.cells.modify k.stripe (fun c => { c with phase := .held }) }) }) s
    match tmplAt s1 k.tmpl, instAt s1 k.tmpl k.slot with
    | some v, some i =>
      match nodeAt v k.node, i.nodes[k.node]? with
      | some nd, some m =>
        let last := decide (nd.stripes ≤ m.stamped)
        if nd.sluiceEn && last && !m.verdict && decide (s.now < i.trig + nd.early) then
          cnt R.seqStaleCnt 0 1 (sluiceFault k.tmpl k.slot k.node k.seq nd.sluice r.eng true s.now k.tenant s1)
        else if nd.sluiceEn && !m.verdict && decide (i.trig + nd.late ≤ s.now) then
          let sr := modSeq (fun q => { q with runs := r :: q.runs }) s1
          cnt R.seqStaleCnt 0 1 (modSeq (fun q => { q with runs := s1.seq.runs })
            (sluiceFault k.tmpl k.slot k.node k.seq nd.sluice (windowEndEngine sr k.tmpl k.slot k.node k.seq) false
              (i.trig + nd.late) k.tenant sr))
        else
          let s2 := if nd.sluiceEn && last && !m.verdict then
            sluicePass k.tmpl k.slot k.node k.seq nd.sluice s1 else s1
          let w := holdFor s2 r
          if w.isEmpty then releaseRun r1 s2
          else modSeq (fun q => { q with held := q.held ++ [{ run := r1, stamp := s.now, iv := intervalAt s, wait := w }] }) s2
      | _, _ => s1
    | _, _ => s1

/-- An engine no longer holds back a completion of an interval up to `iv`; flags are added to it (R432, R433, R435). -/
def unhold (e iv flags : Nat) (h : Held) : Held :=
  if h.wait.contains e ∧ h.iv ≤ iv then
    { h with wait := h.wait.filter (· != e), run := { h.run with flags := h.run.flags ||| flags } }
  else h

/-- Release the held completions of an engine's intervals up to `iv` with flags added (R432, R433, R435); one of a gang
waits for every member. -/
def releaseHeld (e iv flags : Nat) (s : State) : State :=
  let l := s.seq.held.map (unhold e iv flags)
  let s1 := modSeq (fun q => { q with held := l.filter (fun h => !h.wait.isEmpty) }) s
  (l.filter (fun h => h.wait.isEmpty)).foldl (fun s h => releaseRun h.run s) s1

/-! ### Dispatch (R62 to R65) -/

/-- R268: the accumulators a tenant holds on a core: those of a task that ended with ACC_HOLD, or of the task that runs. -/
def heldAcc (s : State) (core tn : Nat) : Option Acc :=
  (tget none s.accs (64 * core + tn)).filter (fun a => a.final || s.seq.runs.any (fun r => !r.cancelled && r.gang.contains core &&
    r.task.tmpl == a.tmpl && r.task.slot == a.slot && r.task.seq == a.seq && r.task.node == a.node && r.task.stripe == a.stripe))

/-- R268: a task leaves a core: what is held there for its tenant is discarded unless its own last TOD held it. -/
def dropAccs (k : Task) (core : Nat) (s : State) : State :=
  { s with accs := tset none s.accs (64 * core + k.tenant) ((tget none s.accs (64 * core + k.tenant)).filter (fun a =>
      a.final && k.tmpl == a.tmpl && k.slot == a.slot && k.seq == a.seq && k.node == a.node && k.stripe == a.stripe)) }

/-- No task runs on the engine. -/
def engFree (s : State) (e : Nat) : Bool := !s.seq.runs.any (fun r => r.eng == e)

/-- An N-core is free of tasks and golden runs. -/
def ncoreFree (s : State) (c : Nat) : Bool :=
  !s.seq.runs.any (fun r => r.gang.contains c) && !goldenBlocks s 6 (engN c 32)

/-- R62: a SERIAL node runs one stripe at a time, lower stripes first. -/
def serialOk (s : State) (k : Task) : Bool :=
  match (tmplAt s k.tmpl).bind (fun v => nodeAt v k.node), (instAt s k.tmpl k.slot).bind (fun i => i.nodes[k.node]?) with
  | some nd, some m =>
    !nd.serial || (m.cells.take k.stripe).all (fun c => c.phase == .done) && !m.cells.any (fun c => c.phase == .running)
  | _, _ => true

/-- The node of a task: a header-only publication carries its own (R68). -/
def nodeOfTask (s : State) (k : Task) : Option Node :=
  match k.orphan with
  | some o => some o.node
  | none => (tmplAt s k.tmpl).bind (fun v => nodeAt v k.node)

/-- The task is of an order group of its template. -/
def inGroup (s : State) (t g : Nat) (x : Task) : Bool :=
  x.tmpl == t && (match nodeOfTask s x with | some m => m.ordered && m.group == g | none => false)

/-- A header-only publication whose template has been unloaded. -/
def leftBehind (k : Task) : Bool := match k.orphan with | some o => o.unloaded.isSome | none => false

/-- R64: an instance of a lower sequence number still has an ORDERED task of the group that has not been dispatched. -/
def groupWaits (v : Tmpl) (g seq : Nat) : Bool :=
  v.slots.any (fun i => i.st == .running && serLt i.seq seq &&
    v.nodes.zipIdx.any (fun n => n.1.ordered && n.1.group == g &&
      (match i.nodes[n.2]? with
       | some m => m.cells.any (fun c => c.phase == .waiting || c.phase == .ready)
       | none => false)))

/-- R64: an order group admits a task only when every ORDERED task of the group of a lower sequence number has been
dispatched, retired, or has made its header-only publication; those of one sequence number go in ready-list order. -/
def groupOk (s : State) (k : Task) : Bool :=
  match nodeOfTask s k with
  | none => true
  | some nd =>
    !nd.ordered ||
    (!(!leftBehind k && (match tmplAt s k.tmpl with | some v => groupWaits v nd.group k.seq | none => false)) &&
     !s.seq.ready.any (fun x => x.orphan.isSome && leftBehind x == leftBehind k && inGroup s k.tmpl nd.group x &&
        serLt x.seq k.seq) &&
     !(s.seq.ready.takeWhile (fun x => x != k)).any (fun x => leftBehind x == leftBehind k && x.seq == k.seq &&
        inGroup s k.tmpl nd.group x))

/-- Engines of a class, for its share (R65). -/
def classEngines (cls : Nat) : Nat :=
  if cls = 4 then 8 else if cls = 6 then 64 else if cls = 7 then 256 else if cls = 8 then 6 else if cls = 9 then 1 else 4

/-- Engine-time a tenant has used of a class in this window. -/
def tenantUse (s : State) (tn cls : Nat) : Nat :=
  tget 0 s.seq.share (tn * 16 + cls) +
  sumN ((s.seq.runs.filter (fun r => r.task.tenant == tn && r.task.cls == cls)).map
    (fun r => runTime s r * (runEngines r).length))

/-- R65: a tenant is over share once its engine-time reaches its share of the class's engine-time. -/
def overShare (s : State) (tn cls : Nat) : Bool :=
  decide (classEngines cls * 1000 * shareOf s tn cls ≤ tenantUse s tn cls)

/-- R62, R65: of one list's eligible tasks the oldest whose tenant is not over share, otherwise the oldest. -/
def pickList (s : State) (l : List Task) : Option Task :=
  match l.find? (fun k => !overShare s k.tenant k.cls) with
  | some k => some k
  | none => l.head?

/-- R62: the task of a class to dispatch among those `ok` admits, priority 7 first. -/
def pickTask (s : State) (cls : Nat) (ok : Task → Bool) : Option Task :=
  if s.seq.halted then none
  else ((List.range 8).map (fun i => 7 - i)).findSome? (fun p =>
    pickList s (s.seq.ready.filter (fun k => k.cls == cls && k.prio == p && serialOk s k && groupOk s k && ok k)))

/-- Engines of a class with cores but NCORE: one per core, of warp and resize engines two. -/
def classUnits (cls : Nat) : Nat := if cls = 4 then 2 else 1

/-- Engine `i` of such a class, the engines numbered core by core. -/
def classEng (cls i : Nat) : Nat :=
  if cls = 0 then engI i 0
  else if cls = 1 then engV i 0 else if cls = 2 then engV i 1 else if cls = 3 then engV i 2
  else if cls = 4 then engV (i / 2) (3 + i % 2) else engV i 5

/-- The arbiter of a class's engines (R62). -/
def ptrClass (cls : Nat) : Nat := 10 + cls

/-- R36, R62: of the free engines that can take the chosen task, engine `eng` of the class is the first at or after the
pointer. -/
def engTurn (s : State) (cls eng : Nat) (can : Nat → Bool) : Bool :=
  match rotFind (4 * classUnits cls) (tget 0 s.seq.ptrs (ptrClass cls)) can with
  | some i => classEng cls i == eng
  | none => false

/-- R62: the task a core's engine can take: the core is in the node's set, available and in its tenant's mask. -/
def coreTask (s : State) (cls core eng : Nat) : Option Task :=
  if !engFree s eng || goldenBlocks s cls eng then none
  else pickTask s cls (fun k => match (tmplAt s k.tmpl) with
    | some v => (match nodeAt v k.node with | some nd => bit (eligibleMask s v nd) core | none => false)
    | none => false)

/-- R62, R36: the task a core's engine takes: the one it can take, where its turn comes among the engines that can. -/
def pickCore (s : State) (cls core eng : Nat) : Option Task :=
  match coreTask s cls core eng with
  | some k =>
    if engTurn s cls eng (fun i => coreTask s cls (i / classUnits cls) (classEng cls i) == some k) then some k else none
  | none => none

/-- R62: the task an engine named by its descriptor takes. -/
def pickObj (s : State) (cls eng : Nat) : Option Task :=
  if !engFree s eng || goldenBlocks s cls eng then none
  else pickTask s cls (fun k => k.obj == eng)

/-- R74: histogram bucket of a waiting time in ns. -/
def histBucket (w : Nat) : Nat :=
  ((List.range 15).map (fun i => 15 - i)).foldl (fun r b => if r = 0 ∧ 2 ^ b * 1000 ≤ w then b else r) 0

/-- Remove a task from its list. -/
def removeTask (k : Task) : List Task → List Task
  | [] => []
  | x :: t => if x = k then t else x :: removeTask k t

/-- A new run of a task. -/
def newRun (s : State) (k : Task) (eng : Nat) (gang : List Nat) : Run where
  task := k
  eng := eng
  gang := gang
  start := s.now
  cycles := 0
  flags := 0
  worked := false
  stalled := false
  cancelled := false
  committed := false
  pos := 0
  pushes := []
  refetch := 0
  hbmRetry := 0
  retries := []
  refetched := []
  aux := 0
  info := []
  releases := []
  commit := []
  records := recordsOf s k
  unsynced := []
  lent := none

/-- The unit of an engine reference: its core, or its chip-level unit. -/
def unitOf (e : Nat) : Nat := e / 64 * 64

/-- The engine is in IDLE, or its unit in NAP. -/
def asleep (s : State) (e : Nat) : Bool := tget 0 s.pwr.idle e != 0 || s.pwr.nap.contains (unitOf e)

/-- R456: a dispatch, a pre-wake or a golden run starts the wake of an engine. -/
def wakeEng (e : Nat) (s : State) : State :=
  if asleep s e && !s.pwr.waking.contains e then { s with pwr := { s.pwr with waking := s.pwr.waking ++ [e] } } else s

/-- R456, R459: the engines a task is dispatched to wake; a task of a predicted instance that stalls on it is counted. -/
def wakeFor (es : List Nat) (predicted : Bool) (s : State) : State :=
  let s1 := es.foldl (fun s e => wakeEng e s) s
  if predicted && es.any (fun e => s1.pwr.waking.contains e) then cnt R.pwrPrewakeLate 0 1 s1 else s1

/-- R36: the pointer of a class's engines moves past the one that took a task. -/
def turnTaken (cls eng : Nat) (s : State) : State :=
  if 5 < cls then s
  else match (List.range (4 * classUnits cls)).find? (fun i => classEng cls i == eng) with
    | some i => modSeq (fun q => { q with ptrs := tset 0 q.ptrs (ptrClass cls) ((i + 1) % (4 * classUnits cls)) }) s
    | none => s

/-- R62, R66, R74: dispatch a task to an engine: it leaves its list, its waiting time is counted, it runs. -/
def dispatch (k : Task) (eng : Nat) (gang : List Nat) (s : State) : State :=
  let s1 := modSeq (fun q => { q with ready := removeTask k q.ready, runs := q.runs ++ [newRun s k eng gang] }) s
  let s2 := if k.orphan.isSome then s1 else modCell k.tmpl k.slot k.node k.stripe (fun c => { c with phase := .running }) s1
  let p := match instAt s k.tmpl k.slot with | some i => i.predicted | none => false
  wakeFor (runEngines (newRun s k eng gang)) p <| cnt (R.seqObsHist0 + 4 * histBucket (s.now - k.since)) (obsIdx k.cls k.prio) 1
    (turnTaken k.cls eng s2)

/-- The run on an engine. -/
def runOn (s : State) (eng : Nat) : Option Run := s.seq.runs.find? (fun r => r.eng == eng)

/-- Change the run on an engine. -/
def modRun (eng : Nat) (f : Run → Run) (s : State) : State :=
  modSeq (fun q => { q with runs := q.runs.map (fun r => if r.eng == eng then f r else r) }) s

/-- The run on an engine ends; the caches of a gang write back what it wrote (R289). -/
def dropRun (eng : Nat) (s : State) : State :=
  let s1 := modSeq (fun q => { q with runs := q.runs.filter (fun r => r.eng != eng) }) s
  match runOn s eng with
  | some r => r.gang.foldl (fun s c => dropAccs r.task c (cacheEnd c s)) s1
  | none => s1

/-- Node, template and instance of a task. -/
def taskCtx (s : State) (k : Task) : Option (Tmpl × Node × Inst) :=
  match tmplAt s k.tmpl with
  | some v =>
    match nodeAt v k.node, v.slots[k.slot]? with
    | some nd, some i => some (v, nd, i)
    | _, _ => none
  | none => none

/-- Flags of a node of the instance before, where the node completed in it: of one still held in a slot, or of one that has
ended.  An edge that an abort satisfied releases no completion. -/
def prevFlags (v : Tmpl) (seq n : Nat) : Nat :=
  let p := w32 (seq + 2 ^ 32 - 1)
  match v.slots.find? (fun j => slotBusy j && j.seq == p) with
  | some j => (match j.nodes[n]? with
    | some m => if m.cells.all (fun c => c.phase == .done) then m.flags else 0
    | none => 0)
  | none => match v.ended.find? (fun x => x.seq == p) with
    | some x => if x.nodesDone.getD n false then x.flags.getD n 0 else 0
    | none => 0

/-- R153: the flags of the completions one in-edge releases to stripe `i`. -/
def edgeFlags (v : Tmpl) (i : Inst) (stripe src : Nat) (e : Edge) : Nat :=
  if e.prev then prevFlags v i.seq src
  else match i.nodes[src]? with
    | none => 0
    | some m =>
      if e.kind = 0 then m.flags
      else if e.kind = 1 then ((m.cells[stripe]?).map (fun c => c.flags)).getD 0
      else orAll ((m.cells.take (stripe + e.halo + 1)).map (fun c => c.flags))

/-- An in-edge kept out of the input flags: a PREV edge of an OFE or a KPE node from itself (R182, R223). -/
def selfEdge (nd : Node) (n : Nat) (e : Nat × Nat × Edge) : Bool := (nd.cls == 2 || nd.cls == 3) && e.2.2.prev && e.2.1 == n

/-- R14, R153: the flags a task's inputs carry: those of the completions its in-edges release to it, the frames it waits
on, and the instance's STALE. -/
def inputFlags (s : State) (k : Task) : Nat :=
  match taskCtx s k with
  | none => 0
  | some (v, nd, i) =>
    let es := (edgesOf v).filter (fun e => e.2.2.dst == k.node && !selfEdge nd k.node e)
    let here := es.map (fun e => edgeFlags v i k.stripe e.2.1 e.2.2)
    let cams := ((if nd.w0Kind = 1 then [nd.w0Obj] else []) ++ (if nd.w1Kind = 1 then [nd.w1Obj] else [])).map
      (fun st => match frameOf s i st with
        | some f => if degraded f.status then fDegraded else 0
        | none => 0)
    flagBits (orAll (here ++ cams) ||| (if i.stale then fStale else 0))

/-- R182: the predictor flags of an OFE task. -/
def predictorFlags (s : State) (k : Task) : Nat :=
  match taskCtx s k with
  | none => 0
  | some (v, nd, i) =>
    flagBits (orAll (((edgesOf v).filter (fun e => e.2.2.dst == k.node && selfEdge nd k.node e)).map
      (fun e => prevFlags v i.seq e.2.1)))

end Sys2Proof.Machine
end

