-- ==== Sys2Proof/Machine/Millrace.lean ====
section
/-! DEFINITION. Millraces (R320 to R323): configuration, pushes by tasks and their stalls, pops, claims of the
sequencer (R60). -/

namespace Sys2Proof.Machine

/-- A millrace is enabled. -/
def mrqEn (s : State) (m : Nat) : Bool := bit (rget s R.mrqCfg m) 0

/-- Its consumer is host software. -/
def mrqHost (s : State) (m : Nat) : Bool := bit (rget s R.mrqCfg m) 1

/-- Its depth: DEPTH_M1 + 1, at least 16. -/
def mrqDepth (s : State) (m : Nat) : Nat := max 15 (bits (rget s R.mrqCfg m) 23 16) + 1

/-- Queued handles. -/
def mrqQ (s : State) (m : Nat) : List Nat := tget [] s.mrq m

/-- Replace the queued handles. -/
def mrqPut (m : Nat) (l : List Nat) (s : State) : State := { s with mrq := tset [] s.mrq m l }

/-- The push's task is live under the tag it was issued with (R322). -/
def pushLive (s : State) (p : Push) : Bool :=
  match instAt s p.tmpl p.slot with
  | some i => i.st == .running && i.seq == p.seq && i.nodeTag == p.tag
  | none => false

/-- R422: the push's tenant holds no grant of its millrace any more. -/
def pushBarred (s : State) (p : Push) : Bool :=
  match tmplAt s p.tmpl with
  | some v => !mrqGranted s v.tenant p.mrq
  | none => false

/-- The arbiter pointer of a millrace's pushes (R321) and of its HANDLE triggers (R60). -/
def ptrPush (m : Nat) : Nat := 1000 + m
def ptrTrig (m : Nat) : Nat := 3000 + m

/-- R321: what presents a push to a millrace: a task, or the Sequencer Control Processor with the QUEUE_PUSH a source
waits with. -/
inductive PushBy where
  | task (p : Push)
  | host (src : Nat) (w : Waiter) (handle tenant : Nat)
  deriving DecidableEq, Repr

/-- Its class: the task's effective priority, 0 for QUEUE_PUSH. -/
def PushBy.cls : PushBy → Nat
  | .task p => p.prio
  | .host _ _ _ _ => 0

/-- Its requester as an engine reference; the contexts of one stream engine are one. -/
def PushBy.requester : PushBy → Nat
  | .task p => engRef p.requester
  | .host _ _ _ _ => engU 0x00 0

/-- When it was first presented, where one requester holds several. -/
def PushBy.since : PushBy → Nat
  | .task _ => 0
  | .host _ w _ _ => w.applied

/-- The stalled pushes of tasks to a millrace. -/
def taskPushes (s : State) (m : Nat) : List Push := s.seq.pushes.filter (fun p => p.mrq == m)

/-- The QUEUE_PUSH commands that wait for their turn at a millrace. -/
def hostPushes (s : State) (m : Nat) : List PushBy :=
  s.waits.filterMap (fun e => match e.2 with
    | some w => match w.what with
      | .pushTurn x h tn => if x = m then some (.host e.1 w h tn) else none
      | _ => none
    | none => none)

/-- Some push waits at a millrace. -/
def pushContended (s : State) (m : Nat) : Bool := !(taskPushes s m).isEmpty || !(hostPushes s m).isEmpty

/-- R36: the pointer of a millrace's arbiter moves past the requester that won. -/
def pushGrant (m requester : Nat) (s : State) : State :=
  modSeq (fun q => { q with ptrs := tset 0 q.ptrs (ptrPush m) (requester + 1) }) s

/-- A push joins those that wait for their turn. -/
def pushWaits (p : Push) (s : State) : State := modSeq (fun q => { q with pushes := q.pushes ++ [p] }) s

/-- R321, R322, R323, R124: present a push: stale, it is discarded and counted; to a millrace its tenant has lost, it
aborts the instance (R422); to a disabled millrace, dropped and
counted; to a full one it stalls; behind others it takes its turn; otherwise it wins its cycle and the handle is queued. -/
def presentPush (p : Push) (s : State) : State :=
  if !pushLive s p then cnt R.mrqStale p.mrq 1 s
  else if pushBarred s p then wantAbort p.tmpl p.slot 2 s
  else if !mrqEn s p.mrq then cnt R.mrqDrop p.mrq 1 s
  else if mrqDepth s p.mrq ≤ (mrqQ s p.mrq).length then cnt R.mrqFull p.mrq 1 (pushWaits p s)
  else if pushContended s p.mrq then pushWaits p s
  else mrqPut p.mrq (mrqQ s p.mrq ++ [p.handle]) (pushGrant p.mrq (engRef p.requester) s)

/-- A task on an engine still has a stalled push. -/
def pushStalled (s : State) (eng : Nat) : Bool := s.seq.pushes.any (fun p => p.requester == eng)

/-- R36, R321: among the pushes presented to a millrace the highest class wins, then the first requester at or after the
pointer, and of one requester the oldest. -/
def pushWinner (ptr : Nat) (l : List PushBy) : Option PushBy :=
  let top := l.foldl (fun a p => max a p.cls) 0
  let c := l.filter (fun p => p.cls == top)
  let best := fun (l : List PushBy) => l.foldl (fun (r : Option PushBy) p => match r with
    | some x => if p.requester < x.requester ∨ (p.requester = x.requester ∧ p.since < x.since) then some p else some x
    | none => some p) none
  match best (c.filter (fun p => decide (ptr ≤ p.requester))) with
  | some p => some p
  | none => best c

/-- Remove the first occurrence of a push. -/
def removePush (p : Push) : List Push → List Push
  | [] => []
  | x :: t => if x = p then t else x :: removePush p t

/-- QUEUE_PUSH: rights, a disabled millrace, a full one. -/
def pushCheck (s : State) (tn m : Nat) : Option Err :=
  if !mrqGranted s tn m then some (0x04, 4)
  else if !mrqEn s m then some (0x02, 4)
  else if mrqDepth s m ≤ (mrqQ s m).length then some (0x18, 4)
  else none

/-- R323, MRQ_FULL: a rejected push to a disabled millrace is counted as a drop, one to a full millrace as a full push. -/
def pushRejected (tn m : Nat) (s : State) : State :=
  if !mrqGranted s tn m then s
  else if !mrqEn s m then cnt R.mrqDrop m 1 s
  else cnt R.mrqFull m 1 s

/-- R321, R323: a QUEUE_PUSH is applied in the cycle in which it wins, on the count of that cycle. -/
def hostPush (m src : Nat) (w : Waiter) (handle tn : Nat) (s : State) : State :=
  let w1 := { w with applied := s.now }
  match pushCheck s tn m with
  | some e => replyWait src w1 e.1 e.2 0 0 (pushRejected tn m s)
  | none =>
    let q := mrqQ s m ++ [handle]
    replyWait src w1 0 0 q.length 0 (mrqPut m q s)

/-- R322: the pushes to a millrace whose tag has become stale end, each counted. -/
def dropStale (m : Nat) (s : State) : State :=
  cnt R.mrqStale m ((taskPushes s m).filter (fun p => !pushLive s p)).length
    (modSeq (fun q => { q with pushes := q.pushes.filter (fun p => !(p.mrq == m && !pushLive s p)) }) s)

/-- R422: the pushes to a millrace that their tenant has lost end, and abort their instances. -/
def dropBarred (m : Nat) (s : State) : State :=
  let out := (taskPushes s m).filter (pushBarred s)
  if out.isEmpty then s
  else out.foldl (fun s p => wantAbort p.tmpl p.slot 2 s)
    (modSeq (fun q => { q with pushes := q.pushes.filter (fun p => !out.contains p) }) s)

/-- R323: pushes that wait at a millrace that is disabled: those of tasks are dropped and counted, each QUEUE_PUSH is
rejected. -/
def dropDisabled (m : Nat) (s : State) : State :=
  let s1 := cnt R.mrqDrop m (taskPushes s m).length
    (modSeq (fun q => { q with pushes := q.pushes.filter (fun p => p.mrq != m) }) s)
  (hostPushes s m).foldl (fun s b => match b with
    | .host src w h tn => hostPush m src w h tn s
    | .task _ => s) s1

/-- R321, R322: one cycle of the pushes that wait at a millrace: the stale ones end; the arbiter's winner is accepted when
a place is free; on a full millrace a task's push stalls on and a QUEUE_PUSH is rejected. -/
def acceptPush (m : Nat) (s0 : State) : State :=
  let s := dropBarred m (dropStale m s0)
  if !mrqEn s m then dropDisabled m s
  else match pushWinner (tget 0 s.seq.ptrs (ptrPush m)) ((taskPushes s m).map PushBy.task ++ hostPushes s m) with
    | none => s
    | some b =>
      let s1 := pushGrant m b.requester s
      match b with
      | .host src w h tn => hostPush m src w h tn s1
      | .task p =>
        if mrqDepth s m ≤ (mrqQ s m).length then cnt R.mrqFull m 1 s1
        else mrqPut m (mrqQ s m ++ [p.handle]) (modSeq (fun q => { q with pushes := removePush p q.pushes }) s1)

/-- A HANDLE wait of a running instance that is not satisfied: when the instance started and in which order, template,
slot, node, which wait, count. -/
structure Claim where
  started : Nat
  order : Nat
  tmpl : Nat
  slot : Nat
  node : Nat
  second : Bool
  count : Nat
  deriving DecidableEq, Repr

/-- The HANDLE waits that claim from a millrace, nodes of an instance in order. -/
def claimants (s : State) (m : Nat) : List Claim :=
  s.seq.tmpls.flatMap (fun e => match e.2 with
    | none => []
    | some v => v.slots.zipIdx.flatMap (fun i =>
      if i.1.st != .running then []
      else v.nodes.zipIdx.flatMap (fun nd =>
        match i.1.nodes[nd.2]? with
        | none => []
        | some ns =>
          let one : Bool → Nat → List Claim := fun b c =>
            [{ started := i.1.started, order := i.1.order, tmpl := e.1, slot := i.2, node := nd.2, second := b, count := c }]
          (if nd.1.w0Kind = 2 ∧ nd.1.w0Obj = m ∧ ns.cells.any (fun c => !c.w0) then one false nd.1.w0Val else []) ++
          (if nd.1.w1Kind = 2 ∧ nd.1.w1Obj = m ∧ ns.cells.any (fun c => !c.w1) then one true nd.1.w1Val else []))))

/-- R60: the instance that started first comes first; of those started at one device time the lower template, and of one
template the lower sequence number. -/
def claimBefore (x y : Claim) : Bool :=
  decide (x.started < y.started) || (x.started == y.started &&
    (decide (x.tmpl < y.tmpl) || (x.tmpl == y.tmpl && decide (x.order < y.order))))

/-- The claimant that comes first: of one instance the lowest node, first wait. -/
def firstClaim (l : List Claim) : Option Claim :=
  l.foldl (fun r x => match r with
    | some y => if claimBefore x y then some x else some y
    | none => some x) none

/-- R59, R60: carry out the first claim when the millrace holds its full count: the handles are delivered to the node's
tasks and the wait decrements every stripe. -/
def claimHandles (m : Nat) (s : State) : State :=
  match firstClaim (claimants s m) with
  | some q =>
    if mrqEn s m && decide (q.count ≤ (mrqQ s m).length) then
      let got := (mrqQ s m).take q.count
      let s1 := mrqPut m ((mrqQ s m).drop q.count) s
      let s2 := modInst q.tmpl q.slot (fun i => { i with nodes := i.nodes.modify q.node (fun x => { x with
        handles := x.handles ++ got,
        cells := x.cells.map (fun c => if q.second then { c with w1 := true } else { c with w0 := true }) }) }) s1
      decNode q.tmpl q.slot q.node s2
    else s
  | none => s

/-- R60: serve a HANDLE trigger: no HANDLE wait claims from the millrace, it holds a handle, and an armed template
that names it has a FREE slot; several templates take turns. -/
def serveTrigger (m : Nat) (s : State) : State :=
  match mrqQ s m with
  | [] => s
  | h :: r =>
    let ok := fun t => match tmplAt s t with
      | some v => v.armed && v.trigKind == 4 && v.trigObj == m && (freeSlot v).isSome
      | none => false
    if mrqEn s m && (claimants s m).isEmpty then
      match rotFind 256 (tget 0 s.seq.ptrs (ptrTrig m)) ok with
      | some t =>
        fireTrigger t { time := s.now, stream := 255, serial := 0, frameNo := 0, handle := some h, job := none }
          (modSeq (fun q => { q with ptrs := tset 0 q.ptrs (ptrTrig m) ((t + 1) % 256) }) (mrqPut m r s))
      | none => s
    else s

end Sys2Proof.Machine
end

