-- ==== Sys2Proof/Machine/Repair.lean ====
section
/-! DEFINITION. Golden runs' start (R429), fences and spares (R466 to R468), corrected-error rates (R467). -/

namespace Sys2Proof.Machine

/-- A stream engine's reference: its golden run starts between two slots (R429). -/
def isStreamEng (e : Nat) : Bool := decide (e / 0x4000 = 3)

/-- R429, R435: an engine that is idle, or whose task has just ended, starts its waiting golden run, a repeat first. -/
def startGolden (e : Nat) (s : State) : State :=
  let x := engSt s e
  if x.running.isSome || x.fenced || (!isStreamEng e && s.seq.runs.any (fun r => (runEngines r).contains e)) then s
  else if x.again ≠ 0 then
    wakeEng e (modEng e (fun x => { x with running := some x.againInt, runKind := x.again, again := 0 }) s)
  else if x.pending then
    wakeEng e (modEng e (fun x => { x with pending := false, running := some (intervalNow s), runKind := 0 }) s)
  else s

/-! ### Availability -/

/-- R360: the capability block changes: CAP_GEN rises by one before and one after. -/
def capChange (s : State) : State := { s with capGen := w32 (s.capGen + 2) }

/-- R19, R360: change the availability mask of a core kind. -/
def setAvail (kind core : Nat) (on : Bool) (s : State) : State :=
  let f := fun (m : Nat) => if on then m ||| 2 ^ core else if bit m core then m - 2 ^ core else m
  let s1 := if kind = 0 then { s with availN := f s.availN } else if kind = 1 then { s with availV := f s.availV }
            else { s with availI := f s.availI }
  capChange s1

/-- R69: the ready tasks left without an eligible engine abort their instances. -/
def dropNoEngine (s : State) : State :=
  s.seq.ready.foldl (fun s k =>
    match tmplAt s k.tmpl with
    | some v =>
      match nodeAt v k.node with
      | some nd =>
        if k.orphan.isNone && coreClass k.cls && eligibleMask s v nd == 0 && !abortAsked s k.tmpl k.slot then
          let kind := classKind nd.cls
          let av := if kind = 0 then s.availN else if kind = 1 then s.availV else s.availI
          wantAbort k.tmpl k.slot 2
            (addLog 0x0005 v.tenant 0xFFFF k.tmpl k.node (if coreSetOf v nd &&& av = 0 then 1 else 2) s)
        else s
      | none => s
    | none => s) s

/-- The accumulators a core holds are cleared (R467, R269). -/
def clearAccs (core : Nat) (s : State) : State :=
  { s with accs := s.accs.filter (fun e => e.1 / 64 != core || (match e.2 with | some a => a.saved.isSome | none => false)) }

/-- A class of R428 has no engine left (R437). -/
def classEmpty (s : State) : Bool :=
  s.availN == 0 || s.availV == 0 || s.availI == 0 || (List.range 4).all (fun n => (engSt s (engU (1 + n) 0)).fenced)

/-! ### Fences -/

/-- The engines of R428 that a fence takes: all of a V-core (R467). -/
def fenceGroup (e : Nat) : List Nat :=
  if e / 0x4000 = 1 then (List.range 6).map (fun i => engV (bits e 13 6) i) else [e]

/-- Which spare replaces a fenced unit: 0 none, 1 its tensor engine's, 2 a core's.  A tensor engine without a spare of
its own falls back on a spare N-core (DEDUCED). -/
def spareFor (s : State) (e : Nat) (te : Option Nat) : Nat :=
  let kind := e / 0x4000
  if te.isSome && decide (0 < s.nv.spareTe.getD (bits e 13 6) 0) then 1
  else if kind = 0 ∧ 0 < s.nv.spareNcore ∨ kind = 1 ∧ 0 < s.nv.spareVcore ∨ kind = 2 ∧ 0 < s.nv.spareIcore then 2
  else 0

/-- Take a spare. -/
def takeSpare (which e : Nat) (s : State) : State :=
  let kind := e / 0x4000
  if which = 1 then { s with nv := { s.nv with spareTe := s.nv.spareTe.set (bits e 13 6) 0 } }
  else if which = 2 then
    (if kind = 0 then { s with nv := { s.nv with spareNcore := s.nv.spareNcore - 1 } }
     else if kind = 1 then { s with nv := { s.nv with spareVcore := s.nv.spareVcore - 1 } }
     else { s with nv := { s.nv with spareIcore := s.nv.spareIcore - 1 } })
  else s

/-- R468, R275: a spare core takes its unit's index; the distances of that index change (R360). -/
def substitute (e : Nat) (s : State) : State :=
  let i := if e / 0x4000 = 0 then bits e 13 6 else 64 + bits e 13 6
  if e / 0x4000 ≤ 1 then
    capChange { s with nv := { s.nv with substituted := tset 0 s.nv.substituted i (tget 0 s.nv.substituted i + 1) } }
  else s

/-- R435 to R439, R466 to R468: fence a unit.  Before READY a spare is substituted at once and makes its first golden
run; later the mask is cleared until the substitution, and an exhausted kind or an empty class brings safe state. -/
def fence (e : Nat) (te : Option Nat) (reason : Nat) (s : State) : State :=
  let kind := e / 0x4000
  let core := bits e 13 6
  let which := spareFor s e te
  let s1 := takeSpare which e (logRepair 1 reason e 0 0xFFFFFFFF s)
  let s2 := (fenceGroup e).foldl (fun s x => modEng x (fun y => { y with
    fenced := true, pending := false, again := 0, running := none }) s) (modEng e (fun y => { y with last := 3 }) s1)
  if !s.saf.ready && which != 0 then
    let s3 := logRepair 2 reason e 0 (Config.physOf (e + 65536) % 2 ^ 32) (if which = 2 then substitute e s2 else s2)
    (fenceGroup e).foldl (fun s x => startGolden x (modEng x (fun y => { y with
      fenced := false, firstDone := false, passed := false, bad := none, pending := true }) s)) s3
  else
    let s3 := if kind < 3 then setAvail kind core false (if kind = 0 then clearAccs core s2 else s2) else s2
    let s4 := if which = 1 then { s3 with pwr := { s3.pwr with teWait := s3.pwr.teWait ++ [core] } }
      else if which = 2 then { s3 with nv := { s3.nv with fenced := s3.nv.fenced ++ [e] } }
      else { s3 with nv := { s3.nv with lost := s3.nv.lost ++ [e] } }
    let s5 := if which = 0 || classEmpty s4 then enterSafe 0x01 e s4 else s4
    dropNoEngine s5

/-- R466, R468: a substituted tensor engine: the core is available again after a golden run. -/
def teSubstitute (core : Nat) (s : State) : State :=
  let e := engN core 32
  let s1 := logRepair 2 1 e 0 (Config.physOf (e + 65536) % 2 ^ 32) (setAvail 0 core true s)
  startGolden e (modEng e (fun y => { y with fenced := false, passed := false, bad := none, pending := true })
    { s1 with pwr := { s1.pwr with teArmed := s1.pwr.teArmed.filter (· != core) } })

/-- R466: a core's task boundary after the GRAPH_ARM. -/
def teBoundary (core : Nat) (s : State) : State :=
  if s.pwr.teArmed.contains core && !s.seq.runs.any (fun r => r.gang.contains core) then teSubstitute core s else s

/-- R466: a GRAPH_ARM was accepted. -/
def teArm (s : State) : State :=
  let l := s.pwr.teWait
  l.foldl (fun s c => teBoundary c s) { s with pwr := { s.pwr with teWait := [], teArmed := s.pwr.teArmed ++ l } }

/-- R467: corrected errors of a unit; reaching the limit within the window fences it, and its running task goes on. -/
def countCe (e n : Nat) (s : State) : State :=
  let v := tget 0 s.pwr.ceCount e + n
  let s1 := { s with pwr := { s.pwr with ceCount := tset 0 s.pwr.ceCount e v } }
  if max 1 (bits (rget s R.pwrCeLimit 0) 15 0) ≤ v ∧ ¬ (engSt s e).fenced then fence e none 3 s1 else s1

end Sys2Proof.Machine
end

