-- ==== Sys2Proof/Machine/Scratch.lean ====
section
/-! DEFINITION. The scratchpad's own commands (R274 to R302): bank power, cache mode, wheels' registers, arrival
counters, scrubbing, write-back, row repair, poisoning of a wheel's rest. -/

namespace Sys2Proof.Machine

/-- A requester's grant covers rows, or it is one of R30 (R302). -/
def rowsRight (s : State) (rq r n : Nat) : Bool := privileged s rq || sraGrant s rq r n

/-! ### Bank power (R292) -/

/-- Banks whose bit differs between two values of BANK_ON. -/
def banksChanged (a b : Nat) : List Nat := (List.range 16).filter (fun i => bit a i != bit b i)

/-- A bank of the slice serves as cache. -/
def cacheBank (s : State) (slice b : Nat) : Bool := decide (16 - tget 0 s.spd.cacheBanks slice ≤ b)

/-- R292, R302: a write of BANK_ON.  The rows of a bank that powers up read as poisoned until they are written; a write
that reaches it meanwhile stalls, and shows its effect at once here. -/
def slicePwrWrite (rq v : Nat) (s : State) : State :=
  let sl := selGet s rq R.spdSliceSel
  let old := rget s R.spdSlicePwr sl
  let new := bits v 15 0
  let ch := banksChanged old new
  if !ch.all (fun b => rowsRight s rq (bankRow sl b) 1024) || ch.any (fun b => bit old b && cacheBank s sl b) then
    countDenied rq s
  else
    let key := fun b => 16 * sl + b
    let down := (ch.filter (fun b => bit old b)).map key
    let up := (ch.filter (fun b => !bit old b)).map key
    rput R.spdSlicePwr sl new (up.foldl (fun s k => setPoison (k * 1024) ((k + 1) * 1024) 2 s) { s with spd := { s.spd with
      goingDown := s.spd.goingDown.filter (fun k => !up.contains k) ++ down,
      goingUp := s.spd.goingUp.filter (fun k => !down.contains k) ++ up,
      off := s.spd.off.filter (fun k => !up.contains k) } })

/-- R292: a cleared bank has powered down. -/
def bankDown (slice b : Nat) (s : State) : State :=
  let k := 16 * slice + b
  guardS (s.spd.goingDown.contains k) s (fun s => { s with spd := { s.spd with
    goingDown := s.spd.goingDown.filter (· != k), off := s.spd.off ++ [k],
    upsets := s.spd.upsets.filter (fun e => e.1 / 1024 != k),
    writeback := s.spd.writeback.filter (fun r => r / 1024 != k) } })

/-- R292: a bank has powered up. -/
def bankUp (slice b : Nat) (s : State) : State :=
  let k := 16 * slice + b
  guardS (s.spd.goingUp.contains k) s (fun s => { s with spd := { s.spd with
    goingUp := s.spd.goingUp.filter (· != k) } })

/-! ### Cache mode (R288 to R291) -/

/-- R288, R291, R302: a write of SPD_SLICE_CACHE; a reserved count of banks is dropped. -/
def sliceCacheWrite (rq v : Nat) (s : State) : State :=
  let sl := selGet s rq R.spdSliceSel
  let old := rget s R.spdSliceCache sl
  let n := bits v 3 0
  let hi := max n (bits old 3 0)
  let lo := if bits v 5 4 = bits old 4 4 then min n (bits old 3 0) else 0
  if 8 < n || !rowsRight s rq (bankRow sl (16 - hi)) ((hi - lo) * 1024) then countDenied rq s
  else
    let s1 := rput R.spdSliceCache sl (bits v 4 0) s
    if n ≠ tget 0 s.spd.cacheBanks sl ∨ bit v 5 then
      { s1 with spd := { s1.spd with cachePend := s1.spd.cachePend.filter (· != sl) ++ [sl] } }
    else s1

/-! ### Wheels' registers (R293, R298, R302) -/

/-- A task is running or stalled on the wheel, or a camera line waits for it (R298). -/
def wheelBusy (s : State) (k : Nat) : Bool :=
  let w := wheelSt s k
  s.seq.runs.any (fun r => w.pNode == some (nodeName r.task.tmpl r.task.node)
    || w.cNode == some (nodeName r.task.tmpl r.task.node)) ||
  s.cam.streams.any (fun e => match e.2 with
    | some v =>
      let l := rget s R.ispLand e.1
      bit l 0 && bits l 15 8 + 256 * bits l 21 16 == k && !v.buf.isEmpty
    | none => false)

/-- The tenant's grant covers a wheel of the core's slice with these values. -/
def wheelRight (s : State) (rq k base rows : Nat) : Bool := sraGrant s rq ((k % 256) * 16384 + base) rows

/-- R293: the ranges of a wheel's values. -/
def wheelSizes (base rows place : Nat) : Bool :=
  decide (1 ≤ rows) && decide (rows ≤ 16384) && decide (base + rows ≤ 16384) && decide (1 ≤ place) && decide (place ≤ rows)

/-- R298, R302: a write of SPD_WHEEL_CFG: EN = 1 restarts the wheel; BASE_ROW is accepted only while EN is 0, a
clearing of EN only while the wheel is not BUSY.  DESIGN CHOICE (log entry 170): a wheel whose values R293 rules
out is not enabled, and the write is dropped and counted. -/
def wheelCfgWrite (rq v : Nat) (s : State) : State :=
  let k := selGet s rq R.spdWheelSel
  let old := rget s R.spdWheelCfg k
  let rows := bits (rget s R.spdWheelSize k) 14 0
  let newBase := bits v 29 16
  let oldBase := bits old 29 16
  if !wheelRight s rq k oldBase rows || !wheelRight s rq k (if bit old 0 then oldBase else newBase) rows then
    countDenied rq s
  else if !bit old 0 then
    (if bit v 0 && !wheelSizes newBase rows (bits (rget s R.spdWheelSize k) 30 16) then countDenied rq s
     else
       let s1 := rput R.spdWheelCfg k (newBase * 2 ^ 16 + v % 2) s
       if bit v 0 then putWheel k wheelZero s1 else s1)
  else
    let s1 := if newBase = oldBase then s else countDenied rq s
    if bit v 0 then putWheel k wheelZero s1
    else if wheelBusy s k then countDenied rq s
    else rput R.spdWheelCfg k (oldBase * 2 ^ 16) s1

/-- R298, R302: a write of SPD_WHEEL_SIZE. -/
def wheelSizeWrite (rq v : Nat) (s : State) : State :=
  let k := selGet s rq R.spdWheelSel
  let base := bits (rget s R.spdWheelCfg k) 29 16
  let old := rget s R.spdWheelSize k
  if wheelEn s k || !wheelRight s rq k base (bits old 14 0) || !wheelRight s rq k base (bits v 14 0) then
    countDenied rq s
  else rput R.spdWheelSize k (v &&& 0x7FFF7FFF) s

/-! ### Arrival counters (R299, R300) -/

/-- Kind, core and number of the counter a SPD_ARR_SEL value names exist. -/
def arrExists (v : Nat) : Bool :=
  if bit v 16 then decide (bits v 15 8 < 4) && decide (bits v 7 0 < 64) else decide (bits v 15 8 < 64)

/-- R299: add arrivals to a counter, modulo 2³². -/
def arrAdd (key n : Nat) (s : State) : State :=
  if n = 0 then s
  else counterChanged key { s with spd := { s.spd with arr := tset 0 s.spd.arr key (w32 (tget 0 s.spd.arr key + n)) } }

/-- R300: set a counter. -/
def arrSet (key v : Nat) (s : State) : State :=
  counterChanged key { s with spd := { s.spd with arr := tset 0 s.spd.arr key (w32 v) } }

/-- R417: a tenant holds a share of a core: it is in the mask and the class's SHARE is above 0; for a V-core, of any of
its classes. -/
def holdsShare (s : State) (t kind core : Nat) : Bool :=
  bit (coreMask s t kind) core &&
  (if kind = 0 then decide (0 < shareOf s t 6)
   else if kind = 1 then (List.range 5).any (fun c => decide (0 < shareOf s t (c + 1)))
   else decide (0 < shareOf s t 0))

/-- R300, R302: a write of SPD_ARR_VALUE. -/
def arrValueWrite (rq v : Nat) (s : State) : State :=
  let sel := selGet s rq R.spdArrSel
  if arrExists sel && holdsShare s rq (bits sel 16 16) (bits sel 15 8) then settle (arrSet (arrKey sel) v s)
  else countDenied rq s

/-! ### Scrubbing and repair (R282 to R287) -/

/-- PERIOD_US in ns: 0 behaves as 1, values above 20,000,000 as that. -/
def scrubPeriod (s : State) : Nat := clampN 1 20000000 (bits (rget s R.spdScrubCfg 0) 24 0) * 1000

/-- Rows a group's scrub visits: its 4,096 rows and the spares in use (R284). -/
def scrubRows (s : State) (g : Nat) : Nat := 4096 + tget 0 s.nv.rowSpares g

/-- The spare row that stands for a row now: the last it was given (R285). -/
def spareOf (s : State) (row : Nat) : Option Nat :=
  ((s.nv.rowSubs.filter (fun e => e.2 == some row)).getLast?).map (·.1)

/-- The row whose contents stand at scrub position `q` of a group: its own rows in order, then the spares in use; none
at a position that has been mapped out, and at a spare mapped at test, whose row is not known. -/
def scrubRowAt (s : State) (g q : Nat) : Option Nat :=
  if q < 4096 then (if (spareOf s (g * 4096 + q)).isSome then none else some (g * 4096 + q))
  else
    let k := 128 * g + (q - 4096)
    (tget none s.nv.rowSubs k).filter (fun row => spareOf s row == some k)

/-- R284, R285: the position is skipped: the bank of its row is powered down. -/
def scrubSkips (s : State) (g q : Nat) : Bool :=
  match scrubRowAt s g q with
  | some row => bankDead s row
  | none => false

/-- R284: the first position from `p` on, over at most `f` of them, that is not skipped. -/
def scrubNext (s : State) (g : Nat) : Nat → Nat → Option Nat
  | _, 0 => none
  | p, f + 1 => if scrubSkips s g (p % scrubRows s g) then scrubNext s g (p + 1) f else some p

/-- The error a scrub of a row finds: what the command brings, or one that struck the row before. -/
def foundError (s : State) (row : Nat) (err : RowError) : RowError :=
  if err = .none then tget RowError.none s.spd.upsets row else err

/-- R283, R290: a scrub or a copy found an uncorrectable error in a row, which may serve as cache. -/
def foundUe (row : Nat) (s : State) : State := if inCache s row then cacheRowBad row s else rowUe row s

/-- R282, R283, R286: what the scrubber does with a row it has read. -/
def scrubFinds (row : Nat) (err : RowError) (s : State) : State :=
  match foundError s row err with
  | .none => { s with spd := { s.spd with ceWord := tset 0 s.spd.ceWord row 0 } }
  | .single w =>
    let again := tget 0 s.spd.ceWord row == w % 128 + 1
    let s1 := rowCe row { s with spd := { s.spd with ceWord := tset 0 s.spd.ceWord row (w % 128 + 1) } }
    if again then queueRow row 5 s1 else s1
  | .double => foundUe row { s with spd := { s.spd with ceWord := tset 0 s.spd.ceWord row 0 } }

/-- R284, R286: scrub one row of a bank group with what the read finds.  A pass ends as the position wraps. -/
def scrub (slice grp : Nat) (err : RowError) (s : State) : State :=
  let g := 4 * slice + grp
  if s.now < tget 0 s.spd.scrubTime g + scrubPeriod s then s
  else match scrubNext s g (tget 0 s.spd.scrubAt g) (scrubRows s g) with
  | none => { s with spd := { s.spd with scrubTime := tset 0 s.spd.scrubTime g s.now } }
  | some p =>
    let n := scrubRows s g
    let wraps := (p + 1) / n
    let s1 := { s with spd := { s.spd with
      scrubTime := tset 0 s.spd.scrubTime g s.now,
      scrubAt := tset 0 s.spd.scrubAt g ((p + 1) % n),
      scrubPasses := tset 0 s.spd.scrubPasses g (sat32 (tget 0 s.spd.scrubPasses g + wraps)) } }
    let s2 := touchRows (16384 * slice) 1 s1
    match scrubRowAt s g (p % n) with
    | some row => scrubFinds row err s2
    | none => s2

/-- R282: the slice's oldest corrected row is written back, which ends its stored error; the row's contents stand as
they were read. -/
def writeBack (slice : Nat) (s : State) : State :=
  match s.spd.writeback.find? (fun r => r / 16384 == slice) with
  | some r => touchRows r 1 (freshRows r 1 (fun _ => false) s)
  | none => s

/-- R286: the first queued row of the slice starts its copy at slice idle. -/
def idleRepair (slice : Nat) (s : State) : State :=
  if tget 0 s.spd.lastUse slice + 100000 ≤ s.now ∧ tget none s.spd.copying slice = none then
    match s.nv.rowQueue.find? (fun r => r.1 / 16384 == slice) with
    | some r => { s with spd := { s.spd with copying := tset none s.spd.copying slice (some r.1) } }
    | none => s
  else s

/-- R286: the copy reads the row, and finds what error it holds. -/
def copyReads (r : Nat) (s : State) : State := if hiddenUe s r then foundUe r s else findCe r 1 s

/-- R285, R286: a copy is complete: the slice maps the row to the spare, whose contents and poison are the row's. -/
def copyDone (slice : Nat) (s0 : State) : State :=
  match tget none s0.spd.copying slice with
  | some r =>
    let s := touchRows r 1 (copyReads r s0)
    { s with
      spd := { s.spd with copying := tset none s.spd.copying slice none },
      nv := { s.nv with
        rowQueue := s.nv.rowQueue.filter (fun e => e.1 != r),
        rowSubs := tset none s.nv.rowSubs (128 * groupOf r + tget 0 s.nv.rowSpares (groupOf r)) (some r),
        rowSpares := tset 0 s.nv.rowSpares (groupOf r) (tget 0 s.nv.rowSpares (groupOf r) + 1) } }
  | none => s0

/-! ### Commands -/

/-- R292. -/
def execBankPowerDownDone (slice bank : Nat) (s : State) : Host.Outcome State Fault Refusal :=
  act (decide (slice < 64) && decide (bank < 16)) s (bankDown slice bank)

/-- R292. -/
def execBankPowerUpDone (slice bank : Nat) (s : State) : Host.Outcome State Fault Refusal :=
  act (decide (slice < 64) && decide (bank < 16)) s (bankUp slice bank)

/-- R284. -/
def execScrubRow (slice group : Nat) (err : RowError) (s : State) : Host.Outcome State Fault Refusal :=
  act (decide (slice < 64) && decide (group < 4)) s (fun s => settle (scrub slice group err s))

/-- R282. -/
def execEccWriteback (slice : Nat) (s : State) : Host.Outcome State Fault Refusal :=
  act (decide (slice < 64)) s (writeBack slice)

/-- R286. -/
def execSliceIdleRepair (slice : Nat) (s : State) : Host.Outcome State Fault Refusal :=
  act (decide (slice < 64)) s (idleRepair slice)

/-- R286. -/
def execRepairCopyDone (slice : Nat) (s : State) : Host.Outcome State Fault Refusal :=
  act (decide (slice < 64)) s (fun s => settle (copyDone slice s))

/-- R297. -/
def execWheelPoisonFill (core wheel : Nat) (s : State) : Host.Outcome State Fault Refusal :=
  act (decide (core < 64) && decide (wheel < 64)) s (poisonFillStep (wheelKey core wheel))

end Sys2Proof.Machine
end

