-- ==== Sys2Proof/Machine/Window.lean ====
section
/-! DEFINITION. Remote windows (R324 to R330): ingress of writes and reads, landing, closing. -/

namespace Sys2Proof.Machine

/-- A window's state. -/
def winSt (s : State) (n : Nat) : Window := tget windowReset s.windows n

/-- Change a window. -/
def modWin (n : Nat) (f : Window → Window) (s : State) : State :=
  { s with windows := tset windowReset s.windows n (f (winSt s n)) }

/-- Bytes of a function's BAR2 aperture (R356). -/
def bar2Bytes (fn : Nat) : Nat := if isPf fn then 0x1000000000 else 0x100000000

/-- A window's aperture range holds `[off, off + n)`. -/
def winHolds (w : Window) (off n : Nat) : Bool :=
  w.ranged && decide (w.aperture ≤ off) && decide (off + n ≤ w.aperture + w.size)

/-- A window's aperture range meets `[off, off + n)`. -/
def winMeets (w : Window) (off n : Nat) : Bool :=
  w.ranged && decide (w.aperture < off + n) && decide (off < w.aperture + w.size)

/-- R329: the window of the function that answers a request: one that is not CLOSED, otherwise a CLOSED one whose part
of the range no later window covers. -/
def winFor (s : State) (fn off n : Nat) : Option Nat :=
  let l := (List.range 64).map (fun i => 64 * fn + i)
  match l.find? (fun k => (winSt s k).st != .closed && winHolds (winSt s k) off n) with
  | some k => some k
  | none => l.find? (fun k =>
      let w := winSt s k
      w.st == .closed && winHolds w off n &&
      !l.any (fun j => decide (w.openSeq < (winSt s j).openSeq) && winMeets (winSt s j) off n))

/-- A requester the window permits. -/
def winPermits (w : Window) (req : Nat) : Bool := w.anyReq || w.reqs.contains req

/-- R327: a request from a requester that is not permitted. -/
def winDeny (k req : Nat) (s : State) : State :=
  addLog 0x0014 (k / 64) (engU 0x07 (portOf (k / 64))) req k 0 (cnt R.winDenied k 1 s)

/-- R329: a posted write at or after the close point. -/
def winLateWrite (k req : Nat) (s : State) : State :=
  let s1 := cnt R.winLate k 1 s
  let e := tget (0, 0) (winSt s k).late req
  if e.1 = 0 then
    let sq := s1.logNext
    modWin k (fun w => { w with late := tset (0, 0) w.late req (1, sq) })
      (addLog 0x0013 (k / 64) (engU 0x07 (portOf (k / 64))) req 1 0 s1)
  else
    let s2 := modWin k (fun w => { w with late := tset (0, 0) w.late req (e.1 + 1, e.2) }) s1
    { s2 with log := s2.log.map (fun x => if x.seq == e.2 && x.code == 0x0013 then { x with d1 := w32 (e.1 + 1) } else x) }

/-- R327, R329: a posted write at a function's BAR2. -/
def winWrite (fn req off : Nat) (data : List Byte) (s : State) : State :=
  match winFor s fn off data.length with
  | none => cnt R.winFnUnclaimed fn 1 s
  | some k =>
    let w := winSt s k
    if w.st != .opened then winLateWrite k req s
    else if !winPermits w req then winDeny k req s
    else if !w.hbm && (data.length != 512 || off % 512 != 0) then cnt R.winDropShape k 1 s
    else modWin k (fun w => { w with flight := w.flight ++ [{ req := req, stamp := s.now, dev := w.base + (off - w.aperture), data := data }] })
      (cnt R.winAccepted k 1 s)

/-- R327, R329: a memory read or an AtomicOp at a function's BAR2; in an ENC range without a memory key it faults
(R412). -/
def winRead (fn req off len : Nat) (atomic : Bool) (s : State) : State :=
  match winFor s fn off len with
  | none => emit (.completion fn 1 []) s
  | some k =>
    let w := winSt s k
    if w.st != .opened then emit (.completion fn 4 []) s
    else if !winPermits w req then emit (.completion fn 4 []) (winDeny k req s)
    else if atomic then emit (.completion fn 1 []) (cnt R.winDropShape k 1 s)
    else if w.hbm && w.readEn then
      (let a := w.base + (off - w.aperture)
       if keyless s fn a len then
         emit (.completion fn 4 []) (logAddr 0x0001 fn (engU 0x07 (portOf fn)) a s)
       else emit (.completion fn 0 (hbmGets s a len)) s)
    else emit (.completion fn 4 []) (cnt R.winDropShape k 1 s)

/-- R329: a DRAINING window with no write in flight becomes CLOSED. -/
def winDrain (k : Nat) (s : State) : State :=
  let w := winSt s k
  if w.st == .draining && w.flight.isEmpty then
    let s1 := modWin k (fun w => { w with st := .closed, revoked := false }) s
    if w.revoked then addLog 0x0015 (k / 64) (engU 0x07 (portOf (k / 64))) k 0 0 s1 else s1
  else s

/-- R329, R330: an OPEN window closes at this instant.  A write accepted at it comes after it (R34, R35) and is dropped. -/
def winClose (k : Nat) (revoked : Bool) (s : State) : State :=
  let w := winSt s k
  if w.st == .opened then
    let after := w.flight.filter (fun f => f.stamp == s.now)
    let s1 := modWin k (fun w => { w with
      st := .draining, closePoint := s.now, late := [], revoked := revoked, flight := w.flight.filter (fun f => f.stamp != s.now) }) s
    let s2 := rput R.winAccepted k (rget s R.winAccepted k - after.length) s1
    winDrain k (after.foldl (fun s f => winLateWrite k f.req s) s2)
  else s

/-- R328: the oldest accepted write lands, later than it was accepted (log entry 207); a row that a bank without power or a retired row turns away does not
count, and a write in an ENC range without a memory key faults (R412). -/
def winLand (k : Nat) (s : State) : State :=
  let w := winSt s k
  match w.flight with
  | [] => s
  | f :: r =>
    if s.now ≤ f.stamp then s
    else
    let counts := w.arrEn && (w.hbm || !(bankDead s (rowOf f.dev) || rowPoison s (rowOf f.dev) == 3))
    let s0 := modWin k (fun w => { w with flight := r }) s
    if keyless s (k / 64) f.dev f.data.length then
      settle (winDrain k (logAddr 0x0001 (k / 64) (engU 0x07 (portOf (k / 64))) f.dev s0))
    else
      let s1 := devPut f.dev f.data s0
      let s2 := if counts then arrAdd (arrKey w.counter) 1 s1 else s1
      settle (winDrain k s2)

/-- R327. -/
def execWindowWrite (fn req off : Nat) (data : List Byte) (s : State) : Host.Outcome State Fault Refusal :=
  act (decide (fn < 32)) s (fun s => guardS (decide (fn < nFns s)) s (winWrite fn req off data))

/-- R327. -/
def execWindowRead (fn req off len : Nat) (atomic : Bool) (s : State) : Host.Outcome State Fault Refusal :=
  act (decide (fn < 32)) s (fun s => guardS (decide (fn < nFns s)) s (winRead fn req off len atomic))

/-- R328. -/
def execWindowWriteLanded (win : Nat) (s : State) : Host.Outcome State Fault Refusal :=
  act (decide (win < 2048)) s (winLand win)

end Sys2Proof.Machine
end

