-- ==== Sys2Proof/Machine/Power.lean ====
section
/-! DEFINITION. The power and clock controller (R454 to R467) and device time (R27, R28): envelopes, supplies, thermal
steps, duty, idle, nap and sleep, pre-wake, the clock and its discipline. -/

namespace Sys2Proof.Machine

/-- The controller's engine reference. -/
def pwrEng : Nat := engU 0x0D 0

/-! ### Envelopes (R460, R461) -/

/-- Package power of an envelope in mW. -/
def envPower (e : Nat) : Nat := if e = 0 then 350000 else if e = 1 then 260000 else if e = 2 then 180000 else 120000

/-- ARCLK of an envelope in MHz. -/
def envClock (e : Nat) : Nat := if e ≤ 1 then 1400 else if e = 2 then 1000 else 800

/-- R461: the effective envelope: the lowest of the selected one, the thermal step, and P4 under a supply warning. -/
def effEnv (s : State) : Nat :=
  max (max (bits (rget s R.pwrEnv 0) 1 0) s.pwr.thermal) (if s.pwr.sag then 3 else 0)

/-- Change the power controller. -/
def modPwr (f : Pwr → Pwr) (s : State) : State := { s with pwr := f s.pwr }

/-- R498: a voltage in LINEAR16 with an exponent of −9; to the nearest step (DESIGN CHOICE, log entry 188). -/
def linear16 (mv : Nat) : Nat := (mv * 512 + 500) / 1000

/-- R498: write VOUT_COMMAND of the regulator at address 0x40. -/
def voutCommand (mv : Nat) : Out := .pmbus 0x40 (linear16 mv)

/-- R498: command a set point over PMBus. -/
def pmbusSet (mv : Nat) (s : State) : State :=
  emit (voutCommand mv) (modPwr (fun p => { p with pmbusBusy := true, pmbusFails := 0 }) s)

/-- R461: start the change to the effective envelope: voltage before frequency upward, frequency before voltage
downward; an unfinished upward change is abandoned. -/
def reformEnv (s : State) : State :=
  let t := effEnv s
  if t = s.pwr.envTarget ∧ s.pwr.change ≠ 0 then s
  else
    let s1 := modPwr (fun p => { p with envTarget := t }) s
    if t = s.pwr.env then modPwr (fun p => { p with change := 0 }) s1
    else if envClock t = envClock s.pwr.env then modPwr (fun p => { p with env := t, change := 0 }) s1
    else if t < s.pwr.env then pmbusSet (Config.railMv t) (modPwr (fun p => { p with change := 1 }) s1)
    else modPwr (fun p => { p with change := 2 }) s1

/-- R461, R498: the four senses have reached the raised set point; the frequency switches. -/
def setPointReached (s : State) : State :=
  if s.pwr.change = 1 ∧ ¬ s.pwr.pmbusBusy then modPwr (fun p => { p with change := 2 }) s else s

/-- R461: ARCLK runs at the new frequency; downward, the voltage now follows. -/
def clockSwitched (s : State) : State :=
  if s.pwr.change = 2 then
    let down := decide (s.pwr.env < s.pwr.envTarget)
    let s1 := modPwr (fun p => { p with env := p.envTarget, change := 0 }) s
    if down then pmbusSet (Config.railMv s.pwr.envTarget) s1 else s1
  else s

/-! ### Supplies (R463) -/

/-- The SUPPLY_WARN message on the PWR_IRQ vectors. -/
def warnIrq (s : State) : State :=
  let w := rget s R.pwrIrq 0
  let s1 := if bit w 11 then msixEvent 0 (bits w 10 0) s else s
  if bit w 27 && s.bifurcated then msixEvent 16 (bits w 26 16) s1 else s1

/-- R463: a rail has been below set point − 4 percent for 200 ns. -/
def warn (s : State) : State :=
  if s.pwr.sag then s
  else
    let s1 := rput R.pwrStat 0 (rget s R.pwrStat 0 ||| 4) (addLog 0x0200 63 pwrEng 0 0 0 s)
    reformEnv (modPwr (fun p => { p with sag := true }) (warnIrq s1))

/-- R463: every rail has stayed above set point − 3 percent for 10 ms. -/
def warnEnd (s : State) : State :=
  if s.pwr.sag then reformEnv (modPwr (fun p => { p with sag := false }) s) else s

/-- R498: a PMBus transfer has ended; one that fails three times leaves the set point and counts as a sag. -/
def pmbusDone (ok : Bool) (s : State) : State :=
  if !s.pwr.pmbusBusy then s
  else if ok then modPwr (fun p => { p with pmbusBusy := false, pmbusFails := 0, volt := Config.railMv p.envTarget }) s
  else if 3 ≤ s.pwr.pmbusFails + 1 then
    warn (modPwr (fun p => { p with pmbusBusy := false, pmbusFails := 0 }) s)
  else emit (voutCommand (Config.railMv s.pwr.envTarget)) (modPwr (fun p => { p with pmbusFails := p.pmbusFails + 1 }) s)

/-! ### Power and temperature (R462, R464, R465) -/

/-- Average of the measurements of the last 1 ms. -/
def powerAvg (p : Pwr) : Nat := sumN p.power / max 1 p.power.length

/-- R462: a measurement; the N-core duty moves by 1/16. -/
def powerMeasured (mw : Nat) (s : State) : State :=
  let s1 := modPwr (fun p => { p with power := (p.power ++ [mw]).drop (p.power.length + 1 - 10) }) s
  let a := powerAvg s1.pwr
  let lim := envPower (effEnv s)
  modPwr (fun p => { p with duty :=
    if lim < a then p.duty - 1 else if a * 100 < lim * 95 then min 16 (p.duty + 1) else p.duty }) s1

/-- A sensor's reading: the tile it belongs to is not part of the event (free). -/
def reading (t : Int) (s : State) : State :=
  let tile := Config.tileOf (2 ^ 32 + s.free) % 4
  draw (modPwr (fun p => { p with
    temps := p.temps.set tile t,
    tempLog := (s.now, tile, t) :: p.tempLog.filter (fun e => decide (s.now < e.1 + 1000000000)) }) s)

/-- R465: at 105 °C or more the thermal step lowers by one envelope every 10 ms. -/
def stepDown (t : Int) (s : State) : State :=
  let s1 := reading t s
  if 105 ≤ t ∧ s.pwr.thermal < 3 ∧ (s.pwr.lastDown = 0 ∨ s.pwr.lastDown - 1 + 10000000 ≤ s.now) then
    reformEnv (addLog 0x0202 63 pwrEng 0 0 0
      (modPwr (fun p => { p with thermal := p.thermal + 1, lastDown := s.now + 1 }) s1))
  else s1

/-- R465: below 100 °C the step rises by one envelope every 100 ms. -/
def stepUp (t : Int) (s : State) : State :=
  let s1 := reading t s
  if t < 100 ∧ 0 < s.pwr.thermal ∧ max s.pwr.lastDown s.pwr.lastUp - 1 + 100000000 ≤ s.now then
    reformEnv (modPwr (fun p => { p with thermal := p.thermal - 1, lastUp := s.now + 1 }) s1)
  else s1

/-- R465: at 120 °C: safe state with cause 0x08, and THERMTRIP_N 2 ms later. -/
def trip (t : Int) (s : State) : State :=
  let s1 := reading t s
  if 120 ≤ t ∧ s.pwr.tripAt = none then
    enterSafe 0x08 pwrEng (addLog 0x0203 63 pwrEng 0 0 0
      (modPwr (fun p => { p with tripAt := some (s.now + 2000000) }) s1))
  else s1

/-! ### Corrected-error windows (R467) -/

def dayNs : Nat := 86400000000000

/-- R467: a window of 86,400 s ends: units at the limit are fenced and the counts restart. -/
def ceEnd (s : State) : State :=
  if s.now < (s.pwr.ceWindow + 1) * dayNs then s
  else
    let lim := max 1 (bits (rget s R.pwrCeLimit 0) 15 0)
    let s1 := s.pwr.ceCount.foldl (fun s e => if lim ≤ e.2 ∧ ¬ (engSt s e.1).fenced then fence e.1 none 3 s else s) s
    settle (modPwr (fun p => { p with ceCount := [], ceWindow := s.now / dayNs }) s1)

/-! ### Idle, nap, wake (R455, R456) -/

/-- The engines of a unit that idle by themselves. -/
def unitEngines (u : Nat) : List Nat :=
  if u / 0x4000 = 0 then [u + 32] else if u / 0x4000 = 1 then (List.range 6).map (fun i => u + i) else [u]

/-- R455: an engine without a task for 16 cycles is clock gated. -/
def engIdles (e : Nat) (s : State) : State :=
  let busy := s.seq.runs.any (fun r => (runEngines r).contains e) || (engSt s e).running.isSome
  if !busy && tget 0 s.pwr.idle e == 0 && !s.pwr.nap.contains (unitOf e) && decide (tget 0 s.pwr.engIdle e + cdiv 16000 (envClock s.pwr.env) ≤ s.now)
  then modPwr (fun p => { p with idle := tset 0 p.idle e (s.now + 1) }) s else s

/-- R455: a unit whose engines have been IDLE for NAP_AFTER_US, that holds no accumulators and that no pre-wake
covers, is power gated. -/
def unitNaps (u : Nat) (s : State) : State :=
  let after := bits (rget s R.pwrSleepCfg 0) 31 16
  let held := decide (u / 0x4000 = 0) && (List.range 33).any (fun t => match heldAcc s (bits u 13 6) t with | some a => a.saved.isNone | none => false)
  if after ≠ 0 ∧ ¬ held ∧ tget 0 s.pwr.prewoken u = 0 ∧ ¬ s.pwr.nap.contains u ∧
     (unitEngines u).all (fun e => tget 0 s.pwr.idle e != 0 && decide (tget 0 s.pwr.idle e - 1 + after * 1000 ≤ s.now))
  then modPwr (fun p => { p with nap := p.nap ++ [u] }) s else s

/-- R456: an engine is awake; one woken without a task stays in IDLE. -/
def engWoken (e : Nat) (s : State) : State :=
  if s.pwr.waking.contains e then
    let busy := s.seq.runs.any (fun r => (runEngines r).contains e) || (engSt s e).running.isSome
    modPwr (fun p => { p with
      waking := p.waking.filter (· != e), nap := p.nap.filter (· != unitOf e),
      idle := tset 0 p.idle e (if busy then 0 else s.now + 1) }) s
  else s

/-! ### Pre-wake (R459) -/

/-- The predicted next firing of an armed template. -/
def predicted (s : State) (v : Tmpl) : Option Nat :=
  if v.trigKind = 3 then some v.nextFire
  else if v.trigKind = 1 ∨ v.trigKind = 2 then
    match streamAt s v.trigObj with
    | some st =>
      match st.prevFs with
      | some f =>
        let per := wd st.desc 2
        if per = 0 then none else some (f + per - wd st.desc 3)
      | none => none
    | none => none
  else none

/-- The units a template's pre-wake wakes: its core sets' cores and the stream engines of the contexts it owns. -/
def prewakeUnits (s : State) (t : Nat) (v : Tmpl) : List Nat :=
  let kinds := v.nodes.map (fun n => (classKind n.cls, n.coreSet))
  let cores := fun (kind : Nat) => (List.range (coreCount kind)).filter (fun c =>
    kinds.any (fun k => k.1 == kind && bit (v.coreSets.getD k.2 0) c))
  (cores 0).map (fun c => engN c 0) ++ (cores 1).map (fun c => engV c 0) ++ (cores 2).map (fun c => engI c 0) ++
  ((List.range 4).filter (fun n => (List.range 64).any (fun i =>
    let w := rget s R.strCtxOwner (64 * n + i)
    bit w 0 && bits w 15 8 == t))).map (fun n => engU (1 + n) 0)

/-- The device wakes from SLEEP (R457). -/
def wakeDevice (s : State) : State :=
  if s.pwr.st = .sleep then modPwr (fun p => { p with st := .waking }) s else s

/-- R459: the controller wakes the units of a template ahead of its predicted firing. -/
def prewakeNow (t : Nat) (s : State) : State :=
  match tmplAt s t with
  | some v =>
    match predicted s v with
    | some p =>
      let lead := v.prewakeLead + (if s.pwr.st = .sleep then 3000000 else 0)
      if v.armed && v.prewakeLead != 0 && v.prewoken != p + 1 && decide (p ≤ s.now + lead) then
        let us := prewakeUnits s t v
        let s1 := wakeDevice (modTmpl t (fun v => { v with prewoken := p + 1 }) s)
        us.foldl (fun s u =>
          let s1 := if s.pwr.nap.contains u then (unitEngines u).foldl (fun s e => wakeEng e s) s else s
          modPwr (fun q => { q with prewoken := tset 0 q.prewoken u (p + 1) }) s1) s1
      else s
    | none => s
  | none => s

/-- R459: 1 ms after the predicted time the units return to the normal rules. -/
def prewakeEnd (t : Nat) (s : State) : State :=
  match tmplAt s t with
  | some v =>
    let us := prewakeUnits s t v
    modPwr (fun q => { q with prewoken := us.foldl (fun m u =>
      if tget 0 m u ≠ 0 ∧ tget 0 m u - 1 + 1000000 ≤ s.now then tset 0 m u 0 else m) q.prewoken }) s
  | none => s

/-! ### SLEEP (R457, R458) -/

/-- R457: the conditions that must hold for 1 ms. -/
def sleepReady (s : State) : Bool :=
  bit (rget s R.pwrSleepCfg 0) 0 && s.pwr.st == .run && alive s &&
  s.cam.streams.all (fun e => match e.2 with | some v => !v.started | none => true) &&
  s.seq.tmpls.all (fun e => match e.2 with
    | some v => !tmplBusy v && v.pending.isEmpty &&
        !(v.armed && v.trigKind == 3 && decide (v.nextFire ≤ s.now + 3000000 + v.prewakeLead))
    | none => true) &&
  s.windows.all (fun e => e.2.st == .closed) &&
  s.waits.isEmpty && s.lanes.all (fun e => e.2.queue.isEmpty) &&
  s.sec.msessions.all (fun e => match e.2 with | some m => m.packets.isEmpty | none => true)

/-- R457: the device enters SLEEP. -/
def enterSleep (s : State) : State :=
  match s.pwr.idleSince with
  | some t => if sleepReady s && decide (t + 1000000 ≤ s.now) then modPwr (fun p => { p with st := .sleep }) s else s
  | none => s

/-! ### Device time (R27, R28) -/

/-- A template is armed. -/
def anyArmed (s : State) : Bool := s.seq.tmpls.any (fun e => match e.2 with | some v => v.armed | none => false)

/-- The offset lies within ±1 µs. -/
def withinLock (o : Int) : Bool := decide (-1000 ≤ o) && decide (o ≤ 1000)

/-- The selected source can discipline device time: PTM only while system software has it enabled on the port (R362). -/
def srcLive (s : State) : Bool :=
  let n := bits (rget s R.pwrTimeCtrl 0) 2 0
  n != 0 && (n < 3 || (portSt s (n - 3)).ptmEn)

/-- Store PWR_TIME_CTRL.LOCKED: the offset has been within ±1 µs for the last 1 s. -/
def lockBit (s : State) : State :=
  let w := rget s R.pwrTimeCtrl 0
  let on := match s.pwr.lockSince with
    | some t => srcLive s && decide (t + 1000000000 ≤ s.now)
    | none => false
  rput R.pwrTimeCtrl 0 ((w &&& 0x207) + 256 * b2n on) s

/-- R28: an offset of the source from device time has been measured: a forward step when permitted, otherwise
slewing.  DESIGN CHOICE (log entry 152): the step is the offset's whole multiples of the 4 ns counting step, and
the rest is slewed away.  The measured offset ends a run of LOCKED in either case. -/
def discipline (o : Int) (s : State) : State :=
  let s1 := rput R.pwrTimeOffset 0 (ux 32 (clampI (-(2 ^ 31 - 1)) (2 ^ 31 - 1) o)) s
  if bit (rget s R.pwrTimeCtrl 0) 9 && decide (1000000 < o) && !anyArmed s then
    lockBit (modPwr (fun p => { p with slewLeft := o % 4, slewStep := 0, lockSince := some (s.now + o.toNat / 4 * 4) })
      { s1 with now := s1.now + o.toNat / 4 * 4 })
  else lockBit (modPwr (fun p => { p with slewLeft := o, slewStep := 0,
                                          lockSince := if withinLock o then some (p.lockSince.getD s.now) else none }) s1)

/-- R28: slewing at ±500 ppm takes 1 ns off the offset in 2,000 ns. -/
def slew (d : Nat) (p : Pwr) : Pwr :=
  if p.slewLeft = 0 then p
  else
    let n := p.slewStep + d
    if n < 2000 then { p with slewStep := n }
    else
      let o := if 0 < p.slewLeft then p.slewLeft - 1 else p.slewLeft + 1
      { p with slewLeft := o, slewStep := n - 2000 }

/-- R27: device time advances by one step. -/
def tick (s : State) : State :=
  let d := if s.pwr.st = .sleep then 40 else 4
  let s1 := { s with now := s.now + d }
  let s2 := modPwr (fun p =>
    let q := slew d p
    { q with lockSince := if srcLive s && withinLock q.slewLeft then (if q.slewLeft = 0 ∧ p.lockSince = none ∧ p.slewLeft = 0 then none
                                                        else some (q.lockSince.getD s1.now)) else none }) s1
  let s3 := modPwr (fun p => { p with idleSince := if sleepReady s2 then some (p.idleSince.getD s2.now) else none }) s2
  lockBit s3

/-- R362: system software enables or disables PTM on a port; disabled, LOCKED is 0 and the offset is no longer known. -/
def ptmSet (port : Nat) (enabled : Bool) (s : State) : State :=
  let s1 := modPort port (fun p => { p with ptmEn := enabled }) s
  lockBit (if !enabled && bits (rget s R.pwrTimeCtrl 0) 2 0 == 3 + port then modPwr (fun p => { p with lockSince := none }) s1
    else s1)

/-- R362: PTM Request of a port, every 10 ms while the port is the source and system software has enabled PTM. -/
def ptmAsk (port : Nat) (enabled : Bool) (s0 : State) : State :=
  let s := ptmSet port enabled s0
  let p := portSt s port
  if bits (rget s R.pwrTimeCtrl 0) 2 0 = 3 + port ∧ p.ptmEn ∧ p.up ∧ (p.ptmLast = 0 ∨ p.ptmLast - 1 + 10000000 ≤ s.now)
  then emit (.ptmRequest port) (modPort port (fun p => { p with ptmLast := s.now + 1, ptmOut := true }) s) else s

/-- R362: the PTM Master Time. -/
def ptmAnswer (port master : Nat) (s : State) : State :=
  if (portSt s port).ptmOut then
    let s1 := modPort port (fun p => { p with ptmOut := false }) s
    if bits (rget s R.pwrTimeCtrl 0) 2 0 = 3 + port ∧ (portSt s port).ptmEn then
      discipline ((master : Int) - (s.now : Int)) s1
    else s1
  else s

/-- R373: an 802.1AS message at MAC `m`, its receipt corrected by the PHY's latency: a synchronization measures the offset
of the source once the link delay is known; a peer's delay request is answered; the peer's answer measures the delay, half of
what the exchange took beyond the peer's part of it. -/
def gptp (m : Nat) (g : GptpMsg) (s : State) : State :=
  if !macUp s m then s
  else if !bit (rget s R.ethMacCfg m) 4 then cnt R.ethRxDrop m 1 s
  else
    let rx : Int := (s.now : Int) - bits (rget s R.ethPhyDly m) 31 16
    let q := macSt s m
    match g with
    | .sync origin =>
      (match q.linkDelay with
       | some d => if bits (rget s R.pwrTimeCtrl 0) 2 0 = 1 + m then discipline (origin + d - rx) s else s
       | none => s)
    | .delayReq peer => sendAhead m (.delayResp peer rx) s
    | .delayResp t2 t3 =>
      (match q.asSent with
       | some t1 => modMac m (fun q => { q with
           asSent := none, asCapable := true, linkDelay := some ((rx - t1 - ((t3 : Int) - t2)) / 2) }) s
       | none => s)

/-- R373, R369: a peer-delay request of MAC `m`, ahead of its queues. -/
def peerDelay (m : Nat) (s : State) : State :=
  if bit (rget s R.ethMacCfg m) 4 && macUp s m then sendAhead m .delayReq s else s

/-! ### Commands -/

/-- R461, R498. -/
def execVcoreSetPointReached (s : State) : Host.Outcome State Fault Refusal := act true s setPointReached

/-- R461. -/
def execArclkSwitchDone (s : State) : Host.Outcome State Fault Refusal := act true s clockSwitched

/-- R463. -/
def execSupplyWarn (s : State) : Host.Outcome State Fault Refusal := act true s warn

/-- R463. -/
def execSupplyWarnEnd (s : State) : Host.Outcome State Fault Refusal := act true s warnEnd

/-- R498. -/
def execPmbusTransferDone (ok : Bool) (s : State) : Host.Outcome State Fault Refusal := act true s (pmbusDone ok)

/-- R462. -/
def execPowerMeasure (milliwatts : Nat) (s : State) : Host.Outcome State Fault Refusal := act true s (powerMeasured milliwatts)

/-- R465. -/
def execThermalStepDown (temp : Int) (s : State) : Host.Outcome State Fault Refusal := act true s (stepDown temp)

/-- R465. -/
def execThermalStepUp (temp : Int) (s : State) : Host.Outcome State Fault Refusal := act true s (stepUp temp)

/-- R465. -/
def execThermalTrip (temp : Int) (s : State) : Host.Outcome State Fault Refusal := act true s (trip temp)

/-- R467. -/
def execCeWindowEnd (s : State) : Host.Outcome State Fault Refusal := act true s ceEnd

/-- R455. -/
def execEngineIdle (engine : Nat) (s : State) : Host.Outcome State Fault Refusal :=
  act (decide (engine < 65536)) s (engIdles engine)

/-- R455. -/
def execCoreNap (unit : Nat) (s : State) : Host.Outcome State Fault Refusal :=
  act (decide (unit < 65536)) s (unitNaps (unitOf unit))

/-- R456. -/
def execUnitWakeDone (unit : Nat) (s : State) : Host.Outcome State Fault Refusal :=
  act (decide (unit < 65536)) s (engWoken unit)

/-- R457. -/
def execSleepEntry (s : State) : Host.Outcome State Fault Refusal := act true s enterSleep

/-- R459. -/
def execPrewake (tmpl : Nat) (s : State) : Host.Outcome State Fault Refusal :=
  act (decide (tmpl < 256)) s (prewakeNow tmpl)

/-- R459. -/
def execPrewakeExpire (tmpl : Nat) (s : State) : Host.Outcome State Fault Refusal :=
  act (decide (tmpl < 256)) s (prewakeEnd tmpl)

/-- R469: an error strikes a node-table entry; a single one is repaired in place and leaves no trace. -/
def strikeEntry (retired bad : List Nat) (e : Nat) (err : RowError) : List Nat :=
  if err = .double && decide (e < 131072) && !bad.contains e && !retired.contains e then bad ++ [e] else bad

/-- R282: an error strikes a stored row, where its bank is powered. -/
def strikeRow (dead : Nat → Bool) (ups : List (Nat × RowError)) (row : Nat) (err : RowError) : List (Nat × RowError) :=
  if dead row then ups else tset RowError.none ups row err

/-- Errors strike what an alive device stores: scratchpad rows, and node-table entries from 2²⁰ on (log entry 168). -/
def strike (ups : List (Nat × RowError)) (s : State) : State :=
  if alive s then
    let rows := ups.filter (fun u => u.1 < 0x100000)
    let entries := ups.filter (fun u => 0x100000 ≤ u.1)
    let l := rows.foldl (fun l u => strikeRow (bankDead s) l u.1 u.2) s.spd.upsets
    let bad := entries.foldl (fun l u => strikeEntry s.nv.nodeRetired l (u.1 - 0x100000) u.2) s.seq.nodeUpsets
    { s with spd := { s.spd with upsets := l }, seq := { s.seq with nodeUpsets := bad } }
  else s

/-- The errors since the last tick: a free value (R282, R469; log entry 168). -/
def upsetsNow (s : State) : List (Nat × RowError) :=
  (Config.upsets s.free).filterMap (fun u =>
    if u.2 < 32 then some (u.1, .single u.2) else if u.2 = 32 then some (u.1, .double) else none)

/-- R27: device time runs in the always-on domain; meanwhile errors may strike what is stored (R282, R469). -/
def execDeviceTimeTick (s : State) : Host.Outcome State Fault Refusal :=
  onObject true s (fun s => if s.powered then draw (strike (upsetsNow s) (tick s)) else s)

/-- R362. -/
def execPtmRequest (port : Nat) (enabled : Bool) (s : State) : Host.Outcome State Fault Refusal :=
  act (decide (port < 2)) s (ptmAsk port enabled)

/-- R362. -/
def execPtmResponse (port master : Nat) (s : State) : Host.Outcome State Fault Refusal :=
  act (decide (port < 2)) s (ptmAnswer port master)

/-- R373. -/
def execGptpMessage (mac : Nat) (msg : GptpMsg) (s : State) : Host.Outcome State Fault Refusal :=
  act (decide (mac < 2)) s (gptp mac msg)

/-- R373. -/
def execPeerDelayRequest (mac : Nat) (s : State) : Host.Outcome State Fault Refusal :=
  act (decide (mac < 2)) s (peerDelay mac)

end Sys2Proof.Machine
end

