-- ==== Sys2Proof/Machine/Camera.lean ====
section
/-! DEFINITION. Camera ports (R76 to R92): packets, the frame index, windows and losses, padding and cutting, landing,
metadata records, forwards. -/

namespace Sys2Proof.Machine

/-! ### Stream descriptors (R79, R80) -/

/-- Bytes and pixels of a pixel group of a data type; none for a non-pixel type (R79, CSI-2 packing). -/
def pixGroup (dt : Nat) : Option (Nat × Nat) :=
  if dt = 0x1E then some (4, 2) else if dt = 0x1F then some (5, 2) else if dt = 0x24 then some (3, 1)
  else if dt = 0x2A then some (1, 1) else if dt = 0x2B then some (5, 4) else if dt = 0x2C then some (3, 2)
  else if dt = 0x2D then some (7, 4) else if dt = 0x2E then some (2, 1) else if dt = 0x2F then some (5, 2) else none

/-- R79: the data types the device accepts. -/
def dtKnown (dt : Nat) : Bool := dt == 0x12 || (pixGroup dt).isSome || (decide (0x30 ≤ dt) && decide (dt ≤ 0x37))

def sdPort (v : Stream) : Nat := bits (wd v.desc 0) 3 0
def sdVc (v : Stream) : Nat := bits (wd v.desc 0) 7 4
def sdDt (v : Stream) : Nat := bits (wd v.desc 0) 13 8
def sdWidth (v : Stream) : Nat := bits (wd v.desc 1) 15 0
def sdHeight (v : Stream) : Nat := bits (wd v.desc 1) 31 16
def sdPeriod (v : Stream) : Nat := wd v.desc 2
def sdTolerance (v : Stream) : Nat := wd v.desc 3
def sdTimeout (v : Stream) : Nat := wd v.desc 4
def sdPadValue (v : Stream) : Nat := bits (wd v.desc 5) 31 16
def sdBufRows (v : Stream) : Nat := bits (wd v.desc 6) 7 0
def sdProfile (v : Stream) : Nat := bits (wd v.desc 6) 13 8
def sdProfileEn (v : Stream) : Bool := bit (wd v.desc 6) 14
def sdMeta (v : Stream) : Nat := addr48 v.desc 7
def sdDest (v : Stream) : Nat := addr48 v.desc 9
def sdDestRows (v : Stream) : Nat := bits (wd v.desc 11) 15 0

/-- A pixel stream. -/
def isPixel (v : Stream) : Bool := (pixGroup (sdDt v)).isSome

/-- Bytes of a line. -/
def lineBytes (v : Stream) : Nat :=
  match pixGroup (sdDt v) with
  | some (b, p) => cdiv (sdWidth v) p * b
  | none => sdWidth v

/-- Rows a line occupies (R106). -/
def lineRows (v : Stream) : Nat := cdiv (lineBytes v) 512

/-- The port's engine reference. -/
def camEng (port : Nat) : Nat := engU 0x06 port

/-- Change a stream slot. -/
def modStream (st : Nat) (f : Stream → Stream) (s : State) : State :=
  match streamAt s st with
  | some v => { s with cam := { s.cam with streams := tset none s.cam.streams st (some (f v)) } }
  | none => s

/-- Change the latest frame of a stream. -/
def modFrame (st : Nat) (f : Frame → Frame) (s : State) : State :=
  modStream st (fun v => { v with frames := match v.frames with | x :: t => f x :: t | [] => [] }) s

/-- The latest frame. -/
def lastFrame (v : Stream) : Option Frame := v.frames.head?

/-- The open frame. -/
def openFrame (v : Stream) : Option Frame := (lastFrame v).filter (fun f => f.close.isNone)

/-- Set STATUS bits of the latest frame. -/
def flagFrame (st b : Nat) (s : State) : State := modFrame st (fun f => { f with status := f.status ||| 2 ^ b }) s

/-- The started streams that satisfy `p`, ascending. -/
def streamsWith (s : State) (p : Stream → Bool) : List Nat :=
  s.cam.streams.filterMap (fun e => match e.2 with
    | some v => if v.started && p v then some e.1 else none
    | none => none)

/-! ### Packed pixels -/

/-- Bits of a packed component: RAW20 travels as pairs of 10-bit values (CSI-2; PRESUMED). -/
def compBits (dt : Nat) : Nat :=
  if dt = 0x1F ∨ dt = 0x2B ∨ dt = 0x2F then 10 else if dt = 0x2C then 12 else if dt = 0x2D then 14
  else if dt = 0x2E then 16 else 8

/-- Components packed in one pixel group. -/
def compCount (dt : Nat) : Nat :=
  if dt = 0x1E ∨ dt = 0x1F ∨ dt = 0x2B ∨ dt = 0x2F ∨ dt = 0x2D then 4 else if dt = 0x24 then 3
  else if dt = 0x2C then 2 else 1

/-- Unpack a group: the upper 8 bits of each component, then the remaining bits, least significant first. -/
def unpackGroup (dt : Nat) (l : List Byte) : List Nat :=
  let n := compCount dt
  let b := compBits dt - 8
  let low := leNat (l.drop n)
  (List.range n).map (fun i => (l.getD i 0).toNat * 2 ^ b + (low >>> (i * b)) % 2 ^ b)

/-- Pack a group. -/
def packGroup (dt : Nat) (c : List Nat) : List Byte :=
  let n := compCount dt
  let b := compBits dt - 8
  c.map (fun v => BitVec.ofNat 8 (v >>> b)) ++
  leBytes (cdiv (n * b) 8) (sumN (c.zipIdx.map (fun e => (e.1 % 2 ^ b) * 2 ^ (e.2 * b))))

/-- The components of a pad group: the last valid pixel of the group before it, repeated. -/
def repeatGroup (dt : Nat) (c : List Nat) : List Nat :=
  if dt = 0x1E ∨ dt = 0x1F then [c.getD 0 0, c.getD 3 0, c.getD 2 0, c.getD 3 0]
  else if dt = 0x24 then c
  else if dt = 0x2F then [c.getD 2 0, c.getD 3 0, c.getD 2 0, c.getD 3 0]
  else List.replicate (compCount dt) (c.getD (compCount dt - 1) 0)

/-- The components of a group of PAD_VALUE pixels. -/
def padComps (dt v : Nat) : List Nat :=
  if dt = 0x2F then [v / 1024 % 1024, v % 1024, v / 1024 % 1024, v % 1024]
  else List.replicate (compCount dt) (v % 2 ^ compBits dt)

/-- A whole line of PAD_VALUE. -/
def padLine (v : Stream) : List Byte :=
  match pixGroup (sdDt v) with
  | some (_, p) => (List.replicate (cdiv (sdWidth v) p) (packGroup (sdDt v) (padComps (sdDt v) (sdPadValue v)))).flatten
  | none => List.replicate (sdWidth v) (BitVec.ofNat 8 (sdPadValue v))

/-- R87: a received line cut or padded to WIDTH, with the flag it earns: none, LINE_SHORT (0) or LINE_LONG (1). -/
def fitLine (v : Stream) (l : List Byte) : List Byte × Option Nat :=
  let n := lineBytes v
  match pixGroup (sdDt v) with
  | some (gb, gp) =>
    let k := l.length / gb
    if sdWidth v ≤ k * gp then (l.take n, if n < l.length then some 1 else none)
    else if k = 0 then (padLine v, some 0)
    else
      let g := if bit (wd v.desc 5) 0 then padComps (sdDt v) (sdPadValue v)
               else repeatGroup (sdDt v) (unpackGroup (sdDt v) ((l.drop ((k - 1) * gb)).take gb))
      (l.take (k * gb) ++ (List.replicate (cdiv (sdWidth v) gp - k) (packGroup (sdDt v) g)).flatten, some 0)
  | none =>
    if n ≤ l.length then (l.take n, if n < l.length then some 1 else none)
    else
      let b := if bit (wd v.desc 5) 0 then BitVec.ofNat 8 (sdPadValue v)
               else (l.getLast?).getD (BitVec.ofNat 8 (sdPadValue v))
      (l ++ List.replicate (n - l.length) b, some 0)

/-- R87: the pad line that follows in a frame. -/
def nextPad (v : Stream) (f : Frame) : List Byte :=
  if bit (wd v.desc 5) 0 || f.lastLine.isEmpty then padLine v else f.lastLine

/-- R87: the line CRC_POLICY 1 puts in place of a corrupt or missing one. -/
def prevLine (v : Stream) (f : Frame) : List Byte := if f.lastLine.isEmpty then padLine v else f.lastLine

/-! ### Epochs (R97, R99) -/

/-- The earlier of two epochs in serial order. -/
def epochMin (a b : Nat) : Nat := if (b + 65536 - a) % 65536 < 32768 then a else b

/-- The profile's exposure and gain delays. -/
def profDE (v : Stream) : Nat := bits (wd v.wprofile 0) 15 12
def profDG (v : Stream) : Nat := bits (wd v.wprofile 0) 19 16

/-- R97: the epoch of the most recent written set that frame `i` can carry with delay `d`. -/
def epochAt (v : Stream) (i d : Nat) : Nat :=
  v.written.foldl (fun e w => match w.n with
    | some n => if n + d ≤ i then w.epoch else e
    | none => e) v.initialEpoch

/-- R99: the most recent of the last 8 sets written before frame `i` whose value is the reported one. -/
def epochOfValue (v : Stream) (i x : Nat) (val : Written → Option Nat) : Option Nat :=
  ((v.written.drop (v.written.length - 8)).reverse.find? (fun w =>
    (match w.n with | some n => decide (n ≤ i) | none => false) && val w == some x)).map (fun w => w.epoch)

/-- What R97 and R99 make of a frame: exposure and gain epochs, the computed effective epoch, mismatch. -/
def frameEpochs (v : Stream) (f : Frame) : Nat × Nat × Nat × Bool :=
  let x := epochAt v f.index (profDE v)
  let g := epochAt v f.index (profDG v)
  let c := epochMin x g
  let hit := fun (r : Option Nat) (val : Written → Option Nat) => r.map (fun y => epochOfValue v f.index y val)
  match hit f.embExp Written.exp, hit f.embGain Written.gain with
  | none, none => (x, g, c, false)
  | hx, hg =>
    if hx = some none ∨ hg = some none then (x, g, c, true)
    else
      let x' := (hx.getD none).getD x
      let g' := (hg.getD none).getD g
      (x', g', c, x' != x || g' != g)

/-- R98: the frame follows a partial write. -/
def framePartial (v : Stream) (f : Frame) : Bool :=
  v.partials.any (fun r => decide (r.1 ≤ f.index) &&
    (match r.2 with | some e => decide (f.index < e) | none => true))

/-- STATUS of a frame's record (R90). -/
def frameStatus (v : Stream) (f : Frame) : Nat :=
  f.status ||| 2 ^ 11 * b2n (frameEpochs v f).2.2.2 ||| 2 ^ 12 * b2n (framePartial v f)

/-! ### Metadata records (R91) -/

/-- The words of a frame's record. -/
def metaWords (st : Nat) (v : Stream) (f : Frame) (final : Bool) : List Nat :=
  let e := frameEpochs v f
  let s := frameStatus v f
  let c := f.close.getD 0
  let m := fun (n : Nat) => min n 0xFFFF
  [st + 64 * b2n final + 256 * (if degraded s then 8 else 1) + 65536 * (f.fn % 65536),
   w32 f.index, f.fs % 2 ^ 32, f.fs / 2 ^ 32 % 2 ^ 32, c % 2 ^ 32, c / 2 ^ 32 % 2 ^ 32,
   epochMin e.1 e.2.1 + 65536 * v.reqEpoch, e.1 + 65536 * e.2.1, s,
   m f.received + 65536 * m f.padded, m f.crc + 65536 * m f.overrun, m f.eccCorr + 65536 * m f.hdrDrop,
   w32 (f.embFc.getD 0), e.2.2.1, 0, 0]

/-- R91: a write of the camera port block is checked; a fault is logged once per frame. -/
def camWrite (st a : Nat) (l : List Byte) (s : State) : State :=
  match streamAt s st with
  | some v =>
    match chkAccess s v.tenant a l.length true with
    | .ok => wrBytes v.tenant a l s
    | c =>
      if (lastFrame v).any (fun f => f.faulted) then s
      else modFrame st (fun f => { f with faulted := true }) (logChk c v.tenant (camEng (sdPort v)) s)
  | none => s

/-- Write a frame's record into its ring slot. -/
def writeMeta (st : Nat) (final : Bool) (s : State) : State :=
  match streamAt s st with
  | some v =>
    match lastFrame v with
    | some f => camWrite st (sdMeta v + 64 * (f.index % 8)) (wordsBytes (metaWords st v f final)) s
    | none => s
  | none => s

/-- R91: the instances of a frame one of whose writes faulted are aborted as for an access fault. -/
def abortFaulted (st : Nat) (s : State) : State :=
  match (streamAt s st).bind lastFrame with
  | some f =>
    if f.faulted then
      s.seq.tmpls.foldl (fun s' e => match e.2 with
        | some t => t.slots.zipIdx.foldl (fun s' i =>
            if i.1.st == .running && usesStream t i.1 st && (frameOf s i.1 st).any (fun g => g.serial == f.serial)
            then wantAbort e.1 i.2 2 s' else s') s'
        | none => s') s
    else s
  | none => s

/-! ### Lines delivered (R79, R89, R106) -/

/-- Rows of the share that lines occupy. -/
def bufUsed (v : Stream) : Nat := sumN ((v.buf.filter (fun b => !b.pad)).map (fun b => cdiv b.data.length 512))

/-- The transmit ports that forward a stream (R102). -/
def forwarders (s : State) (st : Nat) : List Nat :=
  s.cam.tx.filterMap (fun e => if e.2.mode = 2 ∧ e.2.source = st then some e.1 else none)

/-- Write a line's rows into a non-pixel stream's ring, padded with zeros to whole rows. -/
def ringLine (st : Nat) (l : List Byte) : Nat → State → State
  | 0, s => s
  | n + 1, s =>
    match streamAt s st with
    | some v =>
      let a := sdDest v + (v.ringRow % max 1 (sdDestRows v)) * 512
      let k := lineRows v - (n + 1)
      let row := (l.drop (k * 512)).take 512
      ringLine st l n (modStream st (fun v => { v with ringRow := v.ringRow + 1 })
        (camWrite st a (row ++ List.replicate (512 - row.length) 0) s))
    | none => s

/-- Deliver the next line of the open frame: into the ring of a non-pixel stream, otherwise into the input buffer. -/
def deliver (st : Nat) (l : List Byte) (pad : Bool) (s : State) : State :=
  match streamAt s st with
  | none => s
  | some v =>
    match lastFrame v with
    | none => s
    | some f =>
      let s1 := modFrame st (fun f => { f with
        lines := f.lines + 1, lastLine := l, fwd := if f.fwdTo.isEmpty then f.fwd else f.fwd ++ [l] }) s
      if !isPixel v then ringLine st l (lineRows v) s1
      else if !v.landed then cnt R.ispLandMissing st 1 s1
      else modStream st (fun v => { v with buf := v.buf ++ [{ serial := f.serial, line := f.lines, pad := pad, data := l }] }) s1

/-- Deliver pad lines until the frame holds `n` lines. -/
def padTo (st n : Nat) (body : Stream → Frame → List Byte) : Nat → State → State
  | 0, s => s
  | k + 1, s =>
    match streamAt s st with
    | some v =>
      match lastFrame v with
      | some f =>
        if n ≤ f.lines then s
        else padTo st n body k (deliver st (body v f) true (modFrame st (fun f => { f with padded := f.padded + 1 }) s))
      | none => s
    | none => s

/-- STRIPE_READY triggers and CAM_STRIPE waits after the latest frame went from `had` lines to `now` (R51, R59). -/
def linesEvent (st had now stamp : Nat) (s : State) : State :=
  match streamAt s st with
  | none => s
  | some v =>
    match lastFrame v with
    | none => s
    | some f =>
      let h := sdHeight v
      let s1 := pollWaits 1 (some st) s
      let hit := s1.seq.tmpls.flatMap (fun e => match e.2 with
        | some t =>
          let q := max 1 t.param0
          if t.armed && t.trigKind == 2 && t.trigObj == st then
            (List.range (cdiv h q)).filterMap (fun k =>
              if had < min (q * (k + 1)) h ∧ min (q * (k + 1)) h ≤ now then some e.1 else none)
          else []
        | none => [])
      abortFaulted st (hit.foldl (fun s t => fireTrigger t
        { time := stamp, stream := st, serial := f.serial, frameNo := f.index, handle := none, job := none } s) s1)

/-! ### Closing a frame, stopping a stream -/

/-- A setting's place among the buses: whether a stream's set is being written on the port. -/
def portBusy (s : State) (port : Nat) : Bool :=
  (streamsWith s (fun v => sdPort v == port && (v.busy.isSome || v.ending.isSome))).length != 0

/-- R95: the bytes of a write entry: register address, then data, most significant byte first. -/
def entryBytes (prof : List Nat) (e : Nat × Nat) : List Byte :=
  beBytes (if bit (wd prof 0) 11 then 2 else 1) (bits e.1 15 0) ++ beBytes (bits e.1 17 16 + 1) e.2

/-- R93: before its first I3C transfer a bus disables Hot-Join, and before the first to a static address assigns its
dynamic one. -/
def busReady (port addr : Nat) (s : State) : State :=
  let s1 := if tget false s.cam.busInit port then s
    else emit (.disec port) { s with cam := { s.cam with busInit := tset false s.cam.busInit port true } }
  let l := tget [] s.cam.dynamic port
  if l.contains addr then s1
  else emit (.setdasa port addr (Config.dynamicAddr port addr % 128))
    { s1 with cam := { s1.cam with dynamic := tset [] s1.cam.dynamic port (l ++ [addr]) } }

/-- Put a transfer of a profile's sensor on its bus: I3C under the dynamic address, I2C at its speed. -/
def sendTransfer (port : Nat) (prof : List Nat) (l : List Byte) (s : State) : State :=
  let w := wd prof 0
  let addr := bits w 10 4
  if bits w 1 0 = 2 then emit (.sensor port 2 (bits w 3 2) addr l) s
  else emit (.sensor port (bits w 1 0) 0 (Config.dynamicAddr port addr % 128) l) (busReady port addr s)

/-- Start the transfer of the set's present entry. -/
def startTransfer (st : Nat) (s : State) : State :=
  match streamAt s st with
  | some v =>
    match v.writing with
    | some w =>
      match w.entries[v.entry]? with
      | some e => sendTransfer (sdPort v) v.sprofile (entryBytes v.sprofile e)
          (modStream st (fun v => { v with busy := some s.now }) s)
      | none => s
    | none => s
  | none => s

/-- R96: a free bus takes up the set whose window closes first, lower streams first. -/
def kickBus (port : Nat) (s : State) : State :=
  if portBusy s port then s
  else
    let key := fun (v : Stream) => (v.window.map Prod.snd).getD 0
    let best := s.cam.streams.foldl (fun (r : Option (Nat × Nat)) e => match e.2 with
      | some v =>
        if v.started && sdPort v == port && v.active && v.writing.isSome then
          (match r with
           | some x => if key v < x.2 then some (e.1, key v) else r
           | none => some (e.1, key v))
        else r
      | none => r) none
    match best with
    | some (st, _) => startTransfer st s
    | none => s

/-- What the image cores keep of a stream, core by core. -/
def ispCtxs (s : State) (st : Nat) : List IspCtx := (List.range 4).filterMap (fun c => tget none s.isp (64 * c + st))

/-- R82, R128: the stream stops: its slot is free, its settings end, image cores let its state go.  What they gathered of
its frames is kept for the frame records still to be written (log entry 212). -/
def stopStream (st : Nat) (s : State) : State :=
  match streamAt s st with
  | some v =>
    let s1 := modStream st (fun v => { v with
      started := false, opened := false, stopping := false, stops := s.now :: v.stops, pend := none, writing := none,
      active := false, busy := none, ending := none, window := none, windows := [] }) s
    kickBus (sdPort v) { s1 with
      isp := s1.isp.filter (fun e => match e.2 with | some c => c.stream != st | none => true),
      ispKept := tset [] s1.ispKept st (ispCtxs s st) }
  | none => s

/-- R102: a forward sends the closed frame, where it was configured before the frame's start: FS, the header line, its
lines, FE. -/
def sendForward (st : Nat) (s : State) : State :=
  match streamAt s st with
  | some v =>
    match lastFrame v with
    | some f =>
      let x := frameStatus v f
      let hdr : RecHdr := {
        validity := validity ((if degraded x then fDegraded else 0) ||| (if s.saf.safe then fInvalid else 0)), ptype := Config.forwardField 0 % 256,
        tmpl := Config.forwardField 1 % 256, stream := st, sequence := Config.forwardField 2, frameIndex := f.index,
        frameTime := f.fs, commit := s.now, eff := f.eff, req := f.req, len := sumN (f.fwd.map List.length),
        pubSeq := Config.forwardField 3, channel := Config.forwardField 4 % 65536 }
      s.cam.tx.foldl (fun s' e =>
        if e.2.mode = 2 ∧ e.2.source = st ∧ f.fwdTo.contains e.1 then
          let tx := 14 + e.1
          let h := wordsBytes (hdrWords s hdr 0 1 0)
          let s1 := emit (.csi2 tx e.2.vc 0x12 (h ++ leBytes 4 (crc32c (h ++ f.fwd.flatten))))
            (emit (.csi2 tx e.2.vc 0 []) s')
          emit (.csi2 tx e.2.vc 1 []) (f.fwd.foldl (fun s l => emit (.csi2 tx e.2.vc (sdDt v) l) s) s1)
        else s') s
    | none => s
  | none => s

/-- R86, R87, R91: close the open frame at `stamp`: pad it, write its final record; a stop takes effect. -/
def closeFrame (st : Nat) (timeout : Bool) (stamp : Nat) (s : State) : State :=
  match streamAt s st with
  | some v =>
    match openFrame v with
    | some f =>
      let h := sdHeight v
      let s1 := modFrame st (fun f => { f with close := some stamp, status := f.status ||| 16 * b2n timeout }) s
      let s2 := if f.lines < h then padTo st h nextPad (h - f.lines) (flagFrame st 2 s1) else s1
      let s3 := match (streamAt s2 st) with
        | some v2 => (match lastFrame v2 with
          | some g =>
            let e := frameEpochs v2 g
            let eff := epochMin e.1 e.2.1
            modStream st (fun v => { v with lastEff := eff })
              (modFrame st (fun g => { g with eff := eff, req := v2.reqEpoch }) s2)
          | none => s2)
        | none => s2
      let s4 := linesEvent st f.lines h stamp (sendForward st (writeMeta st true s3))
      if v.stopping then stopStream st s4 else s4
    | none => s
  | none => s

/-! ### Instants that have passed -/

/-- R86: no further packet came within LINE_TIMEOUT_NS of the last. -/
def timeoutDue (s : State) (v : Stream) : Bool :=
  (openFrame v).isSome && decide (v.lastPkt + sdTimeout v ≤ s.now)

/-- R86. -/
def checkTimeout (st : Nat) (s : State) : State :=
  match streamAt s st with
  | some v => if v.started && timeoutDue s v then closeFrame st true (v.lastPkt + sdTimeout v) s else s
  | none => s

/-- R85, R425: two periods passed without a frame start. -/
def checkLoss (st : Nat) (s : State) : State :=
  match streamAt s st with
  | some v =>
    match v.prevFs with
    | some t =>
      if v.started && v.opened && sdPeriod v != 0 && !v.lossRaised && decide (t + 2 * sdPeriod v ≤ s.now) then
        let e := camEng (sdPort v)
        let s1 := rput R.camStreamStat st (rget s R.camStreamStat st ||| 2)
          (addLog 0x0006 v.tenant e st 0 0 (modStream st (fun v => { v with lossRaised := true }) s))
        if bit (rget s (if st < 32 then R.safStreamCritLo else R.safStreamCritHi) 0) (st % 32) then enterSafe 0x06 e s1
        else s1
      else s
    | none => s
  | none => s

/-- The instants a packet at a port finds already reached. -/
def catchUp (port : Nat) (s : State) : State :=
  (streamsWith s (fun v => sdPort v == port)).foldl (fun s st => checkLoss st (checkTimeout st s)) s

/-- High-speed traffic on a port. -/
def traffic (port : Nat) (s : State) : State :=
  { s with cam := { s.cam with lastTraffic := tset 0 s.cam.lastTraffic port (s.now + 1) } }

/-- R87: a header that cannot be corrected: every frame open on the port counts it. -/
def headerDrop (port : Nat) (s : State) : State :=
  (streamsWith s (fun v => sdPort v == port && (openFrame v).isSome)).foldl (fun s st =>
    modFrame st (fun f => { f with status := f.status ||| 2 ^ 9, hdrDrop := f.hdrDrop + 1 }) s) (cnt R.camPortEccDrop port 1 s)

/-- A packet of a stream arrived. -/
def touchStream (st : Nat) (s : State) : State := modStream st (fun v => { v with lastPkt := s.now }) s

/-- A corrected header counts in its stream's open frame. -/
def corrected (st : Nat) (ecc : Ecc) (s : State) : State :=
  if ecc = .corrected then modFrame st (fun f => { f with eccCorr := f.eccCorr + 1 }) s else s

/-- R86: a packet of opened streams none of which has a frame open. -/
def orphan (port : Nat) (s : State) : State := cnt R.camPortOrphan port 1 s

/-- The handling common to every packet: an uncorrectable header drops it, a stream takes it, or none does. -/
def packet (port : Nat) (ecc : Ecc) (p : Stream → Bool) (take_ : Nat → State → State) (s : State) : State :=
  let s0 := catchUp port (traffic port s)
  if ecc = .bad then settle (headerDrop port s0)
  else
    let s1 := if ecc = .corrected then cnt R.camPortEccCorr port 1 s0 else s0
    let l := streamsWith s1 (fun v => sdPort v == port && p v)
    if l.isEmpty then settle (cnt R.camPortUnclaimed port 1 s1)
    else settle (l.foldl (fun s st => take_ st s) s1)

/-! ### Frame start (R82 to R84) -/

/-- R97, R98: sets written and partial writes made before a frame start count from its index. -/
def settingsAtFs (index fs : Nat) (v : Stream) : Stream :=
  let m := min (profDE v) (profDG v)
  let isNew := fun (w : Written) => w.n.isNone && decide (w.stamp < fs)
  let shut := fun (l : List (Nat × Option Nat)) => l.map (fun r => if r.2.isNone then (r.1, some (index + m)) else r)
  let p := v.partialAt.filter (fun t => decide (t < fs))
  let before := v.written.any (fun w => isNew w && (match p with | some t => decide (w.stamp < t) | none => true))
  let after := v.written.any (fun w => isNew w && (match p with | some t => decide (t ≤ w.stamp) | none => false))
  let l1 := if before then shut v.partials else v.partials
  let l2 := if p.isSome && !l1.any (fun r => r.2.isNone) then l1 ++ [(index + m, none)] else l1
  let l3 := if after then shut l2 else l2
  { v with
    written := v.written.map (fun w => if isNew w then { w with n := some index } else w),
    partialAt := if p.isSome then none else v.partialAt, partials := l3 }

/-- R96: the write window of a frame. -/
def addWindow (fs : Nat) (v : Stream) : Stream :=
  if v.wprofile.isEmpty then v
  else
    let lp := wd v.wprofile 2
    { v with windows := v.windows ++ [(fs + bits (wd v.wprofile 1) 15 0 * lp, fs + bits (wd v.wprofile 1) 31 16 * lp)] }

/-- R106: the stream's landing wheel is bound: named, enabled and of its line size. -/
def landBound (s : State) (st : Nat) (v : Stream) : Bool :=
  let l := rget s R.ispLand st
  let k := wheelKey (bits l 15 8) (bits l 21 16)
  bit l 0 && wheelEn s k && placeRows s k == lineRows v

/-- R83: how far the index advances at a frame start. -/
def indexAdvance (v : Stream) (now : Nat) : Nat :=
  let p := sdPeriod v
  let n : Int := match v.prevFs with
    | some t => if p = 0 then 1 else rhuDiv ((now : Int) - (t : Int)) p
    | none => 1
  (max 1 (n + v.corr)).toNat

/-- A frame right after its start. -/
def frameZero (serial index fs fn status : Nat) : Frame where
  serial := serial
  index := index
  fs := fs
  fn := fn
  close := none
  status := status
  lines := 0
  received := 0
  padded := 0
  crc := 0
  overrun := 0
  eccCorr := 0
  hdrDrop := 0
  eff := 0
  req := 0
  lastNum := 0
  nextNum := none
  emb := []
  embFirst := false
  embFc := none
  embExp := none
  embGain := none
  faulted := false
  lastLine := []
  fwdTo := []
  fwd := []

/-- R84, R85, R106: STATUS at a frame start. -/
def startStatus (v : Stream) (now : Nat) (landed : Bool) : Nat :=
  let w := match v.prevFs with
    | some t =>
      if !v.opened || sdPeriod v == 0 then 0
      else if now + sdTolerance v < t + sdPeriod v then 2 ^ 6
      else if t + sdPeriod v + sdTolerance v ≤ now then 2 ^ 5
      else 0
    | none => 0
  w ||| (if v.lossRaised then 2 ^ 5 + 2 ^ 10 else 0) ||| (if isPixel v && !landed then 2 ^ 8 else 0)

/-- R83: a frame starts on a stream. -/
def startFrame (st num : Nat) (ecc : Ecc) (s : State) : State :=
  match streamAt s st with
  | none => s
  | some v =>
    let t := s.now
    let landed := if v.opened then v.landed else landBound s st v
    let idx := if v.opened then w32 (v.index + indexAdvance v t) else 0
    let f := { frameZero (v.serial + 1) idx t num (startStatus v t landed) with fwdTo := forwarders s st }
    let s1 := modStream st (fun v => addWindow t (settingsAtFs idx t { v with
      opened := true, landed := landed, frames := f :: v.frames, serial := v.serial + 1, index := idx, corr := 0,
      prevFs := some t, lossRaised := false, lastPkt := t, lastEpoch := some (v.lastEpoch.getD 0) })) s
    let s2 := writeMeta st false (corrected st ecc s1)
    let hit := s2.seq.tmpls.filterMap (fun e => match e.2 with
      | some x => if x.armed && x.trigKind == 1 && x.trigObj == st then some e.1 else none
      | none => none)
    let s3 := hit.foldl (fun s k => fireTrigger k
      { time := t, stream := st, serial := v.serial + 1, frameNo := idx, handle := none, job := none } s) s2
    abortFaulted st (pollWaits 1 (some st) s3)

/-- R82, R86: a frame-start packet for one stream: it closes the open frame, and a stop takes effect there. -/
def takeFs (st num : Nat) (ecc : Ecc) (s : State) : State :=
  match streamAt s st with
  | some v =>
    let s1 := if (openFrame v).isSome then closeFrame st true s.now s else s
    match streamAt s1 st with
    | some v1 => if v1.started then startFrame st num ecc s1 else s1
    | none => s1
  | none => s

/-- R83, R457: a frame-start packet. -/
def fsPacket (port vc num : Nat) (ecc : Ecc) (s : State) : State :=
  let s0 := wakeDevice s
  let s1 := packet port ecc (fun v => sdVc v == vc) (fun st s => takeFs st num ecc s) s0
  let mine := fun (s : State) => (streamsWith s (fun v => sdPort v == port && sdVc v == vc)).length
  if ecc ≠ .bad ∧ 0 < mine (catchUp port (traffic port s0)) ∧ mine s1 = 0 then cnt R.camPortUnclaimed port 1 s1 else s1

/-! ### Frame end, line starts -/

/-- Serve the streams a packet belongs to; those that are open but have no frame make it an orphan. -/
def onFrames (port : Nat) (f : Nat → State → State) (l : List Nat) (s : State) : State :=
  let lost := l.any (fun st => match streamAt s st with | some v => v.opened && (openFrame v).isNone | none => false)
  let s1 := if lost then orphan port s else s
  l.foldl (fun s st => match streamAt s st with
    | some v => if v.opened && (openFrame v).isSome then f st s else s
    | none => s) s1

/-- A packet of streams, served on their open frames. -/
def framePacket (port : Nat) (ecc : Ecc) (p : Stream → Bool) (f : Nat → State → State) (s : State) : State :=
  let s0 := catchUp port (traffic port s)
  if ecc = .bad then settle (headerDrop port s0)
  else
    let s1 := if ecc = .corrected then cnt R.camPortEccCorr port 1 s0 else s0
    let l := streamsWith s1 (fun v => sdPort v == port && p v)
    if l.isEmpty then settle (cnt R.camPortUnclaimed port 1 s1)
    else settle (onFrames port (fun st s => f st (corrected st ecc (touchStream st s))) l s1)

/-- R86: a frame-end packet. -/
def fePacket (port vc : Nat) (ecc : Ecc) (s : State) : State :=
  framePacket port ecc (fun v => sdVc v == vc) (fun st s => closeFrame st false s.now s) s

/-- R88: a line-start packet; its number places the next line of the channel's LINE_SYNC streams. -/
def lsPacket (port vc num : Nat) (ecc : Ecc) (s : State) : State :=
  framePacket port ecc (fun v => sdVc v == vc) (fun st s => modFrame st (fun f => { f with nextNum := some num }) s) s

/-! ### Lines (R87 to R89) -/

/-- R88: where a line goes: `none` drops it with the flag; otherwise the lines to fill before it. -/
def placeLine (v : Stream) (f : Frame) : Except Nat Nat :=
  if bit (wd v.desc 5) 2 then
    let n := f.nextNum.getD 0
    if n ≤ f.lastNum then .error 7
    else if sdHeight v < n then .error 3
    else .ok (n - 1)
  else if sdHeight v ≤ f.lines then .error 3
  else .ok f.lines

/-- R87 to R89: a line packet on a stream's open frame. -/
def takeLine (st : Nat) (payload : List Byte) (crcOk : Bool) (s : State) : State :=
  match streamAt s st with
  | none => s
  | some v =>
    match openFrame v with
    | none => s
    | some f0 =>
      let s1 := if crcOk then s else cnt R.camPortCrcErr (sdPort v) 1
        (modFrame st (fun f => { f with status := f.status ||| 2 ^ 7, crc := f.crc + 1 }) s)
      let s2 := modFrame st (fun f => { f with nextNum := none }) s1
      match placeLine v f0 with
      | .error b => flagFrame st b s2
      | .ok at_ =>
        let fill := fun (v : Stream) (f : Frame) => if bit (wd v.desc 5) 1 then prevLine v f else nextPad v f
        let s3 := if f0.lines < at_ then padTo st at_ fill (at_ - f0.lines) (flagFrame st 9 s2) else s2
        let s4 := modFrame st (fun f => { f with lastNum := at_ + 1 }) s3
        match streamAt s4 st with
        | none => s4
        | some v4 =>
          match openFrame v4 with
          | none => s4
          | some f =>
            let full := isPixel v && v4.landed && decide (sdBufRows v < bufUsed v4 + lineRows v)
            let s5 := if full then
                deliver st (nextPad v f) true (modFrame st (fun f => { f with
                  status := f.status ||| 2 ^ 8, overrun := f.overrun + 1, padded := f.padded + 1 }) s4)
              else
                let fit := fitLine v payload
                let body := if !crcOk && bit (wd v.desc 5) 1 then prevLine v f else fit.1
                let s' := match fit.2 with | some b => flagFrame st b s4 | none => s4
                deliver st body false (modFrame st (fun f => { f with received := f.received + 1 }) s')
            match (streamAt s5 st).bind lastFrame with
            | some g => linesEvent st f0.lines g.lines s.now s5
            | none => s5

/-- A value of `n` bytes of the embedded data at an offset, once it has arrived. -/
def embValue (prof : List Nat) (emb : List Byte) (off n : Nat) : Option Nat :=
  if n = 0 ∨ emb.length < off + n then none
  else
    let l := (emb.drop off).take n
    some (if bit (wd prof 0) 20 then beNat l else leNat l)

/-- R83: the frame counter of the latest frame has arrived. -/
def counterArrived (st c len : Nat) (s : State) : State :=
  match streamAt s st with
  | some v =>
    match lastFrame v with
    | some f =>
      let s1 := modStream st (fun v => { v with counterAt := some (c, f.index) }) s
      match v.counterAt with
      | some (cg, ig) =>
        let m := 2 ^ (8 * len)
        let dc := (c + m - cg % m) % m
        let di := w32 (f.index + 2 ^ 32 - ig)
        if dc ≠ 0 ∧ dc ≠ di then
          flagFrame st 13 (modStream st (fun v => { v with corr := v.corr + (dc : Int) - (di : Int) }) s1)
        else s1
      | none => s1
    | none => s
  | none => s

/-- R83, R94, R99: embedded data of a pixel stream's frame. -/
def takeEmbedded (st : Nat) (data : List Byte) (s : State) : State :=
  match streamAt s st with
  | some v =>
    match lastFrame v with
    | some f =>
      let p := v.wprofile
      let emb := (f.emb ++ data).take 4096
      let fc := embValue p emb (bits (wd p 3) 11 0) (bits (wd p 3) 14 12)
      let s1 := modFrame st (fun f => { f with
        emb := emb, embFirst := f.embFirst || f.lines == 0, embFc := fc,
        embExp := embValue p emb (bits (wd p 3) 27 16) (bits (wd p 3) 30 28),
        embGain := embValue p emb (bits (wd p 4) 11 0) (bits (wd p 4) 14 12) }) s
      match f.embFc, fc with
      | none, some c => counterArrived st c (bits (wd p 3) 14 12) s1
      | _, _ => s1
    | none => s
  | none => s

/-- R79, R99: a line of embedded data: a line of its own stream, and data of the streams whose descriptors name it. -/
def takeEmbLine (st : Nat) (payload : List Byte) (crcOk : Bool) (s : State) : State :=
  let placed := fun (s : State) => ((streamAt s st).bind lastFrame).map (fun f => (f.lines, f.lastLine))
  let s1 := takeLine st payload crcOk s
  match placed s, placed s1 with
  | some (a, _), some (b, l) =>
    if a < b then
      (streamsWith s1 (fun v => v.opened && bit (wd v.desc 6) 15 && bits (wd v.desc 6) 21 16 == st && !v.wprofile.isEmpty)).foldl
        (fun s k => takeEmbedded k l s) s1
    else s1
  | _, _ => s1

/-- A line packet of a data type. -/
def linePacket (port vc dt : Nat) (payload : List Byte) (ecc : Ecc) (crcOk : Bool) (s : State) : State :=
  framePacket port ecc (fun v => sdVc v == vc && sdDt v == dt)
    (fun st s => if dt = 0x12 then takeEmbLine st payload crcOk s else takeLine st payload crcOk s) s

/-! ### Landing (R107) -/

/-- R107, R294, R295: the oldest buffered line drains into the landing wheel when it has room. -/
def landLine (st : Nat) (s : State) : State :=
  match streamAt s st with
  | none => s
  | some v =>
    match v.buf with
    | [] => s
    | b :: rest =>
      let l := rget s R.ispLand st
      let k := wheelKey (bits l 15 8) (bits l 21 16)
      if !bit l 0 || !wheelEn s k then s
      else
        let p := places s k
        let w := pStep p { wheelSt s k with pNode := some (nodeName (256 + st) 0) } b.serial (sdHeight v)
        match pOrigin w b.serial with
        | none => modStream st (fun v => { v with buf := rest }) s
        | some o =>
          if !wheelRoom p w (o + b.line) then wheelStall k (putWheel k w s)
          else
            let data := b.data ++ List.replicate (placeRows s k * 512 - b.data.length) 0
            let s1 := putWheel k (markWritten p (o + b.line) w) (modStream st (fun v => { v with buf := rest }) s)
            match chkAccess s1 v.tenant (lineAddr s k b.line) data.length true with
            | .ok => devPut (lineAddr s k b.line) data s1
            | c => settle (abortFaulted st
                (if (lastFrame v).any (fun f => f.faulted) then s1
                 else modFrame st (fun f => { f with faulted := true }) (logChk c v.tenant (camEng (sdPort v)) s1)))

/-! ### Commands -/

/-- R83. -/
def execCsi2FrameStart (port vc num : Nat) (ecc : Ecc) (s : State) : Host.Outcome State Fault Refusal :=
  act (decide (port < 16) && decide (vc < 16)) s (fsPacket port vc num ecc)

/-- R88. -/
def execCsi2LineStart (port vc num : Nat) (ecc : Ecc) (s : State) : Host.Outcome State Fault Refusal :=
  act (decide (port < 16) && decide (vc < 16)) s (lsPacket port vc num ecc)

/-- R87. -/
def execCsi2LongPacket (port vc dt : Nat) (payload : List Byte) (ecc : Ecc) (crcOk : Bool) (s : State) :
    Host.Outcome State Fault Refusal :=
  act (decide (port < 16) && decide (vc < 16)) s (linePacket port vc dt payload ecc crcOk)

/-- R99. -/
def execEmbeddedData (port vc : Nat) (payload : List Byte) (ecc : Ecc) (crcOk : Bool) (s : State) :
    Host.Outcome State Fault Refusal :=
  act (decide (port < 16) && decide (vc < 16)) s (linePacket port vc 0x12 payload ecc crcOk)

/-- R86. -/
def execCsi2FrameEnd (port vc _num : Nat) (ecc : Ecc) (s : State) : Host.Outcome State Fault Refusal :=
  act (decide (port < 16) && decide (vc < 16)) s (fePacket port vc ecc)

/-- R86. -/
def execLineTimeout (stream : Nat) (s : State) : Host.Outcome State Fault Refusal :=
  act (decide (stream < 64)) s (fun s => settle (checkTimeout stream s))

/-- R85. -/
def execStreamLoss (stream : Nat) (s : State) : Host.Outcome State Fault Refusal :=
  act (decide (stream < 64)) s (fun s => settle (checkLoss stream s))

/-- R107. -/
def execLineLanded (stream : Nat) (s : State) : Host.Outcome State Fault Refusal :=
  act (decide (stream < 64)) s (landLine stream)

end Sys2Proof.Machine
end

