-- ==== Sys2Proof/Machine/Sensor.lean ====
section
/-! DEFINITION. Sensor control (R93 to R99): write windows, transfers on the buses, failed and written sets, in-band
interrupts; frame-sync lines (R101, R502). -/

namespace Sys2Proof.Machine

/-! ### Settings sets (R95 to R99) -/

/-- The profile words of a slot, with the tenant that last loaded them (R511). -/
def profileAt (s : State) (slot : Nat) : Option (Nat × List Nat) := tget none s.cam.profiles slot

/-- The profile a stream's descriptor names now. -/
def streamProfile (s : State) (v : Stream) : List Nat :=
  if sdProfileEn v then ((profileAt s (sdProfile v)).map Prod.snd).getD [] else []

/-- Value of the entry with a flag bit (18 exposure, 19 gain). -/
def entryVal (l : List (Nat × Nat)) (b : Nat) : Option Nat := (l.find? (fun e => bit e.1 b)).map Prod.snd

/-- R96: a set moves from the pending to the writing place when that is empty, and is written, from its first entry to its
end under one profile (R511). -/
def loadSet (st : Nat) (s : State) : State :=
  modStream st (fun v =>
    let v1 := if v.writing.isNone then { v with
      writing := v.pend, pend := none, entry := 0, attempts := 0, acked := false } else v
    { v1 with active := v1.active || v1.writing.isSome, sprofile := if v1.active then v1.sprofile else v1.wprofile }) s

/-- R95, R96: an accepted set takes the pending place; for a stream not yet open it is written at once. -/
def acceptSet (st epoch : Nat) (entries : List (Nat × Nat)) (s : State) : State :=
  match streamAt s st with
  | some v =>
    let s0 := if v.pend.isSome then cnt R.camStreamReplaced st 1 s else s
    let s1 := modStream st (fun v => { v with
      pend := some { epoch := epoch, entries := entries }, lastEpoch := some epoch, reqEpoch := epoch }) s0
    if !v.opened && v.writing.isNone then kickBus (sdPort v) (loadSet st s1) else s1
  | none => s

/-- R98: a transfer under way is cancelled; its end is awaited. -/
def cutTransfer (st : Nat) (s : State) : State :=
  modStream st (fun v => { v with ending := v.busy.map (fun t => (s.now, t)), busy := none }) s

/-- R98: the write of the set ends incomplete: it goes back to the writing place, and is discarded the third time; the
log entry has the retries made (R41). -/
def failSet (st : Nat) (s : State) : State :=
  match streamAt s st with
  | some v =>
    match v.writing with
    | some w =>
      let third := decide (3 ≤ v.failures + 1)
      let s1 := modStream st (fun v => { v with
        active := false, busy := none, entry := 0, attempts := 0, acked := false,
        partialAt := if v.acked then some (v.partialAt.getD s.now) else v.partialAt,
        failures := if third then 0 else v.failures + 1,
        writing := if third then v.pend else v.writing, pend := if third then none else v.pend }) s
      let s2 := if third then addLogR (min 3 v.attempts) 0x0008 v.tenant (camEng (sdPort v)) st w.epoch 0 s1 else s1
      kickBus (sdPort v) s2
    | none => s
  | none => s

/-- R96 to R99: the set is completely written. -/
def doneSet (st : Nat) (s : State) : State :=
  match streamAt s st with
  | some v =>
    match v.writing with
    | some w =>
      let prev := v.written.getLast?
      let x := (entryVal w.entries 18).or (prev.bind Written.exp)
      let g := (entryVal w.entries 19).or (prev.bind Written.gain)
      let s1 := modStream st (fun v => { v with
        active := false, busy := none, entry := 0, attempts := 0, acked := false, failures := 0, writing := none,
        initialEpoch := if v.opened then v.initialEpoch else w.epoch,
        written := v.written ++ [{ epoch := w.epoch, stamp := s.now, n := if v.opened then none else some 0,
                                   exp := x, gain := g }] }) s
      kickBus (sdPort v) (if v.opened then s1 else loadSet st s1)
    | none => s
  | none => s

/-- R96: a write window opens, unless an earlier one is still open; the stream takes up a reloaded profile, and a set that is
being written keeps its own (R511). -/
def windowOpen (st : Nat) (s : State) : State :=
  match streamAt s st with
  | some v =>
    match v.windows with
    | [] => s
    | (o, c) :: r =>
      if v.started && decide (o ≤ s.now) then
        let s1 := modStream st (fun v => { v with windows := r }) s
        let passed := match v.window with | some w => decide (s.now < w.2) | none => false
        if passed then s1
        else
          let s2 := if v.window.isSome && v.active then failSet st (cutTransfer st s1) else s1
          kickBus (sdPort v) (loadSet st (modStream st (fun x => { x with
            window := some (o, c), wprofile := streamProfile s v }) s2))
      else s
  | none => s

/-- R98: the window closes with the set incomplete. -/
def windowClose (st : Nat) (s : State) : State :=
  match streamAt s st with
  | some v =>
    match v.window with
    | some (_, c) =>
      if c ≤ s.now then
        let s1 := if v.active then failSet st (cutTransfer st s) else s
        modStream st (fun v => { v with window := none }) s1
      else s
    | none => s
  | none => s

/-- The window has closed by now (R34). -/
def windowPast (s : State) (v : Stream) : Bool :=
  match v.window with | some (_, c) => decide (c ≤ s.now) | none => false

/-- R40, R93, R98: a failed attempt: data bytes it had acknowledged make a partial write; three retries follow. -/
def transferFailed (st bytes : Nat) (s : State) : State :=
  match streamAt s st with
  | some v =>
    let s1 := modStream st (fun v => { v with
      busy := none, acked := v.acked || decide (0 < bytes), attempts := v.attempts + 1 }) s
    if windowPast s v || decide (3 < v.attempts + 1) then failSet st s1 else startTransfer st s1
  | none => s

/-- R98: a cancelled transfer has ended: data bytes it had acknowledged make its window's write partial. -/
def transferCut (st : Nat) (data : Bool) (s : State) : State :=
  match streamAt s st with
  | some v =>
    kickBus (sdPort v) (modStream st (fun v => { v with
      ending := none, partialAt := if data then v.partialAt.or (v.ending.map Prod.fst) else v.partialAt }) s)
  | none => s

/-- R93, R98: the transfer of an entry has ended. -/
def transferDone (st : Nat) (ack : Bool) (bytes : Nat) (s : State) : State :=
  match streamAt s st with
  | some v =>
    if v.ending.isSome then transferCut st (ack || decide (0 < bytes)) s
    else if v.busy.isNone then s
    else if !ack then transferFailed st bytes s
    else
      let s1 := modStream st (fun v => { v with busy := none, acked := true, attempts := 0, entry := v.entry + 1 }) s
      if windowPast s v then failSet st s1
      else match v.writing with
      | some w => if w.entries.length ≤ v.entry + 1 then doneSet st s1 else startTransfer st s1
      | none => s1
  | none => s

/-- R93: stretching of an I2C clock has lasted 1 ms: the transfer fails with a STOP. -/
def stretchOut (st bytes : Nat) (s : State) : State :=
  match streamAt s st with
  | some v =>
    match v.busy.or (v.ending.map Prod.snd) with
    | some t =>
      if bits (wd v.sprofile 0) 1 0 = 2 ∧ t + 1000000 ≤ s.now then
        (if v.ending.isSome then transferCut st (decide (0 < bytes)) s else transferFailed st bytes s)
      else s
    | none => s
  | none => s

/-- R93: an in-band interrupt is logged with its first 4 payload bytes. -/
def inBand (port _addr data : Nat) (s : State) : State := addLog 0x0007 63 (camEng port) data 0 0 s

/-! ### Frame-sync lines (R101, R502) -/

/-- A frame-sync output. -/
def fsoSt (s : State) (k : Nat) : Fso := tget fsoReset s.cam.fso k

/-- Replace it. -/
def putFso (k : Nat) (f : Fso) (s : State) : State :=
  { s with cam := { s.cam with fso := tset fsoReset s.cam.fso k f } }

/-- The level of an output: POL 1 means asserted low. -/
def fsoLevel (f : Fso) (on : Bool) : Bool := on != bit f.ctrl 2

/-- R101: the registers' values take effect while the output is deasserted. -/
def fsoApply (k : Nat) (s : State) : State :=
  let f := fsoSt s k
  let c := rget s R.camFsoCtrl k &&& 0xFFFF001F
  let p := rget s R.camFsoPeriod k
  let h := rget s R.camFsoPhase k
  if f.asserted || (f.ctrl == c && f.period == p && f.phase == h) then s
  else
    let g := { f with
      ctrl := c, period := p, phase := h, lastDue := s.now / 4, due := if bits c 1 0 = 2 then f.due else [] }
    putFso k g (if fsoLevel g false = fsoLevel f false then s else emit (.fsync k (fsoLevel g false)) s)

/-- An assertion falls due: it asserts the output, or is merged into the pulse under way. -/
def fsoDue (k : Nat) (f : Fso) (s : State) : State :=
  if f.asserted then
    let c := rget s R.camFsoCtrl k
    putFso k f (rput R.camFsoCtrl k (c - bits c 15 8 * 256 + min 255 (bits c 15 8 + 1) * 256) s)
  else putFso k { f with asserted := true, since := s.now } (emit (.fsync k (fsoLevel f true)) s)

/-- R101: an output's scheduled assertion time. -/
def fsoAssert (k : Nat) (s : State) : State :=
  let f := fsoSt s k
  let u := s.now / 4
  if bits f.ctrl 1 0 = 1 then
    (if f.period ≠ 0 ∧ f.phase ≤ u then
      let d := u - (u - f.phase) % f.period
      if f.lastDue < d + 1 then fsoDue k { f with lastDue := d + 1 } s else s
     else s)
  else if bits f.ctrl 1 0 = 2 then
    (match f.due with
     | t :: r => if t ≤ s.now then fsoDue k { f with due := r } s else s
     | [] => s)
  else s

/-- R101: a pulse ends after WIDTH units of 4 ns. -/
def fsoDeassert (k : Nat) (s : State) : State :=
  let f := fsoSt s k
  if f.asserted && decide (f.since + max 1 (bits f.ctrl 31 16) * 4 ≤ s.now) then
    fsoApply k (putFso k { f with asserted := false } (emit (.fsync k (fsoLevel f false)) s))
  else s

/-- Assertions due, earliest first. -/
def insertDue (t : Nat) (l : List Nat) : List Nat := l.takeWhile (fun x => decide (x ≤ t)) ++ [t] ++ l.dropWhile (fun x => decide (x ≤ t))

/-- R101, R502, R457: an edge on an input: the active edge is stamped and starts slaved outputs; any edge wakes the
device. -/
def fsiEdge (n : Nat) (rising : Bool) (s0 : State) : State :=
  let s := wakeDevice s0
  if rising == bit (rget s R.camFsiCtrl 0) n then s
  else
    let near := match tget none s.cam.fsiEdge n with | some t => decide (s.now < t + 24) | none => false
    let s1 := { s with cam := { s.cam with
      fsiEdge := tset none s.cam.fsiEdge n (some s.now),
      fsiLast := if near then s.cam.fsiLast else tset 0 s.cam.fsiLast n s.now } }
    (List.range 8).foldl (fun s k =>
      let f := fsoSt s k
      if bits f.ctrl 1 0 = 2 ∧ bits f.ctrl 4 3 = n then putFso k { f with due := insertDue (s.now + f.phase * 4) f.due } s else s) s1

/-! ### Commands -/

/-- R96. -/
def execSettingsWindowOpen (stream : Nat) (s : State) : Host.Outcome State Fault Refusal :=
  act (decide (stream < 64)) s (windowOpen stream)

/-- R98. -/
def execSettingsWindowClose (stream : Nat) (s : State) : Host.Outcome State Fault Refusal :=
  act (decide (stream < 64)) s (windowClose stream)

/-- R93. -/
def execSensorTransferDone (stream : Nat) (ack : Bool) (dataBytes : Nat) (s : State) :
    Host.Outcome State Fault Refusal :=
  act (decide (stream < 64)) s (transferDone stream ack dataBytes)

/-- R93. -/
def execI2cStretchTimeout (stream dataBytes : Nat) (s : State) : Host.Outcome State Fault Refusal :=
  act (decide (stream < 64)) s (stretchOut stream dataBytes)

/-- R93. -/
def execSensorIbi (port addr data : Nat) (s : State) : Host.Outcome State Fault Refusal :=
  act (decide (port < 16)) s (inBand port addr data)

/-- R101. -/
def execFsyncOutAssert (k : Nat) (s : State) : Host.Outcome State Fault Refusal :=
  act (decide (k < 8)) s (fsoAssert k)

/-- R101. -/
def execFsyncOutDeassert (k : Nat) (s : State) : Host.Outcome State Fault Refusal :=
  act (decide (k < 8)) s (fsoDeassert k)

/-- R101, R502. -/
def execFsyncInEdge (n : Nat) (rising : Bool) (s : State) : Host.Outcome State Fault Refusal :=
  act (decide (n < 4)) s (fsiEdge n rising)

end Sys2Proof.Machine
end

