-- ==== Sys2Proof/Machine/Keys.lean ====
section
/-! DEFINITION. Key slots and host sessions (R402 to R406), memory keys (R411, R412), the isolation table's check and
epochs (R417 to R423), credentials (R413 to R415). -/

namespace Sys2Proof.Machine

/-- Change the security engine. -/
def modSec (f : Sec → Sec) (s : State) : State := { s with sec := f s.sec }

/-! ### Key slots (R404, R405) -/

/-- A key slot. -/
def slotAt (s : State) (n : Nat) : Option KeySlot := tget none s.sec.slots n

/-- Set or free a key slot. -/
def putSlot (n : Nat) (k : Option KeySlot) (s : State) : State :=
  modSec (fun x => { x with slots := tset none x.slots n k }) s

/-- Slots a tenant holds. -/
def slotsHeld (s : State) (t : Nat) : Nat :=
  (s.sec.slots.filter (fun e => match e.2 with | some k => k.tenant == t | none => false)).length

/-- The lowest FREE tenant slot. -/
def freeKeySlot (s : State) : Option Nat := ((List.range 240).map (· + 16)).find? (fun n => (slotAt s n).isNone)

/-- R405: a slot for a tenant's key: within its quota and free; none is KEY_FULL. -/
def allocSlot (s : State) (t : Nat) : Option Nat :=
  if keyQuota s t ≤ slotsHeld s t then none else freeKeySlot s

/-- Free every slot for which `p` holds. -/
def dropSlots (p : KeySlot → Bool) (s : State) : State :=
  modSec (fun x => { x with slots := x.slots.filter (fun e => match e.2 with | some k => !p k | none => true) }) s

/-! ### Memory keys (R412) -/

/-- A memory key of two AES-256 keys from the random source (R404, R411). -/
def memoryKey (s : State) (t : Nat) : KeySlot :=
  { kind := 3, tenant := t, sess := 0, jobId := 0, nonce := 0, key := randBytes s.free 0 64 }

/-- R412: a tenant's memory key is destroyed; what its ENC ranges hold stays stored under it. -/
def dropMemKey (t : Nat) (s : State) : State :=
  if t = 32 then s else dropSlots (fun k => k.kind == 3 && k.tenant == t) s

/-! ### Host sessions (R402, R403) -/

/-- A host session. -/
def sessAt (s : State) (h : Nat) : Option Sess := tget none s.sec.sessions h

/-- R390, R403, R407: the instances that carry a job key of the session are cancelled, and its jobs whose trigger is
pending are dropped as JOB_CANCEL drops one, so that none starts without its key. -/
def cancelSession (h : Nat) (s : State) : State :=
  let mine := fun (k : Option Nat) => match k with
    | some n => (match slotAt s n with | some e => e.kind == 2 && e.sess == h | none => false)
    | none => false
  let held := fun (g : Trig) => mine (g.job.bind (·.key))
  s.seq.tmpls.foldl (fun s e => match e.2 with
    | some v =>
      let s1 := (v.pending.filter held).foldl (fun s g => dropJob e.1 g 3 s) s
      v.slots.zipIdx.foldl (fun s i =>
          if i.1.st == .running && mine i.1.key then wantAbort e.1 i.2 2 s else s)
        (if v.pending.any held then modTmpl e.1 (fun v => { v with pending := v.pending.filter (fun g => !held g) }) s1 else s1)
    | none => s) s

/-- Destroy a session with its keys; with a tenant's last session goes its memory key (R403, R412). -/
def destroySession (h : Nat) (s : State) : State :=
  match sessAt s h with
  | some x =>
    let s1 := dropSlots (fun k => k.kind != 3 && k.sess == h) s
    let s2 := modSec (fun c => { c with sessions := tset none c.sessions h none }) s1
    if s2.sec.sessions.any (fun e => match e.2 with | some y => y.fn == x.fn | none => false) then s2
    else dropMemKey x.fn s2
  | none => s

/-- The sessions of a function. -/
def sessionsOf (s : State) (fn : Nat) : List Nat :=
  s.sec.sessions.filterMap (fun e => match e.2 with | some x => if x.fn == fn then some e.1 else none | none => none)

/-- Destroy every session and key of a function (R353, R423). -/
def destroyTenant (fn : Nat) (s : State) : State :=
  dropMemKey fn ((sessionsOf s fn).foldl (fun s h => destroySession h (cancelSession h s)) s)

/-! ### The isolation table's check (R419) -/

/-- Word `k` of a tenant's shadow entry. -/
def shW (s : State) (t k : Nat) : Nat := (tget (0 : Word) s.sec.shadow (128 * t + k)).toNat

/-- Reserved bits of word `k` of an entry (R417). -/
def isoReserved (k : Nat) : Nat :=
  if k = 0 then 0xFF8000F0 else if k = 1 then 0xFFE00000 else if k = 2 then 0xFC000000
  else if k = 3 ∨ k = 4 then 0 else if 8 ≤ k ∧ k < 32 then 0
  else if 32 ≤ k ∧ k < 35 then 0xC0000000 else if k = 35 then 0xFFFFFC00
  else if 40 ≤ k ∧ k < 56 then (if k % 2 = 0 then 0xFF000000 else 0xFE000000)
  else if 56 ≤ k ∧ k < 72 then 0xFF000000 else 0xFFFFFFFF

/-- What is wrong with word `k` of a tenant's entry by itself: a status code, 0 for nothing. -/
def isoWordCheck (s : State) (t k : Nat) : Nat :=
  let w := shW s t k
  if w &&& isoReserved k ≠ 0 then 0x01
  else if k = 0 then
    (if bit w 0 ∧ nFns s ≤ t ∧ t < 32 then 0x03
     else if 240 < bits w 15 8 ∨ 64 < bits w 22 16 ∨ (t = 32 ∧ bits w 22 16 ≠ 0) then 0x02 else 0)
  else if k = 1 then (if 1024 < bits w 20 10 then 0x02 else if 1024 < bits w 9 0 + bits w 20 10 then 0x03 else 0)
  else if k = 2 then
    (if 256 < bits w 16 8 ∨ 256 < bits w 25 17 then 0x02 else if 256 < bits w 7 0 + bits w 16 8 then 0x03 else 0)
  else if 8 ≤ k ∧ k < 32 then
    (let lim := if k < 16 then 64 else 4
     let i := (k - 8) % 8
     if w >>> (if 32 * i < lim then lim - 32 * i else 0) ≠ 0 then 0x03 else 0)
  else if 32 ≤ k ∧ k < 36 then
    (if (List.range 3).any (fun i => decide (1000 < bits w (10 * i + 9) (10 * i))) then 0x02 else 0)
  else if 40 ≤ k ∧ k < 56 ∧ k % 2 = 1 then
    (if bits w 23 0 ≠ 0 ∧ 24576 < bits (shW s t (k - 1)) 23 0 + bits w 23 0 then 0x03 else 0)
  else if 56 ≤ k ∧ k < 72 ∧ k % 2 = 1 then
    (if bits w 23 0 ≠ 0 ∧ 1048576 < bits (shW s t (k - 1)) 23 0 + bits w 23 0 then 0x03 else 0)
  else 0

/-- The tenant is enabled in the shadow table. -/
def shEn (s : State) (t : Nat) : Bool := bit (shW s t 0) 0

/-- SHARE of a class in the shadow table. -/
def shShare (s : State) (t c : Nat) : Nat := bits (shW s t (32 + c / 3)) (10 * (c % 3) + 9) (10 * (c % 3))

/-- HBM range `i` of a shadow entry: base, size, encrypted. -/
def shHbm (s : State) (t i : Nat) : Nat × Nat × Bool :=
  (bits (shW s t (40 + 2 * i)) 23 0, bits (shW s t (41 + 2 * i)) 23 0, bit (shW s t (41 + 2 * i)) 24)

/-- An ENC range of tenant `t` overlaps a range of another tenant, enabled or not. -/
def encOverlap (s : State) (t i : Nat) : Bool :=
  let r := shHbm s t i
  r.2.2 && (List.range 33).any (fun u => u != t && (List.range 8).any (fun j =>
    let q := shHbm s u j
    decide (r.1 < q.1 + q.2.1) && decide (q.1 < r.1 + r.2.1) && decide (0 < q.2.1) && decide (0 < r.2.1)))

/-- R419: the first thing wrong with the shadow table: status, tenant, word. -/
def isoCheck (s : State) : Option (Nat × Nat × Nat) :=
  let words := (List.range 33).findSome? (fun t => (List.range 128).findSome? (fun k =>
    let c := isoWordCheck s t k
    if c = 0 then none else some (c, t, k)))
  let sums := (List.range 33).findSome? (fun t =>
    let enc := ((List.range 8).find? (fun i => encOverlap s t i)).map (fun i => (0x02, t, 41 + 2 * i))
    if !shEn s t then enc
    else
      let upTo := (List.range (t + 1)).filter (shEn s)
      match (List.range 10).find? (fun c => decide (1000 < sumN (upTo.map (fun u => shShare s u c)))) with
      | some c => some (0x02, t, 32 + c / 3)
      | none =>
        if 240 < sumN (upTo.map (fun u => bits (shW s u 0) 15 8)) then some (0x02, t, 0)
        else enc)
  words.or sums

/-- R420: the entry that grants every resource. -/
def fullEntry (k : Nat) : Nat :=
  if k = 0 then 1 + 7 * 2 + 240 * 256 + 64 * 65536
  else if k = 1 then 1024 * 1024
  else if k = 2 then 256 * 256 + 256 * 131072
  else if k = 3 ∨ k = 4 ∨ k = 8 ∨ k = 9 then 0xFFFFFFFF
  else if k = 16 ∨ k = 24 then 15
  else if 32 ≤ k ∧ k < 35 then 1000 + 1000 * 1024 + 1000 * 1048576
  else if k = 35 then 1000
  else if k = 41 then 24576
  else if k = 57 then 1048576
  else 0

/-- R420: the table of an unclaimed device. -/
def defaultTable : Tab Word :=
  ((List.range 128).filter (fun k => fullEntry k != 0)).map (fun k => (k, BitVec.ofNat 32 (fullEntry k)))

/-! ### Epochs (R421 to R423) -/

/-- R421: a commit is validated and awaits its epoch. -/
def commitIso (s : State) : State :=
  match isoCheck s with
  | some (c, t, k) => modSec (fun x => { x with errCode := c, errTenant := t, errWord := k }) s
  | none => modSec (fun x => { x with pending := true, errCode := 0, errTenant := 0, errWord := 0 }) s

/-- The core a run's engine belongs to is outside its tenant's mask. -/
def runOutside (s : State) (r : Run) : Bool :=
  let k := classKind r.task.cls
  if k = 3 ∨ r.task.cls = 7 then false
  else if r.gang.isEmpty then !bit (coreMask s r.task.tenant k) (bits (engRef r.eng) 13 6)
  else r.gang.any (fun c => !bit (coreMask s r.task.tenant 0) c)

/-- A window's target is still granted, and its number may still open (R423). -/
def windowKept (s : State) (k : Nat) (w : Window) : Bool :=
  let t := k / 64
  isoEn s t && decide (k % 64 < winCount s t) &&
  (if w.hbm then hbmGrant s t w.base w.size else sraGrant s t (rowOf w.base) (cdiv w.size 512))

/-- R82, R423: the stream stops as STREAM_STOP does. -/
def endStream (st : Nat) (s : State) : State :=
  match streamAt s st with
  | some v => if (openFrame v).isSome then modStream st (fun v => { v with stopping := true }) s else stopStream st s
  | none => s

/-- R422, R423: the effects of a new table; `old` tells which tenants were enabled. -/
def applyRights (old : List Nat) (s : State) : State :=
  let gone := old.filter (fun t => !isoEn s t)
  let s1 := gone.foldl (fun s t => s.seq.tmpls.foldl (fun s e => match e.2 with
    | some v => if v.tenant == t then disarmAbort e.1 s else s
    | none => s) s) s
  let s2 := s1.seq.runs.foldl (fun s r =>
    if runOutside s r && taskLive s r.task then wantAbort r.task.tmpl r.task.slot 2 s else s) s1
  let s3 := s2.windows.foldl (fun s e =>
    if e.2.st == .opened && !windowKept s e.1 e.2 then winClose e.1 true s else s) s2
  let s4 := (streamsWith s3 (fun _ => true)).foldl (fun s st => match streamAt s st with
    | some v => if streamGranted s v.tenant st then s else endStream st s
    | none => s) s3
  let s5 := { s4 with accs := s4.accs.filter (fun e => match e.2 with
    | some a => bit (coreMask s4 (e.1 % 64) 0) (e.1 / 64) &&
        (match chkAccess s4 (e.1 % 64) (rowAddr (e.1 / 64 * 16384 + a.row)) (4096 * 512) true with
         | .unmapped _ => false
         | .denied _ => false
         | _ => true)
    | none => true) }
  settle (dropNoEngine (gone.foldl (fun s t => destroyTenant t s) s5))

/-- R421: the isolation epoch opens: the whole new table takes effect. -/
def openEpoch (s : State) : State :=
  if s.sec.pending then
    let old := (List.range 33).filter (isoEn s)
    applyRights old (modSec (fun x => { x with
      pending := false, epoch := w32 (x.epoch + 1), epochTime := s.now, table := x.shadow }) s)
  else s

/-! ### Credentials (R413 to R415) -/

def credBytes : Nat := 18228

/-- Word at a byte offset of a block of bytes. -/
def leAt (l : List Byte) (o n : Nat) : Nat := leNat ((l.drop o).take n)

/-- The key `k` of a credential block: Owner keys 0 to 3, Operator keys 4 to 11. -/
def credKey (b : List Byte) (k : Nat) : List Byte := (b.drop (0x40 + 1312 * k)).take 1312

/-- Key `k` is present. -/
def credHas (b : List Byte) (k : Nat) : Bool := bit (leAt b 0 4) (16 + k)

/-- The block's signature verifies under a key. -/
def credSigned (key b : List Byte) : Bool := dsaVerify key (b.take 0x3DC0) ((b.drop 0x3DC0).take 2420)

/-- R414: the status of a staged block: RESERVED_NONZERO, PARAM_INVALID, SIG_INVALID or OK. -/
def credCheck (s : State) (b : List Byte) : Nat :=
  let w0 := leAt b 0 4
  let w2 := leAt b 8 4
  let signer := bits w2 1 0
  let claim := bit w2 2
  let claimed := s.nv.credFuses != 0
  if bits w0 31 28 ≠ 0 ∨ bits w2 31 3 ≠ 0 ∨ ((b.drop 12).take 52).any (· != 0) then 0x01
  else if bits w0 15 0 ≠ 1 ∨ bits w0 19 16 = 0 ∨ leAt b 4 4 ≠ s.nv.credFuses + 1 ∨ 32 ≤ s.nv.credFuses ∨
      claim = claimed then 0x02
  else if !claimed then (if credHas b signer && credSigned (credKey b signer) b then 0 else 0x31)
  else match s.sec.cred with
    | some c => if credHas c signer && credSigned (credKey c signer) b then 0 else 0x31
    | none => 0x31

/-- A management session. -/
def msessAt (s : State) (n : Nat) : Option MSess := tget none s.sec.msessions n

/-- Replace it. -/
def putMsess (n : Nat) (m : Option MSess) (s : State) : State :=
  modSec (fun x => { x with msessions := tset none x.msessions n m }) s

/-- A management session ends: its waiting packets go, and the one that waits for its condition is not answered. -/
def endMsess (n : Nat) (s : State) : State :=
  let s1 := putMsess n none s
  { s1 with waits := tset none s1.waits (512 + n) none }

/-- R414: management sessions whose key, as it was when they opened, has been removed are closed. -/
def dropKeyless (new : List Byte) (s : State) : State :=
  let stays := fun (m : MSess) => (List.range 12).any (fun k => credHas new k && credKey new k == m.owned)
  s.sec.msessions.foldl (fun s e => match e.2 with
    | some m => if stays m then s else endMsess e.1 s
    | none => s) s

/-- R414: the staged block is checked; an accepted one burns a fuse, is stored, and is in force. -/
def commitCred (s : State) : State :=
  let b := (List.range credBytes).map (fun i => tget (0 : Byte) s.sec.staging i)
  let r := credCheck s b
  let s1 := modSec (fun x => { x with credResult := r }) s
  if r ≠ 0 then s1
  else
    let s2 := dropKeyless b s1
    modSec (fun x => { x with cred := some b, locked := false })
      { s2 with nv := { s2.nv with
        credFuses := s2.nv.credFuses + 1,
        creds := (s2.nv.creds.filter (fun c => leAt c 4 4 % 2 != leAt b 4 4 % 2)) ++ [b] } }

/-- The signature of a stored block verifies: a claiming block's under its own key, another's under a key of the block
before it. -/
def credVerifies (s : State) (b : List Byte) : Bool :=
  let signer := bits (leAt b 8 4) 1 0
  let by_ := if bit (leAt b 8 4) 2 then some b else s.nv.creds.find? (fun c => leAt c 4 4 + 1 == leAt b 4 4)
  match by_ with
  | some c => credHas c signer && credSigned (credKey c signer) b
  | none => false

/-- R415: the block the loader puts in force: its CRED_VER equals the fused count and its signature verifies. -/
def bootCred (s : State) : Option (List Byte) :=
  if s.nv.credFuses = 0 then none
  else s.nv.creds.find? (fun b => leAt b 4 4 == s.nv.credFuses && credVerifies s b)

/-! ### Commands -/

/-- R421. -/
def execIsolationEpoch (s : State) : Host.Outcome State Fault Refusal := act true s openEpoch

/-- R402: a session still in HANDSHAKE 1 s after its step-1 reply is discarded. -/
def execSessionHandshakeTimeout (sess : Nat) (s : State) : Host.Outcome State Fault Refusal :=
  act (decide (sess < 65536)) s (fun s => match sessAt s sess with
    | some x => if !x.open_ && decide (x.since + 1000000000 ≤ s.now) then destroySession sess s else s
    | none => s)

end Sys2Proof.Machine
end

