-- ==== Sys2Proof/Machine/Flash.lean ====
section
/-! DEFINITION. The boot flash: firmware and configuration images (R476, R477), the update state (R482 to R485,
R487), service packages and their slots (R376, R377, R486). -/

namespace Sys2Proof.Machine

/-- Change fuses and flash. -/
def modNv (f : Nv → Nv) (s : State) : State := { s with nv := f s.nv }

/-- Change the boot process. -/
def modBoot (f : Boot → Boot) (s : State) : State := { s with boot := f s.boot }

/-- An entry of the loader or the firmware in the log (R488): no tenant, no engine. -/
def logBoot (code d0 d1 : Nat) (s : State) : State := addLog code 63 0xFFFF d0 d1 0 s

/-! ### The update state record (R482) -/

/-- The copy in force: the one of the higher sequence number. -/
def updRec (s : State) : UpdRec := if s.nv.rec0.seq < s.nv.rec1.seq then s.nv.rec1 else s.nv.rec0

/-- R482: the record is written, when it has changed, to the copy of the lower sequence number. -/
def saveRecord (phase : Nat) (s : State) : State :=
  let r : UpdRec := {
    seq := (updRec s).seq + 1, state := s.nv.updState, phase := phase, boots := s.nv.bootsLeft, seconds := s.nv.runSeconds }
  if { r with seq := (updRec s).seq } = updRec s then s
  else modNv (fun n => if n.rec0.seq < n.rec1.seq then { n with rec0 := r } else { n with rec1 := r }) s

/-! ### Staging (R483) -/

/-- Largest length received of each staged block, as 8192 × block + length. -/
def blockLen (l : List Nat) (b : Nat) : Nat := ((l.filter (fun x => x / 8192 == b)).map (· % 8192)).foldl max 0

/-- Record a block. -/
def addBlock (l : List Nat) (b n : Nat) : List Nat :=
  l.filter (fun x => x / 8192 != b) ++ [8192 * b + max n (blockLen l b)]

/-- Bytes received into staging since it was last erased. -/
def stagedBytes (s : State) : Nat := sumN (s.nv.stagedBlocks.map (· % 8192))

/-- Every block up to a length has arrived. -/
def allStaged (s : State) (n : Nat) : Bool :=
  (List.range (cdiv n 4096)).all (fun b => decide (min 4096 (n - 4096 * b) ≤ blockLen s.nv.stagedBlocks b))

/-- Store a block: the first one after IDLE, PENDING or FALLBACK erases staging and discards any commit. -/
def storeBlock (off : Nat) (l : List Byte) (s : State) : State :=
  let s1 := if s.nv.updState = 0 ∨ s.nv.updState = 2 ∨ s.nv.updState = 4 then
    saveRecord 0 (modNv (fun n => { n with staging := [], stagedBlocks := [], staged := none, updState := 1 }) s) else s
  modNv (fun n => { n with
    staging := (l.zipIdx).foldl (fun t e => tset (0xFF : Byte) t (off + e.2) e.1) n.staging,
    stagedBlocks := addBlock n.stagedBlocks (off / 4096) l.length }) s1

/-! ### Images (R476) -/

/-- Bytes of staging. -/
def stagingBytes (s : State) (n : Nat) : List Byte := (List.range n).map (fun i => tget (0xFF : Byte) s.nv.staging i)

/-- What is wrong with the header of an image of which `n` bytes are held: PARAM_INVALID, or 0. -/
def imageHeader (b : List Byte) (n : Nat) : Nat :=
  let w0 := leAt b 0 4
  let len := leAt b 8 4
  let sig := leAt b 12 4
  let w4 := leAt b 16 4
  let kind := bits w0 7 0
  if n < 64 ∨ (kind ≠ 1 ∧ kind ≠ 2) ∨ bits w0 15 8 ≠ 1 ∨ bits w0 31 19 ≠ 0 ∨ bit w0 16 ∨
     (kind = 1 ∧ (bits w0 18 17 ≠ 0 ∨ 64 < leAt b 4 4)) ∨ sig % 4 ≠ 0 ∨ sig < 64 ∨ len ≠ sig + 2420 ∨
     33554432 < len ∨ n < len ∨ bits w4 31 16 ≠ 0 ∨ ((b.drop 20).take 12).any (· != 0) ∨
     (((b.drop 32).take 32).any (· != 0) ∧ (b.drop 32).take 32 ≠ Config.deviceIdHash) then 0x02
  else 0

/-- The image is signed by its KIND's key: the firmware key, or the Owner key KEY_INDEX of the block in force. -/
def imageSigned (s : State) (b : List Byte) : Bool :=
  let sig := leAt b 12 4
  let body := b.take sig
  let mark := (b.drop sig).take 2420
  if bits (leAt b 0 4) 7 0 = 1 then dsaVerify Config.firmwareKey body mark
  else match s.sec.cred with
    | some c => credHas c (bits (leAt b 0 4) 18 17) && dsaVerify (credKey c (bits (leAt b 0 4) 18 17)) body mark
    | none => false

/-- R479: a slot's image verifies: its header, KIND and signature hold; the image that the part leaves the factory with
does (PRESUMED, log entry 189). -/
def imageHolds (s : State) (x : Image) : Bool :=
  x.bytes.isEmpty || (imageHeader x.bytes x.bytes.length == 0 && bits (leAt x.bytes 0 4) 7 0 == 1 && imageSigned s x.bytes)

/-- R483: FW_COMMIT's check of an image as the loader would check it: 0 or a status code. -/
def imageCheck (s : State) (b : List Byte) (n : Nat) : Nat :=
  if imageHeader b n ≠ 0 then 0x02
  else if !imageSigned s b then 0x31
  else if bits (leAt b 0 4) 7 0 = 1 ∧ leAt b 4 4 < s.nv.svnFuses then 0x32
  else 0

/-! ### Configuration blocks (R477, R487) -/

/-- The block of a configuration area. -/
def cfgArea (s : State) (a : Nat) : Option CfgBlock := if a = 0 then s.nv.cfg0 else s.nv.cfg1

/-- Replace it. -/
def putCfg (a : Nat) (c : Option CfgBlock) (s : State) : State :=
  modNv (fun n => if a = 0 then { n with cfg0 := c } else { n with cfg1 := c }) s

/-- The block in force this boot. -/
def cfgNow (s : State) : Option CfgBlock := if s.boot.configApplied then cfgArea s s.boot.cfgArea else none

/-- Flags word of the block in force: SERVICE, SELF_CONFIRM, HOST_OWNER. -/
def cfgFlag (s : State) (n : Nat) : Bool :=
  match cfgNow s with
  | some c => bit (leAt c.bytes 0x40 4) n
  | none => false

/-- PKG_MIN_SVN of the block in force. -/
def pkgMinSvn (s : State) : Nat := match cfgNow s with | some c => leAt c.bytes 0x44 4 | none => 0

/-- Both blocks of a conversion are kept (R487). -/
def cfgPairKept (s : State) : Bool :=
  match s.nv.cfg0, s.nv.cfg1 with
  | some a, some b => a.derived || b.derived
  | _, _ => false

/-- R483: a committed configuration image goes to the area that does not hold the block in force. -/
def commitCfg (b : List Byte) (s : State) : State :=
  let a := if s.boot.configApplied then 1 - s.boot.cfgArea else 0
  saveRecord 0 <| modNv (fun n => { n with updState := 0 })
    (putCfg a (some { ver := leAt b 4 4, fmt := bits (leAt b 16 4) 15 0, derived := false, bytes := b }) s)

/-! ### Trial and confirmation (R484, R485) -/

/-- Run seconds in trial so far. -/
def runSecs (s : State) : Nat := s.nv.runSeconds + (s.now - s.boot.trialStored) / 1000000000

/-- Seconds left, in TRIAL only. -/
def secondsLeft (s : State) : Nat := if s.nv.updState = 3 then 600 - runSecs s else 0

/-- Boots left, in TRIAL only. -/
def bootsLeftNow (s : State) : Nat := if s.nv.updState = 3 then s.nv.bootsLeft else 0

/-- R487: at confirmation the old-format block of a conversion is erased. -/
def dropOldCfg (s : State) : State :=
  if cfgPairKept s && s.boot.configApplied then putCfg (1 - s.boot.cfgArea) none s else s

/-- R485: confirm the running image. -/
def confirmImage (s : State) : State :=
  let burned := s.boot.runningSvn - s.nv.svnFuses
  logBoot 0x0301 s.boot.runningSvn burned
    (dropOldCfg (saveRecord 0 (modNv (fun n => { n with svnFuses := n.svnFuses + burned, updState := 0 }) s)))

/-! ### Service packages (R376, R377, R486) -/

/-- Bytes of a package slot; erased flash reads 0xFF (PRESUMED). -/
def pkgByte (s : State) (slot a : Nat) : Byte := tget (0xFF : Byte) (if slot = 0 then s.nv.pkg0 else s.nv.pkg1) a

/-- `n` bytes of a package slot. -/
def pkgBytes (s : State) (slot a n : Nat) : List Byte := (List.range n).map (fun i => pkgByte s slot (a + i))

/-- A 32-bit word of a package. -/
def pkgW (s : State) (slot k : Nat) : Nat := leNat (pkgBytes s slot (4 * k) 4)

/-- Length in words a packet's word 0 gives it: a LENGTH of 0 or above 16 is read as 16 (R379). -/
def packetWords (w0 : Nat) : Nat :=
  let n := bits w0 23 16
  4 * (if n = 0 ∨ 16 < n then 16 else n)

/-- The packets of a command list. -/
def pkgPackets (s : State) (slot : Nat) : Nat → Nat → List (List Word)
  | 0, _ => []
  | c + 1, a =>
    let n := packetWords (leNat (pkgBytes s slot a 4))
    (List.range n).map (fun i => BitVec.ofNat 32 (leNat (pkgBytes s slot (a + 4 * i) 4))) :: pkgPackets s slot c (a + 4 * n)

/-- Bytes of a command list. -/
def pkgListBytes (s : State) (slot : Nat) : Nat → Nat → Nat
  | 0, _ => 0
  | c + 1, a =>
    let n := 4 * packetWords (leNat (pkgBytes s slot a 4))
    n + pkgListBytes s slot c (a + n)

/-- R376: the status of a package: OK, PARAM_INVALID, SIG_INVALID or SVN_LOW. -/
def pkgCheck (s : State) (slot : Nat) : Nat :=
  let w := pkgW s slot
  let sig := w 8
  if bits (w 0) 15 0 ≠ 1 ∨ bits (w 0) 31 18 ≠ 0 ∨ w 2 % 16 ≠ 0 ∨ w 2 < 64 ∨ w 3 = 0 ∨ 65535 < w 3 ∨ w 4 % 512 ≠ 0 ∨
     201326592 < w 5 ∨ bits (w 7) 31 16 ≠ 0 ∨ 0x10000000 < sig + 2420 ∨ sig < w 4 + w 5 ∨
     (List.range 7).any (fun i => w (9 + i) != 0) then 0x02
  else if sig < w 2 + pkgListBytes s slot (w 3) (w 2) then 0x02
  else match s.sec.cred with
    | none => 0x31
    | some c =>
      let k := bits (w 0) 17 16
      if !(credHas c k && dsaVerify (credKey c k) (pkgBytes s slot 0 sig) (pkgBytes s slot sig 2420)) then 0x31
      else if w 1 < pkgMinSvn s then 0x32 else 0

/-- R376, R377: load the service package when SERVICE is set: the data section is copied, the command list waits. -/
def loadService (s : State) : State :=
  if !cfgFlag s 0 then s
  else
    let slot := s.nv.pkgNext
    let w := pkgW s slot
    let dest := w 6 + 2 ^ 32 * bits (w 7) 15 0
    if pkgCheck s slot ≠ 0 ∨ !(w 5 == 0 || hbmGrant s 32 dest (w 5)) then
      addLog 0x0017 32 0xFFFF 0 0 0 (modBoot (fun b => { b with serviceStopped := true }) s)
    else modBoot (fun b => { b with
        service := pkgPackets s slot (w 3) (w 2), serviceAt := 0, serviceStopped := false
        pkgDigest := some (sha3 (pkgBytes s slot 0 (w 8))) })
      (freshLines dest (w 5) { s with mem := hbmPuts s dest (pkgBytes s slot (w 4) (w 5)) })

/-- The package slot the next boot does not use. -/
def pkgTarget (s : State) : Nat := 1 - s.nv.pkgNext

/-- Replace a package slot's contents. -/
def putPkg (slot : Nat) (t : Tab Byte) (s : State) : State :=
  modNv (fun n => if slot = 0 then { n with pkg0 := t } else { n with pkg1 := t }) s

/-- R486: program four bytes at a package offset; none of them erased since the last ERASE, or a window that is BUSY,
drops the write. -/
def pkgProgram (rq a v : Nat) (s : State) : State :=
  let slot := pkgTarget s
  let key := slot * 0x10000000 + a
  if s.boot.pkgBusy ≠ 0 ∨ ¬ s.nv.pkgErased.contains slot ∨ 0x10000000 ≤ a ∨ tget false s.boot.pkgDirty key then
    countDenied rq s
  else modBoot (fun b => { b with pkgDirty := tset false b.pkgDirty key true })
    (putPkg slot ((leBytes 4 v).zipIdx.foldl (fun t e => tset (0xFF : Byte) t (a + e.2) e.1)
      (if slot = 0 then s.nv.pkg0 else s.nv.pkg1)) s)

/-- R486: a write of BOOT_PKG_CTRL: ERASE and COMMIT start while not BUSY; ERASE goes first (DESIGN CHOICE). -/
def pkgCtrl (rq v : Nat) (s : State) : State :=
  if !bit v 0 && !bit v 1 then s
  else if s.boot.pkgBusy ≠ 0 then countDenied rq s
  else modBoot (fun b => { b with pkgBusy := if bit v 0 then 1 else 2 }) s

/-- R486: the erase ends. -/
def pkgEraseEnd (s : State) : State :=
  if s.boot.pkgBusy = 1 then
    let slot := pkgTarget s
    modBoot (fun b => { b with pkgBusy := 0, pkgDirty := tdrop b.pkgDirty (fun k => k / 0x10000000 == slot) })
      (modNv (fun n => { n with pkgErased := slot :: n.pkgErased.filter (· != slot) }) (putPkg slot [] s))
  else s

/-- R486: the verification ends; on success the slot is the next boot's. -/
def pkgCommitEnd (s : State) : State :=
  if s.boot.pkgBusy = 2 then
    let slot := pkgTarget s
    let r := pkgCheck s slot
    let s1 := modBoot (fun b => { b with pkgBusy := 0, pkgResult := r }) s
    if r = 0 then modNv (fun n => { n with pkgNext := slot }) s1 else s1
  else s

/-! ### Commands -/

/-- R486. -/
def execPkgEraseDone (s : State) : Host.Outcome State Fault Refusal := act true s pkgEraseEnd

/-- R486. -/
def execPkgCommitDone (s : State) : Host.Outcome State Fault Refusal := act true s pkgCommitEnd

end Sys2Proof.Machine
end

