-- ==== Sys2Proof/Machine/Golden.lean ====
section
/-! DEFINITION. The Safety Island's own events: check intervals (R427 to R434), verdicts of golden runs (R431, R435,
R436), camera-ready (R439), heartbeat, repeated safety records, lockstep and clock monitors (R425, R442, R444). -/

namespace Sys2Proof.Machine

/-- The engine golden runs are kept under and the tensor engine named: an N-core's tensor engine stands for the core. -/
def goldenName (e : Nat) : Nat × Option Nat :=
  if e / 0x4000 = 0 ∧ e % 64 < 32 then (e / 64 * 64 + 32, some (e % 64)) else (e, none)

/-- Change the Safety Island. -/
def modSaf (f : Saf → Saf) (s : State) : State := { s with saf := f s.saf }

/-! ### Camera-ready (R439, R480) -/

/-- Every available engine has passed its first golden run, and no class is empty. -/
def bootPassed (s : State) : Bool :=
  !s.saf.ready && s.saf.cause == 0x0A && s.saf.selfTested && !s.saf.selfFailed &&
  goldenEngines.all (fun e => !engAvail s e || (engSt s e).firstDone) && !classEmpty s

/-- R439, R480, R484: the device leaves safe state: READY, SAFE_N high, PHASE 3; the service package is loaded, and a
trial image whose configuration says SELF_CONFIRM is confirmed. -/
def cameraReady (s : State) : State :=
  if bootPassed s then
    let s1 := modSaf (fun x => { x with safe := false, ready := true, cause := 0, safeN := true }) s
    let s2 := modBoot (fun b => { b with phase := 3, readyMs := (s.now - b.releasedAt) / 1000000 }) s1
    let s3 := loadService s2
    if s3.nv.updState = 3 ∧ runSecs s3 < 600 ∧ cfgFlag s3 1 then confirmImage s3 else s3
  else s

/-! ### Verdicts -/

/-- R432: the golden run of an interval has passed: what the engine holds back is released.  A verdict that comes after its
interval finds the interval UNCHECKED (R433). -/
def goldenPass (e iv : Nat) (s : State) : State :=
  let s1 := modEng e (fun x => { x with firstDone := true }) s
  if iv = intervalAt s then releaseHeld e iv 0 (modEng e (fun x => { x with passed := true }) s1) else s1

/-- R435: outputs of an interval carry INVALID, held completions before their release. -/
def markBad (e iv : Nat) (s : State) : State :=
  if iv = intervalAt s then
    modSeq (fun q => { q with held := q.held.map (fun h =>
      if h.wait.contains e ∧ h.iv = iv then { h with run := { h.run with flags := h.run.flags ||| fInvalid } } else h) })
      (modEng e (fun x => { x with bad := some iv }) s)
  else s

/-- R436: a range-check failure starts the repeat, as a disagreement would. -/
def rangeFail (e : Nat) (s : State) : State :=
  if (engSt s e).fenced then s
  else startGolden e (modEng e (fun x => { x with again := 2, againInt := intervalAt s }) (markBad e (intervalAt s) s))

/-- R435, R467: an engine has failed. -/
def engFail (e : Nat) (te : Option Nat) (iv elems reason : Nat) (s : State) : State :=
  fence e te reason (addLog 0x0101 63 e iv elems 0 (cnt R.safEngFail e 1 s))

/-- R435, R436: a repeat has given its verdict. -/
def repeatDone (e : Nat) (te : Option Nat) (iv : Nat) (range : Bool) (n : Nat) (s : State) : State :=
  let s1 := if range then addLog 0x0104 63 e iv (b2n (n != 0)) 0 s else s
  let reason := if range then 2 else 1
  if n ≠ 0 then engFail e te iv n reason s1
  else
    let elems := if range then 0 else (engSt s e).elems
    let tr := (engSt s e).transients.filter (fun i => decide (iv < i + 1000)) ++ [iv]
    let s2 := modEng e (fun x => { x with transients := tr })
      (addLog 0x0102 63 e iv elems 0
        (rput R.safStat 0 (rget s1 R.safStat 0 ||| 8)
          (modSaf (fun x => { x with transientCount := x.transientCount + 1, sslTransient := true })
            (cnt R.safEngTransient e 1 s1))))
    if 3 ≤ tr.length then engFail e te iv elems reason s2
    else if range then s2 else goldenPass e iv s2

/-- R431, R435: a golden run gives its verdict; `n` elements of a run that disagrees lie outside tolerance, 0 says
that it passed. -/
def goldenDone (name n : Nat) (s : State) : State :=
  let e := (goldenName name).1
  let x := engSt s e
  match x.running with
  | none => s
  | some iv =>
    if s.pwr.waking.contains e then s
    else
      let s1 := modEng e (fun x => { x with running := none }) s
      let s2 :=
        if x.runKind ≠ 0 then repeatDone e (goldenName name).2 iv (x.runKind == 2) n s1
        else if n = 0 then goldenPass e iv s1
        else modEng e (fun x => { x with again := 1, againInt := iv, elems := n }) (markBad e iv s1)
      settle (cameraReady (startGolden e s2))

/-! ### Check intervals -/

/-- R433: the ended interval of one engine. -/
def endInterval (iv : Nat) (s : State) (e : Nat) : State :=
  let x := engSt s e
  if x.fenced || !engAvail s e then releaseHeld e iv fUnchecked s
  else if x.passed then
    modEng e (fun x => { x with last := if x.transients.contains iv then 1 else 0, streak := 0 }) s
  else
    let s1 := addLog 0x0103 63 e iv (b2n (x.streak != 0)) 0
      (cnt R.safEngUnchecked e 1 (modEng e (fun x => { x with last := 2, streak := x.streak + 1 }) s))
    let s2 := releaseHeld e iv fUnchecked s1
    if 1 ≤ x.streak then enterSafe 0x02 e s2 else s2

/-- R429: the golden run of a new interval waits for an engine. -/
def placeGolden (s : State) (e : Nat) : State :=
  if engAvail s e && !(engSt s e).fenced then
    startGolden e (modEng e (fun x => { x with pending := true, passed := false }) s)
  else modEng e (fun x => { x with passed := false }) s

/-- R427, R429, R433, R458: an interval begins.  One that lay wholly in SLEEP is neither passed nor UNCHECKED, and one
that begins in SLEEP makes no golden run until the device wakes. -/
def intervalStart (s : State) : State :=
  if s.saf.intervals = 0 ∨ s.now < s.saf.intEnd then s
  else
    let asleep := s.pwr.st == .sleep
    let s1 := modSaf (fun x => { x with
      intervals := x.intervals + 1, intStart := x.intEnd, intLen := intervalNs s, intEnd := x.intEnd + intervalNs s,
      slept := asleep }) s
    let s2 := if s.saf.slept then s1 else goldenEngines.foldl (endInterval (intervalNow s)) s1
    settle (if asleep then goldenEngines.foldl (fun s e => modEng e (fun x => { x with passed := false }) s) s2
            else goldenEngines.foldl placeGolden s2)

/-- R458: waking from SLEEP places the golden runs of the interval in progress. -/
def wakeGolden (s : State) : State :=
  if s.saf.slept then goldenEngines.foldl placeGolden (modSaf (fun x => { x with slept := false }) s) else s

/-! ### Heartbeat, records, monitors -/

/-- R442: SAFE_HB toggles at each multiple of 500,000 ns out of safe state. -/
def hbToggle (s : State) : State :=
  if s.saf.ready && !s.saf.safe && s.now % 500000 == 0 then modSaf (fun x => { x with hb := !x.hb }) s else s

/-- R444: the record is repeated every 100 ms while safe state lasts. -/
def recordRepeat (s : State) : State :=
  if s.saf.safe && decide (0 < s.saf.recSends) && decide (s.saf.lastRec + 100000000 ≤ s.now) then settle (sendSafety s)
  else s

/-! ### Commands -/

/-- R427, R433. -/
def execCheckIntervalStart (s : State) : Host.Outcome State Fault Refusal := act true s intervalStart

/-- R431, R435. -/
def execGoldenRunDone (engine disagree : Nat) (s : State) : Host.Outcome State Fault Refusal :=
  act (goldenUnit engine) s (goldenDone engine disagree)

/-- R442. -/
def execSafeHbToggle (s : State) : Host.Outcome State Fault Refusal := act true s hbToggle

/-- R444. -/
def execSafetyRecordRepeat (s : State) : Host.Outcome State Fault Refusal := act true s recordRepeat

/-- R425: the sequencer's processors disagree: safe state, cause 0x03, and no further dispatch. -/
def execScpLockstepMismatch (s : State) : Host.Outcome State Fault Refusal :=
  act true s (fun s => enterSafe 0x03 (engU 0x00 0) (haltSequencer s))

/-- R425: the Safety Island's processors disagree. -/
def execSiLockstepMismatch (s : State) : Host.Outcome State Fault Refusal :=
  act true s (enterSafe 0x04 (engU 0x0B 0))

/-- R425: a clock is more than 5 percent from nominal for 2 µs. -/
def execClockFault (s : State) : Host.Outcome State Fault Refusal := act true s (enterSafe 0x07 0xFFFF)

end Sys2Proof.Machine
end

