-- ==== Sys2Proof/Machine/Ssl.lean ====
section
/-! DEFINITION. The Safety Status Link (R445 to R448): the status word latched as SSL_CS_N falls, the commands applied
as it rises. -/

namespace Sys2Proof.Machine

/-- R447: any engine's last ended interval was UNCHECKED. -/
def anyUnchecked (s : State) : Bool := goldenEngines.any (fun e => (engSt s e).last == 2 && !(engSt s e).fenced)

/-- R448: highest reading of the last second, in °C + 64, saturated to a byte; 0 without one (DEDUCED). -/
def hottest (s : State) : Nat :=
  match (s.pwr.tempLog.filter (fun e => decide (s.now < e.1 + 1000000000))).map (fun e => e.2.2) with
  | [] => 0
  | t :: r => (clampI 0 255 (r.foldl max t + 64)).toNat

/-- Smallest number of spare tensor engines left in any N-core. -/
def teMin (s : State) : Nat := s.nv.spareTe.foldl min (s.nv.spareTe.headD 0)

/-- R448: a detail byte. -/
def sslDetail (s : State) (i : Nat) : Nat :=
  if i = 0 then (if s.saf.safe then s.saf.cause else 0)
  else if i = 1 then s.saf.causeEng / 256 % 256
  else if i = 2 then s.saf.causeEng % 256
  else if i = 3 then min s.saf.transientCount 255
  else if i = 4 then s.nv.spareNcore
  else if i = 5 then s.nv.spareVcore
  else if i = 6 then s.nv.spareIcore
  else if i = 7 then teMin s
  else if i = 8 then hottest s
  else if i = 9 then intervalNs s / 1000000
  else 0

/-- R447: bits [31:8] of the status word. -/
def sslStatus (s : State) : Nat :=
  s.saf.sslFrames % 16 * 2 ^ 20 + b2n s.saf.safe * 2 ^ 19 + b2n s.saf.ready * 2 ^ 18 + b2n (anyUnchecked s) * 2 ^ 17 +
  b2n s.saf.sslTransient * 2 ^ 16 + sslDetail s s.saf.sslSel % 256 * 2 ^ 8 + s.saf.intervals % 128 * 2 +
  b2n s.saf.sslErr

/-- R445: SSL_CS_N falls: the status word is latched and goes out; the count includes this frame (DEDUCED). -/
def sslLatch (s : State) : State :=
  let s1 := modSaf (fun x => { x with sslFrames := x.sslFrames + 1 }) s
  emit (.ssl (BitVec.ofNat 32 (sslStatus s1 * 256 + crc8 (sslStatus s1)))) s1

/-- A frame without effect (R446). -/
def sslBad (s : State) : State := cnt R.safSslErr 0 1 (modSaf (fun x => { x with sslErr := true }) s)

/-- NOP. -/
def sslOk (s : State) : State := modSaf (fun x => { x with sslErr := false }) s

/-- SELECT. -/
def sslSel (i : Nat) (s : State) : State := modSaf (fun x => { x with sslSel := i, sslErr := false }) s

/-- ACK_TRANSIENT. -/
def sslAck (s : State) : State := modSaf (fun x => { x with sslTransient := false, sslErr := false }) s

/-- The value of bits sent most significant first. -/
def frameVal (l : List Bool) : Nat := l.foldl (fun v b => 2 * v + b2n b) 0

/-- R446: a frame of any bits, most significant first: one of 32 bits whose CRC agrees and whose CMD and ARG are
those of a command is that command; any other has no effect.  Set ARG bits that a command does not use are a reserved
encoding (DEDUCED). -/
def sslFrame (l : List Bool) (s : State) : State :=
  let v := frameVal l
  if l.length ≠ 32 ∨ crc8 (v / 256) ≠ v % 256 then sslBad s
  else
    let cmd := bits v 31 24
    let arg := bits v 23 8
    if cmd = 0 ∧ arg = 0 then sslOk s
    else if cmd = 1 ∧ arg < 256 then sslSel arg s
    else if cmd = 2 ∧ arg = 0 then sslAck s
    else sslBad s

/-! ### Commands -/

/-- R445. -/
def execSslCsFall (s : State) : Host.Outcome State Fault Refusal := act true s sslLatch

/-- R446. -/
def execSslNop (s : State) : Host.Outcome State Fault Refusal := act true s sslOk

/-- R446: ARG bits [7:0]. -/
def execSslSelect (index : Nat) (s : State) : Host.Outcome State Fault Refusal :=
  act (decide (index < 256)) s (sslSel index)

/-- R446. -/
def execSslAckTransient (s : State) : Host.Outcome State Fault Refusal := act true s sslAck

/-- R446. -/
def execSslBadFrame (frame : List Bool) (s : State) : Host.Outcome State Fault Refusal := act true s (sslFrame frame)

end Sys2Proof.Machine
end

