-- ==== Sys2Proof/Machine/Boot.lean ====
section
/-! DEFINITION. Resets and the boot chain (R463, R465, R470, R471, R478 to R487, R496, R505): what a reset keeps, the
loader's steps, the selection of image and configuration, trial and fall-back. -/

namespace Sys2Proof.Machine

/-! ### What a reset keeps -/

/-- The bytes of `[lo, hi)` are unrecoverable: what stands there is free. -/
def loseRange (d lo hi : Nat) (m : List Host.Cell) : List Host.Cell :=
  m.filterMap (fun c =>
    if lo ≤ c.1 ∧ c.1 < hi then
      (if Config.lostByte d c.1 = 0 then none else some (c.1, Config.lostByte d c.1))
    else some c)

/-- A reset of everything outside the always-on domain: device time, PCIE_BIF, fuses and flash stay.  What memory
then holds is not given: its listed bytes are free.  A tensor engine awaiting its spare goes on waiting. -/
def coldReset (s : State) : State :=
  { State.reset with
    pending := s.pending
    now := s.now
    powered := s.powered
    held := s.held
    bifurcated := s.bifurcated
    mem := loseRange s.free 0 (2 ^ 48) s.mem
    host0 := s.host0
    host1 := s.host1
    nv := s.nv
    out := s.out
    free := s.free + 1
    pwr := { pwrReset with teWait := s.pwr.teWait ++ s.pwr.teArmed }
    boot := { bootReset with pkgDirty := s.boot.pkgDirty }
    dice := { diceReset with locked := s.dice.locked } }

/-- Power removed: the fuses, the flash and what lies outside the device stay. -/
def unpowered (s : State) : State :=
  { State.reset with
    pending := s.pending
    powered := false
    held := 0
    host0 := s.host0
    host1 := s.host1
    nv := s.nv
    out := s.out
    free := s.free
    pwr := { pwrReset with teWait := s.pwr.teWait ++ s.pwr.teArmed }
    boot := { bootReset with pkgDirty := s.boot.pkgDirty } }

/-! ### The loader: repair log (R470, R471, R481) -/

/-- R481: entries whose CRC disagrees are skipped and logged. -/
def checkRepairLog (s : State) : State :=
  s.nv.repairLog.zipIdx.foldl (fun s e =>
    if wd e.1 7 = crc32c (wordsBytes (e.1.take 7)) then s else logBoot 0x0304 e.2 0 s) s

/-- A unit without a working spare stays out of service. -/
def maskUnit (e : Nat) (s : State) : State :=
  let kind := e / 0x4000
  let s1 := (fenceGroup e).foldl (fun s x => modEng x (fun y => { y with fenced := true }) s)
    (modEng e (fun y => { y with last := 3 }) s)
  if kind < 3 then setAvail kind (bits e 13 6) false s1 else s1

/-- R466, R468: spares queued for the boot take their units' indices. -/
def bootSpares (s : State) : State :=
  let s1 := s.nv.fenced.foldl (fun s e => logRepair 2 1 e 0 (Config.physOf (e + 65536) % 2 ^ 32) (substitute e s)) s
  let s2 := modNv (fun n => { n with fenced := [] }) s1
  s2.pwr.teWait.foldl (fun s c => maskUnit (engN c 32) s) (s2.nv.lost.foldl (fun s e => maskUnit e s) s2)

/-- R286: queued rows are repaired; rows retired before stay so (R287). -/
def bootRows (s : State) : State :=
  let s1 := s.nv.rowQueue.foldl (fun s r => modNv (fun n => { n with
    rowSubs := tset none n.rowSubs (128 * groupOf r.1 + tget 0 n.rowSpares (groupOf r.1)) (some r.1)
    rowSpares := tset 0 n.rowSpares (groupOf r.1) (tget 0 n.rowSpares (groupOf r.1) + 1) }) s) s
  modNv (fun n => { n with rowQueue := [] }) s1

/-- R470: queued HBM rows are repaired where their stack has a resource, and otherwise retired. -/
def bootHbm (s : State) : State :=
  let s1 := s.nv.hbmQueued.foldl (fun s a =>
    if Config.hbmSpare a s.nv.hbmRepaired then
      logRepair 7 4 0xFFFF a 0 (modNv (fun n => { n with hbmRepaired := n.hbmRepaired + 1 }) s)
    else logRepair 8 4 0xFFFF a 0xFFFFFFFF (modNv (fun n => { n with hbmRetired := n.hbmRetired ++ [a] }) s)) s
  modNv (fun n => { n with hbmQueued := [] }) s1

/-! ### The loader: update state (R482 to R484, R487) -/

/-- R487: at a fall-back a derived block is erased. -/
def dropDerived (s : State) : State :=
  let keep := fun (c : Option CfgBlock) => c.filter (fun b => !b.derived)
  modNv (fun n => { n with cfg0 := keep n.cfg0, cfg1 := keep n.cfg1 }) s

/-- R484: the keep slot is copied over the active slot. -/
def fallBack (reason : Nat) (s : State) : State :=
  let svn := match s.nv.keep with | some k => k.svn | none => 0
  logBoot 0x0302 reason svn (saveRecord 0 (dropDerived (modNv (fun n => { n with active := n.keep, updState := 4 }) s)))

/-- R482, R483: phase 1: the active image is copied to the keep slot, unless it is there already. -/
def keepCopy (s : State) : State :=
  if s.nv.keep = s.nv.active then s else modNv (fun n => { n with keep := n.active }) (saveRecord 1 s)

/-- R483: a PENDING image is installed: phase 1, then phase 2 writes it over the active slot. -/
def install (s : State) : State :=
  if s.nv.updState = 2 then
    match s.nv.staged with
    | some i =>
      logBoot 0x0300 i.svn i.bytes.length (saveRecord 0 (modNv (fun n => { n with
        active := some i, updState := 3, bootsLeft := 3, runSeconds := 0 }) (saveRecord 2 (keepCopy s))))
    | none => s
  else s

/-- R484: a boot in TRIAL. -/
def trialBoot (s : State) : State :=
  if s.nv.updState = 3 then
    (if s.nv.bootsLeft = 0 then fallBack 1 s
     else if 600 ≤ s.nv.runSeconds then fallBack 2 s
     else saveRecord 0 (modNv (fun n => { n with bootsLeft := n.bootsLeft - 1 }) s))
  else s

/-- R479: what keeps a slot's image from booting: SIG_INVALID for no image that verifies, SVN_LOW, or 0. -/
def slotFault (s : State) (i : Option Image) : Nat :=
  match i with
  | some x => if !imageHolds s x then 0x31 else if x.svn < s.nv.svnFuses then 0x32 else 0
  | none => 0x31

/-! ### Configuration selection (R487) -/

/-- R487: a derived block's HMAC under the key that CDI1 gives. -/
def cfgMac (s : State) (body : List Byte) : List Byte :=
  hmac (hkdfExpand (s.dice.cdi1.getD []) (ascii "CFGMAC") 32) body

/-- A configuration block is valid: signed by an Owner key of the credentials in force, or derived, with its HMAC, from
a block that remains, or that was erased at confirmation. -/
def cfgValid (s : State) (a : Nat) (c : CfgBlock) : Bool :=
  match s.sec.cred with
  | none => false
  | some _ =>
    if c.derived then
      c.bytes.drop (c.bytes.length - 32) == cfgMac s (c.bytes.take (c.bytes.length - 32)) &&
      (match cfgArea s (1 - a) with
       | some o => o.derived || o.ver == c.ver
       | none => true)
    else imageHeader c.bytes c.bytes.length == 0 && imageSigned s c.bytes

/-- The valid blocks as area and block. -/
def cfgCands (s : State) : List (Nat × CfgBlock) :=
  [0, 1].filterMap (fun a => match cfgArea s a with
    | some c => if cfgValid s a c then some (a, c) else none
    | none => none)

/-- The candidate of the higher CFG_VER. -/
def bestCfg (l : List (Nat × CfgBlock)) : Option (Nat × CfgBlock) :=
  l.foldl (fun r c => match r with
    | some x => if x.2.ver < c.2.ver then some c else r
    | none => some c) none

/-- R487: select the block in force for the running image; a trial image converts one of another format. -/
def selectCfg (fmt : Nat) (s : State) : State :=
  let inForce := fun (a : Nat) (s : State) => modBoot (fun b => { b with cfgArea := a, configApplied := true }) s
  match bestCfg ((cfgCands s).filter (fun c => c.2.fmt == fmt)) with
  | some c => inForce c.1 s
  | none =>
    match bestCfg (cfgCands s) with
    | some c =>
      if s.nv.updState = 3 then
        let body := Config.convertCfg fmt c.2.bytes
        inForce (1 - c.1) (putCfg (1 - c.1) (some {
          ver := c.2.ver, fmt := fmt, derived := true, bytes := body ++ cfgMac s body }) s)
      else s
    | none => s

/-! ### Layered identity (R396) -/

def modDice (f : Dice → Dice) (s : State) : State := { s with dice := f s.dice }

/-- The seed of a layer's key pair: HKDF-Expand of its compound secret over the label's characters. -/
def seedOf (secret : List Byte) (label : String) : List Byte :=
  hkdfExpand secret (ascii label) 32

/-- L0: the ROM forms the unique device secret and the DeviceID key, and locks both sources. -/
def diceRom (d : Dice) : Dice :=
  let uds := sha3 (Config.otpSecret ++ Config.pufResponse)
  { d with locked := true, uds := some uds, deviceKey := some (dsaKeys (seedOf uds "DEVICEID")).2 }

/-- L1: the ROM measures the loader; its alias key is certified by the DeviceID key with the fused version (R397). -/
def diceLoader (svn : Nat) (rnd : List Byte) (d : Dice) : Dice :=
  let m := sha3 Config.loaderImage
  let c := hkdfExtract (d.uds.getD []) m
  let k := dsaKeys (seedOf c "ALIAS1")
  { d with cdi1 := some c, alias1 := some k.2, pub1 := k.1, m1 := m, svn := svn
           cert1 := aliasCert 1 k.1 svn [m] (d.deviceKey.getD []) rnd }

/-- L2: the loader measures image and configuration and certifies the alias key with its own; the lower layers' secrets
and private keys are erased.  Identity key slot 0 holds the alias key, slots 1 to 15 firmware keys (R404). -/
def diceFirmware (image cfg rnd : List Byte) (d : Dice) : Dice :=
  let m := sha3 image ++ sha3 cfg
  let c := hkdfExtract (d.cdi1.getD []) m
  let k := dsaKeys (seedOf c "ALIAS2")
  { d with cdi2 := some c, slot0 := some k.2, pub2 := k.1, m2 := m
           cert2 := aliasCert 2 k.1 d.svn [sha3 image, sha3 cfg] (d.alias1.getD []) rnd
           fwKeys := (List.range 15).map Config.identityKey
           uds := none, deviceKey := none, cdi1 := none, alias1 := none }

/-- A configuration area's bytes. -/
def cfgBytes (c : Option CfgBlock) : List Byte := match c with | some b => b.bytes | none => []

/-! ### The boot chain (R478 to R480) -/

/-- R415: the loader puts a credential block in force; a claimed device without one is locked. -/
def loadCreds (s : State) : State :=
  let cred := bootCred s
  modSec (fun x => { x with cred := cred, locked := s.nv.credFuses != 0 && cred.isNone }) s

/-- The firmware starts: the running image, the table of an unclaimed device, the service-mode tenant's memory key, the
configuration (its derived blocks are bound by CDI1, R487), the identity of layer 2 (R396). -/
def startFirmware (i : Image) (s : State) : State :=
  let s1 := modBoot (fun b => { b with
    phase := 2, runningSvn := i.svn, trialStored := s.now,
    keepSvn := match s.nv.keep with | some k => if imageHolds s k then k.svn else 0xFF | none => 0xFF }) s
  let s2 := draw (modSec (fun x => { x with
    hostOwner := s.nv.credFuses == 0, table := defaultTable, shadow := defaultTable,
    slots := tset none x.slots 16 (some (memoryKey s 32)) }) s1)
  draw (modDice (diceFirmware i.bytes (cfgBytes s.nv.cfg0 ++ cfgBytes s.nv.cfg1) (randBytes s2.free 0 32))
    (selectCfg i.cfgFmt s2))

/-- R479: neither slot qualifies: the loader alone runs. -/
def enterRecovery (s : State) : State :=
  logBoot 0x0306 0 0 (modBoot (fun b => { b with phase := 4 }) (saveRecord 0 (modNv (fun n => { n with updState := 5 }) s)))

/-- R479: the active slot, else the keep slot, else recovery. -/
def selectImage (s : State) : State :=
  if slotFault s s.nv.active = 0 then
    (match s.nv.active with | some i => startFirmware i s | none => s)
  else
    let s1 := logBoot 0x0303 0 (slotFault s s.nv.active) s
    if slotFault s s.nv.keep = 0 then
      (match s.nv.keep with
       | some i => startFirmware i (modBoot (fun b => { b with keepBoot := true }) s1)
       | none => s1)
    else enterRecovery (logBoot 0x0303 1 (slotFault s s.nv.keep) s1)

/-- R503, R396: before the ROM's first read of flash BOOT_RESET_N pulses low; the ROM forms the device's secret. -/
def romStart (s : State) : State :=
  modDice diceRom (emit (.bootReset true) (emit (.bootReset false) (modBoot (fun b => { b with releasedAt := s.now }) s)))

/-- R478: the ROM verifies the loader, which applies the repair log, puts the credentials in force (R415), finishes an
update step and selects the image. -/
def bootChain (s : State) : State :=
  let s1 := romStart s
  if !s1.nv.loaderOk then s1
  else
    let s2 := bootHbm (bootRows (bootSpares (checkRepairLog (modDice (diceLoader s.nv.svnFuses (randBytes s1.free 0 32))
      (modBoot (fun b => { b with phase := 1 }) (draw s1))))))
    selectImage (trialBoot (install (loadCreds s2)))

/-- The device resets itself. -/
def reboot (s : State) : State := bootChain (coldReset s)

/-! ### Resets -/

/-- Hold everything outside the always-on domain in reset for a reason: 1 RESET_N, 2 a supply, 4 THERMTRIP_N. -/
def holdReset (b : Nat) (s : State) : State :=
  if !s.powered then s
  else if s.held = 0 then { coldReset s with held := b }
  else { s with held := s.held ||| b }

/-- A reason ends; with the last one the device boots. -/
def freeReset (b : Nat) (s : State) : State :=
  if !s.powered then s
  else if s.held = 0 then (if b = 1 ∧ s.boot.phase = 0 then bootChain s else s)
  else
    let h := s.held - (s.held &&& b)
    let s1 := { s with held := h }
    if h = 0 then bootChain s1 else s1

/-- R463, R497: a rail below set point − 8 percent; with RESET_N low no entry is logged. -/
def supplyLow (s : State) : State :=
  if !s.powered || bit s.held 1 then s
  else if bit s.held 0 then holdReset 2 s
  else addLog 0x0201 63 pwrEng 0 0 0 (holdReset 2 s)

/-- R465: THERMTRIP_N goes low 2 ms after the trip. -/
def thermtrip (s : State) : State :=
  match s.pwr.tripAt with
  | some t => if t ≤ s.now then
      let r := holdReset 4 s
      { r with pwr := { r.pwr with thermtrip := true } }
    else s
  | none => s

/-- R27, R352, R496: the always-on domain powers up, with RESET_N low. -/
def powerUp (two : Bool) (s : State) : State :=
  if s.powered then s else { unpowered s with powered := true, held := 1, bifurcated := two }

/-- R484: the stored count of run seconds advances by 10 s. -/
def storeTrial (s : State) : State :=
  if s.nv.updState = 3 ∧ s.boot.trialStored + 10000000000 ≤ s.now ∧ (s.boot.phase = 2 ∨ s.boot.phase = 3) then
    modBoot (fun b => { b with trialStored := b.trialStored + 10000000000 })
      (saveRecord 0 (modNv (fun n => { n with runSeconds := min 600 (n.runSeconds + 10) }) s))
  else s

/-- R484: at 600 run seconds the device resets itself. -/
def trialExpire (s : State) : State :=
  if s.nv.updState = 3 ∧ 600 ≤ runSecs s ∧ (s.boot.phase = 2 ∨ s.boot.phase = 3) then
    reboot (saveRecord 0 (modNv (fun n => { n with runSeconds := 600 }) s))
  else s

/-! ### Commands -/

/-- R27, R352. -/
def execAonPowerUp (bifurcated : Bool) (s : State) : Host.Outcome State Fault Refusal :=
  onObject true s (powerUp bifurcated)

/-- R497. -/
def execPowerOff (s : State) : Host.Outcome State Fault Refusal := onObject true s unpowered

/-- R505. -/
def execResetAssert (s : State) : Host.Outcome State Fault Refusal := onObject true s (holdReset 1)

/-- R478, R505. -/
def execResetRelease (s : State) : Host.Outcome State Fault Refusal := onObject true s (freeReset 1)

/-- R463. -/
def execSupplyReset (s : State) : Host.Outcome State Fault Refusal := onObject true s supplyLow

/-- R463. -/
def execSupplyResetEnd (s : State) : Host.Outcome State Fault Refusal := onObject true s (freeReset 2)

/-- R465. -/
def execThermtripAssert (s : State) : Host.Outcome State Fault Refusal := onObject true s thermtrip

/-- R484. -/
def execTrialCountStore (s : State) : Host.Outcome State Fault Refusal := act true s storeTrial

/-- R484. -/
def execTrialRunExpiry (s : State) : Host.Outcome State Fault Refusal := act true s trialExpire

end Sys2Proof.Machine
end

