-- ==== Sys2Proof/Machine/Arith.lean ====
section
/-! DEFINITION. Number formats and arithmetic (R226 to R246): decoding, rounding, saturation, FP32 operations as exact
rationals rounded once, quantisation, block-scaled FP4, sums whose order is open. -/

namespace Sys2Proof.Machine

/-! ### Values -/

/-- A decoded value: NaN, infinity, or ± m × 2^e. -/
inductive Fv where
  | nan
  | inf (neg : Bool)
  | fin (neg : Bool) (m : Nat) (e : Int)
  deriving DecidableEq, Repr

/-- A floating format (R227): exponent and mantissa bits, bias, infinity or not, codes of the largest finite magnitude
and of the canonical NaN (R233). -/
structure Ff where
  eb : Nat
  mb : Nat
  bias : Nat
  hasInf : Bool
  maxC : Nat
  nanC : Nat
  deriving DecidableEq, Repr

/-- FP32. -/
def ffF32 : Ff := { eb := 8, mb := 23, bias := 127, hasInf := true, maxC := 0x7F7FFFFF, nanC := 0x7FC00000 }
/-- FP16. -/
def ffF16 : Ff := { eb := 5, mb := 10, bias := 15, hasInf := true, maxC := 0x7BFF, nanC := 0x7E00 }
/-- BF16. -/
def ffBf16 : Ff := { eb := 8, mb := 7, bias := 127, hasInf := true, maxC := 0x7F7F, nanC := 0x7FC0 }
/-- FP8 E4M3: exponent 15 with mantissa 7 is NaN, no infinity. -/
def ffE4m3 : Ff := { eb := 4, mb := 3, bias := 7, hasInf := false, maxC := 0x7E, nanC := 0x7F }
/-- FP8 E5M2. -/
def ffE5m2 : Ff := { eb := 5, mb := 2, bias := 15, hasInf := true, maxC := 0x7B, nanC := 0x7E }
/-- FP4 E2M1; NaN is carried by the block scale. -/
def ffFp4 : Ff := { eb := 2, mb := 1, bias := 1, hasInf := false, maxC := 7, nanC := 0 }

/-- R226: the floating format of a format code. -/
def ffOf (fmt : Nat) : Ff :=
  if fmt = 0x05 then ffFp4 else if fmt = 0x06 then ffE4m3 else if fmt = 0x07 then ffE5m2
  else if fmt = 0x08 then ffF16 else if fmt = 0x09 then ffBf16 else ffF32

/-- R226: bits of an element. -/
def fmtBits (fmt : Nat) : Nat :=
  if fmt = 0x00 ∨ fmt = 0x05 then 4 else if fmt = 0x03 ∨ fmt = 0x08 ∨ fmt = 0x09 then 16
  else if fmt = 0x04 ∨ fmt = 0x0A then 32 else 8

/-- The format is an integer format. -/
def fmtInt (fmt : Nat) : Bool := decide (fmt ≤ 4)

/-- Least and largest value of an integer format. -/
def intLo (fmt : Nat) : Int := if fmt = 0 then -8 else if fmt = 1 then -128 else if fmt = 2 then 0
  else if fmt = 3 then -32768 else -2147483648
def intHi (fmt : Nat) : Int := if fmt = 0 then 7 else if fmt = 1 then 127 else if fmt = 2 then 255
  else if fmt = 3 then 32767 else 2147483647

/-- R227: decode a code of a floating format. -/
def fdecode (f : Ff) (w : Nat) : Fv :=
  let neg := bit w (f.eb + f.mb)
  let ex := bits w (f.eb + f.mb - 1) f.mb
  let man := w % 2 ^ f.mb
  if f.hasInf && ex == 2 ^ f.eb - 1 then (if man = 0 then .inf neg else .nan)
  else if f.nanC ≠ 0 ∧ !f.hasInf ∧ w % 2 ^ (f.eb + f.mb) = f.nanC then .nan
  else if ex = 0 then .fin neg man (1 - (f.bias : Int) - f.mb)
  else .fin neg (man + 2 ^ f.mb) ((ex : Int) - f.bias - f.mb)

/-- Discard `sh` low bits with rounding to nearest, ties to even, or toward zero (R231). -/
def roundOff (rtz : Bool) (m sh : Nat) : Nat :=
  if sh = 0 then m
  else
    let q := m / 2 ^ sh
    let r := m % 2 ^ sh
    if rtz then q
    else if 2 ^ (sh - 1) < r ∨ (r = 2 ^ (sh - 1) ∧ q % 2 = 1) then q + 1 else q

/-- Round ± m × 2^e to a format's magnitude code, which may lie beyond the largest (R231, R234: subnormals are kept). -/
def roundMag (f : Ff) (rtz : Bool) (m : Nat) (e : Int) : Nat :=
  if m = 0 then 0
  else
    let len : Int := (Nat.log2 m : Int) + 1
    let qmin : Int := 1 - (f.bias : Int) - f.mb
    let t : Int := max (e + len - (f.mb + 1)) qmin
    let r := if t ≤ e then m * 2 ^ (e - t).toNat else roundOff rtz m (t - e).toNat
    (t - qmin).toNat * 2 ^ f.mb + r

/-- Encode a value (R232, R233): a finite value that rounds beyond the largest takes it, or infinity when `ovf`; the
flag says that it saturated. -/
def fencode (f : Ff) (rtz ovf : Bool) (x : Fv) : Nat × Bool :=
  let top := fun (neg : Bool) => b2n neg * 2 ^ (f.eb + f.mb)
  match x with
  | .nan => (f.nanC, false)
  | .inf neg => if f.hasInf then (top neg + (f.maxC + 1), false) else (top neg + f.maxC, true)
  | .fin neg m e =>
    let c := roundMag f rtz m e
    if f.maxC < c then (if ovf && f.hasInf then (top neg + (f.maxC + 1), false) else (top neg + f.maxC, true))
    else (top neg + c, false)

/-- Round a finite value to an integer. -/
def fvInt (rtz neg : Bool) (m : Nat) (e : Int) : Int :=
  let v : Nat := if 0 ≤ e then m * 2 ^ e.toNat else roundOff rtz m (-e).toNat
  if neg then -(v : Int) else v

/-- Floor of a finite value. -/
def fvFloor (neg : Bool) (m : Nat) (e : Int) : Int :=
  if 0 ≤ e then (if neg then -((m * 2 ^ e.toNat : Nat) : Int) else ((m * 2 ^ e.toNat : Nat) : Int))
  else (if neg then -(m : Int) else m) / ((2 ^ (-e).toNat : Nat) : Int)

/-! ### FP32 operations on encodings -/

/-- Decode FP32. -/
def f32v (w : Nat) : Fv := fdecode ffF32 w

/-- Round an exact value to FP32, overflowing to infinity (R233). -/
def f32r (x : Fv) : Nat := (fencode ffF32 false true x).1

/-- An integer as a value. -/
def fvOfInt (i : Int) : Fv := .fin (decide (i < 0)) i.natAbs 0

/-- An integer rounded to FP32. -/
def f32OfInt (i : Int) : Nat := f32r (fvOfInt i)

/-- Canonical NaN. -/
def f32NaN : Nat := 0x7FC00000

/-- An encoding is NaN. -/
def f32IsNaN (w : Nat) : Bool := match f32v w with | .nan => true | _ => false

/-- An encoding is finite. -/
def f32IsFin (w : Nat) : Bool := match f32v w with | .fin _ _ _ => true | _ => false

/-- Change the sign. -/
def fvNeg : Fv → Fv
  | .nan => .nan
  | .inf n => .inf (!n)
  | .fin n m e => .fin (!n) m e

/-- Exact sum. -/
def fvAdd (a b : Fv) : Fv :=
  match a, b with
  | .nan, _ => .nan
  | _, .nan => .nan
  | .inf x, .inf y => if x = y then .inf x else .nan
  | .inf x, _ => .inf x
  | _, .inf y => .inf y
  | .fin n m e, .fin k p q =>
    let g := min e q
    let x : Int := (m * 2 ^ (e - g).toNat : Nat)
    let y : Int := (p * 2 ^ (q - g).toNat : Nat)
    let z := (if n then -x else x) + (if k then -y else y)
    .fin (if z = 0 then n && k else decide (z < 0)) z.natAbs g

/-- Exact product. -/
def fvMul (a b : Fv) : Fv :=
  match a, b with
  | .nan, _ => .nan
  | _, .nan => .nan
  | .inf x, .inf y => .inf (x != y)
  | .inf x, .fin k p _ => if p = 0 then .nan else .inf (x != k)
  | .fin n m _, .inf y => if m = 0 then .nan else .inf (n != y)
  | .fin n m e, .fin k p q => .fin (n != k) (m * p) (e + q)

/-- Quotient, to 64 bits and a sticky bit. -/
def fvDiv (a b : Fv) : Fv :=
  match a, b with
  | .nan, _ => .nan
  | _, .nan => .nan
  | .inf _, .inf _ => .nan
  | .inf x, .fin k _ _ => .inf (x != k)
  | .fin n _ _, .inf y => .fin (n != y) 0 0
  | .fin n m e, .fin k p q =>
    if p = 0 then (if m = 0 then .nan else .inf (n != k))
    else
      let s := 64 + Nat.log2 p
      let x := m * 2 ^ s
      .fin (n != k) (2 * (x / p) + (if x % p = 0 then 0 else 1)) (e - q - s - 1)

/-- Integer square root, by bits from 2^`f` down. -/
def isqrtBits : Nat → Nat → Nat → Nat
  | 0, n, r => if (r + 1) * (r + 1) ≤ n then r + 1 else r
  | f + 1, n, r => isqrtBits f n (if (r + 2 ^ (f + 1)) * (r + 2 ^ (f + 1)) ≤ n then r + 2 ^ (f + 1) else r)

/-- Integer square root. -/
def isqrt (n : Nat) : Nat := isqrtBits (Nat.log2 n / 2 + 1) n 0

/-- Square root, to 40 bits and a sticky bit. -/
def fvSqrt : Fv → Fv
  | .nan => .nan
  | .inf n => if n then .nan else .inf false
  | .fin n m e =>
    if m = 0 then .fin n 0 0
    else if n then .nan
    else
      let k : Nat := if e % 2 = 0 then 80 else 81
      let x := m * 2 ^ k
      let r := isqrt x
      .fin false (2 * r + (if r * r = x then 0 else 1)) ((e - (k : Int)) / 2 - 1)

def f32Add (a b : Nat) : Nat := f32r (fvAdd (f32v a) (f32v b))
def f32Sub (a b : Nat) : Nat := f32r (fvAdd (f32v a) (fvNeg (f32v b)))
def f32Mul (a b : Nat) : Nat := f32r (fvMul (f32v a) (f32v b))
def f32Div (a b : Nat) : Nat := f32r (fvDiv (f32v a) (f32v b))
def f32Sqrt (a : Nat) : Nat := f32r (fvSqrt (f32v a))
def f32Neg (a : Nat) : Nat := if f32IsNaN a then f32NaN else a ^^^ 0x80000000
def f32Abs (a : Nat) : Nat := if f32IsNaN a then f32NaN else a % 0x80000000

/-- Exact comparison of two values that are not NaN: a < b; zeros are equal (R246). -/
def fvLt (a b : Fv) : Bool :=
  match a, b with
  | .nan, _ => false
  | _, .nan => false
  | .inf x, .inf y => x && !y
  | .inf x, _ => x
  | _, .inf y => !y
  | .fin n m e, .fin k p q =>
    let g := min e q
    let x : Int := (m * 2 ^ (e - g).toNat : Nat)
    let y : Int := (p * 2 ^ (q - g).toNat : Nat)
    decide ((if n then -x else x) < (if k then -y else y))

/-- a < b as numbers; false when either is NaN. -/
def f32Lt (a b : Nat) : Bool := fvLt (f32v a) (f32v b)

/-- An FP32 value at least 0. -/
def f32NonNeg (w : Nat) : Bool := !f32IsNaN w && !f32Lt w 0

/-- R246: the order of selections: NaN below minus infinity, zeros equal, NaNs equal. -/
def selLt (a b : Nat) : Bool :=
  if f32IsNaN a then !f32IsNaN b else if f32IsNaN b then false else f32Lt a b

/-- The larger and the smaller in the order of R246; the first of equals. -/
def selMax (a b : Nat) : Nat := if selLt a b then b else a
def selMin (a b : Nat) : Nat := if selLt b a then b else a

/-- FP32 value of m × 2^e. -/
def f32Lit (m : Int) (e : Int) : Nat := f32r (.fin (decide (m < 0)) m.natAbs e)

def f32One : Nat := 0x3F800000
def f32Two : Nat := 0x40000000
def f32Half : Nat := 0x3F000000

/-! ### Quantisation (R232, R235) -/

/-- An element's value before its scale: the integer less the zero point, or the floating value times its block scale
(R229: code 255 marks the block NaN). -/
def elemVal (fmt code : Nat) (zp : Int) (blk : Nat) : Fv :=
  if fmt = 2 then fvOfInt ((code % 256 : Nat) - zp)
  else if fmtInt fmt then fvOfInt (sx (fmtBits fmt) code - zp)
  else if fmt = 5 then
    (if blk = 255 then .nan else fvMul (fdecode ffFp4 code) (.fin false 1 ((blk : Int) - 127)))
  else fdecode (ffOf fmt) code

/-- Dequantise: one rounded FP32 product (R235). -/
def dequant (fmt code scale : Nat) (zp : Int) (blk : Nat) : Nat := f32r (fvMul (f32v scale) (elemVal fmt code zp blk))

/-- R231, R232: an FP32 value to an integer format, with its zero point. -/
def toIntFmt (fmt : Nat) (rtz : Bool) (x : Fv) (zp : Int) : Nat × Bool :=
  let lo := intLo fmt
  let hi := intHi fmt
  match x with
  | .nan => (ux (fmtBits fmt) hi, false)
  | .inf n => (ux (fmtBits fmt) (if n then lo else hi), true)
  | .fin n m e =>
    let v := fvInt rtz n m e + zp
    (ux (fmtBits fmt) (clampI lo hi v), decide (v < lo) || decide (hi < v))

/-- QUANT of R235 to a format other than FP4. -/
def quantTo (fmt scale : Nat) (zp : Int) (rtz : Bool) (x : Nat) : Nat × Bool :=
  let q := f32v (f32Div x scale)
  if fmtInt fmt then toIntFmt fmt rtz q zp else fencode (ffOf fmt) rtz false q

/-- R230: the scale code of a block of FP4 values. -/
def fp4Scale (l : List Fv) : Nat :=
  if l.any (fun x => match x with | .nan => true | _ => false) then 255
  else
    let m := l.foldl (fun a x => match x with
      | .fin _ p e => if fvLt a (Fv.fin false p e) then Fv.fin false p e else a
      | _ => a) (Fv.fin false 0 0)
    match m with
    | .fin _ p e => if p = 0 then 0 else (clampI (-127) 127 (e + (Nat.log2 p : Int) - 2) + 127).toNat
    | _ => 0

/-- R230: one element of a block, with its saturation. -/
def fp4Elem (scale : Nat) (rtz : Bool) (x : Fv) : Nat × Bool :=
  if scale = 255 then (0, false) else fencode ffFp4 rtz false (fvMul x (.fin false 1 (127 - (scale : Int))))

/-! ### Sums whose order the manual leaves open -/

/-- Saturate to INT32 (R237). -/
def satI32 (x : Int) : Int := clampI (-2147483648) 2147483647 x

/-- A sum of terms in an order the manual leaves open: a draw says, step by step, which two values are added next. -/
def sumInOrder {α : Type} (add : α → α → α) (d : Nat) : Nat → List α → Option α
  | 0, l => l.head?
  | f + 1, l =>
    let i := Config.sumOrder d (2 * f) % max 1 l.length
    let rest := l.eraseIdx i
    let j := Config.sumOrder d (2 * f + 1) % max 1 rest.length
    match l[i]?, rest[j]? with
    | some x, some y => sumInOrder add d f (add x y :: rest.eraseIdx j)
    | x, _ => x

/-- R237: a sum of integer terms in INT32 with saturation: exact while the magnitudes stay within 2³¹ − 1; otherwise by
saturating additions in an order that is open. -/
def sumI32 (d : Nat) (l : List Int) : Int :=
  let add := fun (a b : Int) => satI32 (a + b)
  if sumN (l.map Int.natAbs) ≤ 2147483647 then sumI l
  else match l.map satI32 with
    | [a, b] => add a b
    | v => (sumInOrder add d v.length v).getD 0

/-- A list in pieces of at most `n`. -/
def piecesOf {α : Type} (n : Nat) (l : List α) : List (List α) :=
  (List.range (cdiv l.length (max 1 n))).map (fun k => (l.drop (k * n)).take n)

/-- A held accumulator begins the first chunk. -/
def carryInto (c : Option Int) (l : List (List Int)) : List (List Int) :=
  match c, l with
  | none, l => l
  | some v, p :: t => (v :: p) :: t
  | some v, [] => [[v]]

/-- R238: a reduction given by its slivers: each in chunks of at most 65,536 terms, whose sums are combined. -/
def sumChunks (d : Nat) (carry : Option Int) (parts : List (List Int)) : Int :=
  match carryInto carry (parts.flatMap (piecesOf 65536)) with
  | [l] => sumI32 d l
  | ls => sumI32 d (ls.zipIdx.map (fun c => sumI32 (d + 2 ^ 36 * (c.2 + 1)) c.1))

/-! ### Values that are open within a bound -/

/-- |a − b| is at most a bound, exactly; false where one of them is not finite. -/
def nearTo (a b bound : Fv) : Bool :=
  match fvAdd a (fvNeg b), bound with
  | .fin _ m e, .fin _ _ _ => !fvLt bound (.fin false m e)
  | _, _ => false

/-- An open FP32 value `c` held within a bound of an exact one; where it lies outside, the nearest value. -/
def pickNear (c : Nat) (x bound : Fv) : Nat := if nearTo (f32v (w32 c)) x bound then w32 c else f32r x

/-- 1 as a value. -/
def fvOne : Fv := .fin false 1 0

/-- A reciprocal of relative error at most 2⁻²³ (R243). -/
def recipIn (x : Nat) : Nat :=
  let c := w32 (Config.recipApprox x)
  if nearTo (fvMul (f32v c) (f32v x)) fvOne (.fin false 1 (-23)) then c else f32Div f32One x

/-- The squares of 1 − 2⁻²³ and 1 + 2⁻²³. -/
def sqLo : Fv := .fin false (8388607 * 8388607) (-46)
def sqHi : Fv := .fin false (8388609 * 8388609) (-46)

/-- A value between two others. -/
def fvBetween (lo x hi : Fv) : Bool := match x with | .fin _ _ _ => !fvLt x lo && !fvLt hi x | _ => false

/-- A reciprocal square root of relative error at most 2⁻²³ (R244). -/
def rsqrtIn (v : Nat) : Nat :=
  let c := w32 (Config.rsqrtApprox v)
  if !bit c 31 && fvBetween sqLo (fvMul (fvMul (f32v c) (f32v c)) (f32v v)) sqHi then c else f32Div f32One (f32Sqrt v)

/-- A square root of relative error 2⁻²³ (R263). -/
def sqrtIn (v : Nat) : Nat :=
  let c := w32 (Config.sqrtApprox v)
  if !bit c 31 && fvBetween (fvMul sqLo (f32v v)) (fvMul (f32v c) (f32v c)) (fvMul sqHi (f32v v)) then c else f32Sqrt v

/-! Fixed point with 200 fraction bits, for the bounds of functions that are not rational. -/

/-- 1. -/
def fx1 : Nat := 2 ^ 200

/-- Magnitude of a finite value. -/
def fxAbs : Fv → Nat
  | .fin _ m e => if 0 ≤ e + 200 then m * 2 ^ (e + 200).toNat else m / 2 ^ (-(e + 200)).toNat
  | _ => 0

/-- Terms of e^(−y) from the k-th, `t`, on. -/
def expTerms : Nat → Nat → Int → Int → Int
  | 0, _, _, _ => 0
  | f + 1, k, t, y => t + expTerms f (k + 1) (-(t * y) / ((fx1 * (k + 1) : Nat) : Int)) y

/-- Square `n` times. -/
def fxSquares : Nat → Nat → Nat
  | 0, v => v
  | n + 1, v => fxSquares n (v * v / fx1)

/-- e^(−x); 0 from x = 160 on. -/
def fxExp (x : Nat) : Nat := if 160 * fx1 ≤ x then 0 else fxSquares 8 (expTerms 40 0 fx1 (x / 256 : Nat)).toNat

/-- e^x of a value at most 0, of relative error at most 2⁻²² (R243). -/
def expIn (x : Nat) : Nat :=
  let v := fxExp (fxAbs (f32v x))
  pickNear (Config.expApprox x) (.fin false v (-200)) (.fin false v (-222))

/-- 1 / (1 + e^(−x)). -/
def fxSigmoid (neg : Bool) (x : Nat) : Nat := let a := fxExp x; (if neg then a else fx1) * fx1 / (fx1 + a)

/-- Terms of the series of the error function, `t` the power of −z² over the factorial. -/
def erfTerms : Nat → Nat → Int → Int → Int
  | 0, _, _, _ => 0
  | f + 1, n, t, z2 => t / ((2 * n + 1 : Nat) : Int) + erfTerms f (n + 1) (-(t * z2) / ((fx1 * (n + 1) : Nat) : Int)) z2

/-- The normal distribution at −x: 1/2 − x √(2/π) Σ / 2; 0 from x = 8 on. -/
def fxPhi (x : Nat) : Nat :=
  if 8 * fx1 ≤ x then 0
  else
    let s := erfTerms 140 0 fx1 (x * x / (2 * fx1) : Nat)
    let r := 79788456080286535587989211986876373695171726232986 * fx1 / 10 ^ 50
    ((fx1 / 2 : Nat) - (x * r / fx1 : Nat) * s / ((2 * fx1 : Nat) : Int)).toNat

/-- R241: the exact function of a built-in table at a finite value, and its bound in 10⁻⁴. -/
def actExact (c : Nat) (x : Fv) : Fv × Nat :=
  let neg := match x with | .fin n _ _ => n | _ => false
  let a := fxAbs x
  match c with
  | 3 => (.fin false (fxSigmoid neg a) (-200), 8)
  | 4 => let q := fxExp (2 * a); (.fin neg ((fx1 - q) * fx1 / (fx1 + q)) (-200), 16)
  | 5 => (fvMul x (.fin false (if neg then fxPhi a else fx1 - fxPhi a) (-200)), 36)
  | _ => (fvMul x (.fin false (fxSigmoid neg a) (-200)), 40)

/-- R241, R242: between two knots a table's result is open within 4 × 2⁻²⁴ of the sum of their magnitudes around the
exact interpolation. -/
def tableIn (tab : List Nat) (x : Nat) : Nat :=
  let den := fvAdd (f32v (wd tab 66)) (fvNeg (f32v (wd tab 65)))
  let a := fvMul (fvAdd (f32v x) (fvNeg (f32v (wd tab 65)))) (fvOfInt 64)
  let k := (clampI 0 63 (match fvDiv a den with | .fin n m e => fvFloor n m e | _ => 0)).toNat
  let y := f32v (wd tab k)
  let z := f32v (wd tab (k + 1))
  let v := fvAdd (fvMul y den) (fvMul (fvAdd z (fvNeg y)) (fvAdd a (fvNeg (fvMul (fvOfInt k) den))))
  let mag := fun (u : Fv) => match u with | .fin _ m e => Fv.fin false m e | u => u
  let bound := fvMul (fvMul (fvAdd (mag y) (mag z)) (.fin false 1 (-22))) den
  let c := w32 (Config.tableApprox tab x)
  if nearTo (fvMul (f32v c) den) v bound then c else f32r (fvDiv v den)

/-- R242: an interpolation table at an argument. -/
def tableAt (tab : List Nat) (x : Nat) : Nat :=
  let lo := wd tab 65
  let hi := wd tab 66
  if f32IsNaN x then f32NaN
  else if f32Lt x lo then f32Add (wd tab 0) (f32Mul (wd tab 67) (f32Sub x lo))
  else if !f32Lt x hi then f32Add (wd tab 64) (f32Mul (wd tab 68) (f32Sub x hi))
  else tableIn (tab.take 69) x

/-- R241: the bound of a built-in table as a value. -/
def actBound (c : Nat) : Fv := .fin false ((actExact c (.fin false 0 0)).2 * fx1 / 10000) (-200)

/-- R241, R242: a built-in table: its range is the rule's; its knots are open within the bound; its slopes are the ones
that keep the bound at every finite input (log entry 206). -/
def builtin (c : Nat) : List Nat :=
  let x := if c = 4 then 4 else if c = 5 then 6 else 8
  let knot := fun (k : Nat) => pickNear (Config.actKnot c k) (actExact c (.fin (k < 32) (x * (if k < 32 then 32 - k else k - 32)) (-5))).1 (actBound c)
  (List.range 65).map knot ++ [f32OfInt (-(x : Int)), f32OfInt x, 0, if c = 5 ∨ c = 6 then f32One else 0]

/-- R241: the function of a built-in table, within its bound at a finite input. -/
def actIn (c x : Nat) : Nat :=
  match f32v x with
  | .fin _ _ _ => pickNear (tableAt (builtin c) x) (actExact c (f32v x)).1 (actBound c)
  | _ => tableAt (builtin c) x

/-- π in 200-bit fixed point. -/
def fxPi : Nat := 31415926535897932384626433832795028841971693993751058209749445923078164062862 * fx1 / 10 ^ 76

/-- Terms of the series of sine and cosine from the k-th power, `t`, on: each is −y² / ((k + 1)(k + 2)) of the one before. -/
def trigTerms : Nat → Nat → Int → Int → Int
  | 0, _, _, _ => 0
  | f + 1, k, t, y2 => t + trigTerms f (k + 2) (-(t * y2) / ((fx1 * ((k + 1) * (k + 2)) : Nat) : Int)) y2

/-- Sine and cosine of a magnitude in fixed point. -/
def fxSin (x : Nat) : Int := let y := x % (2 * fxPi); trigTerms 60 1 y (y * y / fx1 : Nat)
def fxCos (x : Nat) : Int := let y := x % (2 * fxPi); trigTerms 60 0 fx1 (y * y / fx1 : Nat)

/-- Euler's series of the arctangent: the terms from the n-th, `t`, on; `r` = q² / (1 + q²). -/
def atanTerms : Nat → Nat → Nat → Nat → Nat
  | 0, _, _, _ => 0
  | f + 1, n, t, r => t + atanTerms f (n + 1) (t * (2 * n + 2) * r / (fx1 * (2 * n + 3))) r

/-- Arctangent of a quotient from 0 to 1 in fixed point. -/
def fxAtan (q : Nat) : Nat :=
  let w := fx1 + q * q / fx1
  atanTerms 220 0 (q * fx1 / w) (q * q / w)

/-- A fixed-point number as a value. -/
def fvFx (x : Int) : Fv := .fin (x < 0) x.natAbs (-200)

/-- The error the model allows the FP32 angle functions of R138, which the manual bounds by no number: 2⁻²² of `x`. -/
def angleBound (x : Fv) : Fv := match x with | .fin _ m e => .fin false m (e - 22) | x => x

/-- R138's sine: held near the exact one; below 2⁻⁴⁰ the argument itself. -/
def sinIn (t : Nat) : Nat :=
  match f32v t with
  | .nan => f32NaN
  | .inf _ => w32 (Config.sinApprox t)
  | .fin n m e =>
    let x := Fv.fin false m e
    let v := if fvLt x (.fin false 1 (-40)) then f32v t
      else if fvLt x (.fin false 1 23) then fvFx ((if n then -1 else 1) * fxSin (fxAbs x))
      else .fin false 0 0
    pickNear (Config.sinApprox t) v (angleBound (if fvLt x (.fin false 1 22) then x else .fin false 1 22))

/-- R138's cosine. -/
def cosIn (t : Nat) : Nat :=
  match f32v t with
  | .nan => f32NaN
  | .inf _ => w32 (Config.cosApprox t)
  | .fin _ m e =>
    let x := Fv.fin false m e
    let v := if fvLt x (.fin false 1 23) then fvFx (fxCos (fxAbs x)) else .fin false 0 0
    let b := if fvLt x fvOne then fvOne else if fvLt x (.fin false 1 22) then x else .fin false 1 22
    pickNear (Config.cosApprox t) v (angleBound b)

/-- R138's arctangent of a length `r` and a height `z`, from 0 to π. -/
def atan2In (r z : Nat) : Nat :=
  match f32v r, f32v z with
  | .nan, _ => f32NaN
  | _, .nan => f32NaN
  | .fin _ m e, .fin zn p q =>
    let x := Fv.fin false m e
    let y := Fv.fin false p q
    let half : Int := (fxPi / 2 : Nat)
    let v : Fv :=
      if p = 0 then fvFx half
      else
        let quot := fvDiv x y
        if !zn && fvLt quot (.fin false 1 (-40)) then quot
        else
          let a : Int := if fvLt y x then half - (fxAtan (fxAbs (fvDiv y x)) : Int) else (fxAtan (fxAbs quot) : Int)
          fvFx (if zn then (fxPi : Int) - a else a)
    if m = 0 ∧ p = 0 then w32 (Config.atan2Approx r z) else pickNear (Config.atan2Approx r z) v (angleBound v)
  | _, _ => w32 (Config.atan2Approx r z)

/-- Strip factors of two from a mantissa. -/
def stripTwos : Nat → Nat → Int → Nat × Int
  | 0, m, e => (m, e)
  | f + 1, m, e => if m % 2 = 0 ∧ m ≠ 0 then stripTwos f (m / 2) (e + 1) else (m, e)

/-- The least exponent among nonzero finite terms; none when a term is not finite. -/
def sumExp : List Nat → Option (Option Int)
  | [] => some none
  | w :: t =>
    match f32v w, sumExp t with
    | .fin _ m e, some r => 
      if m = 0 then some r
      else
        let e' := (stripTwos 24 m e).2
        some (some (match r with | some x => min x e' | none => e'))
    | _, _ => none

/-- Exact sum, and sum of magnitudes, of the finite terms. -/
def exactSum (l : List Nat) : Fv := l.foldl (fun a w => match f32v w with | .fin n m e => fvAdd a (.fin n m e) | _ => a) (.fin false 0 0)
def exactMag (l : List Nat) : Fv := l.foldl (fun a w => match f32v w with | .fin _ m e => fvAdd a (.fin false m e) | _ => a) (.fin false 0 0)

/-- R239: a sum of FP32 terms by FP32 additions in an order that is open.  It is exact, hence the same in every order,
when all partial sums are representable, and the sum of two terms does not depend on the order. -/
def sumF32 (d : Nat) (l : List Nat) : Nat :=
  let open_ := (sumInOrder f32Add d l.length l).getD 0
  match l with
  | [] => 0
  | [a] => a
  | [a, b] => f32Add a b
  | _ =>
    match sumExp l with
    | some (some g) =>
      let v := l.map (fun w => match f32v w with
        | .fin n m e => if m = 0 then (0 : Int) else (if n then -1 else 1) * (let p := stripTwos 24 m e; ((p.1 * 2 ^ (p.2 - g).toNat : Nat) : Int))
        | _ => 0)
      if sumN (v.map Int.natAbs) ≤ 2 ^ 24 ∧ fvLt (exactMag l) (.fin false 1 128) then
        (let t := sumI v; if t = 0 then (if l.all (fun w => bit w 31) then 0x80000000 else 0) else f32Lit t g)
      else open_
    | some none => if l.all (fun w => bit w 31) then 0x80000000 else 0
    | none => if l.any f32IsNaN then f32NaN else open_

/-- Sum, and sum of magnitudes, of exact values that are finite. -/
def fvSum (l : List Fv) : Fv := l.foldl fvAdd (.fin false 0 0)
def fvMag (x : Fv) : Fv := match x with | .fin _ m e => .fin false m e | x => x
def fvMags (l : List Fv) : Fv := l.foldl (fun a x => fvAdd a (fvMag x)) (.fin false 0 0)

/-- R239, R240: a product sum: the products, rounded only beyond the FP32 range, and further FP32 terms. -/
def sumProducts (d : Nat) (ps : List Fv) (terms : List Nat) : Nat := sumF32 d (ps.map f32r ++ terms)

end Sys2Proof.Machine
end

