-- ==== Sys2Proof/Machine/Tensor.lean ====
section
/-! DEFINITION. Tensor references (R332 to R339, R346 to R348): layout, checks, addressing of elements, sharding,
reading and writing of elements, and the moves of R340. -/

namespace Sys2Proof.Machine

/-- A tensor reference with its extension and sharding spec (R332, R334, R346). -/
structure Tensor where
  w : List Nat
  x : List Nat
  sh : List Nat
  deriving DecidableEq, Repr

def Tensor.fmt (t : Tensor) : Nat := bits (wd t.w 0) 4 0
def Tensor.layout (t : Tensor) : Nat := bits (wd t.w 0) 11 8
def Tensor.ndim (t : Tensor) : Nat := bits (wd t.w 0) 14 12
def Tensor.hasExt (t : Tensor) : Bool := bit (wd t.w 0) 15
def Tensor.qmode (t : Tensor) : Nat := bits (wd t.w 0) 17 16
def Tensor.qaxis (t : Tensor) : Nat := bits (wd t.w 0) 20 18
def Tensor.base (t : Tensor) : Nat := addr48 t.w 1
def Tensor.zp (t : Tensor) : Int := sx 16 (bits (wd t.w 2) 31 16)
def Tensor.scale (t : Tensor) : Nat := wd t.w 3
def Tensor.extent (t : Tensor) (d : Nat) : Nat := wd t.w (4 + d)
def Tensor.stride (t : Tensor) (d : Nat) : Nat := wd t.w (10 + d)
def Tensor.qarray (t : Tensor) : Nat := addr48 t.x 0
def Tensor.scales (t : Tensor) : Nat := addr48 t.x 2
def Tensor.shard (t : Tensor) : Nat := addr48 t.x 4
def Tensor.fill (t : Tensor) : Nat := bits (wd t.x 6) 1 0
def Tensor.offset (t : Tensor) (d : Nat) : Int := sx 32 (wd t.x (8 + d))

/-- Extents as a list. -/
def Tensor.shape (t : Tensor) : List Nat := (List.range t.ndim).map t.extent

/-- Elements of a tensor. -/
def Tensor.count (t : Tensor) : Nat := t.shape.foldl (· * ·) 1

/-- Read a tensor reference as a tenant. -/
def tensorOf (s : State) (tn a : Nat) : Tensor :=
  let w := rdWords s tn a 16
  let x := if bit (wd w 0) 15 then rdWords s tn (a + 64) 16 else []
  let sa := addr48 x 4
  { w := w, x := x, sh := if sa = 0 then [] else rdWords s tn sa 24 }

/-- A nonzero reserved field or a reserved encoding of the block or its extension. -/
def Tensor.blockReserved (t : Tensor) : Bool :=
  decide (bits (wd t.w 0) 7 5 ≠ 0) || decide (0x0A < t.fmt) || decide (5 < t.layout) || t.ndim == 0 || t.ndim == 7 ||
  t.qmode == 3 || decide (bits (wd t.w 0) 31 21 ≠ 0) ||
  (t.hasExt && (decide (bits (wd t.x 1) 31 16 ≠ 0) || decide (bits (wd t.x 3) 31 16 ≠ 0) ||
    decide (bits (wd t.x 5) 31 16 ≠ 0) || decide (bits (wd t.x 6) 31 2 ≠ 0) || wd t.x 14 != 0 || wd t.x 15 != 0))

/-- Memory a reference itself takes: the block and its extension, and where these allow it the quantisation array that
QMODE 2 names and the sharding spec. -/
def tensorReads (s : State) (tn a : Nat) : List (Nat × Nat) :=
  let t := tensorOf s tn a
  (a, if t.hasExt then 128 else 64) :: (if t.blockReserved then [] else
    (if t.hasExt ∧ t.qmode = 2 ∧ t.qaxis < t.ndim ∧ t.qarray % 8 = 0 then [(t.qarray, 8 * t.extent t.qaxis)] else []) ++
    (if t.hasExt ∧ t.shard ≠ 0 ∧ t.shard % 32 = 0 then [(t.shard, 96)] else []))

/-! ### Geometry -/

/-- Sub-byte elements. -/
def Tensor.nib (t : Tensor) : Bool := fmtBits t.fmt == 4

/-- Bytes of an element of a byte format. -/
def Tensor.esize (t : Tensor) : Nat := fmtBits t.fmt / 8

/-- Bytes of `n` packed elements (R335). -/
def Tensor.span (t : Tensor) (n : Nat) : Nat := if t.nib then cdiv n 2 else n * t.esize

/-- R333: the packing dimension. -/
def Tensor.pack (t : Tensor) : Nat :=
  if t.layout = 1 ∨ t.layout = 3 then t.ndim - 3 else t.ndim - 1

/-- R336: channels of a tile. -/
def tileC (fmt : Nat) : Nat := if fmtBits fmt = 4 then 64 else if fmtBits fmt = 8 then 32 else 16

/-! ### Sharding (R346, R347) -/

/-- The tensor is distributed. -/
def Tensor.sharded (t : Tensor) : Bool := !t.sh.isEmpty

/-- Cores of the spec in ascending order. -/
def Tensor.cores (t : Tensor) : List Nat := (List.range 256).filter (fun c => bit (wd t.sh (c / 32)) (c % 32))

def Tensor.shKind (t : Tensor) (d : Nat) : Nat := bits (wd t.sh (8 + d)) 1 0
def Tensor.shSplit (t : Tensor) (d : Nat) : Nat := bits (wd t.sh (8 + d)) 9 2 + 1
def Tensor.shBlock (t : Tensor) (d : Nat) : Nat := wd t.sh (14 + d)

/-- Product of the split factors. -/
def Tensor.grid (t : Tensor) : Nat := (List.range t.ndim).foldl (fun p d => p * t.shSplit d) 1

/-- R347: shard and local index of a global index of a dimension. -/
def Tensor.shardIdx (t : Tensor) (d i : Nat) : Nat × Nat :=
  let e := t.extent d
  let k := t.shSplit d
  match t.shKind d with
  | 0 => (0, i)
  | 1 => let b := max 1 (cdiv e k); (i / b, i % b)
  | 2 => (i % k, i / k)
  | _ => let b := max 1 (t.shBlock d); (i / b % k, i / (b * k) * b + i % b)

/-- R347: local extent of a shard of a dimension. -/
def Tensor.shardExt (t : Tensor) (d k : Nat) : Nat :=
  let e := t.extent d
  let n := t.shSplit d
  match t.shKind d with
  | 0 => e
  | 1 => let b := max 1 (cdiv e n); min b (e - k * b)
  | 2 => (e + n - 1 - k) / n
  | _ => let b := max 1 (t.shBlock d)
         e / (b * n) * b + min b (e % (b * n) - k * b)

/-- BASE moved into a core's slice (R347). -/
def sliceBase (base core : Nat) : Nat :=
  let r := rowOf base
  rowAddr (core * 16384 + r % 16384) + base % 512

/-- Where an element is held: core, base, local index, local extents; one place when the tensor is not distributed. -/
def Tensor.held (t : Tensor) (idx : List Nat) : List (Nat × Nat × List Nat × List Nat) :=
  if t.sharded then
    let si := idx.zipIdx.map (fun e => t.shardIdx e.2 e.1)
    let g := (si.zipIdx).foldl (fun g e => g * t.shSplit e.2 + e.1.1) 0
    let ext := si.zipIdx.map (fun e => t.shardExt e.2 e.1.1)
    (t.cores.zipIdx.filter (fun c => c.2 % max 1 t.grid == g)).map
      (fun c => (c.1, sliceBase t.base c.1, si.map (fun e => e.2), ext))
  else [(0, t.base, idx, t.shape)]

/-- The extents that the stride rules use: the largest local ones. -/
def Tensor.lshape (t : Tensor) : List Nat :=
  if t.sharded then (List.range t.ndim).map (fun d => t.shardExt d 0) else t.shape

/-! ### Addressing (R335 to R338) -/

/-- Byte address and half of an element at a local index under a base. -/
def Tensor.place (t : Tensor) (base : Nat) (idx ext : List Nat) : Nat × Nat :=
  if t.layout = 3 then
    let k := t.ndim - 3
    let n := if k = 1 then wd idx 0 else 0
    let c := wd idx k
    let y := wd idx (k + 1)
    let x := wd idx (k + 2)
    let tc := tileC t.fmt
    let g := cdiv (wd ext k) tc
    let a := base + (if k = 1 then n * t.stride 0 else 0) + y * t.stride (k + 1) + (x / 16 * g + c / tc) * 512
    let o := c % tc
    (a + 32 * (x % 16) + (if t.nib then o / 2 else o * t.esize), if t.nib then o % 2 else 0)
  else if t.layout = 4 then
    let k := wd idx 0
    let y := wd idx 1
    let x := wd idx 2
    if k = 0 then (base + y * t.stride 1 + x * t.esize, 0)
    else (base + t.stride 0 + y / 2 * t.stride 1 + (2 * (x / 2) + k - 1) * t.esize, 0)
  else
    let p := t.pack
    let a := idx.zipIdx.foldl (fun a e => if t.nib && e.2 == p then a + e.1 / 2 else a + e.1 * t.stride e.2) base
    (a, if t.nib then wd idx p % 2 else 0)

/-- Index of an FP4 block's scale byte (R338), from the extents and the index; `g` elements share a scale. -/
def Tensor.blockIdx (t : Tensor) (ext idx : List Nat) (g : Nat) : Nat :=
  let p := t.pack
  let nb := cdiv (wd ext p) g
  let outer := (idx.zipIdx.filter (fun e => e.2 != p)).foldl (fun (a : Nat) (e : Nat × Nat) => a * wd ext e.2 + e.1) 0
  outer * nb + wd idx p / g

/-- Every index of a shape, row-major. -/
def allIdx : List Nat → List (List Nat)
  | [] => [[]]
  | n :: t => (List.range n).flatMap (fun i => (allIdx t).map (fun r => i :: r))

/-- Bytes of an element at a place. -/
def Tensor.bytesAt (t : Tensor) : Nat := if t.nib then 1 else t.esize

/-- The place a core reads an element from: its own shard when it holds it, otherwise the lowest rank's (R348). -/
def Tensor.readPlace (t : Tensor) (core : Option Nat) (idx : List Nat) : Nat × Nat :=
  let l := t.held idx
  let h := match core with
    | some c => (match l.find? (fun (e : Nat × Nat × List Nat × List Nat) => e.1 == c) with
      | some e => some e
      | none => l.head?)
    | none => l.head?
  match h with
  | some e => t.place e.2.1 e.2.2.1 e.2.2.2
  | none => (t.base, 0)

/-- Address of the scale byte of an element of an FP4 tensor. -/
def Tensor.scaleAt (t : Tensor) (idx : List Nat) : Nat := t.scales + t.blockIdx t.shape idx 32

/-- Memory read for an element. -/
def Tensor.elemReads (t : Tensor) (core : Option Nat) (idx : List Nat) : List (Nat × Nat) :=
  ((t.readPlace core idx).1, t.bytesAt) :: (if t.fmt = 5 then [(t.scaleAt idx, 1)] else [])

/-- Code of an element. -/
def Tensor.code (t : Tensor) (s : State) (tn : Nat) (core : Option Nat) (idx : List Nat) : Nat :=
  let p := t.readPlace core idx
  let b := rdN s tn p.1 t.bytesAt
  if t.nib then (if p.2 = 0 then b % 16 else b / 16) else b

/-- Scale code of the block of an element; 127 where the format has none. -/
def Tensor.blk (t : Tensor) (s : State) (tn : Nat) (idx : List Nat) : Nat :=
  if t.fmt = 5 then rdN s tn (t.scaleAt idx) 1 else 127

/-- Scale and zero point that apply to an index (R235). -/
def Tensor.quant (t : Tensor) (s : State) (tn : Nat) (idx : List Nat) : Nat × Int :=
  if t.qmode = 1 then (t.scale, t.zp)
  else if t.qmode = 2 then
    let a := t.qarray + 8 * wd idx t.qaxis
    (rdN s tn a 4, sx 32 (rdN s tn (a + 4) 4))
  else (f32One, 0)

/-- Value of an element before its scale. -/
def Tensor.value (t : Tensor) (s : State) (tn : Nat) (core : Option Nat) (idx : List Nat) : Fv :=
  elemVal t.fmt (t.code s tn core idx) (t.quant s tn idx).2 (t.blk s tn idx)

/-- Dequantised FP32 value of an element. -/
def Tensor.real (t : Tensor) (s : State) (tn : Nat) (core : Option Nat) (idx : List Nat) : Nat :=
  f32r (fvMul (f32v (t.quant s tn idx).1) (t.value s tn core idx))

/-! ### Checks (R332 to R339, R235, R346 to R348) -/

/-- A nonzero reserved field or a reserved encoding. -/
def Tensor.reserved (t : Tensor) : Bool :=
  t.blockReserved ||
  (t.sharded && t.shard % 32 == 0 && ((List.range 6).any (fun d => decide (bits (wd t.sh (8 + d)) 31 10 ≠ 0)) ||
    (List.range 4).any (fun k => wd t.sh (20 + k) != 0)))

/-- A scale and a zero point obey R235 for a format. -/
def quantOk (fmt scale : Nat) (zp : Int) : Bool :=
  decide (0 < scale) && decide (0x00800000 ≤ scale) && decide (scale < 0x7F800000) &&
  (if fmt = 0x0A ∨ fmt = 0x04 then scale == f32One && zp == 0
   else if fmtInt fmt then decide (intLo fmt ≤ zp) && decide (zp ≤ intHi fmt) else zp == 0)

/-- The quantisation of a tensor obeys its rules. -/
def Tensor.quantRules (t : Tensor) (s : State) (tn : Nat) : Bool :=
  (t.qmode == 1 || (bits (wd t.w 2) 31 16 == 0 && t.scale == 0)) &&
  (if t.qmode = 2 then t.hasExt && decide (t.qaxis < t.ndim) && t.qarray % 8 == 0 &&
      (List.range (t.extent t.qaxis)).all (fun i =>
        let a := t.qarray + 8 * i
        quantOk t.fmt (rdN s tn a 4) (sx 32 (rdN s tn (a + 4) 4)))
   else t.qaxis == 0 && (!t.hasExt || t.qarray == 0)) &&
  (t.qmode != 1 || quantOk t.fmt t.scale t.zp) &&
  (if t.fmt = 5 then t.hasExt else (!t.hasExt || t.scales == 0))

/-- Extents and strides obey R332, R333 and the layout's rules. -/
def Tensor.strideRules (t : Tensor) : Bool :=
  let n := t.ndim
  let e := t.lshape
  let ok4 := n == 3 || n == 4
  let h := n - 2
  let w := n - 1
  let c := n - 3
  let all512 := fun (l : List Nat) => l.all (fun v => v % 512 == 0)
  (List.range 6).all (fun d => if d < n then decide (1 ≤ t.extent d) else t.extent d == 0 && t.stride d == 0) &&
  (if t.nib then t.layout == 4 || t.stride t.pack == 0
   else (List.range n).all (fun d => t.stride d % max 1 t.esize == 0)) &&
  (match t.layout with
   | 0 => true
   | 1 => ok4 && t.stride c == (if t.nib then 0 else t.esize) && t.stride w == t.span (wd e c) &&
          decide (wd e w * t.stride w ≤ t.stride h)
   | 2 | 5 => ok4 && t.stride w == (if t.nib then 0 else t.esize) && decide (t.span (wd e w) ≤ t.stride h) &&
          decide (wd e h * t.stride h ≤ t.stride c) &&
          (t.layout == 2 || all512 ([t.base, t.stride h, t.stride c] ++ (if n = 4 then [t.stride 0] else [])))
   | 3 => ok4 && fmtBits t.fmt != 32 && all512 ([t.base, t.stride h] ++ (if n = 4 then [t.stride 0] else [])) &&
          decide (cdiv (wd e w) 16 * cdiv (wd e c) (tileC t.fmt) * 512 ≤ t.stride h) &&
          t.stride c == 0 && t.stride w == 0
   | _ => n == 3 && t.extent 0 == 3 && t.extent 1 % 2 == 0 && t.extent 2 % 2 == 0 && (t.fmt == 2 || t.fmt == 3) &&
          all512 [t.base, t.stride 0, t.stride 1] && t.stride 2 == t.esize)

/-- Bytes from a base to one past the highest an element of a shape can take; the lowest is the base itself. -/
def Tensor.bound (t : Tensor) (ext : List Nat) : Nat :=
  if ext.any (· == 0) then 0
  else if t.layout = 3 then
    let k := t.ndim - 3
    (if k = 1 then (wd ext 0 - 1) * t.stride 0 else 0) + (wd ext (k + 1) - 1) * t.stride (k + 1) +
      cdiv (wd ext (k + 2)) 16 * cdiv (wd ext k) (tileC t.fmt) * 512
  else if t.layout = 4 then
    max ((wd ext 1 - 1) * t.stride 1) (t.stride 0 + (wd ext 1 / 2 - 1) * t.stride 1) + wd ext 2 * t.esize
  else
    let p := t.pack
    (ext.zipIdx.foldl (fun a e => if t.nib && e.2 == p then a + (cdiv e.1 2 - 1) else a + (e.1 - 1) * t.stride e.2) 0) +
      t.bytesAt

/-- The sharding spec obeys R346 and R347. -/
def Tensor.shardRules (t : Tensor) : Bool :=
  !t.hasExt || t.shard % 32 == 0 &&
  (!t.sharded ||
    ((List.range 6).all (fun d =>
      if d < t.ndim then
        (t.shKind d != 0 || t.shSplit d == 1) &&
        (if t.shKind d = 3 then decide (1 ≤ t.shBlock d) else t.shBlock d == 0)
      else wd t.sh (8 + d) == 0 && t.shBlock d == 0) &&
     !t.cores.isEmpty && t.cores.length % t.grid == 0 && isScratch t.base &&
     decide ((t.base - scratchBase) % 0x800000 + t.bound t.lshape ≤ 0x800000)))

/-- R348: a core of the spec is not enabled or not available. -/
def Tensor.shardRange (t : Tensor) (s : State) : Bool :=
  t.sharded && t.cores.any (fun c => decide (64 ≤ c) || !bit s.availN c)

/-- Words 6 to 13 of the extension are 0 except in a stream's destination. -/
def Tensor.extRules (t : Tensor) (dst : Bool) : Bool :=
  !t.hasExt || (if dst then (List.range 6).all (fun d => decide (d < t.ndim) || wd t.x (8 + d) == 0)
                else (List.range 8).all (fun k => wd t.x (6 + k) == 0))

/-- R339: distinct indices of an output go to distinct places. -/
def Tensor.distinct (t : Tensor) : Bool :=
  let e := t.lshape
  let p := t.pack
  let row := cdiv (wd e (t.ndim - 1)) 16 * cdiv (wd e (t.ndim - 3)) (tileC t.fmt) * 512
  let l := if t.layout = 3 then ((if t.ndim = 4 then [(wd e 0, t.stride 0)] else []) ++ [(wd e (t.ndim - 2), t.stride (t.ndim - 2))])
    else (e.zipIdx.filter (fun x => !(t.nib && x.2 == p))).map (fun x => (x.1, t.stride x.2))
  let l := l.filter (fun x => decide (1 < x.1))
  let s0 := if t.layout = 3 then row else if t.nib then cdiv (wd e p) 2 else t.esize
  l.all (fun x => decide (s0 + sumN ((l.filter (fun y => decide (y.2 < x.2))).map (fun y => (y.1 - 1) * y.2)) ≤ x.2)) &&
  l.zipIdx.all (fun x => l.zipIdx.all (fun y => x.2 == y.2 || x.1.2 != y.1.2))

/-- The check of a tensor by the unit that reads it: 0, or RESERVED_NONZERO, PARAM_INVALID, INDEX_RANGE. -/
def Tensor.check (t : Tensor) (s : State) (tn a : Nat) (out dst : Bool) : Nat :=
  if t.reserved then 0x01
  else if a % 64 != 0 || !t.strideRules || !t.quantRules s tn || !t.shardRules || !t.extRules dst ||
    (out && (!t.distinct || t.layout == 4)) then 0x02
  else if t.shardRange s then 0x03
  else 0

/-! ### Writing -/

/-- Bytes to be written, by address. -/
abbrev Patch := Tab (Option Byte)

/-- Add a byte. -/
def Patch.put (p : Patch) (a : Nat) (b : Byte) : Patch := tset none p a (some b)

/-- Add bytes. -/
def Patch.puts (p : Patch) (a : Nat) (l : List Byte) : Patch := l.zipIdx.foldl (fun p e => p.put (a + e.2) e.1) p

/-- Add half a byte: what is already there, or memory, keeps the other half. -/
def Patch.putNib (p : Patch) (s : State) (tn a half v : Nat) (last : Bool) : Patch :=
  let old := ((tget none p a).getD (rdByte s tn a)).toNat
  let b := if half = 0 then (if last then 0 else old / 16 * 16) + v else old % 16 + 16 * v
  p.put a (BitVec.ofNat 8 b)

/-- The patch as runs of consecutive bytes, cut at row boundaries (R276). -/
def Patch.runs : Patch → List (Nat × List Byte)
  | [] => []
  | (a, b) :: t =>
    let b := b.getD 0
    match Patch.runs t with
    | (c, l) :: r => if a + 1 = c ∧ c % 512 ≠ 0 then (a, b :: l) :: r else (a, [b]) :: (c, l) :: r
    | [] => [(a, [b])]

/-- Local index and fill of a ROWTILE row's places beyond the extents (R336): the places an element at the edge has
filled beside it. -/
def Tensor.padPlaces (t : Tensor) (idx ext : List Nat) : List (List Nat) :=
  if t.layout = 3 then
    let k := t.ndim - 3
    let c := wd idx k
    let x := wd idx (k + 2)
    let cs := if c + 1 = wd ext k then (List.range (upTo (wd ext k) (tileC t.fmt) - wd ext k)).map (· + wd ext k) else []
    let xs := if x + 1 = wd ext (k + 2) then (List.range (upTo (wd ext (k + 2)) 16 - wd ext (k + 2))).map (· + wd ext (k + 2)) else []
    let at_ := fun c x => (idx.set k c).set (k + 2) x
    cs.map (fun c => at_ c x) ++ xs.map (fun x => at_ c x) ++ cs.flatMap (fun c => xs.map (fun x => at_ c x))
  else []

/-- Write one element's code to every rank that holds it (R348), with the fill of R336. -/
def Tensor.putCode (t : Tensor) (s : State) (tn : Nat) (p : Patch) (idx : List Nat) (code : Nat) : Patch :=
  (t.held idx).foldl (fun p h =>
    let one := fun (p : Patch) (i : List Nat) (v : Nat) =>
      let q := t.place h.2.1 i h.2.2.2
      if t.nib then
        let pk := wd i t.pack
        p.putNib s tn q.1 q.2 (v % 16) (q.2 == 0 && decide (wd h.2.2.2 t.pack ≤ pk + 1) && t.layout != 3)
      else p.puts q.1 (leBytes t.esize v)
    (t.padPlaces h.2.2.1 h.2.2.2).foldl (fun p i => one p i 0) (one p h.2.2.1 code)) p

/-- Elements of an FP4 block of a tensor, as indices. -/
def Tensor.blockOf (t : Tensor) (idx : List Nat) : List (List Nat) :=
  let p := t.pack
  let b := wd idx p / 32 * 32
  (List.range (min 32 (wd t.shape p - b))).map (fun i => idx.set p (b + i))

/-- Write FP4 values: each block touched is converted anew under R230, its elements that are not written keeping their
values as the writer of the block's first written element sees them.  Answers the patch and the number of saturated
elements. -/
def Tensor.putFp4 (t : Tensor) (view : List Nat → State) (tn : Nat) (rtz : Bool) (p : Patch) (l : List (List Nat × Fv)) :
    Patch × Nat :=
  l.foldl (fun acc e =>
    let blk := t.blockOf e.1
    -- the first written element of a block carries the whole block
    match blk.find? (fun i => l.any (fun x => x.1 == i)) with
    | some i0 =>
      if i0 = e.1 then
        let s := view i0
        let vals := blk.map (fun i => match l.find? (fun x => x.1 == i) with
          | some x => x.2
          | none => t.value s tn none i)
        let sc := fp4Scale vals
        let p1 := acc.1.put (t.scaleAt e.1) (BitVec.ofNat 8 sc)
        (blk.zip vals).foldl (fun acc x =>
          let c := fp4Elem sc rtz x.2
          (t.putCode s tn acc.1 x.1 c.1, acc.2 + b2n (c.2 && l.any (fun y => y.1 == x.1)))) (p1, acc.2)
      else acc
    | none => acc) (p, 0)

/-! ### Moves (R340) -/

/-- A coordinate mirrored into `[0, n)` without repeating the edge (R108). -/
def mirror (n : Nat) (i : Int) : Int :=
  if n ≤ 1 then 0
  else
    let p : Int := 2 * (n - 1)
    let r := i % p
    if r < n then r else p - r

/-- What an element of a destination receives: a source element, a constant, or nothing. -/
inductive Src1 where
  | elem (idx : List Nat)
  | const
  | none
  deriving DecidableEq, Repr

/-- R340: the source of destination index `j − offset`, by fill 0 NONE, 1 CONSTANT, 2 EDGE, 3 REFLECT. -/
def fillSrc (ext : List Nat) (fill : Nat) (i : List Int) : Src1 :=
  let inside := (i.zip ext).all (fun e => decide (0 ≤ e.1) && decide (e.1 < e.2))
  if inside then .elem (i.map Int.toNat)
  else if fill = 1 then .const
  else if fill = 2 then .elem ((i.zip ext).map (fun e => (clampI 0 (e.2 - 1) e.1).toNat))
  else if fill = 3 then .elem ((i.zip ext).map (fun e => (mirror e.2 e.1).toNat))
  else .none

/-- R340: with REFLECT every reach stays within EXTENT − 1. -/
def reachOk (lo hi : Int) (n : Nat) : Bool := decide (-(n : Int) < lo) && decide (hi ≤ 2 * (n : Int) - 2)

end Sys2Proof.Machine
end

