-- ==== Sys2Proof/Machine/Work.lean ====
section
/-! DEFINITION. What the engines share: the work of a task and how it takes effect, failed tasks, image references and
the wheels they name (R133, R134, R293 to R298). -/

namespace Sys2Proof.Machine

/-! ### A task's work -/

/-- The memory work of a task: what it reads and writes, the flags its outputs carry, its run time in ARCLK cycles and
its pushes (millrace, buffer index). -/
structure Work where
  reads : List (Nat × Nat)
  writes : List (Nat × List Byte)
  flags : Nat
  cycles : Nat
  pushes : List (Nat × Nat)
  deriving DecidableEq, Repr

/-- No work. -/
def workNone : Work := { reads := [], writes := [], flags := 0, cycles := 0, pushes := [] }

/-- What a look at a task's work gives: it waits on a wheel, an access fails, its dispatch check fails, or the work. -/
inductive Look where
  | stall (wheel : Nat)
  | bad (c : Chk)
  | fail (status : Nat)
  | work (w : Work)
  deriving DecidableEq, Repr

/-- Flags of a run's outputs so far: inputs, its own, and those of its engine (R14, R153). -/
def outFlags (s : State) (r : Run) (own : Nat) : Nat := flagBits (inputFlags s r.task ||| own ||| goldenFlags s r)

/-- R67: a task meets a failed access: the entry is logged and its instance is aborted. -/
def faultRun (eng : Nat) (c : Chk) (s : State) : State :=
  match runOn s eng with
  | some r => wantAbort r.task.tmpl r.task.slot 2 (logChk c r.task.tenant (engRef eng) s)
  | none => s

/-- A push of a task (R124, R311): generation is the node's tag; the effective priority is the task's. -/
def pushOf (r : Run) (m idx : Nat) : Push where
  mrq := m
  handle := r.task.tag % 256 * 2 ^ 24 + idx % 2 ^ 24
  tmpl := r.task.tmpl
  slot := r.task.slot
  seq := r.task.seq
  tag := r.task.tag
  prio := r.task.prio
  requester := r.eng

/-- Carry out a run's work: every access is checked first, and a failing one leaves memory as it was. -/
def doWork (eng : Nat) (w : Work) (s : State) : State :=
  match runOn s eng with
  | none => s
  | some r =>
    match chkAll s r.task.tenant w.reads (w.writes.map (fun x => (x.1, x.2.length))) with
    | .ok =>
      let s1 := w.reads.foldl (fun s x => touchRead x.1 x.2 s) s
      let s2 := w.writes.foldl (fun s x => wrBytes r.task.tenant x.1 x.2 s) s1
      let s3 := modRun eng (fun r => { r with worked := true, stalled := false, flags := r.flags ||| w.flags,
                                              cycles := r.cycles + w.cycles }) s2
      w.pushes.foldl (fun s p => presentPush (pushOf r p.1 p.2) s) s3
    | c => faultRun eng c s

/-- A run waits on a wheel: the stalled cycle is counted (R294). -/
def stallRun (eng k : Nat) (s : State) : State := wheelStall k (modRun eng (fun r => { r with stalled := true }) s)

/-- Words of a task's descriptor. -/
def descWords (s : State) (k : Task) (n : Nat) : List Nat :=
  match nodeOfTask s k with
  | some nd => rdWords s k.tenant nd.work n
  | none => []

/-- Address of a task's descriptor. -/
def descAddr (s : State) (k : Task) : Nat := match nodeOfTask s k with | some nd => nd.work | none => 0

/-- Bytes of the descriptor of a class's tasks (R70, R110, R146, R151, R171, R195, R209, R306, R366). -/
def descBytes (cls : Nat) : Nat :=
  if cls = 0 ∨ cls = 5 then 192 else if cls = 1 then 256 else if cls = 2 ∨ cls = 3 then 384 else if cls = 9 then 64 else 128

/-- A task of a class starts or goes on on an engine: a run already under way whose work is done is left alone, one that
stalls is looked at again, and otherwise a task that `pick` gives and `ok` admits is dispatched, and reads its descriptor
(R282, R286).  `go` does the rest. -/
def engineStep (cls eng : Nat) (pick : Option Task) (ok : Task → Bool) (go : Run → State → State) (s : State) : State :=
  match runOn s eng with
  | some r => if r.task.cls == cls && ok r.task && !r.worked && !r.cancelled then settle (go r s) else s
  | none =>
    match pick with
    | some k =>
      if ok k then
        let s1 := readMark k.tenant (descAddr s k) (descBytes cls) (dispatch k eng [] s)
        match runOn s1 eng with
        | some r => settle (go r s1)
        | none => s1
      else s
    | none => s

/-- The descriptor has nonzero bits outside `mask` words (a mask of each word's defined bits; words beyond are 0). -/
def maskFails (w : List Nat) (mask : List Nat) : Bool :=
  w.zipIdx.any (fun e => decide (e.1 &&& (0xFFFFFFFF ^^^ (mask.getD e.2 0)) ≠ 0))

/-! ### Pixel values -/

/-- FP32 value of a pixel. -/
def pixReal (pix code : Nat) : Nat := if pix = 2 then f32r (fdecode ffF16 code) else f32OfInt (pixInt pix code)

/-- Code of an FP32 value in FP16, saturating at ±65,504 (R140). -/
def halfCode (x : Nat) : Nat :=
  match f32v x with
  | .inf n => (if n then 0x8000 else 0) + 0x7BFF
  | v => (fencode ffF16 false false v).1

/-- Code of an FP32 value in FP16, rounded to nearest even (R148, R232). -/
def halfRne (x : Nat) : Nat := (fencode ffF16 false false (f32v x)).1

/-- Bytes of a line given by pixel codes. -/
def lineBytesOf (pix : Nat) (l : List Nat) : List Byte := l.flatMap (leBytes (pixBytes pix))

/-! ### Wheels as tasks use them (R294 to R298) -/

/-- The frame a task names on a wheel: its instance's sequence number (R295). -/
def wheelFrame (r : Run) : Nat := r.task.seq

/-- R295: the consuming node's first access to a frame steps to its origin. -/
def openCons (k : Nat) (r : Run) (h : Nat) (s : State) : State :=
  let w := wheelSt s k
  let w1 := cStep (places s k) { w with cNode := some (nodeName r.task.tmpl r.task.node),
                                        height := if w.height = 0 then h else w.height } (wheelFrame r)
  putWheel k w1 s

/-- R295: the producing node's first access to a frame steps to its origin. -/
def openProd (k : Nat) (r : Run) (h : Nat) (s : State) : State :=
  let w := wheelSt s k
  putWheel k (pStep (places s k) { w with pNode := some (nodeName r.task.tmpl r.task.node) } (wheelFrame r) h) s

/-- Lines `lo` to `hi − 1` of the frame can be read: written, and the frame is not older than the two kept.  None: it is
older and the access faults. -/
def consReady (s : State) (k : Nat) (r : Run) (hi : Nat) : Option Bool :=
  (cOrigin (wheelSt s k) (wheelFrame r)).map (fun o => decide (o + hi ≤ (wheelSt s k).tail))

/-- Lines up to `hi` − 1 of the frame can be written. -/
def prodReady (s : State) (k : Nat) (r : Run) (hi : Nat) : Option Bool :=
  (pOrigin (wheelSt s k) (wheelFrame r)).map (fun o => hi == 0 || wheelRoom (places s k) (wheelSt s k) (o + hi - 1))

/-- Mark lines of the frame written. -/
def markLines (k : Nat) (r : Run) (lines : List Nat) (s : State) : State :=
  match pOrigin (wheelSt s k) (wheelFrame r) with
  | some o => putWheel k (lines.foldl (fun w j => markWritten (places s k) (o + j) w) (wheelSt s k)) s
  | none => s

/-- R296: raise RELEASE to line `j` of the frame. -/
def releaseTo (k : Nat) (r : Run) (j : Nat) (s : State) : State :=
  match cOrigin (wheelSt s k) (wheelFrame r) with
  | some o => putWheel k (raiseRelease (o + j) (wheelSt s k)) s
  | none => s

/-- What the wheels of a task say before it runs: each source line up to `hi` is written, each output line up to `hi`
has room; otherwise a stall, or a fault on a frame that is too old. -/
def wheelsReady (s : State) (r : Run) (src dst : List (Nat × Nat)) : Option Look :=
  let one := fun (acc : Option Look) (x : (Nat × Nat) × Bool) => match acc with
    | some l => some l
    | none =>
      match (if x.2 then prodReady s x.1.1 r x.1.2 else consReady s x.1.1 r x.1.2) with
      | none => some (.bad (.unmapped (lineAddr s x.1.1 0)))
      | some true => none
      | some false => some (.stall x.1.1)
  ((src.map (fun x => (x, false))) ++ (dst.map (fun x => (x, true)))).foldl one none

/-- R134, R143: the completed prefix of a node's tasks as the engines see it, with a stripe counted as done: a
completion that is held (R432) is only kept from the sequencer and the consumers (log entry 171). -/
def prefixWith (s : State) (k : Task) : Nat :=
  match (instAt s k.tmpl k.slot).bind (fun i => i.nodes[k.node]?) with
  | some m => prefixLen ((m.cells.map (fun c => if c.phase == .held then { c with phase := .done } else c)).modify k.stripe
      (fun c => { c with phase := .done }))
  | none => k.stripe + 1

/-! ### Striping (R48) -/

/-- Lines `[y0, y1)` of a stripe of a task in an image of `h` lines; the whole of an unstriped one. -/
def stripeLines (nd : Node) (k : Task) (h : Nat) : Nat × Nat :=
  if nd.height = 0 then (0, h) else (min h (nd.height * k.stripe), min h (nd.height * (k.stripe + 1)))

/-- The stripe count agrees with an image's height. -/
def stripesOk (nd : Node) (h : Nat) : Bool := if nd.height = 0 then nd.stripes == 1 else nd.stripes == cdiv h nd.height

/-- R124: buffer index of a handle: stripe, frame index and output number. -/
def handleIdx (stripe frame out : Nat) : Nat := stripe % 1024 + frame % 4096 * 2 ^ 10 + out % 4 * 2 ^ 22

/-- The frame number of R55 of a task's instance. -/
def taskFrameNo (s : State) (k : Task) : Nat := match taskCtx s k with | some (_, _, i) => i.frameNo | none => 0

/-- A task carries PREV_ABSENT (R58). -/
def taskPrevAbsent (s : State) (k : Task) : Bool :=
  match (instAt s k.tmpl k.slot).bind (fun i => i.nodes[k.node]?) with
  | some m => m.prevAbsent
  | none => false

/-- The wheel releases a task makes when it completes (R107, R143, R296). -/
def setReleases (eng : Nat) (l : List (Nat × Nat × Nat)) (s : State) : State := modRun eng (fun r => { r with releases := l }) s

/-- R154: the node of a task has had a stripe that failed its dispatch check. -/
def markFailed (k : Task) (s : State) : State :=
  modInst k.tmpl k.slot (fun i => { i with nodes := i.nodes.modify k.node (fun m => { m with failed := true }) }) s

/-- INVALID where an earlier stripe of the task's node failed. -/
def failedFlags (s : State) (k : Task) : Nat :=
  match (instAt s k.tmpl k.slot).bind (fun i => i.nodes[k.node]?) with
  | some m => if m.failed then fInvalid else 0
  | none => 0

/-- R154 and its like: a failed task's effect beside its writes: the log entry and the engine's FAULT register. -/
def failRun (eng code reg idx status : Nat) (s : State) : State :=
  match runOn s eng with
  | some r => cnt reg idx 1 (addLog code r.task.tenant (engRef eng) status 0 0 s)
  | none => s

end Sys2Proof.Machine
end

