-- ==== Sys2Proof/Machine/Pass.lean ====
section
/-! DEFINITION. The end of a stream pass (R311, R312, R316 to R319): status record, handle, faults. -/

namespace Sys2Proof.Machine

/-- The stream context of an engine number. -/
def ctxOf (eng : Nat) : Nat := eng - 0x10000

/-- What a pass keeps in its run: STAT_ADDR, HANDLE_EN, MILLRACE, ENTRY, buffer index, BASE_SRC, bytes written, effective
priority, pieces, base plus 1, and the descriptor's words. -/
def passInfo (r : Run) (k : Nat) : Nat := wd r.info k

/-- A pass whose data have all been moved and which has not ended. -/
def passMoved (r : Run) : Bool :=
  r.task.cls == 7 && !r.worked && !r.cancelled && !r.info.isEmpty && decide (passInfo r 8 ≤ r.pos)

/-- R317: a pass's status record. -/
def passRecord (r : Run) (flags status : Nat) : List Byte :=
  wordsBytes [validity flags + status * 2 ^ 8 + (if passInfo r 5 = 1 then passInfo r 3 else 0) * 2 ^ 16, r.task.seq,
    min (passInfo r 6) (2 ^ 32 - 1), min r.refetch 255 + min r.hbmRetry 255 * 2 ^ 8, 0, 0, 0, 0]

/-- Where it goes. -/
def passStat (r : Run) : Nat := passInfo r 0 + 32 * r.task.slot

/-- Write the status record; an access that fails is answered. -/
def writePassStat (r : Run) (flags status : Nat) (s : State) : Chk × State :=
  match chkAccess s r.task.tenant (passStat r) 32 true with
  | .ok => (.ok, wrBytes r.task.tenant (passStat r) (passRecord r flags status) s)
  | c => (c, s)

/-- Address of a failed access. -/
def chkAddr (c : Chk) : Nat :=
  match c with
  | .ok => 0
  | .unmapped a => a
  | .denied a => a
  | .check a => a
  | .timeout a => a
  | .poison r _ => rowAddr r

/-- R316: the cause code of a failed access. -/
def chkCause (c : Chk) : Nat :=
  match c with
  | .denied _ => 9
  | .check _ => 2
  | .timeout _ => 6
  | .poison _ _ => 7
  | _ => 8

/-- What a pass's failed access enters beside its STREAM_FAULT entry: a completion timeout nothing (R316). -/
def passLog (c : Chk) (t eng : Nat) (s : State) : State :=
  match c with
  | .timeout _ => s
  | c => logChk c t eng s

/-- R316: a stream fault: logged, counted, the instance aborted. -/
def streamFault (eng : Nat) (r : Run) (cause addr : Nat) (s : State) : State :=
  let s1 := addLog 0x0012 r.task.tenant (engRef eng)
    (ctxOf eng + cause * 2 ^ 8 + min r.refetch 255 * 2 ^ 16 + min r.hbmRetry 255 * 2 ^ 24) addr (addr / 2 ^ 32) s
  wantAbort r.task.tmpl r.task.slot 2 (cnt R.strCtxFault (ctxOf eng) 1 s1)

/-- R316, R317: the pass on an engine ends with a fault: its status record is flagged INVALID. -/
def faultPass (eng cause addr : Nat) (s : State) : State :=
  match runOn s eng with
  | some r =>
    let s1 := if r.info.isEmpty then s else (writePassStat r (outFlags s r fInvalid) 0 s).2
    streamFault eng r cause addr s1
  | none => s

/-- R312, R317, R311: the pass on an engine ends: status record, then its handle. -/
def finishPass (eng : Nat) (r : Run) (flags status : Nat) (s : State) : State :=
  match writePassStat r flags status s with
  | (.ok, s1) =>
    let s2 := modRun eng (fun r => { r with worked := true, stalled := false, flags := flags }) s1
    if passInfo r 1 = 1 then
      presentPush (pushOf r (passInfo r 2)
        (if passInfo r 5 = 1 then passInfo r 3 else if passInfo r 5 = 2 then passInfo r 4 else 0)) s2
    else s2
  | (c, s1) => streamFault eng r (chkCause c) (chkAddr c) (passLog c r.task.tenant (engRef eng) s1)

/-- The pass ends normally (R318). -/
def endPass (eng : Nat) (r : Run) (s : State) : State := finishPass eng r (outFlags s r 0) 0 s

end Sys2Proof.Machine
end

