-- ==== Sys2Proof/Machine/Stream.lean ====
section
/-! DEFINITION. Stream engines (R303 to R319, R340, R408, R409): dispatch checks, passes in COPY and TENSOR mode, what
the data path returns. -/

namespace Sys2Proof.Machine

/-! ### The descriptor (R306) -/

/-- Defined bits of the words of a stream descriptor. -/
def strMask : List Nat :=
  [0x07FFFFFF, 0x00007F3F, 0xFFFFFFFF, 0x0000FFFF, 0xFFFFFFFF, 0x0000FFFF, 0xFFFFFFFF, 0x00000003, 0x0001FFFF,
   0xFFFFFFFF, 0xFFFFFFFF, 0x0000FFFF, 0xFFFFFFFF, 0x0000FFFF]

/-- The instance of a task. -/
def taskInst (s : State) (k : Task) : Option Inst := instAt s k.tmpl k.slot

/-- The first handle a task receives (R310). -/
def firstHandle (s : State) (k : Task) : Option Nat :=
  match taskInst s k with
  | some i => match (i.nodes[k.node]?).bind (fun m => m.handles.head?) with
    | some h => some h
    | none => i.handle
  | none => none

/-- One side of a COPY: an address, or a wheel. -/
structure Side where
  wheel : Bool
  addr : Nat
  deriving DecidableEq, Repr

/-- Key of a side's wheel. -/
def Side.key (d : Side) : Nat := bits d.addr 7 0 + 256 * bits d.addr 13 8

/-- Everything a pass takes from its descriptor. -/
structure PassD where
  w : List Nat
  ctx : Nat
  bsrc : Nat
  entry : Nat
  bidx : Nat
  base : Option Nat
  prio : Nat
  deriving DecidableEq, Repr

def PassD.tensor (d : PassD) : Bool := bit (wd d.w 0) 8
def PassD.rearmDst (d : PassD) : Bool := bit (wd d.w 0) 14
def PassD.arrEn (d : PassD) : Bool := bit (wd d.w 0) 15
def PassD.length (d : PassD) : Nat := wd d.w 6
def PassD.stat (d : PassD) : Nat := addr48 d.w 12

/-- Read the descriptor and work out its base (R308, R310); a pass under way keeps what it took at its dispatch (R309). -/
def passD (s : State) (eng : Nat) (r : Run) : PassD :=
  let w := if r.info.isEmpty then descWords s r.task 32 else r.info.drop 10
  let ctx := ctxOf eng
  let bsrc := bits (wd w 0) 13 12
  let entry := if bsrc = 1 then r.task.seq % (bits (wd w 1) 5 0 + 1) else 0
  let h := (firstHandle s r.task).map (fun h => h % 2 ^ 24)
  { w := w, ctx := ctx, bsrc := bsrc, entry := entry, bidx := h.getD 0,
    base := if !r.info.isEmpty then (if passInfo r 9 = 0 then none else some (passInfo r 9 - 1))
            else if bsrc = 1 then tget none s.ring (64 * ctx + entry)
            else if bsrc = 2 then h.map (fun i => addr48 w 10 + i * wd w 9 * 512) else none,
    prio := min (bits (wd w 0) 11 9) (prioCap s r.task.tenant) }

/-- Source and destination of a COPY. -/
def PassD.src (d : PassD) : Side :=
  { wheel := bit (wd d.w 7) 0, addr := if d.bsrc ≠ 0 ∧ !d.rearmDst then d.base.getD 0 else addr48 d.w 2 }
def PassD.dst (d : PassD) : Side :=
  { wheel := bit (wd d.w 7) 1, addr := if d.bsrc ≠ 0 ∧ d.rearmDst then d.base.getD 0 else addr48 d.w 4 }

/-- The two tensors of a TENSOR pass; the wind-up base replaces that of one. -/
def PassD.tensors (d : PassD) (s : State) (tn : Nat) : Tensor × Tensor :=
  let rebase := fun (t : Tensor) (b : Nat) => { t with w := (t.w.set 1 (b % 2 ^ 32)).set 2 (wd t.w 2 / 2 ^ 16 * 2 ^ 16 + b / 2 ^ 32 % 2 ^ 16) }
  let a := tensorOf s tn (addr48 d.w 2)
  let b := tensorOf s tn (addr48 d.w 4)
  match d.base with
  | some x => if d.rearmDst then (a, rebase b x) else (rebase a x, b)
  | none => (a, b)

/-- The pass's instance is protected (R407). -/
def passKey (s : State) (r : Run) : Option Nat := (taskInst s r.task).bind (fun i => i.key)

/-- The destination lies in scratch. -/
def Side.scratch (d : Side) : Bool := d.wheel || isScratch d.addr

/-- R307, R298: the rules of one side of a COPY. -/
def Side.rules (d : Side) (s : State) (len : Nat) : Bool :=
  if d.wheel then
    decide (64 ≤ bits d.addr 7 0) || (wheelEn s d.key && decide (0 < placeRows s d.key) && len % (placeRows s d.key * 512) == 0)
  else !isScratch d.addr || (d.addr % 512 == 0 && len % 512 == 0)

/-- R340: equal quantisation. -/
def sameQuant (s : State) (tn : Nat) (a b : Tensor) : Bool :=
  a.qmode == b.qmode && a.qaxis == b.qaxis && a.scale == b.scale && a.zp == b.zp &&
  (a.qmode != 2 || (List.range (min (a.extent a.qaxis) (b.extent b.qaxis))).all (fun i =>
    rdN s tn (a.qarray + 8 * i) 8 == rdN s tn (b.qarray + 8 * i) 8))

/-- R349: bytes the tensor can address: one range from the lowest to past the highest, its scale array included; of a
distributed tensor one for each rank's slice, and its scale array. -/
def tensorRanges (t : Tensor) : List (Nat × Nat) :=
  let blocks := cdiv t.count (max 1 (wd t.shape t.pack)) * cdiv (wd t.shape t.pack) 32
  (if t.sharded then t.cores.zipIdx.map (fun c =>
      let g := c.2 % max 1 t.grid
      let coords := (List.range t.ndim).reverse.foldl (fun (a : List Nat × Nat) d =>
        (a.2 % t.shSplit d :: a.1, a.2 / t.shSplit d)) ([], g)
      (sliceBase t.base c.1, t.bound (coords.1.zipIdx.map (fun e => t.shardExt e.2 e.1))))
   else if t.fmt = 5 then
     [(min t.base t.scales, max (t.base + t.bound t.shape) (t.scales + blocks) - min t.base t.scales)]
   else [(t.base, t.bound t.shape)]) ++
  (if t.sharded ∧ t.fmt = 5 then [(t.scales, blocks)] else [])

/-- The scale array of an FP4 tensor. -/
def scaleRange (t : Tensor) : List (Nat × Nat) :=
  if t.fmt = 5 then [(t.scales, cdiv t.count (max 1 (wd t.shape t.pack)) * cdiv (wd t.shape t.pack) 32)] else []

/-- Two lists of ranges share a byte. -/
def rangesMeet (a b : List (Nat × Nat)) : Bool :=
  a.any (fun x => b.any (fun y =>
    decide (0 < x.2) && decide (0 < y.2) && decide (x.1 < y.1 + y.2) && decide (y.1 < x.1 + x.2)))

/-- R340, R339, R349: the rules of a TENSOR pass beside those of each tensor. -/
def tensorRules (s : State) (tn : Nat) (d : PassD) (keyed : Bool) : Bool :=
  let (a, b) := d.tensors s tn
  let host := fun (t : Tensor) => (tensorRanges t).any (fun x => decide (hostBase ≤ x.1))
  d.length == 0 && wd d.w 7 == 0 && a.fmt == b.fmt && a.ndim == b.ndim && sameQuant s tn a b &&
  (b.fill != 3 || (List.range b.ndim).all (fun i =>
    reachOk (-(b.offset i)) ((b.extent i : Int) - 1 - b.offset i) (a.extent i))) &&
  !rangesMeet (tensorRanges a) (tensorRanges b) && !(keyed && (host a || host b))

/-- R319: the dispatch check of a pass: 0 when it holds. -/
def passCheck (s : State) (eng : Nat) (r : Run) (d : PassD) : Nat :=
  let tn := r.task.tenant
  let own := rget s R.strCtxOwner (ctxOf eng)
  let (a, b) := d.tensors s tn
  let ca := if d.tensor then a.check s tn (addr48 d.w 2) false false else 0
  let cb := if d.tensor then b.check s tn (addr48 d.w 4) true true else 0
  let wheelBits := fun (x : Side) => x.wheel && decide (2 ^ 14 ≤ x.addr)
  if maskFails d.w strMask || d.bsrc == 3 || ca == 1 || cb == 1 || (!d.tensor && (wheelBits d.src || wheelBits d.dst)) then 0x01
  else if (d.arrEn && !arrExists (wd d.w 8)) ||
    (!d.tensor && [d.src, d.dst].any (fun x => x.wheel && decide (64 ≤ bits x.addr 7 0))) || ca == 3 || cb == 3 then 0x03
  else
    let pf := bits (wd d.w 1) 14 8
    let striped := match taskCtx s r.task with | some (_, nd, _) => nd.stripes != 1 || nd.height != 0 | none => false
    let base := (d.bsrc == 1 || bits (wd d.w 1) 5 0 == 0) && (d.bsrc == 0 || d.base.isSome) &&
      (d.tensor || d.bsrc == 0 || (if d.rearmDst then addr48 d.w 4 == 0 else addr48 d.w 2 == 0))
    if pf == 0 || decide (64 < pf) || d.stat % 32 != 0 || striped || !base ||
      (if d.tensor then ca == 2 || cb == 2 || !tensorRules s tn d (passKey s r).isSome || (d.arrEn && !isScratch b.base)
       else d.length == 0 || !d.src.rules s d.length || !d.dst.rules s d.length || (d.arrEn && !d.dst.scratch)) then 0x02
    else if own ≠ 1 + r.task.tmpl * 256 then 0x04
    else 0

/-! ### Moving data -/

/-- The state as the reads of a pass see it: one in flight to a region that has been unmapped since ends there (R389). -/
def withLent (r : Run) (s : State) : State :=
  match r.lent with
  | some (k, g) => modFn r.task.tenant (fun f => { f with regions := tset none f.regions k (some g) }) s
  | none => s

/-- The first access of a pass that fails, reads before writes. -/
def passChk (s : State) (r : Run) (reads writes : List (Nat × Nat)) : Chk :=
  match chkAll (withLent r s) r.task.tenant reads [] with
  | .ok => chkAll s r.task.tenant [] writes
  | c => c

/-- Where a side's bytes stand in a 512-byte row. -/
def Side.inRow (x : Side) : Nat := if x.wheel then 0 else x.addr % 512

/-- Bytes of a piece of a COPY at offset `off`: within a 512-byte row of the destination and a row of a scratch source
(R303, R276). -/
def pieceLen (src dst : Side) (len off : Nat) : Nat :=
  let m := min (len - off) (512 - (dst.inRow + off) % 512)
  if src.scratch then min m (512 - (src.inRow + off) % 512) else m

/-- Offsets and lengths of the pieces of a COPY. -/
def piecesFrom (src dst : Side) (len : Nat) : Nat → Nat → List (Nat × Nat)
  | 0, _ => []
  | f + 1, off =>
    if len ≤ off then []
    else let m := max 1 (pieceLen src dst len off); (off, m) :: piecesFrom src dst len f (off + m)

/-- Pieces of a COPY. -/
def copyPieces (d : PassD) : List (Nat × Nat) := piecesFrom d.src d.dst d.length d.length 0

/-- Requests that an access makes: to a host region as R315 splits it, otherwise one for each 512 bytes (R303). -/
def requests (s : State) (tn lim a n : Nat) : Nat :=
  if hostBase ≤ a then (hostPieces s tn lim n a 0 n).length else cdiv n 512

/-- Read requests of an access, by the function's Max_Read_Request_Size (R315). -/
def readReqs (s : State) (tn a n : Nat) : Nat := requests s tn (tget fnReset s.fns tn).maxRead a n

/-- Write requests of an access, by the function's Max_Payload_Size (R315). -/
def writeReqs (s : State) (tn a n : Nat) : Nat := requests s tn (tget fnReset s.fns tn).maxPayload a n

/-- Address of offset `off` of a side. -/
def Side.at (x : Side) (s : State) (off : Nat) : Nat :=
  if x.wheel then
    let n := max 1 (placeRows s x.key * 512)
    lineAddr s x.key (off / n) + off % n
  else x.addr + off

/-- Lines of a wheel side, of a place each. -/
def Side.lines (x : Side) (s : State) (len : Nat) : Nat := len / max 1 (placeRows s x.key * 512)

/-- Rows of a write that land (R299): those of powered banks that are not retired. -/
def landedRows (s : State) (a n : Nat) : Nat :=
  if isScratch a ∧ n ≠ 0 then
    let r0 := rowOf a
    ((List.range (cdiv (a + n - scratchBase) 512 - r0)).filter (fun i => !bankDead s (r0 + i) && rowPoison s (r0 + i) != 3)).length
  else 0

/-- One write of a pass: memory, the context's bytes, its arrival counter (R312, R299). -/
def passWrite (eng : Nat) (r : Run) (d : PassD) (a : Nat) (l : List Byte) (s : State) : State :=
  let n := if d.arrEn then landedRows s a l.length else 0
  let s1 := cnt R.strCtxBytes (ctxOf eng) l.length (wrBytes r.task.tenant a l s)
  let s2 := modRun eng (fun r => { r with info := r.info.set 6 (passInfo r 6 + l.length) }) s1
  arrAdd (arrKey (wd d.w 8)) n s2

/-- One piece of a COPY.  Answers whether the pass goes on. -/
def copyPiece (eng : Nat) (r : Run) (d : PassD) (off n : Nat) (s : State) : Bool × State :=
  let tn := r.task.tenant
  let w1 := if d.src.wheel then wheelsReady s r [(d.src.key, off / max 1 (placeRows s d.src.key * 512) + 1)] [] else none
  let w2 := if d.dst.wheel then wheelsReady s r [] [(d.dst.key, off / max 1 (placeRows s d.dst.key * 512) + 1)] else none
  match w1, w2 with
  | some (.stall k), _ => (false, stallRun eng k s)
  | some (.bad c), _ => (false, faultPass eng (chkCause c) (chkAddr c) (passLog c tn (engRef eng) s))
  | _, some (.stall k) => (false, stallRun eng k s)
  | _, some (.bad c) => (false, faultPass eng (chkCause c) (chkAddr c) (passLog c tn (engRef eng) s))
  | _, _ =>
    let a := d.src.at s off
    let b := d.dst.at s off
    match passChk s r [(a, n)] [(b, n)] with
    | .ok =>
      let s1 := passWrite eng r d b (rdBytes (withLent r s) tn a n) (touchRead a n s)
      let s2 := if d.dst.wheel then
          let m := max 1 (placeRows s d.dst.key * 512)
          if (off + n) % m = 0 then markLines d.dst.key r [off / m] s1 else s1
        else s1
      let s3 := if d.src.wheel then
          let m := max 1 (placeRows s d.src.key * 512)
          if (off + n) % m = 0 then releaseTo d.src.key r (off / m + 1) s2 else s2
        else s2
      (true, modRun eng (fun r => { r with pos := r.pos + 1, aux := 0, lent := none }) s3)
    | c => (false, faultPass eng (chkCause c) (chkAddr c) (passLog c tn (engRef eng) s))

/-- Words 0 to 4 of an envelope: the additional authenticated data (R408). -/
def envAad (r : Run) (job dir len : Nat) : List Byte :=
  wordsBytes [1 + dir * 256, job, r.task.seq, r.task.node + r.task.tmpl * 2 ^ 20, len]

/-- R408: seal bytes into an envelope and advance the key's counter; `more` is authenticated beside the header.
A slot that is no longer held has been overwritten with zeros (R405); plaintext never leaves (R408). -/
def sealEnv (slot : Nat) (r : Run) (more plain : List Byte) (s : State) : List Byte × State :=
  match slotAt s slot with
  | some k =>
    let nonce := 1 + k.nonce * 2 ^ 32
    let aad := envAad r k.jobId 1 plain.length
    let cipher := gcmSeal k.key nonce plain
    (aad ++ leBytes 12 nonce ++ cipher ++ gcmTag k.key nonce (aad ++ more) cipher,
      putSlot slot (some { k with nonce := k.nonce + 1 }) s)
  | none =>
    let aad := envAad r 0 1 plain.length
    let zero : List Byte := List.replicate 32 0
    let cipher := gcmSeal zero 1 plain
    (aad ++ leBytes 12 1 ++ cipher ++ gcmTag zero 1 (aad ++ more) cipher, s)

/-- R409: open an envelope read from a host; none when its check fails. -/
def openEnv (s : State) (slot : Nat) (r : Run) (len : Nat) (b : List Byte) : Option (List Byte) :=
  match slotAt s slot with
  | some k =>
    let aad := b.take 20
    let nonce := leNat ((b.drop 20).take 12)
    let cipher := (b.drop 32).take len
    if aad = envAad r k.jobId 2 len ∧ nonce % 256 = 2 ∧ gcmTag k.key nonce aad cipher = b.drop (32 + len)
    then some (gcmOpen k.key nonce cipher) else none
  | none => none

/-- R408, R409: a protected COPY with a side in a mapped region moves whole: a host source is opened, a host
destination sealed. -/
def copyKeyed (eng : Nat) (r : Run) (d : PassD) (slot : Nat) (s : State) : State :=
  let tn := r.task.tenant
  let hs := decide (hostBase ≤ d.src.addr) && !d.src.wheel
  let hd := decide (hostBase ≤ d.dst.addr) && !d.dst.wheel
  let n := d.length
  let nr := if hs then n + 48 else n
  let nw := if hd then n + 48 else n
  let src := if d.src.wheel then (copyPieces d).map (fun p => (d.src.at s p.1, p.2)) else [(d.src.addr, nr)]
  let dst := if d.dst.wheel then (copyPieces d).map (fun p => (d.dst.at s p.1, p.2)) else [(d.dst.addr, nw)]
  match wheelsReady s r (if d.src.wheel then [(d.src.key, d.src.lines s n)] else [])
      (if d.dst.wheel then [(d.dst.key, d.dst.lines s n)] else []) with
  | some (.stall k) => stallRun eng k s
  | some (.bad c) => faultPass eng (chkCause c) (chkAddr c) (passLog c tn (engRef eng) s)
  | _ =>
    match passChk s r src dst with
    | .ok =>
      let raw := src.flatMap (fun x => rdBytes (withLent r s) tn x.1 x.2)
      match (if hs then openEnv s slot r n raw else some raw) with
      | none => faultPass eng 10 d.src.addr (cnt R.secEnvFail 0 1 s)
      | some plain =>
        let s := src.foldl (fun s x => touchRead x.1 x.2 s) s
        let e := if hd then sealEnv slot r [] plain s else (plain, s)
        let s1 := (dst.foldl (fun (a : List Byte × State) x =>
          (a.1.drop x.2, passWrite eng r d x.1 (a.1.take x.2) a.2)) e).2
        let s2 := if d.dst.wheel then markLines d.dst.key r (List.range (d.dst.lines s n)) s1 else s1
        let s3 := if d.src.wheel then releaseTo d.src.key r (d.src.lines s n) s2 else s2
        modRun eng (fun r => { r with pos := passInfo r 8, stalled := false, lent := none }) s3
    | c => faultPass eng (chkCause c) (chkAddr c) (passLog c tn (engRef eng) s)

/-- R340: the moves of a TENSOR pass: destination index and its source. -/
def tensorMoves (a b : Tensor) : List (List Nat × Src1) :=
  (allIdx b.shape).map (fun j => (j, fillSrc a.shape b.fill (j.zipIdx.map (fun e => (e.1 : Int) - b.offset e.2))))

/-- R340: bytes read and bytes written by a TENSOR pass. -/
def tensorWork (s : State) (tn : Nat) (a b : Tensor) : List (Nat × Nat) × Patch :=
  let mv := tensorMoves a b
  let reads := mv.flatMap (fun m => match m.2 with | .elem i => a.elemReads none i | _ => [])
  let fillV := wd b.x 7
  if a.fmt = 5 then
    let vals := mv.filterMap (fun m => match m.2 with
      | .elem i => some (m.1, a.value s tn none i)
      | .const => some (m.1, f32v (f32Div fillV (b.quant s tn m.1).1))
      | .none => none)
    (reads, (b.putFp4 (fun _ => s) tn false [] vals).1)
  else
    (reads, mv.foldl (fun p m => match m.2 with
      | .elem i => b.putCode s tn p m.1 (a.code s tn none i)
      | .const => let q := b.quant s tn m.1; b.putCode s tn p m.1 (quantTo b.fmt q.1 q.2 false fillV).1
      | .none => p) [])

/-- A TENSOR pass moves its data. -/
def tensorRun (eng : Nat) (r : Run) (d : PassD) (s : State) : State :=
  let tn := r.task.tenant
  let (a, b) := d.tensors s tn
  let w := tensorWork (withLent r s) tn a b
  let runs := w.2.runs
  match passChk s r w.1 (runs.map (fun x => (x.1, x.2.length))) with
  | .ok =>
    let s1 := w.1.foldl (fun s x => touchRead x.1 x.2 s) s
    modRun eng (fun r => { r with pos := passInfo r 8, lent := none }) (runs.foldl (fun s x => passWrite eng r d x.1 x.2 s) s1)
  | c => faultPass eng (chkCause c) (chkAddr c) (passLog c tn (engRef eng) s)

/-! ### Slots (R303, R313, R314) -/

/-- A pass that moves its data at once, when its last slot is granted: a TENSOR pass, or a protected COPY with a side in
a mapped region. -/
def passWhole (s : State) (r : Run) (d : PassD) : Bool :=
  d.tensor || ((passKey s r).isSome && (decide (hostBase ≤ d.src.addr) || decide (hostBase ≤ d.dst.addr)))

/-- Read slots and write slots of a piece; of a pass that moves at once, those of everything it moves. -/
def pieceSlots (s : State) (tn : Nat) (d : PassD) (whole : Bool) (p : Nat × Nat) : Nat × Nat :=
  if d.tensor then
    let w := tensorWork s tn (d.tensors s tn).1 (d.tensors s tn).2
    (sumN (w.1.map (fun x => readReqs s tn x.1 x.2)), sumN (w.2.runs.map (fun x => writeReqs s tn x.1 x.2.length)))
  else if whole then
    let env := fun (x : Side) => d.length + (if hostBase ≤ x.addr ∧ ¬ x.wheel then 48 else 0)
    (readReqs s tn d.src.addr (env d.src), writeReqs s tn d.dst.addr (env d.dst))
  else (readReqs s tn (d.src.at s p.1) p.2, writeReqs s tn (d.dst.at s p.1) p.2)

/-- A pass that has requests to make: its context, what it takes from its descriptor, and the pieces it has not moved,
each with its slots. -/
structure Asker where
  ctx : Nat
  d : PassD
  whole : Bool
  pieces : List ((Nat × Nat) × (Nat × Nat))

/-- The asker of a dispatched pass. -/
def askerOf (s : State) (r : Run) : Asker :=
  let d := passD s r.eng r
  let whole := passWhole s r d
  let ps := if whole then (if passMoved r then [] else [(0, d.length)]) else (copyPieces d).drop r.pos
  { ctx := ctxOf r.eng, d := d, whole := whole, pieces := ps.map (fun p => (p, pieceSlots (withLent r s) r.task.tenant d whole p)) }

/-- The passes under way on a stream engine. -/
def askers (s : State) (n : Nat) : List Asker :=
  (s.seq.runs.filter (fun r => r.task.cls == 7 && ctxOf r.eng / 64 == n && !r.worked && !r.cancelled && !r.info.isEmpty &&
    !passMoved r)).map (askerOf s)

/-- What a pass's next request waits for: a line of its source wheel, or room in its destination wheel (R294). -/
def slotWaits (s : State) (a : Asker) : Option Nat :=
  match runOn s (engCtx a.ctx), a.pieces with
  | some r, (p, c) :: _ =>
    if a.whole then none
    else
      let at_ := fun (x : Side) => [(x.key, p.1 / max 1 (placeRows s x.key * 512) + 1)]
      (match (if r.aux < c.1 then (if a.d.src.wheel then wheelsReady s r (at_ a.d.src) [] else none)
              else if a.d.dst.wheel then wheelsReady s r [] (at_ a.d.dst) else none) with
       | some (.stall k) => some k
       | _ => none)
  | _, _ => none

/-- The host address of a pass's read in flight: one whose read slots it has taken of its next piece. -/
def passReading (s : State) (r : Run) : Option Nat :=
  if r.task.cls ≠ 7 || r.worked || r.cancelled || r.info.isEmpty || passMoved r || r.aux == 0 then none
  else
    let d := passD s r.eng r
    if d.tensor then
      ((tensorWork s r.task.tenant (d.tensors s r.task.tenant).1 (d.tensors s r.task.tenant).2).1.map Prod.fst).find?
        (fun a => decide (hostBase ≤ a))
    else if !d.src.wheel && decide (hostBase ≤ d.src.addr) then
      some (d.src.at s (((copyPieces d).drop r.pos).headD (0, 0)).1)
    else none

/-- The arbiter of stream engine `n`. -/
def ptrSlot (n : Nat) : Nat := 20 + n

/-- R313: a context's class: its effective priority, or 8 once its request has been ready for 63 slots without one. -/
def slotClass (s : State) (a : Asker) : Nat := if 63 ≤ tget 0 s.seq.slotWait a.ctx then 8 else a.d.prio

/-- R313, R36: the context that the engine's next slot goes to. -/
def slotWinner (s : State) (n : Nat) (l : List Asker) : Option Asker :=
  let top := (l.map (slotClass s)).foldl max 0
  (rotFind 64 (tget 0 s.seq.ptrs (ptrSlot n)) (fun i => l.any (fun a => a.ctx % 64 == i && slotClass s a == top))).bind
    (fun i => l.find? (fun a => a.ctx % 64 == i))

/-- A slot is granted: counted, the pointer advances, and every other context with a request ready has waited one more. -/
def grantSlot (n : Nat) (a : Asker) (ready : List Asker) (s : State) : State :=
  let s1 := cnt R.strEngGrants n 1 (if slotClass s a = 8 then cnt R.strCtxStarved a.ctx 1 s else s)
  modSeq (fun q => { q with
    ptrs := tset 0 q.ptrs (ptrSlot n) ((a.ctx + 1) % 64),
    slotWait := (List.range 64).foldl (fun w i =>
      let c := 64 * n + i
      tset 0 w c (if c ≠ a.ctx ∧ ready.any (fun x => x.ctx == c) then min 63 (tget 0 q.slotWait c + 1) else 0))
      q.slotWait }) s1

/-- A pass uses a granted slot: the last one of a piece moves it.  Answers whether the pass goes on, and what it has still
to move. -/
def useSlot (a : Asker) (s : State) : Bool × Asker × State :=
  let eng := engCtx a.ctx
  match runOn s eng, a.pieces with
  | some r, (p, c) :: rest =>
    if r.aux + 1 < c.1 + c.2 then (true, a, modRun eng (fun r => { r with aux := r.aux + 1, stalled := false }) s)
    else if a.d.tensor then (false, a, tensorRun eng r a.d s)
    else
      (match passKey s r with
       | some slot =>
         if a.whole then (false, a, copyKeyed eng r a.d slot s)
         else
           let x := copyPiece eng r a.d p.1 p.2 s
           (x.1 && !rest.isEmpty, { a with pieces := rest }, x.2)
       | none =>
         let x := copyPiece eng r a.d p.1 p.2 s
         (x.1 && !rest.isEmpty, { a with pieces := rest }, x.2))
  | _, _ => (false, a, s)

/-- R313: the engine grants its slots until the pass of one context ends or stalls; other passes under way on it that
have a request ready take their turns. -/
def slotLoop (n target : Nat) : Nat → List Asker → State → State
  | 0, _, s => s
  | f + 1, l, s =>
    match l.find? (fun a => a.ctx == target) with
    | none => s
    | some t =>
      match slotWaits s t with
      | some k => stallRun (engCtx target) k s
      | none =>
        let ready := l.filter (fun a => (slotWaits s a).isNone)
        (match slotWinner s n ready with
         | none => s
         | some w =>
           let x := useSlot w (grantSlot n w ready s)
           slotLoop n target f
             (if x.1 then l.map (fun a => if a.ctx = w.ctx then x.2.1 else a) else l.filter (fun a => a.ctx != w.ctx)) x.2.2)

/-- Slots that the passes of a list may take. -/
def slotsOf (l : List Asker) : Nat := sumN (l.map (fun a => sumN (a.pieces.map (fun p => p.2.1 + p.2.2 + 1))))

/-- R313: a pass asks for slots; during a golden run of the engine none is granted. -/
def takeSlots (eng : Nat) (s : State) : State :=
  let n := ctxOf eng / 64
  if (engSt s (engU (1 + n) 0)).running.isSome then s
  else
    let l := askers s n
    let s1 := slotLoop n (ctxOf eng) (slotsOf l + 1) l s
    modRun eng (fun r => if passMoved r then { r with stalled := false } else r) s1

/-! ### A pass from its dispatch on -/

/-- Memory the dispatch check reads beside the descriptor: the tensors it names. -/
def passReads (s : State) (r : Run) (w : List Nat) : List (Nat × Nat) :=
    (if bit (wd w 0) 8 then tensorReads s r.task.tenant (addr48 w 2) ++ tensorReads s r.task.tenant (addr48 w 4) else [])

/-- The pass's parameters are taken (R306, STR_CTX_STAT). -/
def takePass (eng : Nat) (d : PassD) (pieces : Nat) (s : State) : State :=
  let s1 := modRun eng (fun r => { r with info := [d.stat, b2n (bit (wd d.w 0) 16), bits (wd d.w 0) 26 17, d.entry, d.bidx,
    d.bsrc, 0, d.prio, pieces, (match d.base with | some b => b + 1 | none => 0)] ++ d.w }) s
  rput R.strCtxStat (ctxOf eng) (d.prio * 2 + d.bsrc * 16 + d.entry * 256) s1

/-- R319: a failed check: logged, counted, the status record INVALID, the handle pushed, the pass complete. -/
def failPass (eng : Nat) (d : PassD) (status : Nat) (s : State) : State :=
  let s1 := takePass eng d 1 s
  match runOn s1 eng with
  | some r =>
    finishPass eng r (outFlags s1 r fInvalid) status
      (cnt R.strCtxFault (ctxOf eng) 1 (addLog 0x000F r.task.tenant (engRef eng) (ctxOf eng) status 0 s1))
  | none => s1

/-- Run or go on with the pass on a context.  A fault at its descriptor leaves no place for a status record; one at a
tensor it names ends the pass with one (R317). -/
def passGo (eng : Nat) (r : Run) (s : State) : State :=
  if r.info.isEmpty then
    let w := descWords s r.task 32
    match chkAccess s r.task.tenant (descAddr s r.task) 128 false, chkAll s r.task.tenant (passReads s r w) [] with
    | .ok, .ok =>
      if !ctxGranted s r.task.tenant (ctxOf eng) || (bit (wd w 0) 16 && !mrqGranted s r.task.tenant (bits (wd w 0) 26 17)) then
        wantAbort r.task.tmpl r.task.slot 2 s
      else
        let d := passD s eng r
        match passCheck s eng r d with
        | 0 =>
          let s1 := if d.src.wheel && !d.tensor then openCons d.src.key r (d.src.lines s d.length) s else s
          let s2 := if d.dst.wheel && !d.tensor then openProd d.dst.key r (d.dst.lines s d.length) s1 else s1
          takeSlots eng (takePass eng d (if passWhole s r d then 1 else (copyPieces d).length) s2)
        | st => failPass eng d st s
    | .ok, c => faultPass eng (chkCause c) (chkAddr c) (passLog c r.task.tenant (engRef eng) (takePass eng (passD s eng r) 1 s))
    | c, _ => streamFault eng r (chkCause c) (chkAddr c) (passLog c r.task.tenant (engRef eng) s)
  else if passMoved r then endPass eng r s
  else takeSlots eng s

/-- R304: a task whose descriptor has MODE. -/
def passMode (s : State) (mode : Bool) (k : Task) : Bool := bit (wd (descWords s k 1) 0) 8 == mode

/-- A pass of a context in a mode starts or goes on. -/
def streamPass (mode : Bool) (ctx : Nat) (s : State) : State :=
  engineStep 7 (engCtx ctx) (pickObj s 7 (engCtx ctx)) (passMode s mode) (passGo (engCtx ctx)) s

/-- R316, R40: the HBM read at an address has no retry left: the pass ends and the row is queued for repair. -/
def hbmExhaust (eng addr : Nat) (s : State) : State :=
  faultPass eng 2 addr (queueHbm addr s)

/-- R40: an HBM read of the pass fails its check: it is retried, at most 4 times and within 2 µs of its first failure;
otherwise its budget is exhausted. -/
def hbmFails (eng addr : Nat) (r : Run) (s : State) : State :=
  match r.retries.find? (fun x => x.1 == addr) with
  | some (_, n, t) =>
    if n < 4 ∧ s.now < t + 2000 then
      modRun eng (fun r => { r with hbmRetry := r.hbmRetry + 1,
                                    retries := (addr, n + 1, t) :: r.retries.filter (fun x => x.1 != addr) }) s
    else hbmExhaust eng addr s
  | none => modRun eng (fun r => { r with hbmRetry := r.hbmRetry + 1, retries := (addr, 1, s.now) :: r.retries }) s

/-- The read at an address has been answered with data: no retry and no re-fetch of it is under way. -/
def readDone (eng addr : Nat) (s : State) : State :=
  modRun eng (fun r => { r with retries := r.retries.filter (fun x => x.1 != addr),
                                refetched := r.refetched.filter (fun a => a != addr) }) s

/-- R316: a row arrives with a corrected error: it is fetched once more, and used when the copy shows one too. -/
def flitFixed (ctx addr : Nat) (r : Run) (s : State) : State :=
  let eng := engCtx ctx
  let s1 := readDone eng addr (countCe (engRef eng) 1 s)
  if r.refetched.contains addr then addLog 0x0011 r.task.tenant (engRef eng) ctx addr (addr / 2 ^ 32) s1
  else cnt R.strCtxRefetch ctx 1 (modRun eng (fun r => { r with refetch := r.refetch + 1,
                                                                refetched := addr :: r.refetched }) s1)

/-- R39, R41: the pass a read was issued for under a tag still runs on the context and is not cancelled. -/
def passCurrent (s : State) (ctx tag : Nat) : Option Run :=
  (runOn s (engCtx ctx)).filter (fun r => r.task.cls == 7 && !r.cancelled && r.task.tag == tag)

/-- R316: what comes back for a read of the pass on a context, under the tag it was issued with; for a pass that no
longer runs under that tag it is discarded as stale and counted (R39, R41). -/
def readReturn (ctx : Nat) (o : ReadOutcome) (addr tag : Nat) (s : State) : State :=
  let eng := engCtx ctx
  match passCurrent s ctx tag with
  | none => cnt R.seqStaleCnt 0 1 s
  | some r =>
    if r.worked || r.info.isEmpty then s
    else
      settle (match o with
        | .good => readDone eng addr s
        | .flitCorrected => flitFixed ctx addr r s
        | .hbmRetry => hbmFails eng addr r s
        | .hbmExhausted => hbmExhaust eng addr s
        | .flitBad => faultPass eng 1 addr s
        | .unsupported => faultPass eng 3 addr s
        | .aborted => faultPass eng 4 addr s
        | .poisoned => faultPass eng 5 addr s
        | .envelopeBad => faultPass eng 10 addr (cnt R.secEnvFail 0 1 s))

/-- R316, R351: a read request of the pass reaches its completion timeout. -/
def readTimeout (ctx addr tag : Nat) (s : State) : State :=
  let eng := engCtx ctx
  match passCurrent s ctx tag with
  | none => cnt R.seqStaleCnt 0 1 s
  | some r => if r.worked || r.info.isEmpty || addr < hostBase then s else settle (faultPass eng 6 addr s)

/-- R307. -/
def execStreamCopy (ctx : Nat) (s : State) : Host.Outcome State Fault Refusal :=
  act (decide (ctx < 256)) s (streamPass false ctx)

/-- R340. -/
def execStreamTensor (ctx : Nat) (s : State) : Host.Outcome State Fault Refusal :=
  act (decide (ctx < 256)) s (streamPass true ctx)

/-- R316. -/
def execStreamReadReturn (ctx : Nat) (outcome : ReadOutcome) (read : ReadRef) (s : State) :
    Host.Outcome State Fault Refusal :=
  act (decide (ctx < 256) && decide (read.tag < 256)) s (readReturn ctx outcome read.addr read.tag)

/-- R316. -/
def execPcieCompletionTimeout (ctx : Nat) (read : ReadRef) (s : State) : Host.Outcome State Fault Refusal :=
  act (decide (ctx < 256) && decide (read.tag < 256)) s (readTimeout ctx read.addr read.tag)

end Sys2Proof.Machine
end

