-- ==== Sys2Proof/Machine/Publish.lean ====
section
/-! DEFINITION. PUBLISH nodes (R364 to R371, R102, R408, R410): dispatch checks, records to Ethernet, to a host ring and
to a CSI-2 transmit port. -/

namespace Sys2Proof.Machine

/-! ### The descriptor (R366) -/

/-- Defined bits of the descriptor's words for a destination. -/
def pubMask (kind : Nat) : List Nat :=
  if kind = 0 then [0xFFFFFF0F, 0x003FFFFF, 0xFFFFFFFF, 0xFFFF, 0xFFFFFFFF, 0xFFFFFFFF, 0xFFFFFFFF, 0xFFFF,
    0xFFFFFFFF, 0xFFFFFFFF, 0xFFFFFFFF, 0xFFFFFFFF]
  else if kind = 1 then [0xFFFFFF03, 0x00400000, 0xFFFFFFFF, 0xFFFF, 0xFFFFFFFF, 0, 0, 0, 0, 0, 0, 0,
    0xFFFFFFFF, 0xFFFF, 0xFFFFFFFF, 0xFFFFFFFF, 0xFFFF, 0x7FF]
  else [0xFFFFFFF7, 0, 0xFFFFFFFF, 0xFFFF, 0xFFFFFFFF, 0, 0, 0, 0, 0, 0, 0, 0, 0, 0, 0, 0, 0, 0x003FFFFF]

def pubKind (w : List Nat) : Nat := bits (wd w 0) 1 0
def pubV6 (w : List Nat) : Bool := bit (wd w 0) 3
def pubPcp (w : List Nat) : Nat := bits (wd w 1) 2 0
def pubSlotBytes (w : List Nat) : Nat := bits (wd w 14) 31 16 * 512

/-- The task publishes the header-only record of R68. -/
def pubOrphan (r : Run) : Bool := r.task.orphan.isSome

/-- The key of a protected record (R408, R410): header-only records are never enveloped. -/
def pubKey (s : State) (r : Run) : Option Nat := if pubOrphan r then none else passKey s r

/-- Bytes of the payload as it is published: none for a header-only record, an envelope for a protected one. -/
def pubLen (s : State) (r : Run) (w : List Nat) : Nat :=
  if pubOrphan r then 0 else if (pubKey s r).isSome then wd w 4 + 48 else wd w 4

/-- R366, R367, R410: the dispatch check: 0 when it holds. -/
def pubCheck (s : State) (r : Run) (w : List Nat) : Nat :=
  let k := pubKind w
  let fn := r.task.tenant
  if k = 3 || maskFails w (pubMask k) then 0x01
  else if bits (wd w 0) 15 8 < 0x10 || 1048576 < wd w 4 then 0x02
  else if k = 0 then
    (if bits (wd w 5) 15 0 = 0 || bits (wd w 5) 31 16 = 0 ||
        (bit (wd w 1) 9 && (bits (wd w 1) 21 10 == 0 || bits (wd w 1) 21 10 == 4095)) then 0x02 else 0)
  else if k = 1 then
    (let rows := bits (wd w 14) 31 16
     let need := 64 + wd w 4 + (if (pubKey s r).isSome then 48 else 0)
     if nFns s ≤ fn || bits (wd w 14) 15 0 = 0 || rows = 0 || 2049 < rows || rows * 512 < need ||
        addr48 w 12 % 512 ≠ 0 || (regionOf s fn (addr48 w 12)).isNone || addr48 w 15 % 4 ≠ 0 ||
        msixCount fn ≤ bits (wd w 17) 10 0 then 0x02 else 0)
  else
    (let n := bits (wd w 18) 15 0
     let dt := bits (wd w 18) 21 16
     if n = 0 || 32768 < n || wd w 4 % n ≠ 0 || !dtKnown dt || dt = 0x12 || (pubKey s r).isSome then 0x02 else 0)

/-! ### The record (R364) -/

/-- The frame of the triggering stream whose epochs a record carries. -/
def pubFrame (s : State) (stream serial : Nat) : Option Frame :=
  (streamAt s stream).bind (fun v => v.frames.find? (fun f => f.serial == serial))

/-- Flags of a record at its commit: an aborted instance's as R68 gives them, otherwise those of its inputs; INVALID
from the entry of safe state on (R440). -/
def pubFlags (s : State) (r : Run) : Nat :=
  (match r.task.orphan with | some o => flagBits o.flags | none => outFlags s r 0) |||
  (if s.saf.safe then fInvalid else 0)

/-- PUB_SEQ of a task's node; of a header-only publication whose template is unloaded, the one kept with it. -/
def pubSeqOf (s : State) (k : Task) : Nat :=
  match k.orphan.bind Orphan.unloaded with
  | some q => q
  | none => match tmplAt s k.tmpl with | some v => tget 0 v.pubSeq k.node | none => 0

/-- PUB_SEQ advances at a commit. -/
def pubCount (k : Task) (s : State) : State :=
  if leftBehind k then s
  else modTmpl k.tmpl (fun v => { v with pubSeq := tset 0 v.pubSeq k.node (w32 (tget 0 v.pubSeq k.node + 1)) }) s

/-- Triggering stream, serial of its frame, frame number and frame time of a task's instance (R55). -/
def pubOrigin (s : State) (r : Run) : Nat × Nat × Nat × Nat :=
  match r.task.orphan with
  | some o => (o.stream, o.serial, o.frameNo, o.frameTime)
  | none => match taskInst s r.task with
    | some i => (i.stream, i.serial, i.frameNo, i.frameTime)
    | none => (255, 0, 0, 0)

/-- R364: the header fields of a task's record. -/
def pubHdr (s : State) (r : Run) (w : List Nat) : RecHdr :=
  let o := pubOrigin s r
  let f := if o.1 = 255 then none else pubFrame s o.1 o.2.1
  { validity := validity (pubFlags s r), ptype := bits (wd w 0) 15 8, tmpl := r.task.tmpl, stream := o.1,
    sequence := r.task.seq, frameIndex := if o.1 = 255 then 0 else o.2.2.1, frameTime := o.2.2.2, commit := s.now,
    eff := (f.map Frame.eff).getD 0, req := (f.map Frame.req).getD 0, len := pubLen s r w,
    pubSeq := pubSeqOf s r.task, channel := bits (wd w 0) 31 16 }

/-- What the record's payload is read from. -/
def pubReads (r : Run) (w : List Nat) : List (Nat × Nat) := if pubOrphan r then [] else [(addr48 w 2, wd w 4)]

/-- R408, R410: the payload as it goes out; a protected one becomes one envelope that also authenticates header words 0
to 10. -/
def pubPayload (s : State) (r : Run) (w : List Nat) : List Byte × State :=
  let plain := if pubOrphan r then [] else rdBytes s r.task.tenant (addr48 w 2) (wd w 4)
  let s1 := (pubReads r w).foldl (fun s x => touchRead x.1 x.2 s) s
  match pubKey s r with
  | some slot => sealEnv slot r (wordsBytes ((hdrWords s (pubHdr s r w) 0 1 0).take 11)) plain s1
  | none => (plain, s1)

/-! ### A task from its dispatch to its commit -/

/-- R367: a failed task sends nothing, is logged and completes with INVALID. -/
def pubFail (eng status : Nat) (s : State) : State :=
  match runOn s eng with
  | some r => modRun eng (fun r => { r with worked := true, flags := flagBits (pubFlags s r ||| fInvalid) })
      (addLog 0x0010 r.task.tenant eng r.task.node status 0 s)
  | none => s

/-- A task's access fails: logged; its instance is aborted, and an aborted instance's own record is not sent. -/
def pubFault (eng : Nat) (c : Chk) (s : State) : State :=
  match runOn s eng with
  | some r =>
    if pubOrphan r then
      modRun eng (fun r => { r with worked := true, flags := flagBits (pubFlags s r ||| fInvalid) }) (logChk c r.task.tenant eng s)
    else faultRun eng c s
  | none => s

/-- R366, R367: the descriptor is read and checked; the task then waits for its commit with it. -/
def pubStart (eng : Nat) (r : Run) (s : State) : State :=
  if !r.info.isEmpty then s
  else
    let tn := r.task.tenant
    match chkAll s tn [(descAddr s r.task, 128)] [] with
    | .ok =>
      let w := descWords s r.task 32
      (match pubCheck s r w with
       | 0 => match chkAll s tn (pubReads r w) [] with
         | .ok => modRun eng (fun r => { r with info := w }) (touchRead (descAddr s r.task) 128 s)
         | c => pubFault eng c s
       | st => pubFail eng st s)
    | c => pubFault eng c s

/-- The task that waits on an engine for its commit. -/
def pubWaiting (s : State) (eng : Nat) : Option Run :=
  (runOn s eng).filter (fun r => r.task.cls == 8 && !r.worked && !r.cancelled && !r.info.isEmpty)

/-- The task has committed its record. -/
def pubDone (eng flags : Nat) (s : State) : State :=
  modRun eng (fun r => { r with worked := true, committed := true, flags := flagBits flags }) s

/-! ### Ethernet (R368, R369) -/

/-- R368: most payload bytes of a datagram. -/
def pubSegBytes (s : State) (m : Nat) (v6 : Bool) : Nat := downTo (macMtu s m - (if v6 then 112 else 92)) 8

/-- R368: the frames of a record. -/
def pubFrames (s : State) (m : Nat) (h : RecHdr) (w : List Nat) (pay : List Byte) : List (List Byte) :=
  let v6 := pubV6 w
  let b := pubSegBytes s m v6
  let n := max 1 (cdiv pay.length b)
  let dscp := bits (wd w 1) 8 3
  let src := if v6 then ownIp6 s m else ownIp4 s m
  let dst := if v6 then wordsBytes [wd w 8, wd w 9, wd w 10, wd w 11] else leBytes 4 (wd w 8)
  let tag := if bit (wd w 1) 9 then some (pubPcp w * 2 ^ 13 + bits (wd w 1) 21 10) else none
  (List.range n).map (fun i =>
    let seg := segBytes s h i n (i * b) ((pay.drop (i * b)).take b)
    let d := udp src dst (bits (wd w 5) 15 0) (bits (wd w 5) 31 16) seg
    etherFrame (leBytes 4 (wd w 6) ++ leBytes 2 (wd w 7)) (ownMac s m) tag (if v6 then 0x86DD else 0x0800)
      (if v6 then ip6 src dst 17 dscp (Config.ipTtl % 256) d else ip4 src dst 17 dscp (s.free + i) d))

/-- R368: a waiting record is committed once the transmit buffer has room for all its datagrams, or its link is down. -/
def ethCommit (m : Nat) (s : State) : State :=
  let eng := engU 0x08 m
  match pubWaiting s eng with
  | none => s
  | some r =>
    let w := r.info
    match chkAll s r.task.tenant (pubReads r w) [] with
    | .ok =>
      let h := pubHdr s r w
      let p := pubPayload s r w
      let fr := pubFrames s m h w p.1
      let q := macSt s m
      let used := macUsed q + (match q.sending with | some f => f.length | none => 0)
      if macUp s m && decide (2097152 < used + sumN (fr.map List.length)) then s
      else
        let s1 := { p.2 with free := p.2.free + fr.length }
        let s2 := pubDone eng (pubFlags s r) (pubCount r.task (cnt R.ethTxRec m 1 s1))
        queueFrames m (pubPcp w) fr s2
    | c => settle (pubFault eng c s)

/-- R369: the frame in transmission ends; the next is taken. -/
def ethSent (m : Nat) (s : State) : State :=
  if (macSt s m).sending.isSome then macKick m (modMac m (fun q => { q with sending := none }) s) else s

/-! ### Host ring (R370) -/

/-- R370: the record goes into its slot, then the producer index is written, then the vector is signalled. -/
def ringCommit (eng : Nat) (s : State) : State :=
  match pubWaiting s eng with
  | none => s
  | some r =>
    let w := r.info
    let tn := r.task.tenant
    let n := pubSeqOf s r.task
    let slot := addr48 w 12 + n % max 1 (bits (wd w 14) 15 0) * pubSlotBytes w
    let len := 64 + pubLen s r w
    match chkAll s tn (pubReads r w) [(slot, len), (addr48 w 15, 4)] with
    | .ok =>
      let h := pubHdr s r w
      let p := pubPayload s r w
      let s1 := wrBytes tn slot (segBytes s h 0 1 0 p.1) p.2
      let s2 := wrBytes tn (addr48 w 15) (leBytes 4 (w32 (n + 1))) s1
      let s3 := if bit (wd w 1) 22 then msixEvent tn (bits (wd w 17) 10 0) s2 else s2
      pubDone eng (pubFlags s r) (pubCount r.task s3)
    | c => pubFault eng c s

/-! ### CSI-2 transmit (R371, R102) -/

/-- R371, R102: a waiting record commits with its frame start; the header line, the lines and FE follow by the task's
completion. -/
def csi2Commit (tx : Nat) (s : State) : State :=
  let eng := engU 0x06 (14 + tx)
  match pubWaiting s eng with
  | none => s
  | some r =>
    if (tget txReset s.cam.tx tx).mode ≠ 1 then s
    else
      let w := r.info
      match chkAll s r.task.tenant (pubReads r w) [] with
      | .ok =>
        let vc := bits (wd w 0) 7 4
        let h := pubHdr s r w
        let p := pubPayload s r w
        let pay := p.1
        let head := fun (h : RecHdr) (l : List Byte) => (segBytes s h 0 1 0 l).take 64
        let f : TxFrame := {
          vc := vc, dt := bits (wd w 18) 21 16, line := bits (wd w 18) 15 0, pay := pay, head := head h pay
          cut := head { h with validity := validity (pubFlags s r ||| fInvalid) } (List.replicate pay.length 0) }
        pubDone eng (pubFlags s r) (pubCount r.task (emit (.csi2 (14 + tx) vc 0 [])
          { p.2 with cam := { p.2.cam with txFrame := tset none p.2.cam.txFrame tx (some f) } }))
      | c => settle (pubFault eng c s)

/-! ### Commands -/

/-- The task of a PUBLISH engine is of the destination. -/
def pubDest (s : State) (kind : Nat) (k : Task) : Bool :=
  let d := pubKind (descWords s k 1)
  d == kind || (kind == 0 && d == 3)

/-- R368. -/
def execPublishEthernet (mac : Nat) (s : State) : Host.Outcome State Fault Refusal :=
  act (decide (mac < 2)) s (fun s =>
    engineStep 8 (engU 0x08 mac) (pickObj s 8 (engU 0x08 mac)) (pubDest s 0) (pubStart (engU 0x08 mac)) s)

/-- R368. -/
def execEthRecordCommit (mac : Nat) (s : State) : Host.Outcome State Fault Refusal :=
  act (decide (mac < 2)) s (ethCommit mac)

/-- R369; number 2 is the management link. -/
def execEthFrameSent (mac : Nat) (s : State) : Host.Outcome State Fault Refusal :=
  act (decide (mac < 3)) s (ethSent mac)

/-- R370. -/
def execPublishHostRing (port : Nat) (s : State) : Host.Outcome State Fault Refusal :=
  act (decide (port < 2)) s (fun s =>
    engineStep 8 (engU 0x07 port) (pickObj s 8 (engU 0x07 port)) (pubDest s 1)
      (fun r s => ringCommit (engU 0x07 port) (pubStart (engU 0x07 port) r s)) s)

/-- R371. -/
def execPublishCsi2Tx (tx : Nat) (s : State) : Host.Outcome State Fault Refusal :=
  act (decide (tx < 2)) s (fun s =>
    engineStep 8 (engU 0x06 (14 + tx)) (pickObj s 8 (engU 0x06 (14 + tx))) (pubDest s 2)
      (pubStart (engU 0x06 (14 + tx))) s)

/-- R102, R371. -/
def execCsi2TxCommit (tx : Nat) (s : State) : Host.Outcome State Fault Refusal :=
  act (decide (tx < 2)) s (csi2Commit tx)

end Sys2Proof.Machine
end

