-- ==== Sys2Proof/Machine/Objects.lean ====
section
/-! DEFINITION. What a command and a firmware node do alike to an object (R70, R94, R95, R309, R321, R323): settings
sets, profiles, base rings, handle queues.  A check answers the status and the word DETAIL names, counted as in a
packet whose parameters begin at word 4; none when it holds. -/

namespace Sys2Proof.Machine


/-- The first nonzero word from parameter word `k` on. -/
def firstNonzero (w : List Nat) (k : Nat) : Option Nat :=
  ((List.range (w.length - k)).find? (fun i => wd w (k + i) != 0)).map (· + k)

/-- The first word of `w` with a nonzero bit outside its mask; a word without a mask must be 0. -/
def firstReserved (w mask : List Nat) : Option Nat :=
  (w.zipIdx.find? (fun e => decide (e.1 &&& (0xFFFFFFFF ^^^ mask.getD e.2 0) ≠ 0))).map Prod.snd

/-! ### Settings sets (R95) -/

/-- COUNT of a set. -/
def setCount (w : List Nat) : Nat := bits (wd w 0) 26 22

/-- The entries of a set. -/
def setEntries (w : List Nat) : List (Nat × Nat) :=
  (List.range (setCount w)).map (fun j => (wd w (1 + 2 * j), wd w (2 + 2 * j)))

/-- The epoch a stream's next set is compared with: none only before the stream opens without a set. -/
def setLast (v : Stream) : Option Nat := match v.lastEpoch with | some e => some e | none => if v.opened then some 0 else none

/-- R95: the checks of a settings set. -/
def settingsCheck (s : State) (tn : Nat) (w : List Nat) : Option Err :=
  let n := setCount w
  let es := setEntries w
  let st := bits (wd w 0) 21 16
  let badE := (es.zipIdx.find? (fun (e : (Nat × Nat) × Nat) => decide (bits e.1.1 31 20 ≠ 0))).map (fun e => 5 + 2 * e.2)
  if bits (wd w 0) 31 27 ≠ 0 then some (0x01, 4)
  else if badE.isSome then some (0x01, badE.getD 0)
  else match firstNonzero w (1 + 2 * n) with
  | some k => some (0x01, 4 + k)
  | none =>
    if n = 0 || 29 < n then some (0x02, 4)
    else if 1 < (es.filter (fun e => bit e.1 18)).length || 1 < (es.filter (fun e => bit e.1 19)).length then some (0x02, 4)
    else if !streamGranted s tn st then some (0x04, 4)
    else match (streamAt s st).filter (fun v => v.started) with
    | none => some (0x06, 4)
    | some v =>
      let wide := bit (wd (streamProfile s v) 0) 11
      if !sdProfileEn v then some (0x02, 4)
      else match es.zipIdx.find? (fun (e : (Nat × Nat) × Nat) => !wide && decide (bits e.1.1 15 8 ≠ 0)) with
      | some e => some (0x02, 5 + 2 * e.2)
      | none =>
        match setLast v with
        | some l =>
          let d := (bits (wd w 0) 15 0 + 65536 - l) % 65536
          if d = 0 || 32767 < d then some (0x20, 4) else none
        | none => none

/-- R95, R96: an accepted set. -/
def settingsApply (w : List Nat) (s : State) : State :=
  acceptSet (bits (wd w 0) 21 16) (bits (wd w 0) 15 0) (setEntries w) s

/-! ### Base rings (R309) -/

/-- The tenant owns the template a context belongs to. -/
def ownsCtx (s : State) (tn ctx : Nat) : Bool :=
  let o := rget s R.strCtxOwner ctx
  bit o 0 && (match tmplAt s (bits o 15 8) with | some v => v.tenant == tn | none => false)

/-- Reserved bits of a ring entry of two words. -/
def rearmReserved (hi : Nat) : Bool := decide (bits hi 31 17 ≠ 0)

/-- Write one entry of a context's base ring. -/
def rearmEntry (ctx entry lo hi : Nat) (s : State) : State :=
  let v := if bit hi 16 then some (lo + 2 ^ 32 * bits hi 15 0) else none
  { s with ring := tset none s.ring (64 * ctx + entry) v }

/-! ### Handle queues (R321, R323) -/

/-- QUEUE_POP: rights, a disabled millrace, one the sequencer consumes, an empty one. -/
def popCheck (s : State) (tn m : Nat) : Option Err :=
  if !mrqGranted s tn m then some (0x04, 4)
  else if !mrqEn s m then some (0x02, 4)
  else if !mrqHost s m then some (0x05, 4)
  else if (mrqQ s m).isEmpty then some (0x19, 4)
  else none

end Sys2Proof.Machine
end

