-- ==== Sys2Proof/Machine/Regs.lean ====
section
/-! DEFINITION. Register reads (R7, R26, R358, R391): where an access lands, who may read what, the values of the
read-only fields, what a read clears or latches. -/

namespace Sys2Proof.Machine

/-! ### Where an access lands (R26, R356, R424) -/

/-- What stands at an offset, for a requester. -/
inductive Place where
  | reg (d : RegDef) (n : Nat)
  | shadow (k : Nat)
  | force (k : Nat)
  | cred (o : Nat)
  | pkg (o : Nat)
  | lane (l o : Nat)
  | caps (w : Nat)
  | msix (e : Nat)
  | pba (w : Nat)
  | hole
  deriving DecidableEq, Repr

/-- The register blocks and their windows, by MMIO offset. -/
def blockPlace (o : Nat) : Place :=
  if 0x410000 ≤ o ∧ o < 0x414200 then .shadow ((o - 0x410000) / 4)
  else if 0x420000 ≤ o ∧ o < 0x424200 then .force ((o - 0x420000) / 4)
  else if 0x430000 ≤ o ∧ o < 0x434734 then .cred (o - 0x430000)
  else if 0x4D0000 ≤ o ∧ o < 0x4E0000 then .pkg (o - 0x4D0000)
  else match findReg o with
    | some (d, n) => .reg d n
    | none => .hole

/-- R356, R378: where a function's command lanes begin in its BAR0. -/
def laneBase (fn : Nat) : Nat := if isPf fn then 0xC00000 else 0

/-- R356: the place of a PF's BAR0 with the contents of a place of a function's own BAR0.  The last word of a PF's BAR0,
where nothing stands, answers for what a VF does not see. -/
def pfOffset (rq o : Nat) : Nat :=
  if rq = 32 ∨ isPf rq = true then o
  else if o < 0x30000 then 0xC00000 + o
  else if 0x40100 ≤ o ∧ o < 0x40110 then 0x440000 + o
  else 0xFFFFFC

/-- R356: where a requester sees PWR_TIME_LO; PWR_TIME_HI stands 4 bytes further. -/
def timeLoAt (rq : Nat) : Nat := if rq = 32 ∨ isPf rq = true then R.pwrTimeLo else 0x40100

/-- What stands at an offset of the management port's register space or of a PF's BAR0 (R356). -/
def placeAt (rq o : Nat) : Place :=
  if o < 0x500000 then blockPlace o
  else if rq = 32 then .hole
  else if 0xC00000 ≤ o ∧ o < 0xC10000 then
    (if o % 0x1000 < 0x118 then .lane ((o - 0xC00000) / 0x1000) (o % 0x1000) else .hole)
  else if 0xC10000 ≤ o ∧ o < 0xC20000 then .caps ((o - 0xC10000) / 4)
  else if 0xC20000 ≤ o ∧ o < 0xC20000 + 16 * msixCount rq then .msix ((o - 0xC20000) / 4)
  else if 0xC28000 ≤ o ∧ o < 0xC28000 + msixCount rq / 8 then .pba ((o - 0xC28000) / 4)
  else .hole

/-- A function sees its lanes, the capability block, its MSI-X table and pending bits; a PF also the register blocks, a
VF the time registers.  The management port sees the register blocks. -/
def placeOf (rq o : Nat) : Place := placeAt rq (pfOffset rq o)

/-- The requester exists and its part of the device is alive (R352). -/
def reaches (s : State) (rq : Nat) : Bool := rq == 32 || decide (rq < nFns s)

/-! ### Node and edge tables (R43) -/

/-- Insert into a list sorted by base. -/
def insRun (r : Nat × Nat) : List (Nat × Nat) → List (Nat × Nat)
  | [] => [r]
  | x :: t => if r.1 ≤ x.1 then r :: x :: t else x :: insRun r t

/-- The free runs of a table of `n` entries: base and length, lowest first. -/
def freeRuns (n : Nat) (used : List (Nat × Nat)) : List (Nat × Nat) :=
  let l := used.foldl (fun a r => if r.2 = 0 then a else insRun r a) []
  let e := l.foldl (fun (a : List (Nat × Nat) × Nat) r =>
    (if a.2 < r.1 then a.1 ++ [(a.2, r.1 - a.2)] else a.1, max a.2 (r.1 + r.2))) ([], 0)
  if e.2 < n then e.1 ++ [(e.2, n - e.2)] else e.1

/-- Runs of the node table in use. -/
def nodeRuns (s : State) : List (Nat × Nat) :=
  s.seq.tmpls.filterMap (fun e => e.2.map (fun v => (v.nodeBase, v.nodes.length)))

/-- Runs of the edge table in use. -/
def edgeRuns (s : State) : List (Nat × Nat) :=
  s.seq.tmpls.filterMap (fun e => e.2.map (fun v => (v.edgeBase, v.edges.length)))

/-- Runs of the node table that no template can take: those in use and the retired entries (R469). -/
def nodeUsed (s : State) : List (Nat × Nat) := nodeRuns s ++ s.nv.nodeRetired.map (fun e => (e, 1))

/-- Longest of a list of runs. -/
def longest (l : List (Nat × Nat)) : Nat := (l.map Prod.snd).foldl max 0

/-! ### Capability block (R358, R359) -/

/-- A word of the capability block. -/
def capWord (s : State) (k : Nat) : Nat :=
  let two := s.bifurcated
  if k = 0 then 0x00 + 1 * 2 ^ 8 + 1 * 2 ^ 16 + 0xA1 * 2 ^ 24
  else if k = 1 then 1 * 2 ^ 8 + 1 * 2 ^ 24
  else if k = 2 then s.capGen
  else if k = 3 then 8720
  else if k = 4 then 64 + 32 * 65536
  else if k = 5 then 4 + 4 * 65536
  else if k = 6 then 16 + 64 * 65536
  else if k = 7 then 64
  else if k = 8 then 16384
  else if k = 9 then 49152
  else if k = 10 then 131072
  else if k = 11 then 262144
  else if k = 12 then 256 + 4096 * 65536
  else if k = 13 then 1024 + (if two then 2048 else 1024) * 65536
  else if k = 14 then 256 + 256 * 65536
  else if k = 15 then 65536
  else if k = 16 then (if two then 32 else 16) + (if two then 2 else 1) * 65536 + b2n two * 2 ^ 18
  else if k = 17 then 4096 + 512 * 65536
  else if k = 18 then 64 + 256 * 65536
  else if k = 19 then 64 + 64 * 65536
  else if k = 20 then 0x0A + 0x11 * 2 ^ 8 + 0x5 * 2 ^ 16
  else if k = 21 then 0x1000
  else if k = 22 then 68
  else if k = 32 then s.availN % 2 ^ 32
  else if k = 33 then s.availN / 2 ^ 32 % 2 ^ 32
  else if k = 40 then s.availV
  else if k = 48 then s.availI
  else if 0x400 ≤ k ∧ k < 2180 then
    leNat ((List.range 4).map (fun b =>
      let j := 4 * (k - 0x400) + b
      if j / 68 = j % 68 then (0 : Byte) else Config.distance (corePlace s (j / 68)) (corePlace s (j % 68)) &&& 0x7F))
  else 0

/-! ### Rights to read -/

/-- A template's registers show for its tenant (R75). -/
def ownsTmpl (s : State) (rq t : Nat) : Bool := match tmplAt s t with | some v => v.tenant == rq | none => false

/-- The template that owns a stream context. -/
def ctxOwner (s : State) (c : Nat) : Option Nat :=
  let w := rget s R.strCtxOwner c
  if bit w 0 then some (bits w 15 8) else none

/-- A requester reads the register; otherwise it reads 0 and clears nothing. -/
def readable (s : State) (rq : Nat) (d : RegDef) (i : Nat) : Bool :=
  if d.sel = R.seqLatSel then ownsTmpl s rq i
  else if d.sel = R.camStreamSel then streamGranted s rq i
  else if d.off = R.ncMcastRows ∨ d.off = R.ncWcompErr then privileged s rq
  else if R.ncCoreStat ≤ d.off ∧ d.off ≤ R.ncCoreChain then decide (0 < shareOf s rq 6)
  else if d.sel = R.spdSliceSel then
    (sraRanges s rq).any (fun r => decide (r.1 < (i + 1) * 16384) && decide (i * 16384 < r.1 + r.2) && decide (0 < r.2))
  else if d.sel = R.strCtxSel then (match ctxOwner s i with | some t => ownsTmpl s rq t | none => false)
  else if d.sel = R.mrqSel then mrqGranted s rq i
  else if d.sel = R.winSel then i / 64 == rq || privileged s rq
  else if d.off = R.winFnUnclaimed then i == rq || privileged s rq
  else if d.sel = R.hostFnSel then decide (i ≤ 32) && (i == rq || privileged s rq)
  else if R.hostPortLink ≤ d.off ∧ d.off ≤ R.hostPortDiscard then i == 0 || s.bifurcated
  else if R.mgtStat ≤ d.off ∧ d.off ≤ R.mgtCmdDenied then privileged s rq
  else if d.off = R.bootPkgCtrl ∨ d.off = R.bootPkgAddr then privileged s rq
  else true

/-! ### Values of read-only fields -/

/-- An engine runs a task. -/
def engBusy (s : State) (e : Nat) : Bool := !engFree s e

/-- A V-core engine that registers number `i`: two warp engines to a core. -/
def wpeEng (i : Nat) : Nat := engV (i / 2) (3 + i % 2)

/-- A task holds a track partition (R213); its run names it in `aux`. -/
def partMark (p : Nat) : Nat := 0x100000 + p
def partBusy (s : State) (p : Nat) : Bool := s.seq.runs.any (fun r => r.task.cls == 3 && r.aux == partMark p)

/-- First entry and number of entries of a partition. -/
def partRange (s : State) (p : Nat) : Nat × Nat :=
  let w := rget s R.kpePartRange p
  (bits w 15 0, bits w 31 16 + 1)

/-- The engine the SAF_ENG_ registers show for a selected reference: a core's own engine stands for its parts. -/
def safEng (e : Nat) : Nat :=
  if e / 0x4000 = 0 then e / 64 * 64 + 32 else if e / 0x4000 = 2 then e / 64 * 64 else e

/-- SAF_ENG_STAT. -/
def safEngVal (s : State) (sel : Nat) : Nat :=
  let e := safEng sel
  if goldenEngines.contains e then
    let x := engSt s e
    b2n x.fenced + x.last * 4 +
      min 2 (x.transients.filter (fun i => decide (intervalNow s < i + 1000))).length * 16
  else 2

/-- SAF_STAT. -/
def safStatVal (s : State) : Nat :=
  b2n s.saf.safe + 2 * b2n s.saf.ready + 4 * b2n (anyUnchecked s) + (rget s R.safStat 0 &&& 8) + s.saf.cause * 256

/-- PWR_STAT. -/
def pwrStatVal (s : State) : Nat :=
  s.pwr.envTarget + (rget s R.pwrStat 0 &&& 4) + 8 * b2n s.pwr.sag +
  16 * b2n (decide (bits (rget s R.pwrEnv 0) 1 0 < s.pwr.thermal)) +
  32 * (match s.pwr.st with | .run => 0 | .sleep => 1 | .waking => 2)

/-- CAM_PORT_STAT. -/
def camPortVal (s : State) (p : Nat) : Nat :=
  let l := s.cam.streams.filterMap (fun e => e.2.filter (fun v => sdPort v == p && v.started))
  let t := tget 0 s.cam.lastTraffic p
  b2n (t != 0 && decide (s.now < t - 1 + 1000000)) + 2 * (l.filter (fun v => v.opened)).length +
  64 * sumN (l.map sdBufRows)

/-- CAM_STREAM_ registers of a stream slot. -/
def camStreamVal (s : State) (off st : Nat) : Nat :=
  match streamAt s st with
  | none => if off = R.camStreamStat then rget s R.camStreamStat st &&& 2 else 0
  | some v =>
    if off = R.camStreamStat then
      b2n v.opened + (rget s R.camStreamStat st &&& 2) + 4 * b2n v.pend.isSome + 8 * b2n v.writing.isSome
    else if off = R.camStreamIndex then v.index
    else v.lastEff + v.reqEpoch * 65536

/-- Streams whose state an image core holds. -/
def ispHeld (s : State) (c : Nat) : Nat := (s.isp.filter (fun e => e.1 / 64 == c && e.2.isSome)).length

/-- NC_CORE_STAT. -/
def ncStatVal (s : State) (c : Nat) : Nat :=
  let t := bits (rget s R.ncCoreStat c) 13 8
  b2n (s.seq.runs.any (fun r => r.gang.contains c)) +
  2 * b2n (heldAcc s c t).isSome + t * 256 +
  16384 * b2n (s.nv.spareTe.getD c 1 == 0 && !s.pwr.teWait.contains c && !s.pwr.teArmed.contains c)

/-- A tile's temperature as PWR_TEMP shows it. -/
def tempByte (t : Int) : Nat := (clampI 0 255 (t + 64)).toNat

/-- R464: the highest reading of a tile over the last 1 ms; without one, its last (DEDUCED). -/
def tileTemp (s : State) (k : Nat) : Int :=
  match (s.pwr.tempLog.filter (fun e => e.2.1 == k && decide (s.now < e.1 + 1000000))).map (fun e => e.2.2) with
  | [] => s.pwr.temps.getD k (-64)
  | t :: r => r.foldl max t

/-- Value of a register field set as software reads it, object `i` of its family or selector. -/
def regVal (s : State) (d : RegDef) (i : Nat) : Nat :=
  let o := d.off
  if o = R.pwrTimeLo then s.now % 2 ^ 32
  else if o = R.seqNodeFree then 131072 - sumN ((nodeUsed s).map Prod.snd)
  else if o = R.seqNodeRun then longest (freeRuns 131072 (nodeUsed s))
  else if o = R.seqEdgeFree then 262144 - sumN ((edgeRuns s).map Prod.snd)
  else if o = R.seqEdgeRun then longest (freeRuns 262144 (edgeRuns s))
  else if o = R.seqSluiceBind then (match (sluiceSt s i).bound with | some b => 1 + b.1 * 256 | none => 0)
  else if o = R.seqSluiceNode then (match (sluiceSt s i).bound with | some b => b.2 | none => 0)
  else if o = R.seqSluiceLastLo then (sluiceSt s i).lastTime % 2 ^ 32
  else if o = R.seqObsDepth then depthOf s (i % 16) (i / 16)
  else if o = R.camPortStat then camPortVal s i
  else if o = R.camStreamStat ∨ o = R.camStreamIndex ∨ o = R.camStreamEpoch then camStreamVal s o i
  else if o = R.camFsiLastLo then tget 0 s.cam.fsiLast i % 2 ^ 32
  else if o = R.ispCoreStat then rget s o i + 128 * b2n (engBusy s (engI i 0)) + 256 * ispHeld s i
  else if o = R.wpeEngStat then rget s o i + b2n (engBusy s (wpeEng i))
  else if o = R.pyeEngStat then rget s o i + b2n (engBusy s (engV i 5))
  else if o = R.steEngStat then rget s o i + b2n (engBusy s (engV i 0))
  else if o = R.ofeEngStat then rget s o i + b2n (engBusy s (engV i 1))
  else if o = R.kpeEngStat then rget s o i + b2n (engBusy s (engV i 2))
  else if o = R.kpePartCtrl then rget s o i + 4 * b2n (partBusy s i)
  else if o = R.kpePartActive then
    (s.tracks.filter (fun e => decide ((partRange s i).1 ≤ e.1) && decide (e.1 < (partRange s i).1 + (partRange s i).2)
      && e.2.isSome)).length
  else if o = R.ncCoreStat then ncStatVal s i
  else if o = R.spdScrubPass then ((List.range 256).map (fun g => tget 0 s.spd.scrubPasses g)).foldl min (2 ^ 32 - 1)
  else if o = R.spdSliceRepair then
    sumN ((List.range 4).map (fun g => tget 0 s.nv.rowSpares (4 * i + g))) +
    (s.nv.rowQueue.filter (fun r => r.1 / 16384 == i)).length % 1024 * 1024 +
    min 4095 (s.nv.rowRetired.filter (fun r => r / 16384 == i)).length * 2 ^ 20
  else if o = R.spdWheelCfg then rget s o i + 2 * b2n (wheelBusy s i)
  else if o = R.spdWheelTail then w32 (wheelSt s i).tail
  else if o = R.spdWheelHead then w32 (wheelHead (wheelSt s i))
  else if o = R.spdWheelRelease then w32 (wheelSt s i).release
  else if o = R.spdArrValue then (if arrExists i then arrVal s i else 0)
  else if o = R.strCtxStat then rget s o i + b2n (engBusy s (engCtx i))
  else if o = R.mrqCount then (mrqQ s i).length
  else if o = R.winStat then
    (match (winSt s i).st with | .closed => 0 | .opened => 1 | .draining => 2) + (winSt s i).flight.length % 65536 * 65536
  else if o = R.hostPortLink then
    b2n (portSt s i).up + 2 * (portSt s i).speed + 16 * (portSt s i).width + 256 * b2n s.bifurcated
  else if o = R.ethMacCfg then rget s o i + 8 * b2n (macSt s i).link + 32 * b2n (macSt s i).asCapable
  else if o = R.mgtStat then
    rget s o 0 + 256 * (s.sec.msessions.filter (fun e => match e.2 with | some m => m.stage == 3 | none => false)).length
  else if o = R.secIsoCtrl then
    2 * b2n s.sec.pending + 4 * b2n s.sec.hostOwner + s.sec.errCode * 2 ^ 8 + s.sec.errTenant * 2 ^ 16 +
    s.sec.errWord * 2 ^ 22
  else if o = R.secIsoEpoch then s.sec.epoch
  else if o = R.secIsoTimeLo then s.sec.epochTime % 2 ^ 32
  else if o = R.secSlotFree then 240 - s.sec.slots.length
  else if o = R.secCredCtrl then
    2 * b2n (s.nv.credFuses != 0) + 4 * b2n s.sec.locked + s.sec.credResult * 256 + (32 - s.nv.credFuses) * 65536
  else if o = R.safStat then safStatVal s
  else if o = R.safCauseEng then s.saf.causeEng
  else if o = R.safCauseTimeLo then s.saf.causeTime % 2 ^ 32
  else if o = R.safIntervalCnt then w32 s.saf.intervals
  else if o = R.safEngStat then safEngVal s i
  else if o = R.pwrStat then pwrStatVal s
  else if o = R.pwrPkg then powerAvg s.pwr / 100 % 65536 + s.pwr.duty * 1000 / 16 * 65536
  else if o = R.pwrTemp then sumN ((List.range 4).map (fun k => tempByte (tileTemp s k) * 2 ^ (8 * k)))
  else if o = R.pwrSpare then
    s.nv.spareNcore + 8 * s.nv.spareVcore + 16 * s.nv.spareIcore + 256 * teMin s +
    65536 * (s.nv.spareTe.filter (· != 0)).length
  else if o = R.pwrSpareNode then s.nv.spareNode + s.nv.nodeRetired.length * 65536
  else if o = R.pwrSpareHbm then s.nv.hbmRepaired % 65536 + s.nv.hbmRetired.length % 65536 * 65536
  else if o = R.pwrRepairLog then
    min 65536 s.nv.repairLog.length + 2 ^ 17 * b2n (decide (65536 ≤ s.nv.repairLog.length))
  else if o = R.bootStat then
    s.boot.phase + 8 * b2n s.boot.keepBoot + 16 * s.boot.cfgArea + 256 * s.nv.updState
  else if o = R.bootTime then min 65535 s.boot.readyMs
  else if o = R.bootFuse then s.nv.svnFuses + s.boot.runningSvn * 256 + s.boot.keepSvn * 65536
  else if o = R.bootTrial then bootsLeftNow s + secondsLeft s * 65536
  else if o = R.bootStaged then stagedBytes s
  else if o = R.bootPkgCtrl then 4 * b2n (s.boot.pkgBusy != 0) + 8 * s.nv.pkgNext + 256 * s.boot.pkgResult
  else rget s o (if o = R.safEngFail ∨ o = R.safEngTransient ∨ o = R.safEngUnchecked then safEng i else i)

/-! ### Selectors and shadows -/

/-- The selectors, one copy per requester. -/
def selectors : List Nat :=
  [R.seqSluiceSel, R.seqObsSel, R.seqBusySel, R.seqLatSel, R.camStreamSel, R.ispLandSel, R.kpePartSel, R.spdSliceSel,
   R.spdWheelSel, R.spdArrSel, R.strCtxSel, R.mrqSel, R.winSel, R.hostFnSel, R.secSlotSel, R.safEngSel]

/-- The upper words of times, latched per requester. -/
def shadows : List Nat := [R.pwrTimeHi, R.seqSluiceLastHi, R.secIsoTimeHi, R.safCauseTimeHi]

/-- The object a register shows for a requester. -/
def objOf (s : State) (rq : Nat) (d : RegDef) (n : Nat) : Nat := if d.sel = 0 then n else selGet s rq d.sel

/-- A slot's owner sees it. -/
def slotVal (s : State) (rq n : Nat) : Nat :=
  match slotAt s n with
  | some k => if k.tenant = rq ∨ rq = 32 then k.kind + 4 * k.tenant + 256 * (if k.kind = 3 then 0 else k.sess) else 0
  | none => 0

/-- A register's value for a requester that may read it. -/
def regFor (s : State) (rq : Nat) (d : RegDef) (n : Nat) : Nat :=
  if selectors.contains d.off ∨ shadows.contains d.off then selGet s rq d.off
  else if d.off = R.camFsiLastHi then selGet s rq (d.off + 8 * n)
  else if d.off = R.secSlotStat then slotVal s rq (selGet s rq R.secSlotSel)
  else regVal s d (objOf s rq d n)

/-- What a read of a register does beside returning its value: RC fields clear (R7), the low word of a time latches
the upper one. -/
def readEffect (rq : Nat) (d : RegDef) (n : Nat) (s : State) : State :=
  let i := objOf s rq d n
  if d.off = R.pwrTimeLo then selPut rq R.pwrTimeHi (s.now / 2 ^ 32 % 2 ^ 32) s
  else if d.off = R.seqSluiceLastLo then selPut rq R.seqSluiceLastHi ((sluiceSt s i).lastTime / 2 ^ 32 % 2 ^ 32) s
  else if d.off = R.camFsiLastLo then selPut rq (R.camFsiLastHi + 8 * n) (tget 0 s.cam.fsiLast n / 2 ^ 32 % 2 ^ 32) s
  else if d.off = R.secIsoTimeLo then selPut rq R.secIsoTimeHi (s.sec.epochTime / 2 ^ 32 % 2 ^ 32) s
  else if d.off = R.safCauseTimeLo then selPut rq R.safCauseTimeHi (s.saf.causeTime / 2 ^ 32 % 2 ^ 32) s
  else if d.off = R.seqObsMaxdepth then rput d.off i (depthOf s (i % 16) (i / 16)) s
  else if d.rc ≠ 0 then
    let j := if R.safEngFail ≤ d.off ∧ d.off ≤ R.safEngUnchecked then safEng i else i
    rput d.off j (rget s d.off j - (rget s d.off j &&& d.rc)) s
  else s

/-! ### Lane registers (R395) -/

/-- HOST_LANE_STAT. -/
def laneStat (s : State) (n : Nat) : Nat :=
  let l := laneSt s n
  l.credits + 64 * b2n l.viol.isSome + 128 * b2n ((waiterOf s n).isSome || !l.queue.isEmpty) + l.noring * 65536

/-- A read at a lane's offset. -/
def laneRead (n o : Nat) (s : State) : Nat × State :=
  let l := laneSt s n
  if o < 0x100 then (0, s)
  else if o = 0x100 then (l.ringLo.toNat, s)
  else if o = 0x104 then (l.ringHi.toNat, s)
  else if o = 0x108 then (l.cfg.toNat, s)
  else if o = 0x10C then (l.moder.toNat, s)
  else if o = 0x110 then (l.cons, s)
  else (laneStat s n, modLane n (fun l => { l with noring := 0 }) s)

/-- The pending bits of 32 vectors of a function. -/
def pbaWord (s : State) (fn w : Nat) : Nat :=
  (List.range 32).foldl (fun a i => a + 2 ^ i * b2n (s.msixPend.contains (fn * 4096 + 32 * w + i))) 0

/-- An aligned 32-bit read in RUN: the value and what it changes. -/
def busRead (rq o : Nat) (s : State) : Nat × State :=
  match placeOf rq o with
  | .reg d n =>
    if readable s rq d (objOf s rq d n) then (regFor s rq d n, readEffect rq d n s) else (0, s)
  | .shadow k => (if privileged s rq then (tget (0 : Word) s.sec.shadow k).toNat else 0, s)
  | .force k => (if privileged s rq ∨ k / 128 = rq then (tget (0 : Word) s.sec.table k).toNat else 0, s)
  | .cred o => (if privileged s rq then leNat ((List.range 4).map (fun i => tget (0 : Byte) s.sec.staging (o + i))) else 0, s)
  | .pkg o =>
    (if privileged s rq then leNat (pkgBytes s (pkgTarget s) (rget s R.bootPkgAddr 0 + o) 4) else 0, s)
  | .lane l o => laneRead (16 * rq + l) o s
  | .caps w => (if w < 2180 then capWord s w else 0, s)
  | .msix e => (if e % 4 = 3 then (tget (0 : Word) s.msix (rq * 4096 + e)).toNat ^^^ 1
                else (tget (0 : Word) s.msix (rq * 4096 + e)).toNat, s)
  | .pba w => (pbaWord s rq w, s)
  | .hole => (0, countHole rq s)

end Sys2Proof.Machine
end

