-- ==== Sys2Proof/Machine/Load.lean ====
section
/-! DEFINITION. GRAPH_LOAD (R43 to R51, R72, R390, R508): the checks of a template image, in the order of R390 and R382,
and its placing. -/

namespace Sys2Proof.Machine

/-- The first failing check of a list. -/
def firstErr (l : List (Option Err)) : Option Err := l.findSome? id

/-- A check that fails with DETAIL at a word of the image (R386). -/
def imgErr (c : Bool) (status word : Nat) : Option Err := if c then some (status, 0x80000000 + word) else none

/-- Cut a list of words into entries of `n` words. -/
def chunks (n : Nat) : Nat → List Nat → List (List Nat)
  | 0, _ => []
  | k + 1, l => l.take n :: chunks n k (l.drop n)

/-! ### The image's fields -/

def imgNodeCount (h : List Nat) : Nat := bits (wd h 0) 15 0
def imgEdgeCount (h : List Nat) : Nat := bits (wd h 1) 23 0
def imgTrig (h : List Nat) : Nat := bits (wd h 2) 3 0
def imgPolicy (h : List Nat) : Nat := bits (wd h 2) 5 4

/-- Bytes an image of the header's counts has (R390). -/
def imgBytes (h : List Nat) : Nat := 4 * (48 + 16 * imgNodeCount h + 2 * imgEdgeCount h)

/-- Core set `k` as a mask. -/
def imgCoreSet (h : List Nat) (k : Nat) : Nat := sumN ((List.range 8).map (fun i => wd h (16 + 8 * k + i) * 2 ^ (32 * i)))

/-- Word of the image that word `w` of node `i` is; of edge `j`. -/
def nodeWord (i w : Nat) : Nat := 48 + 16 * i + w
def edgeWord (h : List Nat) (j w : Nat) : Nat := 48 + 16 * imgNodeCount h + 2 * j + w

/-- A node entry's words as a node (R47), with what the device writes at load: the number of its in-edges and waits, and
the generation tag of its place in the table (R38). -/
def nodeOf (w : List Nat) (dep gen : Nat) : Node where
  cls := bits (wd w 0) 3 0
  prio := bits (wd w 0) 6 4
  ordered := bit (wd w 0) 7
  group := bits (wd w 0) 19 8
  serial := bit (wd w 0) 20
  coreSet := bits (wd w 0) 22 21
  stripes := bits (wd w 1) 9 0 + 1
  gang := bits (wd w 1) 15 10 + 1
  height := bits (wd w 1) 24 16
  depInit := dep
  outFirst := bits (wd w 3) 23 0
  outCount := bits (wd w 3) 31 24
  w0Kind := bits (wd w 4) 3 0
  w0Obj := bits (wd w 4) 31 8
  w0Val := wd w 5
  w1Kind := bits (wd w 6) 3 0
  w1Obj := bits (wd w 6) 31 8
  w1Val := wd w 7
  work := addr48 w 8
  workCount := bits (wd w 9) 31 16
  sluice := bits (wd w 10) 8 0
  sluiceEn := bit (wd w 10) 9
  early := wd w 11
  late := wd w 12
  gen := gen

/-- An edge entry's words as an edge (R49). -/
def edgeOf (w : List Nat) : Edge where
  dst := bits (wd w 0) 19 0
  kind := bits (wd w 0) 21 20
  prev := bit (wd w 0) 22
  halo := bits (wd w 0) 31 24

/-! ### The checks, in order -/

/-- What an object field names: 0 nothing, 1 a stream, 2 a millrace, 3 a counter. -/
def trigObjKind (k : Nat) : Nat := if k = 1 ∨ k = 2 then 1 else if k = 4 then 2 else if k = 5 then 3 else 0
def waitObjKind (k : Nat) : Nat := if k = 1 then 1 else if k = 2 then 2 else if k = 3 then 3 else 0

/-- Status of an object field: INDEX_RANGE, PARAM_INVALID, or 0 (R33, R51, R59).  Bits above [16] of a COUNTER's object are
out of range, the model's choice (log entry 214). -/
def objStatus (what obj : Nat) : Nat :=
  if what = 0 then (if obj ≠ 0 then 0x02 else 0)
  else if what = 1 then (if 63 < obj then 0x03 else 0)
  else if what = 2 then (if 1023 < obj then 0x03 else 0)
  else if 2 ^ 17 ≤ obj then 0x02
  else if arrExists obj then 0 else 0x03

/-- Every object field: what it names, its value, its word. -/
def imgObjs (h : List Nat) (nodes : List Node) : List (Nat × Nat × Nat) :=
  (trigObjKind (imgTrig h), bits (wd h 3) 23 0, 3) ::
  nodes.zipIdx.flatMap (fun n => [(waitObjKind n.1.w0Kind, n.1.w0Obj, nodeWord n.2 4),
                                  (waitObjKind n.1.w1Kind, n.1.w1Obj, nodeWord n.2 6)])

/-- Step 2 of R390: the header's reserved fields and the ranges of its counts. -/
def headerCheck (h : List Nat) : Option Err :=
  let mask := [0xFFFF, 0xFFFFFF, 0x73F, 0xFFFFFF, 0xFFFFFFFF, 0xFFFFFFFF, 0xFFFFFFFF] ++ List.replicate 9 0 ++
    List.replicate 32 0xFFFFFFFF
  match firstReserved h mask with
  | some k => some (0x01, 0x80000000 + k)
  | none => firstErr [
      imgErr (imgTrig h == 0 || decide (6 < imgTrig h) || imgPolicy h == 3) 0x01 2,
      imgErr (decide (4096 < imgNodeCount h)) 0x03 0,
      imgErr (decide (262144 < imgEdgeCount h)) 0x03 1,
      imgErr (imgNodeCount h == 0) 0x02 0]

/-- The first reserved word of a node entry; DEP_INIT and GEN count as reserved (R47). -/
def nodeReserved (w : List Nat) : Option Nat :=
  let mask := [0x7FFFFF, 0x1FFFFFF, 0, 0xFFFFFFFF, 0xFFFFFF0F, 0xFFFFFFFF, 0xFFFFFF0F, 0xFFFFFFFF, 0xFFFFFFFF,
    0xFFFFFFFF, 0x3FF, 0xFFFFFFFF, 0xFFFFFFFF, 0, 0, 0]
  (w.zipIdx.find? (fun e => decide (e.1 &&& (0xFFFFFFFF ^^^ mask.getD e.2 0) ≠ 0) ||
    (e.2 == 0 && decide (9 < bits e.1 3 0)) || ((e.2 == 4 || e.2 == 6) && decide (4 < bits e.1 3 0)))).map Prod.snd

/-- The first reserved word of an edge entry. -/
def edgeReserved (w : List Nat) : Option Nat :=
  if bit (wd w 0) 23 || bits (wd w 0) 21 20 == 3 then some 0 else if wd w 1 ≠ 0 then some 1 else none

/-- Step 6 of R382, reserved fields of the entries. -/
def entriesReserved (h : List Nat) (nws ews : List (List Nat)) : Option Err :=
  firstErr (nws.zipIdx.map (fun n => (nodeReserved n.1).map (fun k => (0x01, 0x80000000 + nodeWord n.2 k))) ++
    ews.zipIdx.map (fun e => (edgeReserved e.1).map (fun k => (0x01, 0x80000000 + edgeWord h e.2 k))))

/-- R46: one above the highest core a set may name: the largest enabled count of the kinds that use it. -/
def setLimit (nodes : List Node) (k : Nat) : Nat :=
  let us := nodes.filter (fun n => decide (n.cls ≤ 7) && n.coreSet == k)
  if us.isEmpty then 64 else us.foldl (fun m n => max m (coreCount (classKind n.cls))) 0

/-- Step 6 of R382, values beyond a capability size (R33, R46). -/
def indexCheck (h : List Nat) (nodes : List Node) (edges : List Edge) : Option Err :=
  firstErr (
    (imgObjs h nodes).map (fun o => imgErr (objStatus o.1 o.2.1 == 0x03) 0x03 o.2.2) ++
    (List.range 4).map (fun k =>
      ((List.range 256).find? (fun b => decide (setLimit nodes k ≤ b) && bit (imgCoreSet h k) b)).map
        (fun b => (0x03, 0x80000000 + 16 + 8 * k + b / 32))) ++
    nodes.zipIdx.map (fun n => imgErr (decide (262144 ≤ n.1.outFirst)) 0x03 (nodeWord n.2 3)) ++
    edges.zipIdx.map (fun e => imgErr (decide (4096 ≤ e.1.dst)) 0x03 (edgeWord h e.2 0)))

/-- R59: the value of a wait is out of its range. -/
def waitBad (k v : Nat) : Bool :=
  (k == 0 && v != 0) || (k == 1 && decide (255 < v)) || (k == 2 && (v == 0 || decide (256 < v)))

/-- Step 6 of R382, ranges and rules of single fields. -/
def paramCheck (h : List Nat) (nodes : List Node) (edges : List Edge) : Option Err :=
  let t := imgTrig h
  let p0 := wd h 4
  let p1 := wd h 5
  firstErr (
    [imgErr (((t == 1 || t == 4 || t == 6) && p0 != 0) || (t == 2 && (decide (p0 < 16) || decide (256 < p0))) ||
        (t == 3 && decide (p0 < 10000))) 0x02 4,
     imgErr (((t == 1 || t == 2 || t == 4 || t == 6) && p1 != 0) || (t == 3 && decide (p0 ≤ p1)) || (t == 5 && p1 == 0))
        0x02 5] ++
    (imgObjs h nodes).map (fun o => imgErr (objStatus o.1 o.2.1 == 0x02) 0x02 o.2.2) ++
    nodes.zipIdx.map (fun n => firstErr [
      imgErr (!n.1.ordered && n.1.group != 0) 0x02 (nodeWord n.2 0),
      imgErr (if n.1.height = 0 then n.1.stripes != 1 else decide (n.1.height < 16) || decide (256 < n.1.height))
        0x02 (nodeWord n.2 1),
      imgErr (n.1.cls != 6 && n.1.gang != 1) 0x02 (nodeWord n.2 1),
      imgErr (waitBad n.1.w0Kind n.1.w0Val) 0x02 (nodeWord n.2 5),
      imgErr (waitBad n.1.w1Kind n.1.w1Val) 0x02 (nodeWord n.2 7),
      imgErr (if n.1.cls = 6 then n.1.workCount == 0 else n.1.workCount != 1) 0x02 (nodeWord n.2 9)]) ++
    edges.zipIdx.map (fun e => imgErr (if e.1.kind = 2 then e.1.halo == 0 else e.1.halo != 0) 0x02 (edgeWord h e.2 0)))

/-- Step 7 of R382: streams and millraces granted. -/
def rightsCheck (s : State) (tn : Nat) (h : List Nat) (nodes : List Node) : Option Err :=
  firstErr ((imgObjs h nodes).map (fun o =>
    imgErr ((o.1 == 1 && !streamGranted s tn o.2.1) || (o.1 == 2 && !mrqGranted s tn o.2.1)) 0x04 o.2.2))

/-- Nodes in whose out-edge runs edge `j` lies. -/
def ownersOf (nodes : List Node) (j : Nat) : List Nat :=
  nodes.zipIdx.filterMap (fun n => if n.1.outFirst ≤ j ∧ j < n.1.outFirst + n.1.outCount then some n.2 else none)

/-- Drop the nodes with no edge from (or to) a node that is left, over and over. -/
def peel (es : List (Nat × Nat)) : Nat → List Nat → List Nat
  | 0, l => l
  | f + 1, l =>
    let l' := l.filter (fun v => es.any (fun e => e.2 == v && l.contains e.1) && es.any (fun e => e.1 == v && l.contains e.2))
    if l'.length = l.length then l else peel es f l'

/-- R50: first words of the entries involved in a cycle of the edges without PREV. -/
def cycleWords (h : List Nat) (nodes : List Node) (edges : List Edge) : List Nat :=
  let es := edges.zipIdx.filterMap (fun e => if e.1.prev then none else
    (ownersOf nodes e.2).head?.map (fun o => ((o, e.1.dst), e.2)))
  let c := peel (es.map Prod.fst) (nodes.length + 1) (List.range nodes.length)
  if c.isEmpty then []
  else c.map (fun n => nodeWord n 0) ++
    (es.filter (fun e => c.contains e.1.1 && c.contains e.1.2)).map (fun e => edgeWord h e.2 0)

/-- In-edges and external waits of a node. -/
def depOf (nodes : List Node) (edges : List Edge) (n : Nat) : Nat :=
  (edges.filter (fun e => e.dst == n)).length +
  (match nodes[n]? with | some d => b2n (d.w0Kind != 0) + b2n (d.w1Kind != 0) | none => 0)

/-- An order group is bound to a loaded template. -/
def groupBound (s : State) (g : Nat) : Bool :=
  s.seq.tmpls.any (fun e => match e.2 with
    | some v => v.nodes.any (fun n => n.ordered && n.group == g)
    | none => false)

/-- Step 8 of R382: the graph's rules (R50, R72). -/
def graphRules (s : State) (h : List Nat) (nodes : List Node) (edges : List Edge) : Option Err :=
  let cyc := cycleWords h nodes edges
  firstErr (
    nodes.zipIdx.map (fun n => imgErr (decide (edges.length < n.1.outFirst + n.1.outCount)) 0x11 (nodeWord n.2 3)) ++
    edges.zipIdx.map (fun e => imgErr ((ownersOf nodes e.2).length != 1 || decide (nodes.length ≤ e.1.dst)) 0x11
      (edgeWord h e.2 0)) ++
    edges.zipIdx.map (fun e => imgErr ((e.1.prev && e.1.kind != 0) || (e.1.kind != 0 &&
        ((ownersOf nodes e.2).head?.bind (fun o => nodes[o]?)).map Node.stripes !=
          (nodes[e.1.dst]?).map Node.stripes)) 0x11 (edgeWord h e.2 0)) ++
    [imgErr (!cyc.isEmpty) 0x11 (cyc.getD (Config.detailChoice s.free % max 1 cyc.length) 0)] ++
    nodes.zipIdx.map (fun n => firstErr [
      imgErr (decide (65535 < depOf nodes edges n.2)) 0x11 (nodeWord n.2 2),
      imgErr (decide (n.1.cls ≤ 7) && imgCoreSet h n.1.coreSet % 2 ^ coreCount (classKind n.1.cls) == 0) 0x11
        (nodeWord n.2 0),
      imgErr (n.1.cls == 9 && n.1.height != 0) 0x11 (nodeWord n.2 1),
      imgErr (n.1.ordered && groupBound s n.1.group) 0x11 (nodeWord n.2 0),
      imgErr (n.1.cls == 0 && !n.1.serial) 0x11 (nodeWord n.2 0),
      imgErr (n.1.sluiceEn && decide (n.1.late ≤ n.1.early)) 0x11 (nodeWord n.2 12)]) ++
    [imgErr (imgTrig h == 4 && imgPolicy h != 1) 0x11 2])

/-- R50: a sluice bound already, or named twice: RESOURCE_BUSY with the sluice in DETAIL. -/
def sluiceCheck (s : State) (nodes : List Node) : Option Err :=
  let l := nodes.filterMap (fun n => if n.sluiceEn then some n.sluice else none)
  (l.zipIdx.find? (fun x => (sluiceSt s x.1).bound.isSome || (l.take x.2).contains x.1)).map (fun x => (0x05, x.1))

/-- The lowest run of `n` free entries. -/
def fitRun (size n : Nat) (used : List (Nat × Nat)) : Option Nat :=
  if n = 0 then some 0 else ((freeRuns size used).find? (fun r => decide (n ≤ r.2))).map Prod.fst

/-- The lowest free template number. -/
def freeTmpl (s : State) : Option Nat := (List.range 256).find? (fun t => (tmplAt s t).isNone)

/-- Templates a tenant holds. -/
def tmplsOf (s : State) (tn : Nat) : Nat :=
  (s.seq.tmpls.filter (fun e => match e.2 with | some v => v.tenant == tn | none => false)).length

/-- The template an image describes, placed at its runs (R43, R45). -/
def tmplOf (tn : Nat) (h : List Nat) (nodes : List Node) (edges : List Edge) (nb eb : Nat) : Tmpl where
  tenant := tn
  trigKind := imgTrig h
  policy := imgPolicy h
  trigObj := bits (wd h 3) 23 0
  param0 := wd h 4
  param1 := wd h 5
  prewakeLead := wd h 6
  coreSets := (List.range 4).map (imgCoreSet h)
  nodes := nodes
  edges := edges
  nodeBase := nb
  edgeBase := eb
  armed := false
  threshold := 0
  nextFire := 0
  nextSeq := 0
  pending := []
  skipped := false
  fresh := true
  slots := List.replicate (bits (wd h 2) 10 8 + 1) instFree
  ended := []
  pubSeq := []
  doomed := false
  prewoken := 0

/-- The template's sluices are bound to its nodes. -/
def bindSluices (t : Nat) (nodes : List Node) (s : State) : State :=
  nodes.zipIdx.foldl (fun s n =>
    if n.1.sluiceEn then modSluice n.1.sluice (fun _ => { sluiceReset with bound := some (t, n.2) }) s else s) s

/-- R469: entries that are written hold no error of before. -/
def entriesWritten (nb n : Nat) (s : State) : State :=
  modSeq (fun q => { q with nodeUpsets := q.nodeUpsets.filter (fun e => decide (e < nb) || decide (nb + n ≤ e)) }) s

/-- What a GRAPH_LOAD ends in: an error, or template number, node base, edge base and the state. -/
inductive Loaded where
  | err (status detail : Nat)
  | ok (t nb eb : Nat) (s : State)

/-- Checks of the whole image and its placing (R390 step 4, R43). -/
def loadImage (s : State) (tn : Nat) (h ws : List Nat) : Loaded :=
  let n := imgNodeCount h
  let nws := chunks 16 n (ws.drop 48)
  let ews := chunks 2 (imgEdgeCount h) (ws.drop (48 + 16 * n))
  let edges := ews.map edgeOf
  let bare := nws.map (fun w => nodeOf w 0 0)
  match firstErr [entriesReserved h nws ews, indexCheck h bare edges, paramCheck h bare edges, rightsCheck s tn h bare,
      graphRules s h bare edges, sluiceCheck s bare] with
  | some e => .err e.1 e.2
  | none =>
    match freeTmpl s, fitRun 131072 n (nodeUsed s), fitRun 262144 edges.length (edgeRuns s) with
    | some t, some nb, some eb =>
      let nodes := nws.zipIdx.map (fun w => nodeOf w.1 (depOf bare edges w.2) (tget 0 s.seq.entryTags (nb + w.2)))
      if templateMax s tn ≤ tmplsOf s tn then .err 0x10 0
      else .ok t nb eb (bindSluices t nodes (putTmpl t (some (tmplOf tn h nodes edges nb eb)) (entriesWritten nb n s)))
    | _, _, _ => .err 0x10 0

/-- R390: bytes of an image that a GRAPH_LOAD reads before it answers: none where its length or range fails, the header
where that fails, otherwise all. -/
def imageReads (s : State) (tn addr nbytes : Nat) : Nat :=
  if nbytes < 192 ∨ !rangePopulated s tn addr nbytes ∨ !rangeGranted s tn addr nbytes then 0
  else if chkAccess s tn addr 192 false = .ok ∧ (headerCheck (rdWords s tn addr 48)).isNone ∧
    nbytes = imgBytes (rdWords s tn addr 48) then nbytes
  else 192

/-- R390, R508: GRAPH_LOAD. -/
def graphLoadImage (s : State) (tn addr nbytes : Nat) : Loaded :=
  if nbytes < 192 then .err 0x02 6
  else if !rangePopulated s tn addr nbytes then .err 0x02 4
  else if !rangeGranted s tn addr nbytes then .err 0x04 4
  else match chkAccess s tn addr 192 false, hostRefuses s addr with
  | .ok, false =>
    let h := rdWords s tn addr 48
    (match headerCheck h with
     | some e => .err e.1 e.2
     | none =>
       if nbytes ≠ imgBytes h then .err 0x02 6
       else match chkAccess s tn addr nbytes false, hostRefuses (draw s) addr with
       | .ok, false => loadImage s tn h (rdWords s tn addr (nbytes / 4))
       | _, _ => .err 0x02 4)
  | _, _ => .err 0x02 4

end Sys2Proof.Machine
end

