-- ==== Sys2Proof/Machine/RegWrite.lean ====
section
/-! DEFINITION. Register writes (R7, R8, R11, R26, R30, R457) and every row of the operation table that is an access to
a register: rights and states of each block, what a write starts, accesses deferred while the device sleeps. -/

namespace Sys2Proof.Machine

/-! ### Storing -/

/-- The new value of a register whose RW bits are written. -/
def mergeRw (old rw v : Nat) : Nat := old - (old &&& rw) + (v &&& rw)

/-- Store the RW bits of a register's object. -/
def storeRw (d : RegDef) (i v : Nat) (s : State) : State := rput d.off i (mergeRw (rget s d.off i) d.rw v) s

/-- A write allowed under a condition; otherwise dropped and counted. -/
def allowed (c : Bool) (rq : Nat) (s : State) (f : State → State) : State := if c then f s else countDenied rq s

/-! ### Writes with a meaning of their own -/

/-- A port carries an open stream or one that awaits its first frame start (R102, CAM_PORT_CFG). -/
def portInUse (s : State) (p : Nat) : Bool :=
  s.cam.streams.any (fun e => match e.2 with | some v => sdPort v == p && v.started | none => false)

/-- CAM_PORT_CFG: dropped while the port is in use; TX reads 0 on ports 0 to 13.  A write of TX leaves the transmit mode as
TX_CONFIG set it, the model's choice (log entry 216). -/
def portCfgWrite (rq p v : Nat) (d : RegDef) (s : State) : State :=
  allowed (privileged s rq && !portInUse s p) rq s
    (storeRw d p (if p < 14 then v - (v &&& 8) else v))

/-- R101: a frame-sync output's register. -/
def fsoWrite (rq k v : Nat) (d : RegDef) (s : State) : State :=
  allowed (privileged s rq) rq s (fun s => fsoApply k (storeRw d k v s))

/-- R132: ISP_LAND. -/
def landWrite (rq i v : Nat) (d : RegDef) (s : State) : State :=
  allowed (streamGranted s rq i && !(match streamAt s i with | some v => v.opened | none => false)) rq s (storeRw d i v)

/-- A partition would overlap another enabled one, or end beyond the table (R210, R225). -/
def partClash (s : State) (p : Nat) : Bool :=
  let r := partRange s p
  decide (65536 < r.1 + r.2) || (List.range 64).any (fun q => q != p && bit (rget s R.kpePartCtrl q) 0 &&
    decide ((partRange s q).1 < r.1 + r.2) && decide (r.1 < (partRange s q).1 + (partRange s q).2))

/-- R225: CLEAR. -/
def partClear (p : Nat) (s : State) : State :=
  let r := partRange s p
  let c := rget s R.kpePartCtrl p
  rput R.kpePartNextid p 1 (rput R.kpePartCtrl p (c - (c &&& 0x200))
    { s with tracks := tdrop s.tracks (fun k => decide (r.1 ≤ k) && decide (k < r.1 + r.2)) })

/-- R225: a write to a track partition's register. -/
def partWrite (rq p v : Nat) (d : RegDef) (s : State) : State :=
  let c := rget s R.kpePartCtrl p
  let st := bits c 8 3
  if !streamGranted s rq st || partBusy s p then countDenied rq s
  else if d.off = R.kpePartCtrl then
    let nst := bits v 8 3
    if (nst ≠ st ∧ (bit c 0 ∨ ¬ streamGranted s rq nst)) ∨ (bit v 0 ∧ partClash s p) then countDenied rq s
    else
      let s1 := rput R.kpePartCtrl p (mergeRw c d.rw v) s
      if bit v 1 then partClear p s1 else s1
  else if bit c 0 then countDenied rq s
  else storeRw d p v s

/-- R305: STR_CTX_OWNER: the owner is named by its tenant or a requester of R30, while the context is not BUSY; the
base ring is cleared. -/
def ctxOwnerWrite (rq v : Nat) (s : State) : State :=
  let c := selGet s rq R.strCtxSel
  if !(privileged s rq || ownsTmpl s rq (bits v 15 8)) || engBusy s (engCtx c) then countDenied rq s
  else rput R.strCtxOwner c (v &&& 0xFF01) { s with ring := tdrop s.ring (fun k => k / 64 == c) }

/-- R323: a template that is armed or has a slot not FREE names the millrace. -/
def mrqInUse (s : State) (m : Nat) : Bool :=
  s.seq.tmpls.any (fun e => match e.2 with
    | some v => (v.armed || tmplBusy v) && ((v.trigKind == 4 && v.trigObj == m) ||
        v.nodes.any (fun n => (n.w0Kind == 2 && n.w0Obj == m) || (n.w1Kind == 2 && n.w1Obj == m)))
    | none => false)

/-- R323: MRQ_CFG. -/
def mrqWrite (rq v : Nat) (s : State) : State :=
  let m := selGet s rq R.mrqSel
  let old := rget s R.mrqCfg m
  if !mrqGranted s rq m then countDenied rq s
  else if !bit old 0 then rput R.mrqCfg m (v &&& 0xFF0003) s
  else if (v &&& 0xFF0002) ≠ (old &&& 0xFF0002) then countDenied rq s
  else if bit v 0 then s
  else if mrqInUse s m then countDenied rq s
  else acceptPush m (rput R.mrqCfg m (old &&& 0xFF0002) (mrqPut m [] s))

/-- R421, R424: SEC_ISO_CTRL. -/
def isoCtrlWrite (rq v : Nat) (s : State) : State :=
  if !privileged s rq then countDenied rq s
  else
    let s1 := if rq = 32 then modSec (fun x => { x with hostOwner := bit v 2 }) s
              else if bit v 2 ≠ s.sec.hostOwner then countDenied rq s else s
    if bit v 0 then (if s.sec.pending then countDenied rq s1 else commitIso s1) else s1

/-- R424: a word of the shadow table; none while a commit is PENDING. -/
def shadowWrite (rq k v : Nat) (s : State) : State :=
  allowed (privileged s rq && !s.sec.pending) rq s
    (modSec (fun x => { x with shadow := tset (0 : Word) x.shadow k (BitVec.ofNat 32 v) }))

/-- R424: four bytes of the credential staging window. -/
def credWrite (rq o v : Nat) (s : State) : State :=
  allowed (privileged s rq) rq s (modSec (fun x => { x with
    staging := (leBytes 4 v).zipIdx.foldl (fun t e => tset (0 : Byte) t (o + e.2) e.1) x.staging }))

/-- R30: PWR_TIME_CTRL; a new source has not been measured. -/
def timeCtrlWrite (d : RegDef) (v : Nat) (s : State) : State :=
  let old := bits (rget s R.pwrTimeCtrl 0) 2 0
  let s1 := storeRw d 0 v s
  lockBit (if bits v 2 0 = old then s1 else modPwr (fun p => { p with lockSince := none, slewLeft := 0, slewStep := 0 }) s1)

/-- The registers that only the requesters of R30 write. -/
def privRegs : List Nat :=
  [R.seqGangStarve, R.camFsiCtrl, R.spdArbCfg, R.spdScrubCfg, R.ethMacCfg, R.ethMacAddrLo, R.ethMacAddrHi, R.ethIp4,
   R.ethIp60, R.ethIp61, R.ethIp62, R.ethIp63, R.ethPhyDly, R.ethDevTag, R.mgtUdpPort, R.safCfg, R.safNetPort,
   R.safStreamCritLo, R.safStreamCritHi, R.pwrSleepCfg, R.pwrIrq, R.pwrCeLimit, R.bootPkgAddr]

/-- A write to a register, object or family number `n`. -/
def writeReg (rq n v : Nat) (d : RegDef) (s : State) : State :=
  let i := objOf s rq d n
  let o := d.off
  if selectors.contains o then selPut rq o (v &&& d.rw) s
  else if R.hostPortLink ≤ o ∧ o ≤ R.hostPortDiscard then (if n = 1 ∧ ¬ s.bifurcated then countDenied rq s else s)
  else if privRegs.contains o then allowed (privileged s rq) rq s (storeRw d i v)
  else if o = R.pwrTimeCtrl then allowed (privileged s rq) rq s (timeCtrlWrite d v)
  else if o = R.pwrEnv then allowed (privileged s rq) rq s (fun s => reformEnv (storeRw d i v s))
  else if o = R.camPortCfg then portCfgWrite rq n v d s
  else if o = R.camFsoCtrl ∨ o = R.camFsoPeriod ∨ o = R.camFsoPhase then fsoWrite rq n v d s
  else if o = R.camStreamStat then
    allowed (streamGranted s rq i || privileged s rq) rq s (rput o i (rget s o i - (rget s o i &&& v &&& 2)))
  else if o = R.ispLand then landWrite rq i v d s
  else if o = R.kpePartRange ∨ o = R.kpePartOwner ∨ o = R.kpePartCtrl then partWrite rq i v d s
  else if o = R.spdSlicePwr then slicePwrWrite rq v s
  else if o = R.spdSliceCache then settle (sliceCacheWrite rq v s)
  else if o = R.spdWheelCfg then wheelCfgWrite rq v s
  else if o = R.spdWheelSize then wheelSizeWrite rq v s
  else if o = R.spdArrValue then arrValueWrite rq v s
  else if o = R.strCtxOwner then ctxOwnerWrite rq v s
  else if o = R.mrqCfg then settle (mrqWrite rq v s)
  else if o = R.secIsoCtrl then isoCtrlWrite rq v s
  else if o = R.secCredCtrl then
    allowed (privileged s rq) rq s (fun s => if bit v 0 then commitCred s else s)
  else if o = R.safStat then
    allowed (privileged s rq) rq s (rput o 0 (rget s o 0 - (rget s o 0 &&& v &&& 8)))
  else if o = R.pwrStat then
    allowed (privileged s rq) rq s (rput o 0 (rget s o 0 - (rget s o 0 &&& v &&& 4)))
  else if o = R.bootPkgCtrl then allowed (privileged s rq) rq s (pkgCtrl rq v)
  else s

/-! ### Lane registers (R380, R395) -/

/-- R395: a write of EN = 1 sets the reply count, HOST_LANE_CONS and the producer index in host memory to 0. -/
def laneRestart (n : Nat) (s : State) : State :=
  let l := laneSt s n
  hostPut (n / 16) (ringBase l + 32 * ringSlots l) (leBytes 4 0) (modLane n (fun l => { l with replies := 0, cons := 0 }) s)

/-- R395: HOST_LANE_CFG.  Of a write to an enabled lane the fields other than EN are dropped, and a write that would
change one of them is counted (DEDUCED, log entry 135). -/
def laneCfgWrite (n v : Nat) (s : State) : State :=
  let l := laneSt s n
  let fn := n / 16
  let vec := bits v 26 16
  let old := l.cfg.toNat
  if bit old 0 then
    let s1 := if (v &&& 0x07FF001E) ≠ (old &&& 0x07FF001E) then countDenied fn s else s
    if bit v 0 then laneRestart n s1
    else if l.credits = 32 ∧ l.viol = none then modLane n (fun l => { l with cfg := BitVec.ofNat 32 (old - 1) }) s1
    else countDenied fn s
  else
    let ok := decide (vec < msixCount fn)
    let s1 := if ok then s else countDenied fn s
    let cfg := (v &&& 0x1F) + (if ok then vec else bits old 26 16) * 65536
    let s2 := modLane n (fun l => { l with cfg := BitVec.ofNat 32 cfg }) s1
    if bit v 0 then
      laneRestart n (modLane n (fun l => { l with staging := [], unannounced := 0, modStart := none }) s2)
    else s2

/-- R380, R395: HOST_LANE_CONS returns credits; a pending violation takes the next one and is replied. -/
def laneConsWrite (n v : Nat) (s : State) : State :=
  let l := laneSt s n
  let d := (v + 2 ^ 32 - l.cons) % 2 ^ 32
  if (l.replies + 2 ^ 32 - l.cons) % 2 ^ 32 < d then countDenied (n / 16) s
  else
    let s1 := modLane n (fun l => { l with cons := v % 2 ^ 32, credits := l.credits + d }) s
    match l.viol with
    | some (tag, c) =>
      if 0 < l.credits + d then
        signalReply n (ringReply n (replyRecord 0x09 0 (n % 16) tag s.now c 0 0 0)
          (modLane n (fun l => { l with viol := none, credits := l.credits - 1 }) s1))
      else s1
    | none => s1

/-- R379, R380: the staged packet commits. -/
def laneCommit (n words : Nat) (s : State) : State :=
  let l := laneSt s n
  let p := (List.range words).map (fun i => tget (0 : Word) l.staging i)
  let s1 := modLane n (fun l => { l with staging := [] }) s
  if !laneEn l then modLane n (fun l => { l with noring := min 65535 (l.noring + 1) }) s1
  else if l.credits = 0 then
    modLane n (fun l => { l with viol := some (match l.viol with
      | some (t, c) => (t, sat32 (c + 1))
      | none => ((p.getD 1 0).toNat, 1)) }) s1
  else
    let s2 := modLane n (fun l => { l with credits := l.credits - 1, queue := l.queue ++ [p] }) s1
    if (waiterOf s2 n).isSome || !l.queue.isEmpty then s2 else pumpLane n s2

/-- R379: dwords of one TLP reach the packet window; the rest of a TLP after its commit is discarded and counted. -/
def laneWindow (n : Nat) : Nat → List Word → State → State
  | _, [], s => s
  | i, w :: t, s =>
    let s1 := modLane n (fun l => { l with staging := tset (0 : Word) l.staging i w }) s
    let len := packetWords (tget (0 : Word) (laneSt s1 n).staging 0).toNat
    if i + 1 = len then
      laneCommit n len (if t.isEmpty then s1 else countShape (n / 16) s1)
    else laneWindow n (i + 1) t s1

/-- A write TLP to the packet window: whole aligned dwords inside it, otherwise counted (DEDUCED). -/
def packetWrite (n off : Nat) (dws : List Word) (s : State) : State :=
  if off % 4 ≠ 0 ∨ dws.isEmpty ∨ 256 < off + 4 * dws.length then countShape (n / 16) s
  else laneWindow n (off / 4) dws s

/-- A write at a lane's offset. -/
def laneWrite (fn l o v : Nat) (s : State) : State :=
  let n := 16 * fn + l
  if o < 0x100 then packetWrite n o [BitVec.ofNat 32 v] s
  else if o = 0x100 then
    (if laneEn (laneSt s n) then countDenied fn s
     else modLane n (fun l => { l with ringLo := BitVec.ofNat 32 (downTo v 4096) }) s)
  else if o = 0x104 then
    (if laneEn (laneSt s n) then countDenied fn s else modLane n (fun l => { l with ringHi := BitVec.ofNat 32 v }) s)
  else if o = 0x108 then laneCfgWrite n v s
  else if o = 0x10C then modLane n (fun l => { l with moder := BitVec.ofNat 32 (v &&& 0xFFFF00FF) }) s
  else if o = 0x110 then laneConsWrite n v s
  else s

/-! ### MSI-X table (R361) -/

/-- R361: unmask a vector; a pending bit sends one message. -/
def unmaskVec (fn vec : Nat) (s : State) : State :=
  let k := fn * 4096 + vec * 4 + 3
  let w := tget (0 : Word) s.msix k
  let s1 := { s with msix := tset (0 : Word) s.msix k (w ||| 1) }
  if s.msixPend.contains (fn * 4096 + vec) then
    msixEvent fn vec { s1 with msixPend := s1.msixPend.filter (· != fn * 4096 + vec) }
  else s1

/-- A write to an MSI-X table word. -/
def msixWrite (fn e v : Nat) (s : State) : State :=
  if e % 4 = 3 then
    (if bit v 0 then { s with msix := tset (0 : Word) s.msix (fn * 4096 + e) 0 }
     else unmaskVec fn (e / 4) s)
  else { s with msix := tset (0 : Word) s.msix (fn * 4096 + e) (BitVec.ofNat 32 (if e % 4 = 0 then downTo v 4 else v)) }

/-! ### The bus -/

/-- An aligned 32-bit write in RUN. -/
def busWrite (rq o v : Nat) (s : State) : State :=
  match placeOf rq o with
  | .reg d n => writeReg rq n v d s
  | .shadow k => shadowWrite rq k v s
  | .force _ => countDenied rq s
  | .cred o => credWrite rq o v s
  | .pkg o => allowed (privileged s rq) rq s (fun s => pkgProgram rq (rget s R.bootPkgAddr 0 + o) v s)
  | .lane l o => laneWrite rq l o v s
  | .caps _ => countDenied rq s
  | .msix e => msixWrite rq e v s
  | .pba _ => s
  | .hole => countHole rq s

/-- A write to a PWR_ register or the commit of a packet wakes the device (R457). -/
def wakingWrite (rq o' : Nat) : Bool :=
  let o := pfOffset rq o'
  (decide (0x480000 ≤ o) && decide (o < 0x4C0000)) || (decide (0xC00000 ≤ o) && decide (o < 0xC10000))

/-- R457: an access that arrives outside RUN completes once the device reaches RUN. -/
def deferred (s : State) : Bool := s.pwr.st == .sleep || s.pwr.st == .waking

/-- Keep an access until RUN. -/
def defer (d : Deferred) (s : State) : State := modPwr (fun p => { p with waiting := p.waiting ++ [d] }) s

/-- A function's or the management port's write; a management message wakes the device. -/
def wrReg (rq o v : Nat) (s : State) : State :=
  if !reaches s rq then s
  else if o % 4 ≠ 0 then countShape rq s
  else if deferred s then
    defer { rq := rq, off := o, wr := some (BitVec.ofNat 32 v) } (if rq = 32 ∨ wakingWrite rq o then wakeDevice s else s)
  else busWrite rq o v s

/-- R379: the offset lies in the packet window of one of a function's lanes, where R11 does not hold. -/
def inPacketWindow (rq o : Nat) : Bool :=
  match placeOf rq o with
  | .lane _ k => decide (k < 0x100)
  | _ => false

/-- R11: a read of another size or alignment returns all ones and is counted; one of the packet window returns 0 as
every read of it does (R378, R379). -/
def shapeRead (rq o : Nat) (s : State) : State :=
  if inPacketWindow rq o then emit (.data rq 0) s else emit (.data rq 0xFFFFFFFF) (countShape rq s)

/-- A read: the value goes out. -/
def rdReg (rq o : Nat) (s : State) : State :=
  if !reaches s rq then s
  else if o % 4 ≠ 0 then shapeRead rq o s
  else if deferred s then defer { rq := rq, off := o, wr := none } (if rq = 32 then wakeDevice s else s)
  else
    let r := busRead rq o s
    emit (.data rq (BitVec.ofNat 32 r.1)) r.2

/-- R457: the accesses that waited for RUN complete in order. -/
def runDeferred : List Deferred → State → State
  | [], s => s
  | d :: t, s =>
    let s1 := match d.wr with
      | some v => busWrite d.rq d.off v.toNat s
      | none => let r := busRead d.rq d.off s; emit (.data d.rq (BitVec.ofNat 32 r.1)) r.2
    runDeferred t s1

/-- R457, R458: the device is awake: RUN, the golden runs of the interval, the accesses that waited. -/
def wakeDone (s : State) : State :=
  if s.pwr.st = .waking then
    let w := s.pwr.waiting
    settle (runDeferred w (wakeGolden (modPwr (fun p => { p with st := .run, waiting := [], idleSince := none }) s)))
  else s

/-- R11: an access of wrong size or alignment. -/
def misshaped (rq o size : Nat) (wr : Bool) (s : State) : State :=
  if reaches s rq && (size != 4 || o % 4 != 0) then (if wr then countShape rq s else shapeRead rq o s) else s

/-- An access at an offset that names a register of the row, or any offset for the general rows. -/
def regAct (rq o : Nat) (s : State) (f : State → State) : Host.Outcome State Fault Refusal :=
  act (decide (rq < 33) && decide (o < 0x1000000)) s f

/-! ### Commands -/

/-- R7. -/
def execRegisterWrite (rq off : Nat) (v : Word) (s : State) : Host.Outcome State Fault Refusal :=
  regAct rq off s (wrReg rq off v.toNat)

/-- R8: the same access; the bits are of type W1C. -/
def execW1cRegisterWrite (rq off : Nat) (v : Word) (s : State) : Host.Outcome State Fault Refusal :=
  regAct rq off s (wrReg rq off v.toNat)

/-- R7. -/
def execRcRegisterRead (rq off : Nat) (s : State) : Host.Outcome State Fault Refusal := regAct rq off s (rdReg rq off)

/-- R11. -/
def execMmioMisshapedAccess (rq off size : Nat) (wr : Bool) (s : State) : Host.Outcome State Fault Refusal :=
  regAct rq off s (misshaped rq off size wr)

/-- R26: an aligned access; where a register stands at the offset it is that register's access. -/
def execMmioHoleAccess (rq off : Nat) (wr : Bool) (s : State) : Host.Outcome State Fault Refusal :=
  regAct rq off s (fun s => if wr then wrReg rq off 0 s else rdReg rq off s)

/-- R29: PWR_TIME_LO where the requester sees it. -/
def execPwrTimeLoRead (rq : Nat) (s : State) : Host.Outcome State Fault Refusal :=
  regAct rq (timeLoAt rq) s (rdReg rq (timeLoAt rq))

/-- R75. -/
def execSeqSluiceLastLoRead (rq : Nat) (s : State) : Host.Outcome State Fault Refusal :=
  regAct rq R.seqSluiceLastLo s (rdReg rq R.seqSluiceLastLo)

/-- R101. -/
def execCamFsiLastLoRead (rq n : Nat) (s : State) : Host.Outcome State Fault Refusal :=
  act (decide (rq < 33) && decide (n < 4)) s (rdReg rq (R.camFsiLastLo + 8 * n))

/-- R424. -/
def execSecIsoTimeLoRead (rq : Nat) (s : State) : Host.Outcome State Fault Refusal :=
  regAct rq R.secIsoTimeLo s (rdReg rq R.secIsoTimeLo)

/-- R441. -/
def execSafCauseTimeLoRead (rq : Nat) (s : State) : Host.Outcome State Fault Refusal :=
  regAct rq R.safCauseTimeLo s (rdReg rq R.safCauseTimeLo)

/-- R225: a write of KPE_PART_CTRL with CLEAR set. -/
def execPartitionClear (rq : Nat) (v : Word) (s : State) : Host.Outcome State Fault Refusal :=
  regAct rq R.kpePartCtrl s (wrReg rq R.kpePartCtrl (v.toNat ||| 2))

/-- R300, R302. -/
def execSpdArrValueWrite (rq : Nat) (v : Word) (s : State) : Host.Outcome State Fault Refusal :=
  regAct rq R.spdArrValue s (wrReg rq R.spdArrValue v.toNat)

/-- R292. -/
def execSpdSlicePwrWrite (rq : Nat) (v : Word) (s : State) : Host.Outcome State Fault Refusal :=
  regAct rq R.spdSlicePwr s (wrReg rq R.spdSlicePwr v.toNat)

/-- R291. -/
def execSpdSliceCacheWrite (rq : Nat) (v : Word) (s : State) : Host.Outcome State Fault Refusal :=
  regAct rq R.spdSliceCache s (wrReg rq R.spdSliceCache v.toNat)

/-- R290: a write of SPD_SLICE_CACHE with INV set. -/
def execCacheInv (rq : Nat) (v : Word) (s : State) : Host.Outcome State Fault Refusal :=
  regAct rq R.spdSliceCache s (wrReg rq R.spdSliceCache (v.toNat ||| 32))

/-- R298. -/
def execSpdWheelCfgWrite (rq : Nat) (v : Word) (s : State) : Host.Outcome State Fault Refusal :=
  regAct rq R.spdWheelCfg s (wrReg rq R.spdWheelCfg v.toNat)

/-- R323. -/
def execMrqCfgWrite (rq : Nat) (v : Word) (s : State) : Host.Outcome State Fault Refusal :=
  regAct rq R.mrqCfg s (wrReg rq R.mrqCfg v.toNat)

/-- R305. -/
def execStrCtxOwnerWrite (rq : Nat) (v : Word) (s : State) : Host.Outcome State Fault Refusal :=
  regAct rq R.strCtxOwner s (wrReg rq R.strCtxOwner v.toNat)

/-- R421: a write of SEC_ISO_CTRL with COMMIT set. -/
def execIsoCommit (rq : Nat) (v : Word) (s : State) : Host.Outcome State Fault Refusal :=
  regAct rq R.secIsoCtrl s (wrReg rq R.secIsoCtrl (v.toNat ||| 1))

/-- R414: a write of SEC_CRED_CTRL with COMMIT set. -/
def execCredCommit (rq : Nat) (v : Word) (s : State) : Host.Outcome State Fault Refusal :=
  regAct rq R.secCredCtrl s (wrReg rq R.secCredCtrl (v.toNat ||| 1))

/-- R486: a word at offset `off` of the package window. -/
def execPkgWindowWrite (rq off : Nat) (v : Word) (s : State) : Host.Outcome State Fault Refusal :=
  act (decide (rq < 33) && decide (off < 0x10000)) s (wrReg rq (0x4D0000 + off) v.toNat)

/-- R486: a write of BOOT_PKG_CTRL with ERASE set and COMMIT clear. -/
def execPkgErase (rq : Nat) (_v : Word) (s : State) : Host.Outcome State Fault Refusal :=
  regAct rq R.bootPkgCtrl s (wrReg rq R.bootPkgCtrl 1)

/-- R486: a write of BOOT_PKG_CTRL with COMMIT set and ERASE clear. -/
def execPkgCommit (rq : Nat) (_v : Word) (s : State) : Host.Outcome State Fault Refusal :=
  regAct rq R.bootPkgCtrl s (wrReg rq R.bootPkgCtrl 2)

/-- R379, R457: dwords written to a lane's packet window; in SLEEP they wake the device, which takes them at once
(DESIGN CHOICE). -/
def execPacketWindowWrite (fn lane off : Nat) (dws : List Word) (s : State) : Host.Outcome State Fault Refusal :=
  act (decide (fn < 32) && decide (lane < 16) && decide (off < 256)) s (fun s =>
    if reaches s fn then packetWrite (16 * fn + lane) off dws (wakeDevice s) else s)

/-- R380, R395. -/
def execHostLaneConsWrite (fn lane : Nat) (v : Word) (s : State) : Host.Outcome State Fault Refusal :=
  act (decide (fn < 32) && decide (lane < 16)) s (wrReg fn (laneBase fn + 0x110 + 0x1000 * lane) v.toNat)

/-- R395. -/
def execHostLaneCfgWrite (fn lane : Nat) (v : Word) (s : State) : Host.Outcome State Fault Refusal :=
  act (decide (fn < 32) && decide (lane < 16)) s (wrReg fn (laneBase fn + 0x108 + 0x1000 * lane) v.toNat)

/-- R388: the moderation window [t, t + MOD_US) of a lane ends. -/
def execModWindowEnd (fn lane : Nat) (s : State) : Host.Outcome State Fault Refusal :=
  act (decide (fn < 32) && decide (lane < 16)) s (fun s =>
    let n := 16 * fn + lane
    let l := laneSt s n
    match l.modStart with
    | some t =>
      if t + bits l.moder.toNat 31 16 * 1000 ≤ s.now ∧ 0 < l.unannounced then
        msixEvent fn (bits l.cfg.toNat 26 16) (modLane n (fun l => { l with unannounced := 0, modStart := none }) s)
      else s
    | none => s)

/-- R361. -/
def execMsixUnmask (fn vec : Nat) (s : State) : Host.Outcome State Fault Refusal :=
  act (decide (fn < 32) && decide (vec < 1024)) s (fun s =>
    if vec < msixCount fn ∧ reaches s fn then unmaskVec fn vec s else s)

/-- R457. -/
def execSleepWakeDone (s : State) : Host.Outcome State Fault Refusal := act true s wakeDone

end Sys2Proof.Machine
end

