-- ==== Sys2Proof/Machine/Start.lean ====
section
/-! DEFINITION. The end of the start-up self-test (R438): the configuration is applied (R477) and check interval 0
begins with the first golden runs (R427, R439); the REG_WRITE that presets are applied by. -/

namespace Sys2Proof.Machine

/-- R375: REG_WRITE of the management port: refused where no register can take it (PARAM_INVALID) or where the write is
dropped for rights or state (ACCESS_DENIED); DESIGN CHOICE of the two codes. -/
def mgmtWrite (o v : Nat) (s : State) : Nat × State :=
  if o % 4 ≠ 0 then (0x02, countShape 32 s)
  else if placeOf 32 o = .hole then (0x02, countHole 32 s)
  else
    let old := rget s R.hostFnWrDenied 32
    let t := busWrite 32 o v (rput R.hostFnWrDenied 32 0 s)
    let n := rget t R.hostFnWrDenied 32
    (if n = 0 then 0 else 0x04, rput R.hostFnWrDenied 32 (sat32 (old + n)) t)

/-- R477: apply presets in order; one that REG_WRITE would refuse is skipped and logged. -/
def applyPresets (b : List Byte) (area : Nat) : Nat → Nat → State → State
  | 0, _, s => s
  | c + 1, i, s =>
    let r := mgmtWrite (leAt b (0x4400 + 8 * i) 4) (leAt b (0x4404 + 8 * i) 4) s
    applyPresets b area c (i + 1) (if r.1 = 0 then r.2 else logBoot 0x0305 area i s)

/-- R477: the isolation table of a block, or the defaults of R420 where R419 would refuse it. -/
def applyTable (b : List Byte) (area : Nat) (s : State) : State :=
  let t : Tab Word := (List.range 4224).foldl
    (fun t k => tset (0 : Word) t k (BitVec.ofNat 32 (leAt b (0x200 + 4 * k) 4))) []
  let s1 := modSec (fun x => { x with shadow := t }) s
  match isoCheck s1 with
  | none => modSec (fun x => { x with table := t }) s1
  | some _ => logBoot 0x0305 area 0xFFFFFFFF (modSec (fun x => { x with shadow := defaultTable, table := defaultTable }) s1)

/-- R477: the firmware applies the block in force. -/
def applyConfig (s : State) : State :=
  match cfgNow s with
  | none => s
  | some c =>
    let s1 := modSec (fun x => { x with hostOwner := bit (leAt c.bytes 0x40 4) 2 }) (applyTable c.bytes s.boot.cfgArea s)
    applyPresets c.bytes s.boot.cfgArea (min 1024 (leAt c.bytes 0x48 4)) 0 s1

/-- R427, R438, R439: the self-test has ended; `missed` names a checker that missed its fault. -/
def selfTestEnd (missed : Option Nat) (s : State) : State :=
  if s.boot.phase ≠ 2 ∨ s.saf.selfTested then s
  else
    let s1 := match missed with
      | some c => enterSafe 0x09 0xFFFF (addLog 0x0105 63 0xFFFF c 0 0 (modSaf (fun x => { x with selfFailed := true }) s))
      | none => s
    let s2 := applyConfig s1
    let s3 := modSaf (fun x => { x with
      selfTested := true, intervals := 1, intStart := s2.now, intLen := intervalNs s2, intEnd := s2.now + intervalNs s2 }) s2
    settle (goldenEngines.foldl placeGolden s3)

/-- R438. -/
def execSelfTestDone (missed : Option Nat) (s : State) : Host.Outcome State Fault Refusal :=
  act true s (selfTestEnd missed)

end Sys2Proof.Machine
end

