-- ==== Sys2Proof/Machine/Spdm.lean ====
section
/-! DEFINITION. The SPDM responder (R398 to R400, R402, R415, R416): connections over the DOE mailboxes and MCTP,
certificates, measurements, management sessions.  Messages and error codes are those of DSP0274 1.3. -/

namespace Sys2Proof.Machine

/-- Number of a link: the two mailboxes, then the two management links. -/
def linkNo : SpdmLink → Nat
  | .doe p => p % 2
  | .mctp l => 2 + l % 2

/-- The link is a DOE mailbox. -/
def isDoe : SpdmLink → Bool
  | .doe _ => true
  | .mctp _ => false

/-- The responder answers on the link: the loader or the firmware runs; a mailbox's port is up and the mailbox not busy
(R363); the RGMII link is up (R374). -/
def linkLive (s : State) (l : SpdmLink) : Bool :=
  decide (2 ≤ s.boot.phase) && (match l with
    | .doe p => (portSt s p).up && (p == 0 || s.bifurcated) && !doeBusy s p
    | .mctp n => n != 0 || (macSt s 2).link)

/-- What the link takes: a data object of up to 16 KiB (R363); an MCTP message of SPDM or secured SPDM, on the RGMII link at
the management UDP port (R374). -/
def linkTakes (s : State) (l : SpdmLink) (q : SpdmReq) : Bool :=
  match l with
  | .doe _ => decide (q.body.length + 12 ≤ 16384)
  | .mctp n => (q.via.type == 5 || q.via.type == 6) && (n != 0 || q.via.dst == rget s R.mgtUdpPort 0)

/-- A connection. -/
def connSt (s : State) (l : Nat) : Conn := tget connReset s.sec.conns l

/-- Change it. -/
def modConn (l : Nat) (f : Conn → Conn) (s : State) : State :=
  modSec (fun x => { x with conns := tmod connReset x.conns l f }) s

/-- R374: the MCTP packets of a message to the sender of `v`: a transport header and up to 256 bytes each. -/
def mctpPackets (v : MctpVia) (msg : List Byte) : List (List Byte) :=
  let n := max 1 (cdiv msg.length 256)
  (List.range n).map (fun i =>
    [0x01, BitVec.ofNat 8 v.eid, BitVec.ofNat 8 v.own,
     BitVec.ofNat 8 (128 * b2n (i == 0) + 64 * b2n (i + 1 == n) + 16 * (i % 4) + v.tag % 8)] ++ (msg.drop (256 * i)).take 256)

/-- R374: one MCTP packet goes out: in a UDP datagram on the RGMII link, or on the I3C link. -/
def mctpSend (n : Nat) (v : MctpVia) (pkt : List Byte) (s : State) : State :=
  if n = 0 then
    let d := udp Config.mgtIp6 v.ip (rget s R.mgtUdpPort 0) v.src pkt
    sendOwn (.bytes (etherFrame v.mac Config.mgtMac none 0x86DD (ip6 Config.mgtIp6 v.ip 17 0 (Config.ipTtl % 256) d))) s
  else emit (.i3c pkt) s

/-- Send a response: what follows version and code; a mailbox keeps it, a management link carries it as MCTP. -/
def spdmSend (l : SpdmLink) (code : Nat) (body : List Byte) (s : State) : State :=
  let s1 := emit (.spdm (linkNo l) code body) s
  match l with
  | .doe p => doeAnswer p body s1
  | .mctp n =>
    let v := (connSt s (linkNo l)).via
    (mctpPackets v ([BitVec.ofNat 8 v.type, 0x13, BitVec.ofNat 8 code] ++ body)).foldl (fun s p => mctpSend (n % 2) v p s) s1

/-- ERROR with a code: 0x01 InvalidRequest, 0x02 InvalidSession, 0x04 UnexpectedRequest, 0x06 DecryptError,
0x07 UnsupportedRequest, 0x0A SessionLimitExceeded, 0x0E RequestTooLarge. -/
def spdmError (l : SpdmLink) (code : Nat) (s : State) : State := spdmSend l 0x7F [BitVec.ofNat 8 code, 0] s

/-- R402: management sessions still hand-shaking 1 s after they began are discarded. -/
def expireMsess (s : State) : State :=
  s.sec.msessions.foldl (fun s e => match e.2 with
    | some m => if m.stage < 3 ∧ m.since + 1000000000 ≤ s.now then endMsess e.1 s else s
    | none => s) s

/-- A request reaches the responder: a management message wakes the device; what the link does not take is dropped, and a
message longer than 8,192 bytes is refused (R398). -/
def spdmAct (l : SpdmLink) (q : SpdmReq) (s : State) (f : State → State) : Host.Outcome State Fault Refusal :=
  act l.wf s (fun s =>
    if linkLive s l && linkTakes s l q then
      (let s1 := modConn (linkNo l) (fun c => { c with via := q.via }) (expireMsess (if isDoe l then s else wakeDevice s))
       if 8192 < q.body.length + 2 then spdmError l 0x0E s1 else f s1)
    else s)

/-- A request that needs a negotiated connection. -/
def spdmConn (l : SpdmLink) (s : State) (f : State → State) : State :=
  if (connSt s (linkNo l)).algs then f s else spdmError l 0x04 s

/-- Random bytes for a response: a nonce and a signature's. -/
def nonceOf (s : State) : List Byte := randBytes s.free 0 32
def rndOf (s : State) : List Byte := randBytes s.free 32 32

/-! ### Connection -/

/-- GET_VERSION begins a connection anew. -/
def spdmVersion (l : SpdmLink) (req : SpdmReq) (s : State) : State :=
  let said := [0x10, 0x84] ++ req.body ++ [0x10, 0x04] ++ versionBody
  spdmSend l 0x04 versionBody (modConn (linkNo l) (fun c => { connReset with via := c.via, version := true, said := said }) s)

/-- GET_CAPABILITIES. -/
def spdmCaps (l : SpdmLink) (req : SpdmReq) (s : State) : State :=
  if (connSt s (linkNo l)).version then
    let b := capsBody (isDoe l)
    spdmSend l 0x61 b (modConn (linkNo l) (fun c => { c with
      caps := true, algs := false, said := c.said ++ spdmMsg 0xE1 req.body ++ spdmMsg 0x61 b }) s)
  else spdmError l 0x04 s

/-- R399: NEGOTIATE_ALGORITHMS: a requester that selects none of the device's algorithms has an invalid request;
`param` has a bit for each one it selects. -/
def spdmAlgs (l : SpdmLink) (req : SpdmReq) (s : State) : State :=
  if !(connSt s (linkNo l)).caps then spdmError l 0x04 s
  else if req.param % 64 = 0 then spdmError l 0x01 s
  else
    let b := algsBody (req.param % 64)
    spdmSend l 0x63 b (modConn (linkNo l) (fun c => { c with
      algs := true, said := c.said ++ spdmMsg 0xE3 req.body ++ spdmMsg 0x63 b }) s)

/-! ### Certificates and measurements -/

/-- The chain of slot 0 (R397): the intermediate, the DeviceID certificate of the identity partition, the two alias
certificates. -/
def certChain (s : State) : List Byte :=
  chainOf [Config.interCert, s.nv.identity.getD Config.deviceIdCert, s.dice.cert1, s.dice.cert2]

/-- Answer a request about certificates: both messages enter the transcript that CHALLENGE signs. -/
def certReply (l : SpdmLink) (ask code : Nat) (req : SpdmReq) (b : List Byte) (s : State) : State :=
  spdmSend l code b (modConn (linkNo l) (fun c => { c with
    certs := c.certs ++ spdmMsg ask req.body ++ spdmMsg code b, meas := [] }) s)

/-- GET_DIGESTS: slot 0 is filled. -/
def spdmDigests (l : SpdmLink) (req : SpdmReq) (s : State) : State :=
  certReply l 0x81 0x01 req (digestsBody (certChain s)) s

/-- GET_CERTIFICATE: a portion of the chain of slot 0; slots 1 to 7 are empty (R397). -/
def spdmCert (l : SpdmLink) (req : SpdmReq) (s : State) : State :=
  if req.param ≠ 0 ∨ (certChain s).length ≤ req.offset then spdmError l 0x01 s
  else certReply l 0x82 0x02 req (certBody (certChain s) req.offset req.length) s

/-- A signature with the L2 alias key over a transcript (R396, R398). -/
def spdmSign (context : String) (said : List Byte) (s : State) : List Byte :=
  dsaSign (s.dice.slot0.getD []) (rndOf s) (spdmSigned context said)

/-- Words of the table in force, as read at its window. -/
def tableBytes (s : State) : List Byte :=
  wordsBytes ((List.range 4224).map (fun k => (tget (0 : Word) s.sec.table k).toNat))

/-- The image that runs. -/
def runningImage (s : State) : List Byte :=
  match (if s.boot.keepBoot then s.nv.keep else s.nv.active) with
  | some i => i.bytes
  | none => []

/-- R400: the value of a measurement block. -/
def measurement (s : State) (n : Nat) : List Byte :=
  if n = 1 then leBytes 4 Config.romVersion
  else if n = 2 then sha3 Config.loaderImage
  else if n = 3 then sha3 (runningImage s)
  else if n = 4 then sha3 (cfgBytes s.nv.cfg0 ++ cfgBytes s.nv.cfg1)
  else if n = 5 then s.boot.pkgDigest.getD (List.replicate 32 0)
  else if n = 6 then sha3 (tableBytes s)
  else if n = 7 then leBytes 4 s.sec.epoch ++ leBytes 4 s.nv.svnFuses
  else sha3 (s.sec.cred.getD [])

/-- R398: CHALLENGE of slot 0: digest of its chain, nonce, the summary and context the request names, signed over the
connection's messages so far. -/
def spdmChallenge (l : SpdmLink) (req : SpdmReq) (s : State) : State :=
  if req.param ≠ 0 then spdmError l 0x01 s
  else
    let c := connSt s (linkNo l)
    let b := authBody (certChain s) (nonceOf s) (summaryHash (leNat ((req.body.drop 1).take 1)) (measurement s))
      ((req.body.drop 34).take 8)
    let sig := spdmSign "responder-challenge_auth signing" (c.said ++ c.certs ++ spdmMsg 0x83 req.body ++ spdmMsg 0x03 b) s
    draw (spdmSend l 0x03 (b ++ sig) (modConn (linkNo l) (fun c => { c with certs := [], meas := [] }) s))

/-- R400: GET_MEASUREMENTS: index 0 asks for the count, 0xFF for all; a signature covers the measurement messages since
the last one. -/
def spdmMeasure (l : SpdmLink) (req : SpdmReq) (s : State) : State :=
  if 8 < req.param ∧ req.param ≠ 0xFF then spdmError l 0x01 s
  else
    let c := connSt s (linkNo l)
    let blocks := if req.param = 0 then [] else if req.param = 0xFF then (List.range 8).map (· + 1) else [req.param]
    let b := measBody (if req.param = 0 then 8 else 0) (blocks.map (fun n => measBlock n (measurement s n))) (nonceOf s)
      ((req.body.drop (if req.sign then 35 else 2)).take 8)
    let said := c.meas ++ spdmMsg 0xE0 req.body ++ spdmMsg 0x60 b
    if req.sign then
      draw (spdmSend l 0x60 (b ++ spdmSign "responder-measurements signing" (c.said ++ said) s)
        (modConn (linkNo l) (fun c => { c with meas := [] }) s))
    else draw (spdmSend l 0x60 b (modConn (linkNo l) (fun c => { c with meas := said }) s))

/-! ### Sessions (R402, R416) -/

/-- R402: a session's fresh key pair: encapsulation key and decapsulation key. -/
def sessionKeys (s : State) : List Byte × List Byte := kemKeys (randBytes s.free 64 32) (randBytes s.free 96 32)

/-- R402: the answer to a KEY_EXCHANGE message: the encapsulation key, signed over the transcript. -/
def exchangeRsp (s : State) (sess : Nat) (auth : Bool) (vca msg : List Byte) : List Byte :=
  let b := exchangeBody sess auth (nonceOf s) (sessionKeys s).1
    (summaryHash (leNat ((msg.drop 2).take 1)) (measurement s))
  b ++ spdmSign "responder-key_exchange_rsp signing" (vca ++ sha3 (certChain s) ++ msg ++ spdmMsg 0x64 b) s

/-- R402: the transcript of a key exchange. -/
def exchangeSaid (s : State) (vca msg rsp : List Byte) : List Byte :=
  vca ++ sha3 (certChain s) ++ msg ++ spdmMsg 0x64 rsp

/-- R402: the shared secret a FINISH message carries, 1,088 bytes of ciphertext in its OpaqueData. -/
def kemSecret (dk msg : List Byte) : List Byte := kemShared dk (finishCipher msg)

/-- The lowest free of the 8 management sessions. -/
def freeMsess (s : State) : Option Nat := (List.range 8).find? (fun n => (msessAt s n).isNone)

/-- R416: a failed authentication is counted and ends the session. -/
def authFail (l : SpdmLink) (n code : Nat) (s : State) : State :=
  spdmError l code (cnt R.mgtAuthFail 0 1 (endMsess n s))

/-- KEY_EXCHANGE over MCTP: `param` is the index of the requester's key (R402, R416). -/
def spdmKeyExchange (l : SpdmLink) (req : SpdmReq) (s : State) : State :=
  match s.sec.cred, freeMsess s with
  | some c, some n =>
    if !exchangeOk (spdmMsg 0xE4 req.body) then spdmError l 0x01 s
    else if req.param < 12 ∧ credHas c req.param then
      let vca := (connSt s (linkNo l)).said
      let msg := spdmMsg 0xE4 req.body
      let rsp := exchangeRsp s n true vca msg
      draw (spdmSend l 0x64 rsp (putMsess n (some {
        link := linkNo l, stage := 1, owner := decide (req.param < 4), key := req.param, negotiated := none,
        since := s.now, secret := (sessionKeys s).2, said := exchangeSaid s vca msg rsp,
        owned := credKey c req.param, asked := [], packets := [] }) s))
    else spdmError l 0x01 (cnt R.mgtAuthFail 0 1 s)
  | some _, none => spdmError l 0x0A s
  | none, _ => spdmError l 0x01 (cnt R.mgtAuthFail 0 1 s)

/-- A message within a session of its link at one of some stages. -/
def inMsess (l : SpdmLink) (n : Nat) (stages : List Nat) (s : State) (f : MSess → State → State) : State :=
  match msessAt s n with
  | some m => if m.link = linkNo l ∧ stages.contains m.stage then f m s else spdmError l 0x04 s
  | none => spdmError l 0x02 s

/-- The encapsulated CHALLENGE: of the requester's provisioned public key, without a summary; nonce and context. -/
def encChallenge (s : State) : List Byte := spdmMsg 0x83 ([0xFF, 0] ++ randBytes s.free 0 40)

/-- GET_ENCAPSULATED_REQUEST: the device asks for the requester's signature. -/
def spdmEncGet (l : SpdmLink) (req : SpdmReq) (s : State) : State :=
  inMsess l req.param [1] s (fun m s =>
    draw (spdmSend l 0x6A ([1, 0] ++ encChallenge s) (putMsess req.param (some { m with asked := encChallenge s }) s)))

/-- DELIVER_ENCAPSULATED_RESPONSE: the requester's CHALLENGE_AUTH, which its signature ends, over the connection and the
challenge, with the key that KEY_EXCHANGE named. -/
def spdmEncPut (l : SpdmLink) (req : SpdmReq) (s : State) : State :=
  inMsess l req.param [1] s (fun m s =>
    let msg := req.body.drop 2
    let said := (connSt s (linkNo l)).said ++ m.asked ++ msg.take (msg.length - 2420)
    if m.asked.isEmpty then spdmError l 0x04 s
    else if msg.take 2 == [0x13, 0x03] &&
        dsaVerify m.owned (spdmSigned "requester-challenge_auth signing" said) (msg.drop (msg.length - 2420)) then
      spdmSend l 0x6B ([1, 0] ++ req.body.take 1 ++ [0, 0, 0]) (putMsess req.param (some { m with stage := 2 }) s)
    else authFail l req.param 0x01 s)

/-- FINISH: the session opens with its key's role; its decapsulation key goes. -/
def spdmFinish (l : SpdmLink) (req : SpdmReq) (s : State) : State :=
  inMsess l req.param [2] s (fun m s =>
    let msg := spdmMsg 0xE5 req.body
    let shared := kemSecret m.secret msg
    if finishOk shared m.said (sha3 m.owned) msg then
      spdmSend l 0x65 (finishRsp shared m.said (sha3 m.owned) msg) (putMsess req.param (some { m with
        stage := 3, secret := sessionSecret shared m.said (sha3 m.owned) msg, said := m.said ++ msg, asked := [] }) s)
    else authFail l req.param 0x06 s)

/-! ### Commands -/

/-- R398. -/
def execGetVersion (link : SpdmLink) (req : SpdmReq) (s : State) : Host.Outcome State Fault Refusal :=
  spdmAct link req s (spdmVersion link req)

/-- R398. -/
def execGetCapabilities (link : SpdmLink) (req : SpdmReq) (s : State) : Host.Outcome State Fault Refusal :=
  spdmAct link req s (spdmCaps link req)

/-- R399. -/
def execNegotiateAlgorithms (link : SpdmLink) (req : SpdmReq) (s : State) : Host.Outcome State Fault Refusal :=
  spdmAct link req s (spdmAlgs link req)

/-- R397, R398. -/
def execGetDigests (link : SpdmLink) (req : SpdmReq) (s : State) : Host.Outcome State Fault Refusal :=
  spdmAct link req s (fun s => spdmConn link s (spdmDigests link req))

/-- R397, R398. -/
def execGetCertificate (link : SpdmLink) (req : SpdmReq) (s : State) : Host.Outcome State Fault Refusal :=
  spdmAct link req s (fun s => spdmConn link s (spdmCert link req))

/-- R398. -/
def execChallenge (link : SpdmLink) (req : SpdmReq) (s : State) : Host.Outcome State Fault Refusal :=
  spdmAct link req s (fun s => spdmConn link s (spdmChallenge link req))

/-- R400. -/
def execGetMeasurements (link : SpdmLink) (req : SpdmReq) (s : State) : Host.Outcome State Fault Refusal :=
  spdmAct link req s (fun s => spdmConn link s (spdmMeasure link req))

/-- R398, R416: over DOE it is not supported. -/
def execKeyExchange (link : SpdmLink) (req : SpdmReq) (s : State) : Host.Outcome State Fault Refusal :=
  spdmAct link req s (fun s => if isDoe link then spdmError link 0x07 s else spdmConn link s (spdmKeyExchange link req))

/-- R398, R416. -/
def execFinish (link : SpdmLink) (req : SpdmReq) (s : State) : Host.Outcome State Fault Refusal :=
  spdmAct link req s (fun s => if isDoe link then spdmError link 0x07 s else spdmConn link s (spdmFinish link req))

/-- R398. -/
def execEndSession (link : SpdmLink) (req : SpdmReq) (s : State) : Host.Outcome State Fault Refusal :=
  spdmAct link req s (fun s => if isDoe link then spdmError link 0x07 s else
    inMsess link req.param [3] s (fun _ s => spdmSend link 0x6C [0, 0] (endMsess req.param s)))

/-- R398. -/
def execHeartbeat (link : SpdmLink) (req : SpdmReq) (s : State) : Host.Outcome State Fault Refusal :=
  spdmAct link req s (fun s => if isDoe link then spdmError link 0x07 s else
    inMsess link req.param [3] s (fun _ s => spdmSend link 0x68 [0, 0] s))

/-- R398. -/
def execKeyUpdate (link : SpdmLink) (req : SpdmReq) (s : State) : Host.Outcome State Fault Refusal :=
  spdmAct link req s (fun s => if isDoe link then spdmError link 0x07 s else
    inMsess link req.param [3] s (fun _ s => spdmSend link 0x69 (req.body.take 2) s))

/-- R398, R416. -/
def execGetEncapsulatedRequest (link : SpdmLink) (req : SpdmReq) (s : State) : Host.Outcome State Fault Refusal :=
  spdmAct link req s (fun s => if isDoe link then spdmError link 0x07 s else spdmEncGet link req s)

/-- R398, R416. -/
def execDeliverEncapsulatedResponse (link : SpdmLink) (req : SpdmReq) (s : State) : Host.Outcome State Fault Refusal :=
  spdmAct link req s (fun s => if isDoe link then spdmError link 0x07 s else spdmEncPut link req s)

/-- R398: every other request. -/
def execSpdmUnsupportedRequest (link : SpdmLink) (_code : Nat) (req : SpdmReq) (s : State) :
    Host.Outcome State Fault Refusal :=
  spdmAct link req s (spdmError link 0x07)

end Sys2Proof.Machine
end

