-- ==== Sys2Proof/Machine/Packet.lean ====
section
/-! DEFINITION. A packet of the Cusayn Command Protocol from its source to its reply (R381 to R386, R508): the header
checks in their order, address ranges, the answer, and packets that wait. -/

namespace Sys2Proof.Machine

/-- A packet under application: its source, its words, the tenant and the function it acts as. -/
structure Pkt where
  src : Nat
  w : List Nat
  tn : Nat
  fn : Nat
  /-- the packets of its management session that wait behind it -/
  rest : List (List Word) := []
  deriving DecidableEq, Repr

/-- The packet came over the management port. -/
def Pkt.isMgmt (p : Pkt) : Bool := decide (512 ≤ p.src) && decide (p.src < 600)

/-- What an opcode ends in: applied with its results and the bytes a DEST of 0 returns, refused, or held until a
condition with what happens once it is held. -/
inductive Res where
  | done (r0 r1 r2 : Nat) (data : List Byte) (s : State)
  | fail (status detail : Nat) (s : State)
  | wait (what : WaitFor) (r0 : Nat) (after : State → State) (s : State)

/-- Results without returned bytes. -/
def Res.ok (r0 r1 r2 : Nat) (s : State) : Res := .done r0 r1 r2 [] s

/-! ### The packet at the head of a source (R379, R384) -/

/-- The words of a packet, cut to its LENGTH. -/
def pktWords (l : List Word) : List Nat := (l.take (packetWords (l.getD 0 0).toNat)).map BitVec.toNat

/-- The packets of an open management session with a message that arrives behind them; an empty message is none and lets
the session go on. -/
def sessPackets (m : MSess) (q : List Word) : List (List Word) := m.packets ++ (if q.isEmpty then [] else [q])

/-- The packet a source applies next, when none of its packets waits: a lane's, an open management session's or the
service list's oldest. -/
def nextPkt (s : State) (src : Src) : Option Pkt :=
  if s.boot.phase < 2 || (waiterOf s (srcNum src)).isSome then none
  else match src with
  | .lane f l =>
    if reaches s f && !(fnSt s f).resetting then
      (laneSt s (16 * f + l)).queue.head?.map (fun q => { src := 16 * f + l, w := pktWords q, tn := f, fn := f })
    else none
  | .mgmt n q =>
    (match msessAt s n with
     | some m =>
       if m.stage = 3 then (sessPackets m q).head?.map (fun x =>
         { src := 512 + n, w := pktWords x, tn := 32, fn := 32, rest := (sessPackets m q).tail })
       else none
     | none => none)
  | .service =>
    if s.boot.serviceStopped then none
    else s.boot.service.head?.map (fun q => { src := 600, w := pktWords q, tn := 32, fn := 32 })

def pOpcode (p : Pkt) : Nat := bits (wd p.w 0) 7 0
def pLength (p : Pkt) : Nat := bits (wd p.w 0) 23 16
def pVersion (p : Pkt) : Nat := bits (wd p.w 0) 31 24
def pSession (p : Pkt) : Nat := bits (wd p.w 2) 31 16

/-- The parameter words. -/
def params (p : Pkt) : List Nat := p.w.drop 4

/-! ### Header checks (R382 steps 1 to 5) -/

/-- The version a source has negotiated (R383); service mode starts at CCP 1.0. -/
def negotiated (s : State) (p : Pkt) : Option Nat :=
  if p.src < 512 then (fnSt s p.fn).negotiated
  else if p.src < 600 then (msessAt s (p.src - 512)).bind MSess.negotiated
  else some 0x10

/-- A host session open for a function. -/
def sessOpen (s : State) (fn h : Nat) : Bool :=
  match sessAt s h with | some x => x.open_ && x.fn == fn | none => false

/-- Opcodes of the Operator role (R375). -/
def operatorOps : List Nat := [0x01, 0x02, 0x03, 0x60, 0x61, 0x73]

/-- Opcodes of recovery (R479). -/
def recoveryOps : List Nat := [0x01, 0x02, 0x73, 0x70, 0x71]

/-- The Owner opcodes of R390. -/
def ownerOps : List Nat := [0x70, 0x71, 0x72]

/-- The source's role may issue the opcode (R375, R390, R479). -/
def roleMay (s : State) (p : Pkt) : Bool :=
  let op := pOpcode p
  if s.boot.phase = 4 then p.src < 16 && recoveryOps.contains op
  else if p.isMgmt then
    (match msessAt s (p.src - 512) with | some m => m.owner || operatorOps.contains op | none => false)
  else !ownerOps.contains op || (p.src < 16 && s.sec.hostOwner)

/-- Parameter words an opcode needs; those of STREAM_REARM and SENSOR_SETTINGS follow from their counts. -/
def needWords (p : Pkt) : Nat :=
  let op := pOpcode p
  let w := wd p.w 4
  if op = 0x72 ∨ op = 0x73 then 0
  else if op ∈ [0x01, 0x11, 0x13, 0x21, 0x22, 0x23, 0x32, 0x43, 0x51, 0x71] then 1
  else if op ∈ [0x24, 0x25, 0x31, 0x44, 0x52] then 2
  else if op ∈ [0x02, 0x03, 0x10, 0x20] then 3
  else if op ∈ [0x60, 0x61, 0x70] then 4
  else if op = 0x50 then 6
  else if op = 0x40 then 9
  else if op = 0x12 then 12
  else if op = 0x42 then 16
  else if op = 0x30 then 1 + 2 * min 28 (bits w 18 14 + 1)
  else 1 + 2 * max 1 (min 29 (bits w 26 22))

/-- R382 steps 1 to 5: status and DETAIL of the first failure. -/
def headCheck (s : State) (p : Pkt) : Option Err :=
  let w0 := wd p.w 0
  if bits w0 15 9 ≠ 0 || pLength p = 0 || decide (16 < pLength p) || !opcodes.contains (pOpcode p) then some (0x01, 0)
  else if bits (wd p.w 2) 15 6 ≠ 0 then some (0x01, 2)
  else if wd p.w 3 ≠ 0 then some (0x01, 3)
  else if pOpcode p ≠ 0x01 && (negotiated s p).isNone then some (0x08, 0)
  else if pOpcode p ≠ 0x01 && negotiated s p != some (pVersion p) then some (0x07, 0)
  else if bits (wd p.w 2) 5 0 ≠ p.fn then some (0x04, 2)
  else if pSession p ≠ 0 && !sessOpen s p.fn (pSession p) then some (0x04, 2)
  else if !roleMay s p then some (0x04, 0)
  else if 4 * pLength p < 4 + needWords p then some (0x02, 0)
  else none

/-- Step 6: reserved bits of the parameters; a word without a mask must be 0 (R381). -/
def reservedIn (p : Pkt) (mask : List Nat) : Option Err :=
  (firstReserved (params p) mask).map (fun k => (0x01, 4 + k))

/-- A check that fails with a status and a DETAIL. -/
def chk (c : Bool) (status detail : Nat) : Option Err := if c then some (status, detail) else none

/-! ### Answers (R386) -/

/-- Write the reply of a packet; bytes a DEST of 0 asked for follow the record in the same message. -/
def answerPkt (p : Pkt) (status detail r0 r1 r2 : Nat) (data : List Byte) (s : State) : State :=
  if data.isEmpty then reply p.src (wd p.w 0) (wd p.w 1) status s.now detail r0 r1 r2 s
  else emit (.mgmt (p.src - 512)
    (replyRecord status (pOpcode p) 0 (wd p.w 1) s.now detail r0 r1 r2 ++ data)) (ownerActs p.src status s)

/-- Carry a result out. -/
def finishPkt (p : Pkt) : Res → State
  | .done r0 r1 r2 data s => answerPkt p 0 0 r0 r1 r2 data s
  | .fail st d s => answerPkt p st d 0 0 0 [] s
  | .wait what r0 after s =>
    after (setWait p.src { what := what, head := wd p.w 0, tag := wd p.w 1, applied := s.now, r0 := r0 } s)

/-- R375: a management message that the role does not permit is counted. -/
def countRole (p : Pkt) (e : Err) (s : State) : State :=
  if p.isMgmt && e == (0x04, 0) then cnt R.mgtCmdDenied 0 1 s else s

/-- R388: a message of an open management session that is not applied at once waits behind the session's earlier ones;
it wakes the device (R457). -/
def arrives (src : Src) (s : State) : State :=
  match src with
  | .mgmt n q =>
    (match msessAt s n with
     | some m => if m.stage = 3 ∧ q ≠ [] then
         putMsess n (some { m with packets := m.packets ++ [q] }) (wakeDevice s) else s
     | none => s)
  | _ => s

/-- The state a packet acts on: a management message wakes the device (R457), and those behind it wait. -/
def served (s : State) (p : Pkt) : State :=
  if p.isMgmt then
    let n := p.src - 512
    match msessAt s n with
    | some m => putMsess n (some { m with packets := p.rest }) (wakeDevice s)
    | none => wakeDevice s
  else s

/-- R382, R384: apply the packet at the head of a source when it carries the opcode; a reserved opcode outside the
lanes is refused by whichever row takes it. -/
def ccp (op : Nat) (src : Src) (body : Pkt → State → Res) (s0 : State) : State :=
  match nextPkt s0 src with
  | none => arrives src s0
  | some p =>
    if pOpcode p ≠ op && (p.src < 512 || opcodes.contains (pOpcode p)) then arrives src s0
    else
      let s := served s0 p
      settle (match headCheck s p with
        | some e => answerPkt p e.1 e.2 0 0 0 [] (countRole p e s)
        | none => finishPkt p (body p s))

/-- The outcome of a command that is a packet. -/
def ccpAct (op : Nat) (src : Src) (s : State) (body : Pkt → State → Res) : Host.Outcome State Fault Refusal :=
  act src.wf s (ccp op src body)

/-- Run a body when none of its checks fails; the first failure is reported, and nothing has changed. -/
def checked (l : List (Option Err)) (s : State) (f : State → Res) : Res :=
  match firstErr l with
  | some e => .fail e.1 e.2 s
  | none => f s

/-! ### Address ranges (R508) -/

/-- A range not mapped for the source. -/
def rangeBad (s : State) (p : Pkt) (a n det : Nat) : Option Err := chk (!rangePopulated s p.tn a n) 0x02 det

/-- A mapped range outside the tenant's grant. -/
def rangeDenied (s : State) (p : Pkt) (a n det : Nat) : Option Err := chk (!rangeGranted s p.tn a n) 0x04 det

/-- A DEST of 0 of a management message. -/
def destNone (p : Pkt) (a : Nat) : Bool := p.isMgmt && a == 0

/-- The checks of a DEST: 0 is no address outside the management port. -/
def destBad (s : State) (p : Pkt) (a n det : Nat) : Option Err :=
  if destNone p a then none else if a = 0 then some (0x02, det) else rangeBad s p a n det

def destDenied (s : State) (p : Pkt) (a n det : Nat) : Option Err :=
  if destNone p a then none else rangeDenied s p a n det

/-- R508: a retired scratch row among those that a range touches. -/
def retiredIn (s : State) (a n : Nat) : Bool :=
  isScratch a && s.nv.rowRetired.any (fun r => decide (rowOf a ≤ r) && decide (r < cdiv (a + n - scratchBase) 512))

/-- Write bytes row by row until one faults: the number written, and the state.  A row written in part is read first (R276,
R283). -/
def outRows (t : Nat) : Nat → Nat → List Byte → Nat → State → Nat × State
  | 0, _, _, k, s => (k, s)
  | f + 1, a, l, k, s =>
    if l.isEmpty then (k, s)
    else
      let n := min l.length (512 - a % 512)
      match chkAccess s t a n true, retiredIn s a n with
      | .ok, false => outRows t f (a + n) (l.drop n) (k + n) (wrBytes t a (l.take n) s)
      | c, _ => (k, markPoison c s)

/-- Bytes put at a DEST: how many were written. -/
def outPut (p : Pkt) (a : Nat) (l : List Byte) (s : State) : Nat × State := outRows p.tn (l.length / 512 + 2) a l 0 s

/-- Bytes returned in a message: at most 4,096. -/
def returned (l : List Byte) : List Byte := l.take 4096

/-- R508: a range that is read: its bytes, or none where the read faults. -/
def inGet (s : State) (p : Pkt) (a n : Nat) : Option (List Byte) :=
  match chkAccess s p.tn a n false, hostRefuses s a with
  | .ok, false => some (rdBytes s p.tn a n)
  | _, _ => none

/-- What the read of a packet's range leaves: the host's answer is drawn, and the scratchpad was read. -/
def inDone (p : Pkt) (a n : Nat) (s : State) : State := readMark p.tn a n (drawHost a s)

end Sys2Proof.Machine
end

