-- ==== Sys2Proof/Machine/Ccp.lean ====
section
/-! DEFINITION. CCP commands (R383, R389, R390): versions, capabilities, regions, windows, graphs, jobs, base rings,
handle queues, firmware images. -/

namespace Sys2Proof.Machine

def fullW : Nat := 0xFFFFFFFF

/-! ### Versions and capabilities (R383, R358) -/

/-- R383: the version a HELLO selects: the negotiated one, or CCP 1.0, where its range covers it. -/
def helloVersion (neg : Option Nat) (w : Nat) : Option Nat :=
  let v := neg.getD 0x10
  if bits w 7 0 ≤ v ∧ v ≤ bits w 15 8 then some v else none

/-- A source has negotiated a version. -/
def setNegotiated (p : Pkt) (v : Nat) (s : State) : State :=
  if p.src < 512 then modFn p.fn (fun f => { f with negotiated := some v }) s
  else if p.src < 600 then
    (match msessAt s (p.src - 512) with
     | some m => putMsess (p.src - 512) (some { m with negotiated := some v }) s
     | none => s)
  else s

/-- HELLO. -/
def cmdHello (p : Pkt) (s : State) : Res :=
  checked [reservedIn p [0xFFFF]] s (fun s =>
    match helloVersion (negotiated s p) (wd p.w 4) with
    | some v => .ok v p.fn 0 (setNegotiated p v s)
    | none => .fail 0x07 4 s)

/-- The first `n` bytes of the capability block. -/
def capBytes (s : State) (n : Nat) : List Byte := (wordsBytes ((List.range (cdiv n 4)).map (capWord s))).take n

/-- CAPS_READ. -/
def cmdCaps (p : Pkt) (s : State) : Res :=
  let a := addr48 p.w 4
  let n := wd p.w 6
  checked [reservedIn p [fullW, 0xFFFF, fullW], destBad s p a 0 4, chk (n == 0 || decide (8720 < n)) 0x02 6,
      destBad s p a n 4, destDenied s p a n 4] s (fun s =>
    let l := capBytes s n
    if destNone p a then .done (returned l).length 0 0 (returned l) s
    else
      let r := outPut p a l s
      if r.1 < n then .fail 0x02 4 r.2 else .ok n 0 0 r.2)

/-- ECHO. -/
def cmdEcho (p : Pkt) (s : State) : Res :=
  checked [reservedIn p [fullW, fullW, fullW]] s (fun s => .ok (wd p.w 4) (wd p.w 5) (wd p.w 6) s)

/-! ### Regions (R390) -/

/-- A region of the function whose PCIe range meets `[a, a + n)`. -/
def regionMeets (s : State) (fn a n : Nat) : Option Nat :=
  ((fnSt s fn).regions.find? (fun e => match e.2 with
    | some r => decide (r.pcie < a + n) && decide (a < r.pcie + (r.size4k + 1) * 4096)
    | none => false)).map Prod.fst

/-- The lowest free region of a function. -/
def freeRegion (s : State) (fn : Nat) : Option Nat :=
  (List.range 64).find? (fun k => (tget none (fnSt s fn).regions k).isNone)

/-- Device address of a function's region. -/
def regionDev (fn k : Nat) : Nat := hostBase + fn * 2 ^ 42 + k * 2 ^ 36

/-- Set or remove a region. -/
def putRegion (fn k : Nat) (r : Option Region) (s : State) : State :=
  modFn fn (fun f => { f with regions := tset none f.regions k r }) s

/-- REGION_MAP. -/
def cmdRegionMap (p : Pkt) (s : State) : Res :=
  let a := u64 p.w 4
  let n := (bits (wd p.w 6) 23 0 + 1) * 4096
  checked [reservedIn p [fullW, fullW, 0xFFFFFF], chk (a % 4096 != 0 || decide (2 ^ 64 < a + n)) 0x02 4,
      chk (p.tn == 32) 0x04 2, (regionMeets s p.fn a n).map (fun k => (0x05, k))] s (fun s =>
    match freeRegion s p.fn with
    | none => .fail 0x10 0 s
    | some k =>
      let d := regionDev p.fn k
      .ok k (d % 2 ^ 32) (d / 2 ^ 32)
        (putRegion p.fn k (some { pcie := a, size4k := bits (wd p.w 6) 23 0, dev := d }) s))

/-- R389: the region is unmapped; a host read of a pass that is in flight to it ends there. -/
def unmapRegion (fn k : Nat) (r : Region) (s : State) : State :=
  putRegion fn k none (modSeq (fun q => { q with runs := q.runs.map (fun x =>
    match (if x.task.tenant = fn then passReading s x else none) with
    | some a => if r.dev ≤ a ∧ a < r.dev + (r.size4k + 1) * 4096 then { x with lent := some (k, r) } else x
    | none => x) }) s)

/-- REGION_UNMAP: answered when no request to the region remains in flight. -/
def cmdRegionUnmap (p : Pkt) (s : State) : Res :=
  let k := bits (wd p.w 4) 5 0
  checked [reservedIn p [0x3F], chk (p.tn == 32) 0x04 2,
      chk (tget none (fnSt s p.fn).regions k).isNone 0x06 4] s (fun s =>
    match tget none (fnSt s p.fn).regions k with
    | some r =>
      let t := unmapRegion p.fn k r s
      if waitMet t (.regionFree p.fn k) then .ok 0 0 0 t else .wait (.regionFree p.fn k) 0 id t
    | none => .fail 0x06 4 s)

/-! ### Remote windows (R325, R326, R329) -/

/-- The target range is populated memory of the kind. -/
def targetKind (s : State) (hbm : Bool) (a n : Nat) : Bool :=
  match whereIs s 32 a n with
  | .hbm => hbm
  | .scratch => !hbm
  | _ => false

/-- Requester places of an entry. -/
def winReqs (w : List Nat) : List Nat :=
  [bits (wd w 8) 15 0, bits (wd w 8) 31 16, bits (wd w 9) 15 0, bits (wd w 9) 31 16]

/-- Another window of the function that is not CLOSED meets an aperture range. -/
def winClash (s : State) (fn k a n : Nat) : Option Nat :=
  ((List.range 64).map (fun i => 64 * fn + i)).find? (fun j =>
    j != k && (winSt s j).st != .closed && winMeets (winSt s j) a n)

/-- The latest order of opening among the function's windows. -/
def winLastOpen (s : State) (fn : Nat) : Nat :=
  (List.range 64).foldl (fun m i => max m (winSt s (64 * fn + i)).openSeq) 0

/-- The order of the checks of a window entry. -/
def winChecks (s : State) (p : Pkt) (w : List Nat) : List (Option Err) :=
  let k := 64 * p.fn + bits (wd w 0) 5 0
  let hbm := bit (wd w 0) 6
  let a := wd w 1 + 2 ^ 32 * bits (wd w 2) 3 0
  let n := (bits (wd w 3) 23 0 + 1) * 4096
  let b := addr48 w 4
  let c := bits (wd w 6) 16 0
  let m := bits (wd w 0) 11 10 + 1
  [reservedIn p [0xFFF, fullW, 0xF, 0xFFFFFF, fullW, 0xFFFF, 0x1FFFF, 0, fullW, fullW, 0, 0],
   chk (bit (wd w 0) 8 && !arrExists c) 0x03 10,
   chk (bit (wd w 0) 7 && !hbm) 0x02 4,
   chk (a % 4096 != 0 || decide (bar2Bytes p.fn < a + n)) 0x02 5,
   chk (b % 4096 != 0 || !targetKind s hbm b n) 0x02 8,
   chk (((winReqs w).drop m).any (· != 0)) 0x02 (12 + m / 2),
   chk (p.tn == 32 || decide (winCount s p.tn ≤ bits (wd w 0) 5 0)) 0x04 4,
   rangeDenied s p b n 8,
   chk ((winSt s k).st != .closed) 0x05 k,
   (winClash s p.fn k a n).map (fun j => (0x05, j))]

/-- WINDOW_OPEN: OPEN from its apply point. -/
def cmdWindowOpen (p : Pkt) (s : State) : Res :=
  let w := params p
  checked (winChecks s p w) s (fun s =>
    let k := 64 * p.fn + bits (wd w 0) 5 0
    .ok 0 0 0 (modWin k (fun x => { x with
      st := .opened
      hbm := bit (wd w 0) 6
      readEn := bit (wd w 0) 7
      arrEn := bit (wd w 0) 8
      anyReq := bit (wd w 0) 9
      reqs := (winReqs w).take (bits (wd w 0) 11 10 + 1)
      aperture := wd w 1 + 2 ^ 32 * bits (wd w 2) 3 0
      size := (bits (wd w 3) 23 0 + 1) * 4096
      base := addr48 w 4
      counter := bits (wd w 6) 16 0
      flight := []
      openPoint := s.now
      ranged := true
      openSeq := winLastOpen s p.fn + 1
      late := []
      revoked := false }) s))

/-- WINDOW_CLOSE: answered when CLOSED, with the close point. -/
def cmdWindowClose (p : Pkt) (s : State) : Res :=
  let l := bits (wd p.w 4) 5 0
  let k := 64 * p.fn + l
  checked [reservedIn p [0x3F], chk (p.tn == 32 || decide (winCount s p.tn ≤ l)) 0x04 4,
      chk ((winSt s k).st != .opened) 0x06 4] s (fun s => .wait (.windowClosed k) 0 (winClose k false) s)

/-! ### Graphs (R43, R51, R52, R390) -/

/-- GRAPH_LOAD. -/
def cmdGraphLoad (p : Pkt) (s : State) : Res :=
  checked [reservedIn p [fullW, 0xFFFF, fullW]] s (fun s =>
    match graphLoadImage s p.tn (addr48 p.w 4) (wd p.w 6) with
    | .err st d => .fail st d (readMark p.tn (addr48 p.w 4) (imageReads s p.tn (addr48 p.w 4) (wd p.w 6)) (draw (draw s)))
    | .ok t nb eb t' => .ok t nb eb (readMark p.tn (addr48 p.w 4) (wd p.w 6) (draw (draw t'))))

/-- The template a command names: NOT_FOUND, or ACCESS_DENIED for another tenant's. -/
def tmplErr (s : State) (p : Pkt) (t : Nat) : Option Err :=
  match tmplAt s t with
  | some v => if v.tenant ≠ p.tn then some (0x04, 4) else none
  | none => some (0x06, 4)

/-- The statuses of R394 but OK. -/
def statusCodes : List Nat :=
  [0x01, 0x02, 0x03, 0x04, 0x05, 0x06, 0x07, 0x08, 0x09, 0x10, 0x11, 0x12, 0x13, 0x18, 0x19, 0x1A, 0x20, 0x28, 0x29,
   0x30, 0x31, 0x32]

/-- Status of a command refused before camera-ready (R480): free among those of R394, and not OK. -/
def notReady : Nat := statusCodes.getD (Config.notReadyStatus % 22) 0x01

/-- The lowest millrace of the template's HANDLE trigger and waits that is disabled or consumed by the host (R51). -/
def handleClash (s : State) (v : Tmpl) : Option Nat :=
  let l := (if v.trigKind = 4 then [v.trigObj] else []) ++ v.nodes.flatMap (fun n =>
    (if n.w0Kind = 2 then [n.w0Obj] else []) ++ (if n.w1Kind = 2 then [n.w1Obj] else []))
  (l.filter (fun m => !mrqEn s m || mrqHost s m)).foldl (fun r m => some (match r with | some x => min x m | none => m)) none

/-- The first time at or after `now` that is `phase` plus a multiple of the period (R51). -/
def firstTimer (now phase period : Nat) : Nat :=
  if now ≤ phase then phase else phase + cdiv (now - phase) period * period

/-- R52, R364, R426: numbering restarts when every slot is FREE and no trigger is pending. -/
def restartNumbers (t : Nat) (v : Tmpl) (s : State) : State :=
  if tmplBusy v || !v.pending.isEmpty then s
  else
    v.nodes.foldl (fun s n => if n.sluiceEn then
        modSluice n.sluice (fun x => { x with faults := [], lastPass := none }) s else s)
      (modTmpl t (fun v => { v with nextSeq := 0, fresh := true, skipped := false, ended := [], pubSeq := [] }) s)

/-- Arm a template: its trigger starts (R51), and tensor engines that wait for an arming go on (R469). -/
def armTmpl (t : Nat) (v : Tmpl) (s : State) : State :=
  let s1 := restartNumbers t v (modTmpl t (fun v => { v with
    armed := true, nextFire := firstTimer s.now v.param1 (max 1 v.param0), threshold := v.param0 }) s)
  let s2 := teArm s1
  match tmplAt s2 t with
  | some x => if x.trigKind = 5 then fireCounter t (counterFires s2 x) s2 else s2
  | none => s2

/-- GRAPH_ARM.  A template on its way to being unloaded by a function reset or a stopped service is not armed again
(DESIGN CHOICE, log entry 197: GRAPH_BUSY). -/
def cmdGraphArm (p : Pkt) (s : State) : Res :=
  let t := bits (wd p.w 4) 7 0
  checked [reservedIn p [0xFF], tmplErr s p t, chk (s.boot.phase != 3) notReady 0] s (fun s =>
    match tmplAt s t with
    | none => .fail 0x06 4 s
    | some v =>
      if v.armed then .ok 0 0 0 s
      else if v.doomed then .fail 0x12 t s
      else match handleClash s v with
      | some m => .fail 0x02 m s
      | none => .ok 0 0 0 (armTmpl t v s))

/-- GRAPH_DISARM. -/
def cmdGraphDisarm (p : Pkt) (s : State) : Res :=
  let t := bits (wd p.w 4) 7 0
  checked [reservedIn p [0x1FF], tmplErr s p t] s (fun s =>
    if bit (wd p.w 4) 8 then
      let n := match tmplAt s t with | some v => (v.slots.filter (fun i => i.st == .running)).length | none => 0
      .wait (.slotsFree t) n (disarmAbort t) s
    else .ok 0 0 0 (modTmpl t (fun v => { v with armed := false }) s))

/-- GRAPH_UNLOAD. -/
def cmdGraphUnload (p : Pkt) (s : State) : Res :=
  let t := bits (wd p.w 4) 7 0
  checked [reservedIn p [0xFF], tmplErr s p t,
      chk (match tmplAt s t with | some v => v.armed || tmplBusy v | none => false) 0x12 t] s
    (fun s => .ok 0 0 0 (unloadTmpl t s))

/-! ### Jobs (R390, R407) -/

/-- The slot of a session's job key. -/
def jobSlot (s : State) (tn h job : Nat) : Option Nat :=
  (s.sec.slots.find? (fun e => match e.2 with
    | some k => k.kind == 2 && k.tenant == tn && k.sess == h && k.jobId == job
    | none => false)).map Prod.fst

/-- JOB_SUBMIT: held until the outcome of its trigger is known. -/
def cmdJobSubmit (p : Pkt) (s : State) : Res :=
  let t := bits (wd p.w 4) 7 0
  let j := wd p.w 5
  let key := if j = 0 then none else jobSlot s p.tn (pSession p) j
  checked [reservedIn p [0xFF, fullW], tmplErr s p t,
      chk (match tmplAt s t with | some v => v.trigKind != 6 | none => false) 0x02 4,
      chk (j != 0 && (pSession p == 0 || key.isNone)) 0x06 5,
      chk (match tmplAt s t with | some v => !v.armed | none => false) 0x13 4] s (fun s =>
    let job : Job := { src := p.src, fn := p.fn, tag := wd p.w 1, jobId := j, key := key }
    let g : Trig := { time := s.now, stream := 255, serial := 0, frameNo := 0, handle := none, job := some job }
    .wait (.job t) 0 (fireTrigger t g) s)

/-- The first pending trigger of a template whose JOB_SUBMIT came from the function under the TAG. -/
def pendingJob (v : Tmpl) (fn tag : Nat) : Option (Trig × Nat) :=
  v.pending.zipIdx.find? (fun g => match g.1.job with | some j => j.fn == fn && j.tag == tag | none => false)

/-- The slot of a RUNNING instance of a sequence number. -/
def runningSlot (v : Tmpl) (sq : Nat) : Option Nat :=
  (v.slots.zipIdx.find? (fun i => i.1.st == .running && i.1.seq == sq)).map Prod.snd

/-- JOB_CANCEL. -/
def cmdJobCancel (p : Pkt) (s : State) : Res :=
  let t := bits (wd p.w 4) 7 0
  let x := wd p.w 5
  checked [reservedIn p [0x1FF, fullW], tmplErr s p t] s (fun s =>
    match tmplAt s t with
    | none => .fail 0x06 4 s
    | some v =>
      if bit (wd p.w 4) 8 then
        (match pendingJob v p.fn x with
         | some g => .ok 0 0 0 (dropJob t g.1 3 (modTmpl t (fun v => { v with pending := v.pending.eraseIdx g.2 }) s))
         | none => .fail 0x06 5 s)
      else match runningSlot v x with
      | some k => .wait (.slotFree t k x) 0 (wantAbort t k 2) s
      | none => .fail 0x06 5 s)

/-! ### Base rings and handle queues (R309, R321, R323) -/

/-- The entries of a STREAM_REARM. -/
def rearmEntries (p : Pkt) : List (Nat × Nat) :=
  (List.range (bits (wd p.w 4) 18 14 + 1)).map (fun j => (wd p.w (5 + 2 * j), wd p.w (6 + 2 * j)))

/-- STREAM_REARM. -/
def cmdRearm (p : Pkt) (s : State) : Res :=
  let w := wd p.w 4
  let es := rearmEntries p
  let first := bits w 13 8
  let masks := 0x7FFFF :: es.flatMap (fun _ => [fullW, 0x1FFFF])
  checked [reservedIn p masks, chk (decide (28 < es.length) || decide (64 < first + es.length)) 0x02 4,
      chk (!ownsCtx s p.tn (bits w 7 0)) 0x04 4] s (fun s =>
    .ok 0 0 0 (es.zipIdx.foldl (fun s (e : (Nat × Nat) × Nat) =>
      rearmEntry (bits w 7 0) (first + e.2) e.1.1 e.1.2 s) s))

/-- QUEUE_PUSH: where other pushes wait at the millrace it waits for its turn, otherwise it wins its cycle (R321). -/
def cmdPush (p : Pkt) (s : State) : Res :=
  let m := bits (wd p.w 4) 9 0
  checked [reservedIn p [0x3FF, fullW]] s (fun s =>
    if mrqGranted s p.tn m && mrqEn s m && pushContended s m then .wait (.pushTurn m (wd p.w 5) p.tn) 0 id s
    else match pushCheck s p.tn m with
      | some e => .fail e.1 e.2 (pushRejected p.tn m (if e.1 = 0x18 then pushGrant m (engU 0x00 0) s else s))
      | none => .ok (mrqQ s m ++ [wd p.w 5]).length 0 0
          (mrqPut m (mrqQ s m ++ [wd p.w 5]) (pushGrant m (engU 0x00 0) s)))

/-- QUEUE_POP. -/
def cmdPop (p : Pkt) (s : State) : Res :=
  let m := bits (wd p.w 4) 9 0
  checked [reservedIn p [0x3FF], popCheck s p.tn m] s (fun s =>
    let q := mrqQ s m
    .ok (q.headD 0) q.tail.length 0 (mrqPut m q.tail s))

/-! ### Firmware images (R482 to R485) -/

/-- FW_BLOCK. -/
def cmdFwBlock (p : Pkt) (s : State) : Res :=
  let off := wd p.w 4
  let n := wd p.w 5
  let a := addr48 p.w 6
  checked [reservedIn p [fullW, fullW, fullW, 0xFFFF], chk (off % 4096 != 0 || decide (0x2000000 ≤ off)) 0x02 4,
      chk (n == 0 || decide (4096 < n)) 0x02 5, rangeBad s p a n 6, rangeDenied s p a n 6,
      chk (s.nv.updState == 3) 0x30 0] s (fun s =>
    match inGet s p a n with
    | none => .fail 0x02 6 (inDone p a n s)
    | some l =>
      let t := storeBlock off l (inDone p a n s)
      .ok (stagedBytes t) 0 0 t)

/-- In recovery the image goes straight to the active slot and boots in trial (R479). -/
def recoverImage (b : List Byte) (s : State) : State :=
  saveRecord 0 <| modNv (fun n => { n with
    active := some { svn := leAt b 4 4, cfgFmt := bits (leAt b 16 4) 15 0, bytes := b },
    updState := 3, bootsLeft := 3, runSeconds := 0 }) s

/-- FW_COMMIT. -/
def cmdFwCommit (p : Pkt) (s : State) : Res :=
  let n := wd p.w 4
  let b := stagingBytes s n
  let svn := leAt b 4 4
  checked [reservedIn p [fullW], chk (n == 0 || decide (33554432 < n)) 0x02 4,
      chk ((s.nv.updState != 1 && s.nv.updState != 5) || !allStaged s n) 0x30 0] s (fun s =>
    match imageCheck s b n with
    | 0 =>
      if bits (leAt b 0 4) 7 0 = 2 then
        (if s.boot.phase = 4 then .fail 0x02 4 s
         else if cfgPairKept s then .fail 0x05 0 s else .ok svn 0 0 (commitCfg b s))
      else if s.boot.phase = 4 then .ok svn 0 0 (recoverImage b s)
      else .ok svn 0 0 (saveRecord 0 (modNv (fun n => { n with
        staged := some { svn := svn, cfgFmt := bits (leAt b 16 4) 15 0, bytes := b }, updState := 2 }) s))
    | st => .fail st 4 s)

/-- FW_CONFIRM; once the 600th run second is over the image can no longer be confirmed (R484, R34). -/
def cmdFwConfirm (p : Pkt) (s : State) : Res :=
  checked [reservedIn p [], chk (s.nv.updState != 3 || decide (600 ≤ runSecs s)) 0x30 0] s (fun s => .ok 0 0 0 (confirmImage s))

/-- FW_STATUS. -/
def cmdFwStatus (p : Pkt) (s : State) : Res :=
  checked [reservedIn p []] s (fun s =>
    .ok s.boot.runningSvn (s.nv.updState + 256 * bootsLeftNow s) (secondsLeft s) s)

/-- A committed recovery image boots once its reply is written. -/
def bootRecovered (before s : State) : State :=
  if before.boot.phase = 4 ∧ before.nv.updState ≠ 3 ∧ s.nv.updState = 3 then reboot s else s

/-! ### Commands -/

/-- R383. -/
def execHello (src : Src) (s : State) : Host.Outcome State Fault Refusal := ccpAct 0x01 src s cmdHello
/-- R358, R389. -/
def execCapsRead (src : Src) (s : State) : Host.Outcome State Fault Refusal := ccpAct 0x02 src s cmdCaps
/-- R389. -/
def execEcho (src : Src) (s : State) : Host.Outcome State Fault Refusal := ccpAct 0x03 src s cmdEcho
/-- R390. -/
def execRegionMap (src : Src) (s : State) : Host.Outcome State Fault Refusal := ccpAct 0x10 src s cmdRegionMap
/-- R390. -/
def execRegionUnmap (src : Src) (s : State) : Host.Outcome State Fault Refusal := ccpAct 0x11 src s cmdRegionUnmap
/-- R325, R326. -/
def execWindowOpen (src : Src) (s : State) : Host.Outcome State Fault Refusal := ccpAct 0x12 src s cmdWindowOpen
/-- R329. -/
def execWindowClose (src : Src) (s : State) : Host.Outcome State Fault Refusal := ccpAct 0x13 src s cmdWindowClose
/-- R43, R390. -/
def execGraphLoad (src : Src) (s : State) : Host.Outcome State Fault Refusal := ccpAct 0x20 src s cmdGraphLoad
/-- R51. -/
def execGraphArm (src : Src) (s : State) : Host.Outcome State Fault Refusal := ccpAct 0x21 src s cmdGraphArm
/-- R51. -/
def execGraphDisarm (src : Src) (s : State) : Host.Outcome State Fault Refusal := ccpAct 0x22 src s cmdGraphDisarm
/-- R51. -/
def execGraphUnload (src : Src) (s : State) : Host.Outcome State Fault Refusal := ccpAct 0x23 src s cmdGraphUnload
/-- R390. -/
def execJobSubmit (src : Src) (s : State) : Host.Outcome State Fault Refusal := ccpAct 0x24 src s cmdJobSubmit
/-- R390. -/
def execJobCancel (src : Src) (s : State) : Host.Outcome State Fault Refusal := ccpAct 0x25 src s cmdJobCancel
/-- R309. -/
def execStreamRearm (src : Src) (s : State) : Host.Outcome State Fault Refusal := ccpAct 0x30 src s cmdRearm
/-- R321. -/
def execQueuePush (src : Src) (s : State) : Host.Outcome State Fault Refusal := ccpAct 0x31 src s cmdPush
/-- R323. -/
def execQueuePop (src : Src) (s : State) : Host.Outcome State Fault Refusal := ccpAct 0x32 src s cmdPop
/-- R483. -/
def execFwBlock (src : Src) (s : State) : Host.Outcome State Fault Refusal := ccpAct 0x70 src s cmdFwBlock
/-- R479, R483. -/
def execFwCommit (src : Src) (s : State) : Host.Outcome State Fault Refusal :=
  act src.wf s (fun s => bootRecovered s (ccp 0x71 src cmdFwCommit s))
/-- R485. -/
def execFwConfirm (src : Src) (s : State) : Host.Outcome State Fault Refusal := ccpAct 0x72 src s cmdFwConfirm
/-- R389, R482. -/
def execFwStatus (src : Src) (s : State) : Host.Outcome State Fault Refusal := ccpAct 0x73 src s cmdFwStatus

end Sys2Proof.Machine
end

