-- ==== Sys2Proof/Machine/CcpHost.lean ====
section
/-! DEFINITION. CCP commands of cameras, sessions, statistics and the log (R80 to R82, R94, R95, R102, R391, R392,
R401 to R407, R511), and the register messages of the management port (R375). -/

namespace Sys2Proof.Machine

/-! ### Sensor profiles and settings (R94, R95, R511) -/

/-- Another tenant's started stream that names a profile slot. -/
def profileUser (s : State) (tn slot : Nat) : Option Nat :=
  (s.cam.streams.find? (fun e => match e.2 with
    | some v => v.started && sdProfileEn v && sdProfile v == slot && v.tenant != tn
    | none => false)).map Prod.fst

/-- The fields of a profile are in range (R94). -/
def profileChecks (w : List Nat) : List (Option Err) :=
  let fits := fun (o n : Nat) => decide (o + n ≤ 4096)
  let big := fun (n : Nat) => decide (4 < n)
  let fc := bits (wd w 3) 14 12
  let ex := bits (wd w 3) 30 28
  let ga := bits (wd w 4) 14 12
  [chk (bits (wd w 0) 1 0 == 3 || bits (wd w 0) 3 2 == 3) 0x01 5,
   chk (decide (bits (wd w 0) 1 0 < 2) && bits (wd w 0) 3 2 != 0) 0x02 5,
   chk (decide (bits (wd w 1) 31 16 ≤ bits (wd w 1) 15 0)) 0x02 6,
   chk (wd w 2 == 0) 0x02 7,
   chk (big fc || big ex || !fits (bits (wd w 3) 11 0) fc || !fits (bits (wd w 3) 27 16) ex) 0x02 8,
   chk (big ga || !fits (bits (wd w 4) 11 0) ga) 0x02 9]

/-- SENSOR_PROFILE. -/
def cmdProfile (p : Pkt) (s : State) : Res :=
  let slot := bits (wd p.w 4) 5 0
  let w := (List.range 8).map (fun i => wd p.w (5 + i))
  checked ([reservedIn p [0x3F, 0x1FFFFF, fullW, fullW, 0x7FFF7FFF, 0x7FFF, 0, 0, 0]] ++ profileChecks w ++
      [(profileUser s p.tn slot).map (fun st => (0x05, st))]) s (fun s =>
    .ok 0 0 0 { s with cam := { s.cam with profiles := tset none s.cam.profiles slot (some (p.tn, w)) } })

/-- SENSOR_SETTINGS. -/
def cmdSettings (p : Pkt) (s : State) : Res :=
  checked [settingsCheck s p.tn (params p)] s (fun s => .ok 0 0 0 (settingsApply (params p) s))

/-! ### Streams (R80 to R82) -/

/-- A stream slot that has never been used. -/
def streamZero : Stream where
  desc := []
  tenant := 0
  started := false
  opened := false
  stopping := false
  frames := []
  serial := 0
  index := 0
  corr := 0
  prevFs := none
  lossRaised := false
  lastPkt := 0
  counterAt := none
  landed := false
  stops := []
  buf := []
  ringRow := 0
  lastEpoch := none
  reqEpoch := 0
  lastEff := 0
  pend := none
  writing := none
  entry := 0
  attempts := 0
  acked := false
  busy := none
  ending := none
  active := false
  window := none
  windows := []
  failures := 0
  wprofile := []
  sprofile := []
  written := []
  initialEpoch := 0
  partialAt := none
  partials := []

/-- A started stream that satisfies `p`. -/
def startedWith (s : State) (p : Stream → Bool) : Option Nat :=
  (s.cam.streams.find? (fun e => match e.2 with | some v => v.started && p v | none => false)).map Prod.fst

/-- BUF_ROWS of a port's started streams. -/
def bufTaken (s : State) (port : Nat) : Nat :=
  sumN (s.cam.streams.map (fun e => match e.2 with
    | some v => if v.started && sdPort v == port then sdBufRows v else 0
    | none => 0))

/-- The checks of a stream descriptor, in order (R80, R81, R508, R511).  CAM14 and CAM15 in transmit mode are accepted, the
model's choice (log entry 216). -/
def startChecks (s : State) (p : Pkt) (v : Stream) : List (Option Err) :=
  let st := bits (wd v.desc 0) 21 16
  let pix := isPixel v
  let prof := profileAt s (sdProfile v)
  [reservedIn p [0x3F3FFF, fullW, fullW, fullW, fullW, 0xFFFF0007, 0x3FFFFF, fullW, 0xFFFF, fullW, 0xFFFF, 0xFFFF,
     0, 0, 0, 0],
   chk (!dtKnown (sdDt v)) 0x01 4,
   chk (sdWidth v == 0 || decide ((if pix then 8192 else 32768) < sdWidth v) || sdHeight v == 0 ||
     decide (8192 < sdHeight v)) 0x02 5,
   chk (sdPeriod v != 0 && decide (sdPeriod v ≤ 2 * sdTolerance v)) 0x02 7,
   chk (decide (sdTimeout v < 10000)) 0x02 8,
   chk (sdBufRows v == 0 || decide (192 < sdBufRows v) || (sdProfileEn v && prof.isNone)) 0x02 10,
   rangeBad s p (sdMeta v) 512 11,
   chk (pix && (sdDest v != 0)) 0x02 13,
   if pix then none else rangeBad s p (sdDest v) (512 * sdDestRows v) 13,
   chk (pix != (sdDestRows v == 0)) 0x02 15,
   chk (!streamGranted s p.tn st) 0x04 4,
   chk (sdProfileEn v && prof.map Prod.fst != some p.tn) 0x04 10,
   rangeDenied s p (sdMeta v) 512 11,
   if pix then none else rangeDenied s p (sdDest v) (512 * sdDestRows v) 13,
   chk (s.boot.phase != 3) notReady 0,
   chk (match streamAt s st with | some x => x.started | none => false) 0x05 st,
   (startedWith s (fun x => sdPort x == sdPort v && sdVc x == sdVc v && sdDt x == sdDt v)).map (fun k => (0x05, k)),
   chk (decide (192 < bufTaken s (sdPort v) + sdBufRows v)) 0x05 (sdPort v)]

/-- What a slot holds when a stream is started in it: its earlier frames, buffer and stops stay. -/
def startSlot (s : State) (p : Pkt) (v : Stream) : Stream :=
  let o := (streamAt s (bits (wd v.desc 0) 21 16)).getD streamZero
  { streamZero with
    desc := v.desc
    tenant := p.tn
    started := true
    frames := o.frames
    serial := o.serial
    index := o.index
    stops := o.stops
    buf := o.buf
    lastEff := o.lastEff
    lastPkt := s.now
    wprofile := streamProfile s v }

/-- STREAM_START. -/
def cmdStreamStart (p : Pkt) (s : State) : Res :=
  let v := { streamZero with desc := (List.range 16).map (fun i => wd p.w (4 + i)) }
  checked (startChecks s p v) s (fun s =>
    .ok 0 0 0 { s with cam := { s.cam with
      streams := tset none s.cam.streams (bits (wd v.desc 0) 21 16) (some (startSlot s p v)) } })

/-- STREAM_STOP: answered when the stop takes effect, with the last frame index. -/
def cmdStreamStop (p : Pkt) (s : State) : Res :=
  let st := bits (wd p.w 4) 5 0
  checked [reservedIn p [0x3F], chk (!streamGranted s p.tn st) 0x04 4,
      chk (match streamAt s st with | some v => !v.started | none => true) 0x06 4] s (fun s =>
    .wait (.streamStopped st) (match streamAt s st with | some v => v.index | none => 0) (endStream st) s)

/-! ### Transmit ports (R102) -/

/-- Lanes or trios of a port. -/
def portLanes (s : State) (port : Nat) : Nat :=
  let c := rget s R.camPortCfg port
  if bit c 0 then bits c 2 1 + 1 else if bits c 2 1 = 0 then 1 else if bits c 2 1 = 1 then 2 else 4

/-- R102: the transmit rate does not carry what the source stream's port receives. -/
def forwardSlow (s : State) (st rate : Nat) : Bool :=
  match (streamAt s st).filter (fun v => v.started) with
  | some v => decide (rate * 4 < bits (rget s R.camPortCfg (sdPort v)) 31 16 * portLanes s (sdPort v))
  | none => false

/-- TX_CONFIG: the port's configuration register shows its direction, clock and rate; PHY and WIDTH stay as they are and are
not checked, the model's choice (log entry 216). -/
def cmdTxConfig (p : Pkt) (s : State) : Res :=
  let w := wd p.w 4
  let k := bits w 0 0
  let mode := bits w 2 1
  let st := bits w 9 4
  let rate := bits (wd p.w 5) 15 0
  checked [reservedIn p [0x3FFF, 0xFFFF], chk (mode == 3) 0x01 4,
      chk (decide (rate < 80) || decide (4500 < rate)) 0x02 5,
      chk (mode == 2 && forwardSlow s st rate) 0x02 5,
      chk (mode == 2 && !streamGranted s p.tn st) 0x04 4,
      chk (portInUse s (14 + k)) 0x05 (14 + k)] s (fun s =>
    let c := rget s R.camPortCfg (14 + k)
    let t : Tx := { mode := mode, contClk := bit w 3, source := st, vc := bits w 13 10, rate := rate }
    .ok 0 0 0 (rput R.camPortCfg (14 + k) (bits c 2 0 + 8 * b2n (mode != 0) + 16 * bits w 3 3 + 65536 * rate)
      { s with cam := { s.cam with tx := tset txReset s.cam.tx k t } }))

/-! ### Sessions and job keys (R401 to R407) -/

/-- The next unused session handle, 16 bits and nonzero. -/
def nextHandle (s : State) : Nat :=
  match rotFind 65535 (s.sec.nextSess - 1) (fun i => (sessAt s (i + 1)).isNone) with
  | some i => i + 1
  | none => 1

/-- What a write that faulted left in memory, in a state that has undone the rest of the attempt. -/
def writtenIn (u drop : State) : State :=
  { drop with mem := u.mem, host0 := u.host0, host1 := u.host1, spd := u.spd, nv := u.nv, regs := u.regs,
              log := u.log, logNext := u.logNext, logGone := u.logGone }

/-- A response buffer takes a response, or the attempt ends: DETAIL names the capacity, or the address of a write that
faults. -/
def sessionReply (p : Pkt) (h : Nat) (l : List Byte) (cap : Nat) (ok drop : State) : Res :=
  if cap < l.length then .fail 0x02 9 drop
  else
    let r := outPut p (addr48 p.w 7) l ok
    if r.1 < l.length then .fail 0x02 7 (writtenIn r.2 drop)
    else .ok h l.length 0 r.2

/-- Step 1: KEY_EXCHANGE with empty ExchangeData, anything else is PARAM_INVALID; a fresh key pair, whose decapsulation
key stays in the session's slot. -/
def sessionStep1 (p : Pkt) (msg : List Byte) (cap : Nat) (s : State) : Res :=
  if !exchangeOk msg then .fail 0x02 0x80000004 s
  else if 4 ≤ (sessionsOf s p.fn).length ∨ 64 ≤ s.sec.sessions.length then .fail 0x05 0 s
  else match allocSlot s p.tn with
    | none => .fail 0x29 0 s
    | some k =>
      let h := nextHandle s
      let rsp := exchangeRsp s h false [] msg
      let sess : Sess := { fn := p.fn, open_ := false, since := s.now, slot := k, said := exchangeSaid s [] msg rsp }
      let key : KeySlot := { kind := 1, tenant := p.tn, sess := h, jobId := 0, nonce := 0, key := (sessionKeys s).2 }
      let s1 := putSlot k (some key) (modSec (fun x => { x with
        sessions := tset none x.sessions h (some sess), nextSess := h % 65535 + 1 }) (draw s))
      sessionReply p h (spdmMsg 0x64 rsp) cap s1 (draw s)

/-- The tenant's memory key is generated when its first session opens (R412). -/
def giveMemKey (t : Nat) (s : State) : Option State :=
  if hasMemKey s t then some s
  else (allocSlot s t).map (fun k =>
    draw (putSlot k (some (memoryKey s t)) s))

/-- The key of a slot. -/
def slotKey (s : State) (n : Nat) : List Byte := match slotAt s n with | some k => k.key | none => []

/-- Step 2: FINISH: with it the decapsulation key goes and the session's slot holds its export master secret; 1 s after
the reply of step 1 the session is gone. -/
def sessionStep2 (p : Pkt) (h : Nat) (msg : List Byte) (cap : Nat) (s : State) : Res :=
  match sessAt s h with
  | none => .fail 0x06 0x80000000 s
  | some x =>
    let shared := kemSecret (slotKey s x.slot) msg
    if x.fn ≠ p.fn ∨ x.open_ then .fail 0x06 0x80000000 s
    else if x.since + 1000000000 ≤ s.now then .fail 0x06 0x80000000 (destroySession h s)
    else if !finishOk shared x.said [] msg then
      .fail 0x28 0 (cnt R.secAuthFail 0 1 (destroySession h s))
    else match giveMemKey p.tn s with
      | none => .fail 0x29 0 (destroySession h s)
      | some s1 =>
        let s2 := putSlot x.slot ((slotAt s1 x.slot).map (fun k => { k with key := sessionSecret shared x.said [] msg }))
          (modSec (fun c => { c with
            sessions := tset none c.sessions h (some { x with open_ := true, said := x.said ++ msg }) }) s1)
        sessionReply p h (spdmMsg 0x65 (finishRsp shared x.said [] msg)) cap s2 (destroySession h s)

/-- SESSION_OPEN. -/
def cmdSessionOpen (p : Pkt) (s : State) : Res :=
  let a := addr48 p.w 4
  let n := wd p.w 6
  let b := addr48 p.w 7
  let cap := wd p.w 9
  checked [reservedIn p [fullW, 0xFFFF, fullW, fullW, 0xFFFF, fullW], rangeBad s p a n 4, chk (decide (n < 16)) 0x02 6,
      rangeBad s p b cap 7, chk (p.tn == 32) 0x04 2, rangeDenied s p a n 4, rangeDenied s p b cap 7] s (fun s =>
    match inGet s p a n, inDone p a n s with
    | none, s => .fail 0x02 4 s
    | some l, s =>
      let w := (List.range 4).map (fun i => leAt l (4 * i) 4)
      let step := bits (wd w 0) 1 0
      let h := bits (wd w 0) 31 16
      match firstReserved w [0xFFFF0003] with
      | some k => .fail 0x01 (0x80000000 + k) s
      | none =>
        if step = 0 ∨ step = 3 then .fail 0x01 0x80000000 s
        else if step = 1 then (if h ≠ 0 then .fail 0x02 0x80000000 s else sessionStep1 p (l.drop 16) cap s)
        else sessionStep2 p h (l.drop 16) cap s)

/-- A function's session of a handle does not exist. -/
def sessErr (s : State) (p : Pkt) (h : Nat) (needOpen : Bool) : Option Err :=
  match sessAt s h with
  | some x => chk (x.fn != p.fn || (needOpen && !x.open_)) 0x06 4
  | none => some (0x06, 4)

/-- SESSION_CLOSE. -/
def cmdSessionClose (p : Pkt) (s : State) : Res :=
  let h := bits (wd p.w 4) 15 0
  checked [reservedIn p [0xFFFF], sessErr s p h false] s (fun s =>
    let s1 := cancelSession h s
    .ok 0 0 0 (destroySession h (doAborts (64 + s1.seq.toAbort.length) s1)))

/-- R406: the bytes a job key is derived with. -/
def jobLabel (fn job : Nat) : List Byte :=
  ascii "APK-JOB" ++ [BitVec.ofNat 8 fn] ++ leBytes 4 job

/-- R406: the key of a JOB_ID in a session. -/
def jobKey (s : State) (h fn job : Nat) : List Byte :=
  match sessAt s h with
  | some x => hkdfExpand (slotKey s x.slot) (jobLabel fn job) 32
  | none => []

/-- JOB_KEY. -/
def cmdJobKey (p : Pkt) (s : State) : Res :=
  let h := bits (wd p.w 4) 15 0
  let j := wd p.w 5
  checked [reservedIn p [0xFFFF, fullW], chk (j == 0) 0x02 5, sessErr s p h true] s (fun s =>
    match jobSlot s p.tn h j with
    | some k => .ok k 0 0 s
    | none =>
      match allocSlot s p.tn with
      | none => .fail 0x29 0 s
      | some k => .ok k 0 0 (putSlot k (some {
          kind := 2, tenant := p.tn, sess := h, jobId := j, nonce := 0, key := jobKey s h p.fn j }) s))

/-! ### Statistics (R391) -/

/-- The selectors of groups 0 to 13. -/
def groupSel : List Nat :=
  [R.seqObsSel, R.seqLatSel, R.seqBusySel, R.seqSluiceSel, R.camStreamSel, R.ispLandSel, R.kpePartSel, R.spdSliceSel,
   R.spdWheelSel, R.spdArrSel, R.strCtxSel, R.mrqSel, R.winSel, R.hostFnSel]

/-- Bits of a selector. -/
def selMask (o : Nat) : Nat := match regTable.find? (fun d => d.off == o) with | some d => d.rw | none => 0

/-- R10, R33: an engine reference is one of an engine that the device has: 0, RESERVED_NONZERO for a reserved encoding, or
INDEX_RANGE. -/
def refStatus (s : State) (r : Nat) : Nat :=
  let u := bits r 13 6
  let e := bits r 5 0
  if 65536 ≤ r then 0x01
  else if r / 0x4000 = 0 then (if 64 ≤ u ∨ 32 < e then 0x03 else 0)
  else if r / 0x4000 = 1 then (if 4 ≤ u then 0x03 else if 5 < e then 0x01 else 0)
  else if r / 0x4000 = 2 then (if 4 ≤ u then 0x03 else if 12 < e then 0x01 else 0)
  else if 0x0E ≤ u then 0x01
  else if u = 6 then (if 16 ≤ e then 0x03 else 0)
  else if u = 7 then (if (if s.bifurcated then 2 else 1) ≤ e then 0x03 else 0)
  else if u = 8 then (if 2 ≤ e then 0x03 else 0)
  else if e ≠ 0 then 0x01
  else 0

/-- An INDEX that the selector of a group does not take: RESERVED_NONZERO, or INDEX_RANGE. -/
def indexErr (s : State) (g i : Nat) : Option Err :=
  let m := selMask (groupSel.getD g 0)
  if g = 2 ∧ refStatus s i ≠ 0 then some (refStatus s i, 5)
  else if i &&& (fullW ^^^ m) ≠ 0 ∨ (g = 0 ∧ 9 < i % 16) then some (0x01, 5)
  else if (g = 8 ∧ 64 ≤ i % 256) ∨ (g = 9 ∧ ¬ arrExists i) ∨ (g = 12 ∧ 64 * nFns s ≤ i) ∨
    (g = 13 ∧ (32 < i ∨ (nFns s ≤ i ∧ i < 32))) then some (0x03, 5)
  else none

/-- The registers from one to another of a block, each with its family number. -/
def regsFrom (lo hi n : Nat) : List (RegDef × Nat) :=
  (regTable.filter (fun d => decide (lo ≤ d.off) && decide (d.off ≤ hi))).map (fun d => (d, n))

/-- Group 14: the registers of an engine's or a core's block. -/
def engineRegs (r : Nat) : List (RegDef × Nat) :=
  let u := bits r 13 6
  let e := bits r 5 0
  if r / 0x4000 = 0 then regsFrom R.ncCoreStat R.ncCoreChain u
  else if r / 0x4000 = 1 then
    (if e = 0 then regsFrom R.steEngStat R.steEngFault u
     else if e = 1 then regsFrom R.ofeEngStat R.ofeEngFault u
     else if e = 2 then regsFrom R.kpeEngStat R.kpeEngFault u
     else if e = 3 ∨ e = 4 then regsFrom R.wpeEngStat R.wpeEngFault (2 * u + e - 3)
     else regsFrom R.pyeEngStat R.pyeEngFault u)
  else if r / 0x4000 = 2 then regsFrom R.ispCoreStat R.ispCorePress u
  else if u = 6 then regsFrom R.camPortCfg R.camPortUnclaimed e
  else if u = 7 then regsFrom R.hostPortLink R.hostPortDiscard e
  else if u = 8 then regsFrom R.ethMacCfg R.ethRxDrop e
  else if 1 ≤ u ∧ u ≤ 4 then regsFrom R.strEngGrants R.strEngGrants (u - 1)
  else []

/-- The registers of a group. -/
def groupRegs (s : State) (g i : Nat) : List (RegDef × Nat) :=
  if g = 14 then (if refStatus s i = 0 then engineRegs i else [])
  else (regTable.filter (fun d => d.sel == groupSel.getD g 0)).map (fun d => (d, 0))

/-- What is wrong with GROUP and INDEX. -/
def statErr (s : State) (g i : Nat) : Option Err :=
  if g = 15 then some (0x01, 4)
  else if g = 14 then chk (refStatus s i != 0) (refStatus s i) 5
  else indexErr s g i

/-- Point the requester's selector of a group at an object. -/
def setGroupSel (rq g i : Nat) (s : State) : State := if g = 14 then s else selPut rq (groupSel.getD g 0) i s

/-- The values a requester reads, one after the other. -/
def readList (rq : Nat) : List (RegDef × Nat) → State → List Nat
  | [], _ => []
  | d :: t, s =>
    if readable s rq d.1 (objOf s rq d.1 d.2) then
      regFor s rq d.1 d.2 :: readList rq t (readEffect rq d.1 d.2 s)
    else 0 :: readList rq t s

/-- RC fields of registers are cleared as a read clears them. -/
def clearList (rq : Nat) (l : List (RegDef × Nat)) (s : State) : State :=
  l.foldl (fun s d =>
    if d.1.rc ≠ 0 ∧ readable s rq d.1 (objOf s rq d.1 d.2) then readEffect rq d.1 d.2 s else s) s

/-- STATS_READ. -/
def cmdStats (p : Pkt) (s : State) : Res :=
  let g := bits (wd p.w 4) 3 0
  let i := wd p.w 5
  let a := addr48 p.w 6
  let l := groupRegs s g i
  let n := 4 * l.length
  checked [reservedIn p [0x1F, fullW, fullW, 0xFFFF], statErr s g i, destBad s p a n 6, destDenied s p a n 6] s (fun s =>
    let old := selGet s p.fn (groupSel.getD g 0)
    let vals := readList p.fn l (setGroupSel p.fn g i s)
    let clear := fun (k : Nat) (s : State) =>
      if bit (wd p.w 4) 4 then setGroupSel p.fn g old (clearList p.fn (l.take k) (setGroupSel p.fn g i s)) else s
    if destNone p a then .done l.length 0 0 (wordsBytes vals) (clear l.length s)
    else
      let r := outPut p a (wordsBytes vals) s
      if r.1 < n then .fail 0x02 6 (clear (r.1 / 4) r.2) else .ok l.length 0 0 (clear l.length r.2))

/-! ### The log (R392) -/

/-- The words of an entry. -/
def logWords (e : LogEntry) : List Nat :=
  [e.code + e.tenant * 65536, e.seq, e.time % 2 ^ 32, e.time / 2 ^ 32 % 2 ^ 32, e.engine, e.d0, e.d1, e.d2]

/-- A source sees the entries of its tenant; management sessions and the host Owner see all. -/
def logSees (s : State) (p : Pkt) (tenant : Nat) : Bool :=
  p.isMgmt || (p.fn == 0 && s.sec.hostOwner) || tenant == p.tn

/-- Sequence number of the overwritten entry `i`, oldest first. -/
def goneSeq (s : State) (i : Nat) : Nat :=
  let n := s.log.length + s.logGone.length
  w32 (s.logNext + (n / 2 ^ 32 + 1) * 2 ^ 32 - n + i)

/-- R392: entries overwritten that the source could see, before the first sequence (DEDUCED, log entry 48). -/
def logLost (s : State) (p : Pkt) (first : Nat) : Nat :=
  (s.logGone.zipIdx.filter (fun e => serLt (goneSeq s e.2) first && logSees s p e.1)).length

/-- LOG_READ. -/
def cmdLog (p : Pkt) (s : State) : Res :=
  let first := wd p.w 4
  let a := addr48 p.w 5
  let cap := wd p.w 7
  checked [reservedIn p [fullW, fullW, 0xFFFF, fullW], destBad s p a 0 5, chk (cap == 0 || decide (4096 < cap)) 0x02 7,
      destBad s p a (32 * cap) 5, destDenied s p a (32 * cap) 5] s (fun s =>
    let k := if destNone p a then min cap 128 else cap
    let l := (s.log.filter (fun e => !serLt e.seq first && logSees s p e.tenant))
    let es := l.take k
    let next := if k < l.length then (match es.getLast? with | some e => w32 (e.seq + 1) | none => first)
      else if serLt s.logNext first then first else s.logNext
    let data := wordsBytes (es.flatMap logWords)
    if destNone p a then .done es.length next (logLost s p first) data s
    else
      let r := outPut p a data s
      if r.1 < data.length then .fail 0x02 5 r.2 else .ok es.length next (logLost s p first) r.2)

/-! ### Register messages of the management port (R375) -/

/-- An open management session's message; it wakes the device (R457). -/
def mgmtAct (sess : Nat) (f : MSess → State → State) (s : State) : State :=
  match msessAt s sess with
  | some m => if m.stage = 3 then f m (wakeDevice s) else s
  | none => s

/-- REG_READ: the value, little-endian. -/
def mgmtRegRead (sess o : Nat) (s : State) : State :=
  if o % 4 ≠ 0 then emit (.mgmt sess (leBytes 4 0xFFFFFFFF)) (countShape 32 s)
  else
    let r := busRead 32 o s
    emit (.mgmt sess (leBytes 4 r.1)) r.2

/-- REG_WRITE: a status byte; the Operator may not. -/
def mgmtRegWrite (sess o v : Nat) (m : MSess) (s : State) : State :=
  if m.owner then
    let r := mgmtWrite o v s
    emit (.mgmt sess [BitVec.ofNat 8 r.1]) r.2
  else emit (.mgmt sess [0x04]) (cnt R.mgtCmdDenied 0 1 s)

/-! ### Commands -/

/-- R94, R511. -/
def execSensorProfile (src : Src) (s : State) : Host.Outcome State Fault Refusal := ccpAct 0x40 src s cmdProfile
/-- R95. -/
def execSensorSettings (src : Src) (s : State) : Host.Outcome State Fault Refusal := ccpAct 0x41 src s cmdSettings
/-- R80, R81. -/
def execStreamStart (src : Src) (s : State) : Host.Outcome State Fault Refusal := ccpAct 0x42 src s cmdStreamStart
/-- R82. -/
def execStreamStop (src : Src) (s : State) : Host.Outcome State Fault Refusal := ccpAct 0x43 src s cmdStreamStop
/-- R102. -/
def execTxConfig (src : Src) (s : State) : Host.Outcome State Fault Refusal := ccpAct 0x44 src s cmdTxConfig
/-- R401, R402. -/
def execSessionOpen (src : Src) (s : State) : Host.Outcome State Fault Refusal := ccpAct 0x50 src s cmdSessionOpen
/-- R403. -/
def execSessionClose (src : Src) (s : State) : Host.Outcome State Fault Refusal := ccpAct 0x51 src s cmdSessionClose
/-- R406. -/
def execJobKey (src : Src) (s : State) : Host.Outcome State Fault Refusal := ccpAct 0x52 src s cmdJobKey
/-- R391. -/
def execStatsRead (src : Src) (s : State) : Host.Outcome State Fault Refusal := ccpAct 0x60 src s cmdStats
/-- R392. -/
def execLogRead (src : Src) (s : State) : Host.Outcome State Fault Refusal := ccpAct 0x61 src s cmdLog
/-- R375. -/
def execRegRead (sess off : Nat) (s : State) : Host.Outcome State Fault Refusal :=
  act (decide (sess < 8)) s (mgmtAct sess (fun _ => mgmtRegRead sess off))
/-- R375. -/
def execRegWrite (sess off : Nat) (v : Word) (s : State) : Host.Outcome State Fault Refusal :=
  act (decide (sess < 8)) s (mgmtAct sess (mgmtRegWrite sess off v.toNat))

end Sys2Proof.Machine
end

