-- ==== Sys2Proof/Machine/Warp.lean ====
section
/-! DEFINITION. Warp engines (R133 to R146, R152 to R154): maps, interpolation, bands, tiles, mesh inversion, status
records. -/

namespace Sys2Proof.Machine

/-! ### Descriptors (R146) -/

/-- A warp task: descriptor, lens block, source and output, its output lines `[y0, y1)` and its band `[lo, hi]`. -/
structure Warp where
  d : List Nat
  lens : List Nat
  src : ImgRef
  dst : ImgRef
  y0 : Nat
  y1 : Nat
  lo : Nat
  hi : Nat
  deriving DecidableEq, Repr

def wpKind (d : List Nat) : Nat := bits (wd d 0) 1 0
def wpRedistort (d : List Nat) : Bool := bit (wd d 0) 2
def wpInterp (d : List Nat) : Nat := bits (wd d 0) 5 4
def wpReplicate (d : List Nat) : Bool := bit (wd d 0) 6
def wpStep (d : List Nat) : Nat := 8 * 2 ^ bits (wd d 0) 8 7
def wpHandle (d : List Nat) : Bool := bit (wd d 0) 9
def wpMillrace (d : List Nat) : Nat := bits (wd d 0) 19 10
def wpUp (d : List Nat) : Nat := bits (wd d 2) 15 0
def wpDown (d : List Nat) : Nat := bits (wd d 2) 31 16
def wpMap (d : List Nat) : Nat := addr48 d 3
def wpMeshRows (d : List Nat) : Nat := bits (wd d 5) 15 0

/-! ### FP32 sums and products, left to right -/

/-- Sum, left to right. -/
def f32Sums : List Nat → Nat
  | [] => 0
  | a :: t => t.foldl f32Add a

/-- Product, left to right. -/
def f32Prods : List Nat → Nat
  | [] => f32One
  | a :: t => t.foldl f32Mul a

/-- A value at most 2⁻²⁰; NaN is not. -/
def leTiny (w : Nat) : Bool := !f32IsNaN w && !f32Lt 0x35800000 w

/-- R135: an FP32 coordinate to 1/64 pixel, ties to even; NaN and infinities take the largest or least value (R232). -/
def to64 (w : Nat) : Int :=
  match f32v w with
  | .nan => 2 ^ 40
  | .inf n => if n then -(2 ^ 40) else 2 ^ 40
  | .fin n m e => clampI (-(2 ^ 40)) (2 ^ 40) (fvInt false n m (e + 6))

/-- An FP32 value to a multiple of 1/16, ties to even (R187); NaN takes the largest value (R232). -/
def to16 (w : Nat) : Int :=
  match f32v w with
  | .nan => 2 ^ 40
  | .inf n => if n then -(2 ^ 40) else 2 ^ 40
  | .fin n m e => clampI (-(2 ^ 40)) (2 ^ 40) (fvInt false n m (e + 4))

/-! ### Maps (R135 to R139): positions are given in half pixels -/

/-- R136. -/
def homography (h : List Nat) (x y : Nat) : Option (Int × Int) :=
  let row := fun (k : Nat) => f32Sums [f32Mul (wd h k) x, f32Mul (wd h (k + 1)) y, wd h (k + 2)]
  let w := row 6
  if leTiny w then none else some (to64 (f32Div (row 0) w), to64 (f32Div (row 3) w))

/-- A lens block's words by name. -/
def lsFx (l : List Nat) : Nat := wd l 1
def lsFy (l : List Nat) : Nat := wd l 2
def lsCx (l : List Nat) : Nat := wd l 3
def lsCy (l : List Nat) : Nat := wd l 4
def lsK (l : List Nat) (k : Nat) : Nat := wd l (4 + k)
def lsP1 (l : List Nat) : Nat := wd l 11
def lsP2 (l : List Nat) : Nat := wd l 12
def lsR (l : List Nat) (i j : Nat) : Nat := wd l (13 + 3 * i + j)
def lsNfx (l : List Nat) : Nat := wd l 22
def lsNfy (l : List Nat) : Nat := wd l 23
def lsNcx (l : List Nat) : Nat := wd l 24
def lsNcy (l : List Nat) : Nat := wd l 25

/-- R138: radial factor at r². -/
def radial (l : List Nat) (r2 : Nat) : Nat :=
  let r4 := f32Mul r2 r2
  let r6 := f32Mul r4 r2
  f32Div (f32Sums [f32One, f32Mul (lsK l 1) r2, f32Mul (lsK l 2) r4, f32Mul (lsK l 3) r6])
    (f32Sums [f32One, f32Mul (lsK l 4) r2, f32Mul (lsK l 5) r4, f32Mul (lsK l 6) r6])

/-- R138: tangential terms: both sums of two that follow the radial one. -/
def tangential (l : List Nat) (u v r2 : Nat) : (Nat × Nat) × (Nat × Nat) :=
  ((f32Prods [f32Two, lsP1 l, u, v], f32Mul (lsP2 l) (f32Add r2 (f32Prods [f32Two, u, u]))),
   (f32Mul (lsP1 l) (f32Add r2 (f32Prods [f32Two, v, v])), f32Prods [f32Two, lsP2 l, u, v]))

/-- The fisheye polynomial's factor: 1 + Σ c k θ^2k. -/
def fishPoly (l : List Nat) (c : Nat → Nat) (t : Nat) : Nat :=
  let t2 := f32Mul t t
  let t4 := f32Mul t2 t2
  let t6 := f32Mul t4 t2
  let t8 := f32Mul t4 t4
  let k := fun n p => f32Mul (f32Mul (c n) (lsK l n)) p
  f32Sums [f32One, k 1 t2, k 2 t4, k 3 t6, k 4 t8]

/-- R138 with DIRECTION 0. -/
def undistort (l : List Nat) (x y : Nat) : Option (Int × Int) :=
  let a := f32Div (f32Sub x (lsNcx l)) (lsNfx l)
  let b := f32Div (f32Sub y (lsNcy l)) (lsNfy l)
  let row := fun i => f32Sums [f32Mul (lsR l i 0) a, f32Mul (lsR l i 1) b, lsR l i 2]
  let cx := row 0
  let cy := row 1
  let cz := row 2
  let out := fun (ud vd : Nat) => some (to64 (f32Add (f32Mul (lsFx l) ud) (lsCx l)), to64 (f32Add (f32Mul (lsFy l) vd) (lsCy l)))
  if wd l 0 = 0 then
    if leTiny cz then none
    else
      let u := f32Div cx cz
      let v := f32Div cy cz
      let r2 := f32Add (f32Mul u u) (f32Mul v v)
      let g := radial l r2
      let t := tangential l u v r2
      out (f32Sums [f32Mul u g, t.1.1, t.1.2]) (f32Sums [f32Mul v g, t.2.1, t.2.2])
  else
    let rho := f32Sqrt (f32Add (f32Mul cx cx) (f32Mul cy cy))
    let t := atan2In rho cz
    let td := f32Mul t (fishPoly l (fun _ => f32One) t)
    if rho = 0 then out 0 0 else out (f32Mul (f32Div td rho) cx) (f32Mul (f32Div td rho) cy)

/-- R138: 8 fixed-point iterations of the radial-tangential inverse. -/
def invRadial (l : List Nat) (ud vd : Nat) : Nat → Nat × Nat → Nat × Nat
  | 0, p => p
  | n + 1, (u, v) =>
    let r2 := f32Add (f32Mul u u) (f32Mul v v)
    let g := radial l r2
    let t := tangential l u v r2
    invRadial l ud vd n (f32Div (f32Sub ud (f32Add t.1.1 t.1.2)) g, f32Div (f32Sub vd (f32Add t.2.1 t.2.2)) g)

/-- R138: 8 Newton iterations of the fisheye inverse. -/
def invFish (l : List Nat) (td : Nat) : Nat → Nat → Nat
  | 0, t => t
  | n + 1, t =>
    let f := f32Sub (f32Mul t (fishPoly l (fun _ => f32One) t)) td
    let g := fishPoly l (fun k => f32OfInt (2 * k + 1)) t
    invFish l td n (f32Sub t (f32Div f g))

/-- R138 with DIRECTION 1. -/
def redistort (l : List Nat) (x y : Nat) : Option (Int × Int) :=
  let ud := f32Div (f32Sub x (lsCx l)) (lsFx l)
  let vd := f32Div (f32Sub y (lsCy l)) (lsFy l)
  let p : Nat × Nat × Nat :=
    if wd l 0 = 0 then let q := invRadial l ud vd 8 (ud, vd); (q.1, q.2, f32One)
    else
      let td := f32Sqrt (f32Add (f32Mul ud ud) (f32Mul vd vd))
      let t := invFish l td 8 td
      let sn := sinIn t
      (f32Div (f32Mul sn ud) td, f32Div (f32Mul sn vd) td, cosIn t)
  let col := fun i => f32Sums [f32Mul (lsR l 0 i) p.1, f32Mul (lsR l 1 i) p.2.1, f32Mul (lsR l 2 i) p.2.2]
  let cz := col 2
  if leTiny cz then none
  else some (to64 (f32Add (f32Div (f32Mul (lsNfx l) (col 0)) cz) (lsNcx l)),
             to64 (f32Add (f32Div (f32Mul (lsNfy l) (col 1)) cz) (lsNcy l)))

/-- Nodes of a mesh across or down. -/
def meshNodes (d : List Nat) (n : Nat) : Nat := cdiv n (wpStep d) + 1

/-- R139: a node of the mesh; none when invalid. -/
def meshNode (s : State) (tn : Nat) (d : List Nat) (m n : Nat) : Option (Int × Int) :=
  let a := wpMap d + n * wpMeshRows d * 512 + 8 * m
  let x := rdN s tn a 4
  if x = 0x80000000 then none else some (sx 32 x, sx 32 (rdN s tn (a + 4) 4))

/-- R139: the bilinear blend of a cell's nodes at a position in half pixels, rounded to 1/64 once (R135). -/
def meshAt (s : State) (tn : Nat) (d : List Nat) (x2 y2 : Nat) : Option (Int × Int) :=
  let t := 2 * wpStep d
  let m := x2 / t
  let n := y2 / t
  match meshNode s tn d m n, meshNode s tn d (m + 1) n, meshNode s tn d m (n + 1), meshNode s tn d (m + 1) (n + 1) with
  | some a, some b, some c, some e =>
    let fx : Int := (x2 % t : Nat)
    let fy : Int := (y2 % t : Nat)
    let g : Int := (t : Nat)
    let bl := fun (p q u v : Int) => (g - fx) * (g - fy) * p + fx * (g - fy) * q + (g - fx) * fy * u + fx * fy * v
    some (rneDiv (bl a.1 b.1 c.1 e.1) (64 * t * t), rneDiv (bl a.2 b.2 c.2 e.2) (64 * t * t))
  | _, _, _, _ => none

/-- R135: the source coordinate of an output position in half pixels. -/
def warpCoord (s : State) (tn : Nat) (w : Warp) (x2 y2 : Nat) : Option (Int × Int) :=
  let x := f32Lit x2 (-1)
  let y := f32Lit y2 (-1)
  if wpKind w.d = 0 then homography (w.d.drop 8) x y
  else if wpKind w.d = 1 then (if wpRedistort w.d then redistort w.lens x y else undistort w.lens x y)
  else meshAt s tn w.d x2 y2

/-! ### Interpolation (R140, R141) -/

/-- Taps of one axis at a coordinate in 1/64: offset of the first, and the weights in 2⁻¹⁴. -/
def taps (mode : Nat) (c : Int) : Int × List Int :=
  let f : Int := c % 64
  if mode = 0 then ((c + 32) / 64, [16384])
  else if mode = 1 then (c / 64, [256 * (64 - f), 256 * f])
  else
    -- cubic convolution with a = −0.5, in 2⁻¹⁹
    let w := [-(f * f * f) + 128 * f * f - 4096 * f, 3 * f * f * f - 320 * f * f + 524288,
              -3 * f * f * f + 256 * f * f + 4096 * f, f * f * f - 64 * f * f]
    (c / 64 - 1, w.map (fun n => rneDiv n 32))

/-- Interpolate a plane at a coordinate in 1/64; taps are clamped to `[0, w)` and `[lo, hi]`. -/
def interp (d pix mode : Nat) (f : Nat → Nat → Nat) (w lo hi : Nat) (cx cy : Int) : Nat :=
  let tx := taps mode cx
  let ty := taps mode cy
  let terms := ty.2.zipIdx.flatMap (fun v => tx.2.zipIdx.map (fun u =>
    (u.1 * v.1, f (clampI 0 ((w : Int) - 1) (tx.1 + (u.2 : Int))).toNat (clampI lo hi (ty.1 + (v.2 : Int))).toNat)))
  if pix = 2 then
    halfCode (sumF32 d (terms.map (fun t => f32Mul (f32Lit t.1 (-28)) (pixReal 2 t.2))))
  else pixCode pix (rneDiv (sumI (terms.map (fun t => t.1 * pixInt pix t.2))) (2 ^ 28))

/-- R141, R142: what becomes of a pixel: filled, or sampled at a coordinate; whether it was clipped to the band. -/
structure Fate where
  at_ : Option (Int × Int)
  clip : Bool
  deriving DecidableEq, Repr

/-- R141, R142: the fate of an output position in half pixels. -/
def pixFate (s : State) (tn : Nat) (w : Warp) (x2 y2 : Nat) : Fate :=
  match warpCoord s tn w x2 y2 with
  | none => { at_ := none, clip := false }
  | some (cx, cy) =>
    let sw : Int := w.src.width
    let sh : Int := w.src.height
    let out := decide (cx < -32) || decide (64 * sw - 32 ≤ cx) || decide (cy < -32) || decide (64 * sh - 32 ≤ cy)
    let clip := !out && (decide (cy < 64 * (w.lo : Int)) && decide (0 < w.lo) || decide (64 * (w.hi : Int) < cy) && decide (w.hi + 1 < w.src.height))
    if out || clip then
      (if wpReplicate w.d then { at_ := some (clampI 0 (64 * (sw - 1)) cx, clampI 0 (64 * (sh - 1)) cy), clip := clip }
       else { at_ := none, clip := clip })
    else { at_ := some (cx, cy), clip := false }

/-- The fill code of a plane. -/
def fillCode (w : Warp) (q : Nat) : Nat :=
  (if q = 0 then bits (wd w.d 1) 15 0 else bits (wd w.d 1) 31 16) % 2 ^ (8 * pixBytes w.dst.pix)

/-- R142: the band lies wholly below the source, so no source line may be read. -/
def bandEmpty (w : Warp) : Bool := decide (w.hi < w.lo)

/-- What FILL_MODE 1 gives a pixel that clamps into a band without lines: an open code (log entry 217). -/
def bandless (s : State) (w : Warp) (q x y : Nat) : Nat :=
  Config.freeWord (s.free * 2 ^ 40 + q * 2 ^ 28 + y * 2 ^ 14 + x) % 2 ^ (8 * pixBytes w.dst.pix)

/-- Code of pixel `(x, y)` of a full-size plane. -/
def warpPixel (s : State) (tn : Nat) (w : Warp) (q x y : Nat) : Nat :=
  match (pixFate s tn w (2 * x) (2 * y)).at_ with
  | none => fillCode w q
  | some c => if bandEmpty w then bandless s w q x y else interp s.free w.src.pix (wpInterp w.d) (fun a b => w.src.code s tn q a b) w.src.width w.lo w.hi c.1 c.2

/-- R141: a chroma sample of YUV420SP: Cb or Cr at the half-size position. -/
def warpChroma (s : State) (tn : Nat) (w : Warp) (cr x y : Nat) : Nat :=
  match (pixFate s tn w (4 * x + 1) (4 * y + 1)).at_ with
  | none => fillCode w 1
  | some c => if bandEmpty w then bandless s w (1 + cr) x y else interp s.free w.src.pix (wpInterp w.d) (fun a b => w.src.code s tn 1 (2 * a + cr) b) (w.src.width / 2)
      (w.lo / 2) (min (w.hi / 2) (w.src.height / 2 - 1)) (rneDiv (c.1 - 32) 2) (rneDiv (c.2 - 32) 2)

/-- The bytes of line `y` of a plane. -/
def warpLine (s : State) (tn : Nat) (w : Warp) (q y : Nat) : List Byte :=
  if w.dst.planes = 1 ∧ q = 1 then
    lineBytesOf w.dst.pix ((List.range (w.dst.width / 2)).flatMap (fun x => [warpChroma s tn w 0 x y, warpChroma s tn w 1 x y]))
  else lineBytesOf w.dst.pix ((List.range w.dst.width).map (fun x => warpPixel s tn w q x y))

/-- Lines of a plane that belong to output lines `[y0, y1)`. -/
def planeLines (i : ImgRef) (q y0 y1 : Nat) : List Nat :=
  if i.planes = 1 ∧ q = 1 then (List.range (y1 / 2 - y0 / 2)).map (· + y0 / 2) else (List.range (y1 - y0)).map (· + y0)

/-- What an image receives: every plane's lines of `[y0, y1)`. -/
def imgWrites (s : State) (i : ImgRef) (y0 y1 : Nat) (f : Nat → Nat → List Byte) : List (Nat × List Byte) :=
  (List.range i.nPlanes).flatMap (fun q => (planeLines i q y0 y1).map (fun y => (i.line s q y, f q y)))

/-- What an image receives of a failed task: zero lines; a wheel holds one plane. -/
def zeroWrites (s : State) (i : ImgRef) (y0 y1 : Nat) : List (Nat × List Byte) :=
  (List.range (if i.wheel then 1 else i.nPlanes)).flatMap (fun q =>
    (planeLines i q y0 y1).map (fun y => (i.line s q y, List.replicate i.zeroLen 0)))

/-- The fates of a stripe's pixels. -/
def stripeFates (s : State) (tn : Nat) (w : Warp) : List Fate :=
  (List.range (w.y1 - w.y0)).flatMap (fun j => (List.range w.dst.width).map (fun x => pixFate s tn w (2 * x) (2 * (w.y0 + j))))

/-- The fates of a stripe's chroma samples of YUV420SP (R141). -/
def chromaFates (s : State) (tn : Nat) (w : Warp) : List Fate :=
  if w.dst.planes ≠ 1 then []
  else (List.range (w.y1 / 2 - w.y0 / 2)).flatMap (fun j => (List.range (w.dst.width / 2)).map (fun x =>
    pixFate s tn w (4 * x + 1) (4 * (w.y0 / 2 + j) + 1)))

/-- Source lines a stripe reads: first, and one past the last; none of a band without lines. -/
def srcSpan (w : Warp) (l : List Fate) : Nat × Nat :=
  if bandEmpty w then (0, 0) else l.foldl (fun (r : Nat × Nat) f => match f.at_ with
    | none => r
    | some c =>
      let t := taps (wpInterp w.d) c.2
      let a := (clampI w.lo w.hi t.1).toNat
      let b := (clampI w.lo w.hi (t.1 + (t.2.length : Int) - 1)).toNat
      (if r.2 = 0 then a else min r.1 a, max r.2 (b + 1))) (0, 0)

/-! ### Tiles (R144) -/

/-- Cycles of one tile and whether it is slowed. -/
def tileCost (s : State) (tn : Nat) (w : Warp) (x0 y0 : Nat) : Nat × Bool :=
  let cs := (List.range (min 16 (w.y1 - y0))).flatMap (fun j => (List.range (min 64 (w.dst.width - x0))).filterMap (fun k =>
    warpCoord s tn w (2 * (x0 + k)) (2 * (y0 + j))))
  match cs with
  | [] => (512, false)
  | c :: t =>
    let m := wpInterp w.d
    let lo := fun (v : Int) => (taps m v).1
    let hi := fun (v : Int) => (taps m v).1 + ((taps m v).2.length : Int) - 1
    let b := t.foldl (fun (r : Int × Int × Int × Int) p => (min r.1 p.1, max r.2.1 p.1, min r.2.2.1 p.2, max r.2.2.2 p.2))
      (c.1, c.1, c.2, c.2)
    let fw := (hi b.2.1 - lo b.1 + 1).toNat
    let fh := (hi b.2.2.2 - lo b.2.2.1 + 1).toNat
    if fw ≤ 192 ∧ fh ≤ 48 then (512, false) else (512 * cdiv fw 192 * cdiv fh 48, true)

/-- The tiles of a stripe. -/
def stripeTiles (s : State) (tn : Nat) (w : Warp) : List (Nat × Bool) :=
  (List.range (cdiv (w.y1 - w.y0) 16)).flatMap (fun j => (List.range (cdiv w.dst.width 64)).map (fun k =>
    tileCost s tn w (64 * k) (w.y0 + 16 * j)))

/-! ### Mesh inversion (R145) -/

/-- Cross product. -/
def cross (a b : Int × Int) : Int := a.1 * b.2 - a.2 * b.1

/-- Sign of `p + q √d`. -/
def surdSign (p q : Int) (d : Nat) : Int :=
  if 0 ≤ p ∧ 0 ≤ q then (if p = 0 ∧ (q = 0 ∨ d = 0) then 0 else 1)
  else if p ≤ 0 ∧ q ≤ 0 then (if p = 0 ∧ d = 0 then 0 else -1)
  else if p < 0 then (q * q * (d : Int) - p * p).sign
  else (p * p - q * q * (d : Int)).sign

/-- A quotient `(p + q √d) / (e + f √d)` lies in [0, 1]. -/
def surdUnit (p q e f : Int) (d : Nat) : Bool :=
  decide (0 ≤ surdSign p q d * surdSign e f d) && decide (0 ≤ surdSign (e - p) (f - q) d * surdSign e f d) && surdSign e f d != 0

/-- `n` times the quotient, rounded. -/
def surdQuot (n : Nat) (p q e f : Int) (d : Nat) : Int :=
  let r : Int := Nat.sqrt (d * 2 ^ 160)
  let num := p * 2 ^ 80 + q * r
  let den := e * 2 ^ 80 + f * r
  let (num, den) := if den < 0 then (-num, -den) else (num, den)
  rneDiv (num * (n : Int)) den.toNat

/-- An open parameter in [0, 1], `n` times it. -/
def openParam (n : Nat) (v : Int) : Int := rneDiv (clampI 0 (2 ^ 40) v * n) (2 ^ 40)

/-- A solution of a cell's inverse bilinear equation: the first parameter is `(p + q √d) / e`; with the second from the
coordinate whose denominator is not 0, where both lie in [0, 1].  Where both denominators are 0 the cell is one point for
that first parameter: the second, `open2`, is open if the point is that one. -/
def surdSolve (n : Nat) (a b c o : Int × Int) (p q e : Int) (d : Nat) (open2 : Int) : Option (Int × Int) :=
  -- u = (p + q √d) / e, v = (o − u a) / (b + u c)
  let second := fun (o a b c : Int) => (e * o - a * p, -(a * q), e * b + c * p, c * q)
  let x := second o.1 a.1 b.1 c.1
  let y := second o.2 a.2 b.2 c.2
  let v := if surdSign x.2.2.1 x.2.2.2 d ≠ 0 then x else y
  if !surdUnit p q e 0 d then none
  else if surdSign v.2.2.1 v.2.2.2 d = 0 then
    (if surdSign x.1 x.2.1 d = 0 ∧ surdSign y.1 y.2.1 d = 0 then some (surdQuot n p q e 0 d, openParam n open2) else none)
  else if surdUnit v.1 v.2.1 v.2.2.1 v.2.2.2 d then
    some (surdQuot n p q e 0 d, surdQuot n v.1 v.2.1 v.2.2.1 v.2.2.2 d)
  else none

/-- Where every first parameter satisfies a cell's equation.  Its second is one number where the cell collapses to the point
along that line (`o = λ v`, `u = −λ w`); a cell without area contains the points of its segment. -/
def flatSolve (n : Nat) (u v w o : Int × Int) (open1 open2 : Int) : Option (Int × Int) :=
  if cross v w ≠ 0 then
    let num := if v.1 ≠ 0 then o.1 else o.2
    let den := if v.1 ≠ 0 then v.1 else v.2
    (if surdUnit num 0 den 0 0 then some (openParam n open1, surdQuot n num 0 den 0 0) else none)
  else if v = (0, 0) ∧ w = (0, 0) then
    (if cross o u ≠ 0 then none
     else if u = (0, 0) then (if o = (0, 0) then some (openParam n open1, openParam n open2) else none)
     else
       let num := if u.1 ≠ 0 then o.1 else o.2
       let den := if u.1 ≠ 0 then u.1 else u.2
       (if surdUnit num 0 den 0 0 then some (surdQuot n num 0 den 0 0, openParam n open2) else none))
  else some (openParam n open1, openParam n open2)

/-- R145: the inverse of a cell at a point in s20.12: the position within the cell, both parameters scaled to 1/4096 of a
pixel with the step.  The point lies in the box of the corners.  With more than one solution in [0, 1] which is taken is
open (log entry 104). -/
def cellSolve (step : Nat) (a b c e : Int × Int) (p : Int × Int) : Option (Int × Int) :=
  let n := step * 4096
  let u := (b.1 - a.1, b.2 - a.2)
  let v := (c.1 - a.1, c.2 - a.2)
  let w := (a.1 - b.1 - c.1 + e.1, a.2 - b.2 - c.2 + e.2)
  let o := (p.1 - a.1, p.2 - a.2)
  -- the first parameter t: k2 t² + k1 t + k0 = 0
  let k2 := -(cross u w)
  let k1 := cross o w - cross u v
  let k0 := cross o v
  let free := Config.meshSolve [a.1, a.2, b.1, b.2, c.1, c.2, e.1, e.2, p.1, p.2]
  if k2 = 0 then
    (if k1 ≠ 0 then surdSolve n u v w o (-k0) 0 k1 0 free.2
     else if k0 ≠ 0 then none
     else flatSolve n u v w o free.1 free.2)
  else
    let d := k1 * k1 - 4 * k2 * k0
    if d < 0 then none
    else
      match surdSolve n u v w o (-k1) 1 (2 * k2) d.toNat free.2,
        surdSolve n u v w o (-k1) (-1) (2 * k2) d.toNat free.2 with
      | some x, some y => some (if free.1 = 0 then x else y)
      | some x, none => some x
      | none, y => y

/-- A forward cell's corners; none when one is invalid. -/
def meshCell (s : State) (tn : Nat) (d : List Nat) (m n : Nat) : Option ((Int × Int) × (Int × Int) × (Int × Int) × (Int × Int)) :=
  match meshNode s tn d m n, meshNode s tn d (m + 1) n, meshNode s tn d m (n + 1), meshNode s tn d (m + 1) (n + 1) with
  | some a, some b, some c, some e => some (a, b, c, e)
  | _, _, _, _ => none

/-- A point lies in the bounding box of a cell's corners. -/
def inBox (q : (Int × Int) × (Int × Int) × (Int × Int) × (Int × Int)) (p : Int × Int) : Bool :=
  let xs := [q.1.1, q.2.1.1, q.2.2.1.1, q.2.2.2.1]
  let ys := [q.1.2, q.2.1.2, q.2.2.1.2, q.2.2.2.2]
  xs.any (fun v => decide (v ≤ p.1)) && xs.any (fun v => decide (p.1 ≤ v)) &&
  ys.any (fun v => decide (v ≤ p.2)) && ys.any (fun v => decide (p.2 ≤ v))

/-- The forward cells in raster order. -/
def meshCells (w : Warp) : List (Nat × Nat) :=
  (List.range (meshNodes w.d w.dst.height - 1)).flatMap (fun n => (List.range (meshNodes w.d w.dst.width - 1)).map (fun m => (m, n)))

/-- R145: an inverse node: of the first cell that contains it. -/
def inverseNode (s : State) (tn : Nat) (w : Warp) (m n : Nat) : Option (Int × Int) :=
  let t := wpStep w.d
  let p : Int × Int := ((m * t * 4096 : Nat), (n * t * 4096 : Nat))
  (meshCells w).findSome? (fun c => match meshCell s tn w.d c.1 c.2 with
    | some q => if inBox q p then
        (cellSolve t q.1 q.2.1 q.2.2.1 q.2.2.2 p).map (fun v =>
          (((c.1 * t * 4096 : Nat) : Int) + v.1, ((c.2 * t * 4096 : Nat) : Int) + v.2))
      else none
    | none => none)

/-- A line of the inverse mesh; word 1 of an invalid node is open. -/
def inverseLine (s : State) (tn : Nat) (w : Warp) (n : Nat) : List Byte :=
  (List.range (meshNodes w.d w.src.width)).flatMap (fun m => match inverseNode s tn w m n with
    | some v => leBytes 4 (ux 32 v.1) ++ leBytes 4 (ux 32 v.2)
    | none => leBytes 4 0x80000000 ++ leBytes 4 (Config.freeWord (s.free * 2 ^ 40 + n * 65536 + m)))

/-- R145: cycles of an inversion. -/
def inverseCycles (s : State) (tn : Nat) (w : Warp) : Nat :=
  let t := wpStep w.d
  let pairs := (meshCells w).map (fun c => match meshCell s tn w.d c.1 c.2 with
    | some q => ((List.range (meshNodes w.d w.src.height)).flatMap (fun n => (List.range (meshNodes w.d w.src.width)).filter (fun m =>
        inBox q (((m * t * 4096 : Nat) : Int), ((n * t * 4096 : Nat) : Int))))).length
    | none => 0)
  64 + 4 * (meshCells w).length + sumN pairs

/-! ### The dispatch check (R154) -/

/-- Defined bits of the descriptor. -/
def wpMask : List Nat :=
  [0xFFFFF, 0xFFFFFFFF, 0xFFFFFFFF, 0xFFFFFFFF, 0xFFFF, 0xFFFF, 0xFFFFFFFF, 0xFFFF] ++ List.replicate 9 0xFFFFFFFF ++
  [0, 0, 0] ++ List.replicate 8 0xFFFFFFFF

/-- The lens block has a nonzero reserved word or a reserved model. -/
def lensReserved (l : List Nat) : Bool :=
  decide (1 < wd l 0) || (List.range 6).any (fun k => wd l (26 + k) != 0) ||
  (wd l 0 == 1 && (wd l 9 != 0 || wd l 10 != 0 || wd l 11 != 0 || wd l 12 != 0))

/-- R154: status of the check. -/
def warpCheck (s : State) (nd : Node) (w : Warp) : Nat :=
  let d := w.d
  let k := wpKind d
  if maskFails d wpMask || k == 3 || wpInterp d == 3 || w.src.reserved || w.dst.reserved ||
    (k == 1 && lensReserved w.lens) then 0x01
  else if !w.src.rules s || !(if wpInvert d then w.dst.placed s else w.dst.rules s) || decide (8191 < wpUp d) || decide (8191 < wpDown d) ||
    (k != 1 && wpRedistort d) || (wpInvert d && k != 2) || (k != 2 && (bits (wd d 0) 8 7 != 0 || wpMeshRows d != 0)) ||
    (k == 2 && decide (wpMeshRows d * 512 < 8 * meshNodes d w.dst.width)) ||
    (k != 0 && (List.range 9).any (fun n => wd d (8 + n) != 0)) || (k == 0 && wpMap d != 0) || wpMap d % 512 != 0 ||
    addr48 d 6 % 512 != 0 || (decide (nd.height ≠ 0) && decide (nd.height % 16 ≠ 0)) ||
    (if wpInvert d then decide (nd.height ≠ 0) || nd.stripes != 1 || w.src.wheel || w.dst.wheel || w.src.pix != 0 ||
        w.dst.pix != 0 || w.src.planes != 0 || w.dst.planes != 0 || wpRedistort d || wpInterp d != 0 ||
        decide (w.dst.rows * 512 < 8 * meshNodes d w.src.width)
     else w.src.pix != w.dst.pix || w.src.planes != w.dst.planes || decide (4 < w.src.pix)) ||
    !stripesOk nd w.dst.height then 0x02
  else if w.src.range || w.dst.range then 0x03
  else 0

/-! ### Tasks -/

/-- R152: address of a task's status record, of `size` bytes in an array at `base`. -/
def statAddr (r : Run) (nd : Node) (base size : Nat) : Nat := base + size * (r.task.slot * nd.stripes + r.task.stripe)

/-- R152: a status record. -/
def warpRecord (r : Run) (flags outside clip slow : Nat) : List Byte :=
  wordsBytes [validity flags + r.task.stripe % 1024 * 2 ^ 8, r.task.seq, sat32 outside, min clip 65535 + min slow 65535 * 2 ^ 16]

/-- The pushes of a task (R152). -/
def onePush (s : State) (r : Run) (en : Bool) (m : Nat) : List (Nat × Nat) :=
  if en then [(m, handleIdx r.task.stripe (taskFrameNo s r.task) 0)] else []

/-- A task's warp. -/
def warpOf (s : State) (r : Run) (nd : Node) : Warp :=
  let d := descWords s r.task 32
  let src := imgAt d 20
  let dst := imgAt d 24
  let y := stripeLines nd r.task dst.height
  let all := nd.height == 0
  { d := d, lens := if wpKind d = 1 then rdWords s r.task.tenant (wpMap d) 32 else [], src := src, dst := dst,
    y0 := y.1, y1 := y.2, lo := if all then 0 else y.1 - wpUp d,
    hi := if all then src.height - 1 else min (y.2 - 1 + wpDown d) (src.height - 1) }

/-- Lines of the inverse mesh as writes. -/
def inverseWrites (w : Warp) (f : Nat → List Byte) : List (Nat × List Byte) :=
  (List.range (meshNodes w.d w.src.height)).map (fun n => (w.dst.base + n * w.dst.rows * 512, f n))

/-- R143: what a stripe releases of a wheel source when it completes. -/
def warpReleases (nd : Node) (w : Warp) (wheel : Bool) : List (Nat × Nat × Nat) :=
  if wheel ∧ nd.height ≠ 0 then [(w.src.key, nd.height, wpUp w.d)] else []

/-- The lens block, where the task reads one. -/
def lensReads (w : Warp) : List (Nat × Nat) := if wpKind w.d = 1 then [(wpMap w.d, 128)] else []

/-- R154, R510: a failed task.  It completes as any other and releases its source lines. -/
def warpFail (e : Nat) (r : Run) (nd : Node) (w : Warp) (status : Nat) (s : State) : State :=
  let eng := wpeEngine e
  let ok := if wpInvert w.d then !w.dst.wheel else w.dst.sink s
  let src := w.src.wheel && !w.src.reserved && w.src.rules s && !w.src.range
  let s00 := failRun eng 0x0009 R.wpeEngFault e status s
  let s0 := if src then openCons w.src.key r w.src.height s00 else s00
  let s1 := if ok && w.dst.wheel then openProd w.dst.key r w.dst.height s0 else s0
  match wheelsReady s1 r [] (if ok && w.dst.wheel then [(w.dst.key, w.y1)] else []) with
  | some (.stall k) => stallRun eng k s
  | some (.bad c) => faultRun eng c s
  | _ =>
    let fl := outFlags s r fInvalid
    let wk : Work := { workNone with
      reads := lensReads w
      writes := (if !ok then [] else if wpInvert w.d then
            inverseWrites w (fun _ => List.replicate (min (8 * meshNodes w.d w.src.width) (w.dst.rows * 512)) 0)
          else zeroWrites s w.dst w.y0 w.y1) ++
        [(statAddr r nd (addr48 w.d 6) 16, warpRecord r fl 0 0 0)],
      flags := fl, pushes := onePush s r (wpHandle w.d) (wpMillrace w.d) }
    let s2 := setReleases eng (warpReleases nd w src) (doWork eng wk s1)
    if ok && w.dst.wheel then markLines w.dst.key r ((List.range (w.y1 - w.y0)).map (· + w.y0)) s2 else s2
where
  /-- Engine number of warp engine `e`. -/
  wpeEngine (e : Nat) : Nat := engV (e / 2) (3 + e % 2)

/-- R145: a mesh inversion runs. -/
def invertRun (e : Nat) (r : Run) (nd : Node) (w : Warp) (s : State) : State :=
  let eng := engV (e / 2) (3 + e % 2)
  let tn := r.task.tenant
  let fl := outFlags s r 0
  doWork eng { workNone with
    reads := (List.range (meshNodes w.d w.dst.height)).map (fun n => (wpMap w.d + n * wpMeshRows w.d * 512, 8 * meshNodes w.d w.dst.width)),
    writes := inverseWrites w (inverseLine s tn w) ++ [(statAddr r nd (addr48 w.d 6) 16, warpRecord r fl 0 0 0)],
    flags := fl, cycles := inverseCycles s tn w, pushes := onePush s r (wpHandle w.d) (wpMillrace w.d) } (draw s)

/-- R135 to R144: a stripe is resampled. -/
def resampleRun (e : Nat) (r : Run) (nd : Node) (w : Warp) (s : State) : State :=
  let eng := engV (e / 2) (3 + e % 2)
  let tn := r.task.tenant
  let meshReads := if wpKind w.d = 2 then
      (List.range (meshNodes w.d w.dst.height)).filterMap (fun n =>
        if w.y0 / wpStep w.d ≤ n ∧ n ≤ cdiv w.y1 (wpStep w.d) then
          some (wpMap w.d + n * wpMeshRows w.d * 512, 8 * meshNodes w.d w.dst.width) else none)
    else []
  match chkAll s tn meshReads [] with
  | .ok =>
    let fates := stripeFates s tn w
    let chroma := chromaFates s tn w
    let span := srcSpan w (fates ++ chroma)
    let s1 := if w.src.wheel then openCons w.src.key r w.src.height s else s
    let s2 := if w.dst.wheel then openProd w.dst.key r w.dst.height s1 else s1
    (match wheelsReady s2 r (if w.src.wheel then [(w.src.key, span.2)] else []) (if w.dst.wheel then [(w.dst.key, w.y1)] else []) with
     | some (.stall k) => stallRun eng k s2
     | some (.bad c) => faultRun eng c s2
     | _ =>
       let tiles := stripeTiles s2 tn w
       let outside := (fates.filter (fun f => f.at_.isNone)).length
       let clip := ((fates ++ chroma).filter (fun f => f.clip)).length
       let slow := (tiles.filter (fun t => t.2)).length
       let fl := outFlags s2 r (if clip = 0 then 0 else fDegraded)
       let wk : Work := {
         reads := meshReads ++ lensReads w ++ (List.range w.src.nPlanes).flatMap (fun q =>
           (planeLines w.src q span.1 span.2).map (fun y => (w.src.line s2 q y, w.src.lineLen))),
         writes := imgWrites s2 w.dst w.y0 w.y1 (warpLine s2 tn w) ++
           [(statAddr r nd (addr48 w.d 6) 16, warpRecord r fl outside clip slow)],
         flags := fl, cycles := sumN (tiles.map (fun t => t.1)) + 64, pushes := onePush s2 r (wpHandle w.d) (wpMillrace w.d) }
       (match chkAll s2 tn wk.reads (wk.writes.map (fun x => (x.1, x.2.length))) with
        | .ok =>
          let s3 := doWork eng wk (draw s2)
          let s4 := if w.dst.wheel then markLines w.dst.key r ((List.range (w.y1 - w.y0)).map (· + w.y0)) s3 else s3
          let s5 := cnt R.wpeEngOutside e outside (cnt R.wpeEngClip e clip (cnt R.wpeEngSlow e slow s4))
          setReleases eng (warpReleases nd w w.src.wheel) s5
        | c => faultRun eng c s2))
  | c => faultRun eng c s

/-- A warp task from its dispatch on. -/
def warpGo (e : Nat) (r : Run) (s : State) : State :=
  let eng := engV (e / 2) (3 + e % 2)
  let tn := r.task.tenant
  match taskCtx s r.task with
  | none => s
  | some (_, nd, _) =>
    (match chkAccess s tn nd.work 128 false with
     | .ok =>
       let d := descWords s r.task 32
       (match (if wpKind d = 1 then chkAccess s tn (wpMap d) 128 false else .ok) with
        | .ok =>
          let w := warpOf s r nd
          let s1 := rput R.wpeEngStat e (2 * wpKind d + 8 * b2n (wpInvert d)) s
          (match warpCheck s nd w with
           | 0 => if wpInvert d then invertRun e r nd w s1 else resampleRun e r nd w s1
           | st => warpFail e r nd w st s1)
        | c => faultRun eng c s)
     | c => faultRun eng c s)

/-- The task's descriptor asks for an inversion. -/
def asksInvert (s : State) (k : Task) : Bool := wpInvert (descWords s k 1)

/-- A warp engine takes or goes on with a task of one of its two kinds. -/
def warpStep (core unit : Nat) (inv : Bool) (s : State) : State :=
  let eng := engV core (3 + unit)
  engineStep 4 eng (pickCore s 4 core eng) (fun k => asksInvert s k == inv) (warpGo (2 * core + unit)) s

/-- R135. -/
def execWpeResample (core unit : Nat) (s : State) : Host.Outcome State Fault Refusal :=
  act (decide (core < 4) && decide (unit < 2)) s (warpStep core unit false)

/-- R145. -/
def execWpeMeshInvert (core unit : Nat) (s : State) : Host.Outcome State Fault Refusal :=
  act (decide (core < 4) && decide (unit < 2)) s (warpStep core unit true)

end Sys2Proof.Machine
end

