-- ==== Sys2Proof/Machine/Pyramid.lean ====
section
/-! DEFINITION. Context rows that an engine carries from stripe to stripe (R149, R166, R193), and pyramid engines (R147 to
R154). -/

namespace Sys2Proof.Machine

/-! ### Context rows -/

/-- First context row of a task: CTX_SRA + instance slot × CTX_ROWS. -/
def ctxRow (sra rows slot : Nat) : Nat := sra + slot * rows

/-- What the stripe before left; none where the state is empty. -/
def ctxGet (s : State) (r : Run) (row : Nat) : Option (List (List Int)) :=
  match tget none s.ctxs row with
  | some c =>
    if c.tmpl == r.task.tmpl && c.slot == r.task.slot && c.seq == r.task.seq && c.node == r.task.node &&
      c.stripe + 1 == r.task.stripe then some c.rows else none
  | none => none

/-- Leave state for the next stripe. -/
def ctxPut (r : Run) (row : Nat) (l : List (List Int)) (s : State) : State :=
  { s with ctxs := tset none s.ctxs row (some {
      tmpl := r.task.tmpl, slot := r.task.slot, seq := r.task.seq, node := r.task.node, stripe := r.task.stripe, rows := l }) }

/-- The context rows a stripe reads: none of stripe 0. -/
def ctxReads (r : Run) (row rows : Nat) : List (Nat × Nat) :=
  if r.task.stripe = 0 then [] else [(rowAddr row, rows * 512)]

/-- The context rows a stripe writes, with open contents: each task keeps its state there (R169, R193). -/
def ctxWrites (s : State) (row rows : Nat) : List (Nat × List Byte) :=
  [(rowAddr row, (List.range (rows * 512)).map (fun n => Config.lostByte s.free n))]

/-- The rows a failed task writes its empty state to, where they exist. -/
def ctxFail (s : State) (row rows : Nat) : List (Nat × List Byte) :=
  if row + rows ≤ 1048576 then ctxWrites s row rows else []

/-! ### Images as lists of lines of codes -/

/-- Sample of a list of lines, mirrored at the edges (R108). -/
def lineAt (l : List (List Nat)) (w h : Nat) (x y : Int) : Nat := wd (l.getD (mirror h y).toNat []) (mirror w x).toNat

/-- The 1, 4, 6, 4, 1 kernel at −2 to 2. -/
def w5 (m : Int) : Int := if m = 0 then 6 else if m = 1 ∨ m = -1 then 4 else 1

/-- A weighted sum of samples over a divisor that is a power of two, as a code of the format: integers rounded once,
FP16 summed in FP32. -/
def weighted (d pix : Nat) (terms : List (Int × Nat)) (sh : Nat) : Nat :=
  if pix = 2 then halfRne (sumF32 d (terms.map (fun t => f32Mul (f32Lit t.1 (-(sh : Int))) (pixReal 2 t.2))))
  else pixCode pix (rneDiv (sumI (terms.map (fun t => t.1 * pixInt pix t.2))) (2 ^ sh))

/-- Offsets −2 to 2. -/
def fiveOff : List Int := [-2, -1, 0, 1, 2]

/-- R148: one level of GAUSS from the one before, of size `w × h`. -/
def gaussDown (d pix : Nat) (l : List (List Nat)) (w h : Nat) : List (List Nat) :=
  (List.range (cdiv h 2)).map (fun (y : Nat) => (List.range (cdiv w 2)).map (fun (x : Nat) =>
    weighted d pix (fiveOff.flatMap (fun n => fiveOff.map (fun m =>
      (w5 m * w5 n, lineAt l w h (2 * (x : Int) + m) (2 * (y : Int) + n))))) 8))

/-- Size of level `k`. -/
def levelSize (w : Nat) : Nat → Nat
  | 0 => w
  | k + 1 => cdiv (levelSize w k) 2

/-- Levels 0 to `k`. -/
def gaussLevels (d pix w h : Nat) (l : List (List Nat)) : Nat → List (List (List Nat))
  | 0 => [l]
  | k + 1 =>
    let r := gaussLevels d pix w h l k
    r ++ [gaussDown d pix (r.getD k []) (levelSize w k) (levelSize h k)]

/-- Terms of E at a pixel: the samples of the level above at integer arguments. -/
def expandTerms (up : List (List Nat)) (w h : Nat) (x y : Nat) : List (Int × Nat) :=
  fiveOff.flatMap (fun n => fiveOff.filterMap (fun m =>
    let u := (x : Int) - m
    let v := (y : Int) - n
    if u % 2 = 0 ∧ v % 2 = 0 then some (w5 m * w5 n, lineAt up w h (u / 2) (v / 2)) else none))

/-- R148: line `y` of L of a level, from it and the next. -/
def laplaceLine (d pix : Nat) (g up : List (List Nat)) (w h y : Nat) : List Nat :=
  (List.range w).map (fun x =>
    let t := expandTerms up (cdiv w 2) (cdiv h 2) x y
    let c := lineAt g w h x y
    if pix = 2 then
      halfRne (f32Sub (pixReal 2 c) (sumF32 d (t.map (fun e => f32Mul (f32Lit e.1 (-6)) (pixReal 2 e.2)))))
    else pixCode 4 (rneDiv (64 * pixInt pix c - sumI (t.map (fun e => e.1 * pixInt pix e.2))) 64))

/-- Cubic weights of RESIZE at a phase of 64, in 2⁻¹⁹. -/
def cubic64 (f : Int) : List Int :=
  [-(f * f * f) + 128 * f * f - 4096 * f, 3 * f * f * f - 320 * f * f + 524288, -3 * f * f * f + 256 * f * f + 4096 * f,
   f * f * f - 64 * f * f]

/-- Sample position of an output centre in the decimated input, in 1/64. -/
def resizePos (o inn out : Nat) : Int := rneDiv (64 * ((2 * o + 1) * inn : Nat) - 64 * (out : Int)) (2 * out)

/-- Box factor of an axis. -/
def boxOf (inn out : Nat) : Nat := max 1 (inn / out)

/-- R148: an element of RESIZE. -/
def resizeAt (d pix : Nat) (l : List (List Nat)) (w h ow oh x y : Nat) : Nat :=
  let bx := boxOf w ow
  let by_ := boxOf h oh
  let px := resizePos x (w / bx) ow
  let py := resizePos y (h / by_) oh
  let terms := (cubic64 (py % 64)).zipIdx.flatMap (fun v => (cubic64 (px % 64)).zipIdx.flatMap (fun u =>
    let cx := (mirror (w / bx) (px / 64 - 1 + (u.2 : Int))).toNat
    let cy := (mirror (h / by_) (py / 64 - 1 + (v.2 : Int))).toNat
    (List.range by_).flatMap (fun j => (List.range bx).map (fun i =>
      (u.1 * v.1, wd (l.getD (cy * by_ + j) []) (cx * bx + i))))))
  if pix = 2 then
    halfRne (f32Div (sumF32 d (terms.map (fun t => f32Mul (f32Lit t.1 (-38)) (pixReal 2 t.2)))) (f32OfInt (bx * by_ : Nat)))
  else pixCode pix (rneDiv (sumI (terms.map (fun t => t.1 * pixInt pix t.2))) (2 ^ 38 * (bx * by_)))

/-- R148: a line of INTEGRAL. -/
def integralLine (l : List (List Nat)) (y : Nat) : List Nat :=
  let sums := (l.take (y + 1)).map (fun r => r.foldl (fun (a : List Nat × Nat) v => (a.1 ++ [a.2 + v], a.2 + v)) ([], 0))
  (List.range ((l.getD y []).length)).map (fun x => w32 (sumN (sums.map (fun r => wd r.1 x))))

/-! ### Descriptors (R149, R151) -/

def pyHandle (d : List Nat) : Bool := bit (wd d 0) 6
def pyMillrace (d : List Nat) : Nat := bits (wd d 0) 17 8
def pySra (d : List Nat) : Nat := bits (wd d 1) 23 0
def pyRows (d : List Nat) : Nat := bits (wd d 2) 15 0

/-- DST[k]. -/
def pyDst (d : List Nat) (k : Nat) : ImgRef := imgAt d (16 + 4 * k)

/-- Level of DST[k]. -/
def pyLevel (d : List Nat) (k : Nat) : Nat := if pyMode d = 0 then k + 1 else k

/-- Defined bits. -/
def pyMask : List Nat :=
  [0x3FF7F, 0xFFFFFF, 0xFFFF, 0xFFFFFFFF, 0xFFFF, 0, 0, 0, 0xFFFFFFFF, 0xFFFFFFFF, 0xFFFFFFFF, 0xFFFFFFFF, 0, 0, 0, 0] ++
  List.replicate 32 0xFFFFFFFF

/-- R149: least CTX_ROWS. -/
def pyMinRows (d : List Nat) (w b : Nat) : Nat :=
  let lr := fun (k bytes : Nat) => cdiv (levelSize w k * bytes) 512
  if pyMode d = 0 then 1 + sumN ((List.range (pyLevels d)).map (fun k => 4 * lr k b))
  else if pyMode d = 1 then
    1 + sumN ((List.range (pyLevels d + 1)).map (fun k => 6 * lr k (if k < pyLevels d then 2 else b)))
  else if pyMode d = 2 then 1 + 5 * lr 0 b + cdiv (4 * w) 512
  else 1 + cdiv (4 * w) 512

/-- R148: PIX of the outputs for an input's. -/
def pyPixOk (d : List Nat) (src : ImgRef) (k : Nat) : Bool :=
  let p := src.pix
  let q := (pyDst d k).pix
  if pyMode d = 0 ∨ pyMode d = 2 then decide (p ≤ 3) && q == p
  else if pyMode d = 1 then
    (p == 0 || p == 2) && (if k < pyLevels d then q == (if p = 0 then 4 else 2) else q == p)
  else decide (p ≤ 1) && q == 5

/-- R149: exact sizes. -/
def pySizeOk (d : List Nat) (src : ImgRef) (k : Nat) : Bool :=
  let o := pyDst d k
  if pyMode d ≤ 1 then o.width == levelSize src.width (pyLevel d k) && o.height == levelSize src.height (pyLevel d k)
  else if pyMode d = 3 then o.width == src.width && o.height == src.height
  else decide (src.width ≤ 16 * o.width) && decide (o.width ≤ 4 * src.width) && decide (src.height ≤ 16 * o.height) &&
    decide (o.height ≤ 4 * src.height)

/-- R154: status of the check. -/
def pyCheck (s : State) (nd : Node) (r : Run) (d : List Nat) : Nat :=
  let src := imgAt d 8
  let n := pyOuts d
  let lv := pyLevels d
  let m := pyMode d
  if maskFails d pyMask || src.reserved || (List.range (min n 8)).any (fun k => (pyDst d k).reserved) ||
    (List.range 8).any (fun k => decide (n ≤ k) && (List.range 4).any (fun i => wd d (16 + 4 * k + i) != 0)) then 0x01
  else if (if m = 0 then lv == 0 || decide (8 < lv) else if m = 1 then lv == 0 || decide (7 < lv) else lv != 0) ||
    !src.rules s || src.planes != 0 ||
    (List.range n).any (fun k => !(pyDst d k).rules s || (pyDst d k).planes != 0 || !pyPixOk d src k || !pySizeOk d src k) ||
    (decide (nd.height ≠ 0) && !nd.serial) || decide (pyRows d < pyMinRows d src.width (pixBytes src.pix)) ||
    addr48 d 3 % 512 != 0 || !stripesOk nd src.height then 0x02
  else if src.range || (List.range n).any (fun k => (pyDst d k).range) ||
    decide (1048576 < ctxRow (pySra d) (pyRows d) r.task.slot + pyRows d) then 0x03
  else 0

/-! ### Which lines a stripe writes (R150) -/

/-- The last input line in the support of line `y` of level `k`. -/
def gaussNeed (h : Nat) : Nat → Nat → Nat
  | 0, y => y
  | k + 1, y => (fiveOff.map (fun n => gaussNeed h k (mirror (levelSize h k) (2 * (y : Int) + n)).toNat)).foldl max 0

/-- The last input line in the support of an output line. -/
def pyNeed (d : List Nat) (src : ImgRef) (k y : Nat) : Nat :=
  let h := src.height
  if pyMode d = 0 then gaussNeed h (k + 1) y
  else if pyMode d = 1 then
    (if k = pyLevels d then gaussNeed h k y
     else max (gaussNeed h k y) ((fiveOff.filterMap (fun n =>
       let v := (y : Int) - n
       if v % 2 = 0 then some (gaussNeed h (k + 1) (mirror (levelSize h (k + 1)) (v / 2)).toNat) else none)).foldl max 0))
  else if pyMode d = 2 then
    let oh := (pyDst d 0).height
    let b := boxOf h oh
    ((List.range 4).map (fun (i : Nat) => (mirror (h / b) (resizePos y (h / b) oh / 64 - 1 + (i : Int))).toNat * b + b - 1)).foldl max 0
  else y

/-- The lines of DST[k] a task on input lines `[y0, y1)` writes; the last stripe writes all that remain. -/
def pyLines (d : List Nat) (src : ImgRef) (k y0 y1 : Nat) : List Nat :=
  (List.range (pyDst d k).height).filter (fun y =>
    let n := pyNeed d src k y
    decide (y0 ≤ n) && (decide (n < y1) || y1 == src.height))

/-- A line of DST[k] as codes, from the input's lines and the levels. -/
def pyLine (f : Nat) (d : List Nat) (src : ImgRef) (l : List (List Nat)) (lv : List (List (List Nat))) (k y : Nat) : List Nat :=
  let p := src.pix
  if pyMode d = 0 then (lv.getD (k + 1) []).getD y []
  else if pyMode d = 1 then
    (if k = pyLevels d then (lv.getD k []).getD y []
     else laplaceLine f p (lv.getD k []) (lv.getD (k + 1) []) (levelSize src.width k) (levelSize src.height k) y)
  else if pyMode d = 2 then
    (List.range (pyDst d 0).width).map (fun x => resizeAt f p l src.width src.height (pyDst d 0).width (pyDst d 0).height x y)
  else integralLine l y

/-! ### Tasks -/

/-- The outputs a failed task writes: those with a format and a place. -/
def pySound (s : State) (d : List Nat) : List Nat := (List.range (min 8 (pyOuts d))).filter (fun k => (pyDst d k).sink s)

/-- Highest line each wheel output gets, plus 1. -/
def pyWheels (d : List Nat) (src : ImgRef) (ks : List Nat) (y0 y1 : Nat) : List (Nat × Nat) :=
  ks.filterMap (fun k =>
    if (pyDst d k).wheel then some ((pyDst d k).key, (pyLines d src k y0 y1).foldl (fun a y => max a (y + 1)) 0) else none)

/-- Step the wheels of the outputs to the task's frame. -/
def pyOpen (d : List Nat) (ks : List Nat) (r : Run) (s : State) : State :=
  ks.foldl (fun s k => if (pyDst d k).wheel then openProd (pyDst d k).key r (pyDst d k).height s else s) s

/-- Mark the lines of the wheel outputs written. -/
def pyMark (d : List Nat) (src : ImgRef) (ks : List Nat) (r : Run) (y0 y1 : Nat) (s : State) : State :=
  ks.foldl (fun s k => if (pyDst d k).wheel then markLines (pyDst d k).key r (pyLines d src k y0 y1) s else s) s

/-- What the outputs receive. -/
def pyWrites (s : State) (d : List Nat) (src : ImgRef) (ks : List Nat) (y0 y1 : Nat) (f : Nat → Nat → List Byte) :
    List (Nat × List Byte) :=
  ks.flatMap (fun k => (pyLines d src k y0 y1).map (fun y => ((pyDst d k).line s 0 y, f k y)))

/-- R150: what a stripe releases of a wheel source when it completes. -/
def pyReleases (s : State) (r : Run) (src : ImgRef) (wheel : Bool) (y1 : Nat) : List (Nat × Nat × Nat) :=
  match wheel, cOrigin (wheelSt s src.key) (wheelFrame r) with
  | true, some o => [(src.key, 0, o + (y1 - 4))]
  | _, _ => []

/-- R154, R510: a failed task.  It completes as any other and releases its source lines; it leaves no state, and later
stripes of the instance carry INVALID. -/
def pyFail (c : Nat) (r : Run) (nd : Node) (d : List Nat) (status : Nat) (s : State) : State :=
  let eng := engV c 5
  let src := imgAt d 8
  let y := stripeLines nd r.task src.height
  let ks := pySound s d
  let wheel := src.wheel && !src.reserved && src.rules s && !src.range
  let s00 := markFailed r.task (failRun eng 0x000A R.pyeEngFault c status s)
  let s0 := if wheel then openCons src.key r src.height s00 else s00
  let s1 := pyOpen d ks r s0
  match wheelsReady s1 r [] (pyWheels d src ks y.1 y.2) with
  | some (.stall k) => stallRun eng k s
  | some (.bad e) => faultRun eng e s
  | _ =>
    let fl := outFlags s r fInvalid
    let s2 := doWork eng { workNone with
      writes := pyWrites s1 d src ks y.1 y.2 (fun k _ => List.replicate (pyDst d k).zeroLen 0) ++
        [(statAddr r nd (addr48 d 3) 16, warpRecord r fl 0 0 0)],
      flags := fl, pushes := onePush s r (pyHandle d) (pyMillrace d) } s1
    pyMark d src ks r y.1 y.2 (setReleases eng (pyReleases s2 r src wheel y.2) s2)

/-- R147 to R150: a stripe runs. -/
def pyRun (c : Nat) (r : Run) (nd : Node) (d : List Nat) (s : State) : State :=
  let eng := engV c 5
  let tn := r.task.tenant
  let src := imgAt d 8
  let y := stripeLines nd r.task src.height
  let row := ctxRow (pySra d) (pyRows d) r.task.slot
  let ks := List.range (pyOuts d)
  let s1 := pyOpen d ks r (if src.wheel then openCons src.key r src.height s else s)
  match wheelsReady s1 r (if src.wheel then [(src.key, y.2)] else []) (pyWheels d src ks y.1 y.2) with
  | some (.stall k) => stallRun eng k s1
  | some (.bad e) => faultRun eng e s1
  | _ =>
    let reads := ctxReads r row (pyRows d) ++
      (List.range (y.2 - y.1)).map (fun j => (src.line s1 0 (y.1 + j), src.lineLen))
    match chkAll s1 tn reads [] with
    | .ok =>
      let old := ((ctxGet s1 r row).getD []).map (fun l => l.map Int.toNat)
      let had := old ++ List.replicate (y.1 - old.length) []
      let l := had ++ (List.range (y.2 - y.1)).map (fun j => (List.range src.width).map (fun x => src.code s1 tn 0 x (y.1 + j)))
      let lv := if pyMode d ≤ 1 then gaussLevels s1.free src.pix src.width src.height l (pyLevels d) else []
      let outPix := sumN ((List.range (pyOuts d)).map (fun k => (pyLines d src k y.1 y.2).length * (pyDst d k).width))
      let cyc := if pyMode d = 2 then cdiv (max (src.width * (y.2 - y.1)) outPix) 4 + 64
        else cdiv src.width 4 * (y.2 - y.1) + 64
      let fl := outFlags s1 r (failedFlags s1 r.task)
      let wk : Work := {
        reads := reads,
        writes := pyWrites s1 d src ks y.1 y.2 (fun k q => lineBytesOf (pyDst d k).pix (pyLine s1.free d src l lv k q)) ++
          (if r.task.stripe + 1 = nd.stripes then [] else ctxWrites s1 row (pyRows d)) ++ [(statAddr r nd (addr48 d 3) 16, warpRecord r fl 0 0 0)],
        flags := fl, cycles := cyc, pushes := onePush s1 r (pyHandle d) (pyMillrace d) }
      (match chkAll s1 tn wk.reads (wk.writes.map (fun x => (x.1, x.2.length))) with
       | .ok =>
         let s2 := pyMark d src ks r y.1 y.2 (doWork eng wk (draw s1))
         let s3 := if r.task.stripe + 1 = nd.stripes then s2 else ctxPut r row (l.map (fun q => q.map Int.ofNat)) s2
         setReleases eng (pyReleases s3 r src src.wheel y.2) s3
       | e => faultRun eng e s1)
    | e => faultRun eng e s1

/-- A pyramid task from its dispatch on. -/
def pyGo (c : Nat) (r : Run) (s : State) : State :=
  let eng := engV c 5
  match taskCtx s r.task with
  | none => s
  | some (_, nd, _) =>
    (match chkAccess s r.task.tenant nd.work 192 false with
     | .ok =>
       let d := descWords s r.task 48
       let s1 := rput R.pyeEngStat c (2 * pyMode d) s
       (match pyCheck s nd r d with
        | 0 => pyRun c r nd d s1
        | st => pyFail c r nd d st s1)
     | e => faultRun eng e s)

/-- R147. -/
def execPyeTask (core : Nat) (s : State) : Host.Outcome State Fault Refusal :=
  act (decide (core < 4)) s (fun s => engineStep 5 (engV core 5) (pickCore s 5 core (engV core 5)) (fun _ => true) (pyGo core) s)

end Sys2Proof.Machine
end

