-- ==== Sys2Proof/Machine/Match.lean ====
section
/-! DEFINITION. What the stereo and the flow engine share: feature references (R158), census and feature costs (R157, R181),
semi-global aggregation (R159, R160, R183), confidence, status records. -/

namespace Sys2Proof.Machine

/-! ### Feature references (R158) -/

/-- A feature reference. -/
structure FeatRef where
  w0 : Nat
  w1 : Nat
  w2 : Nat
  w3 : Nat
  deriving DecidableEq, Repr

/-- The reference in words `k` to `k + 3`. -/
def featAt (l : List Nat) (k : Nat) : FeatRef := { w0 := wd l k, w1 := wd l (k + 1), w2 := wd l (k + 2), w3 := wd l (k + 3) }

def FeatRef.wheel (f : FeatRef) : Bool := bit f.w1 16
def FeatRef.fmt (f : FeatRef) : Nat := bits f.w1 21 17
def FeatRef.ch (f : FeatRef) : Nat := bits f.w1 26 22 + 1
def FeatRef.width (f : FeatRef) : Nat := bits f.w2 13 0 + 1
def FeatRef.height (f : FeatRef) : Nat := bits f.w2 29 16 + 1
def FeatRef.rows (f : FeatRef) : Nat := bits f.w3 15 0
def FeatRef.base (f : FeatRef) : Nat := f.w0 + 2 ^ 32 * bits f.w1 15 0
def FeatRef.key (f : FeatRef) : Nat := bits f.w0 7 0 + 256 * bits f.w0 13 8

/-- Bytes of a pixel: 8, 16 or 32. -/
def FeatRef.pitch (f : FeatRef) : Nat := if f.ch ≤ 8 then 8 else if f.ch ≤ 16 then 16 else 32

/-- Rate factor F. -/
def FeatRef.factor (f : FeatRef) : Nat := f.pitch / 8

def FeatRef.lineLen (f : FeatRef) : Nat := f.width * f.pitch

/-- Nonzero reserved bits or a format that is rejected. -/
def FeatRef.reserved (f : FeatRef) : Bool :=
  (f.fmt != 1 && f.fmt != 6 && f.fmt != 7) || decide (bits f.w1 31 27 ≠ 0) || decide (bits f.w2 15 14 ≠ 0) ||
  decide (bits f.w2 31 30 ≠ 0) || decide (bits f.w3 31 16 ≠ 0) ||
  (f.wheel && (decide (bits f.w0 31 14 ≠ 0) || decide (bits f.w1 15 0 ≠ 0)))

/-- The rules of R133 for a feature map. -/
def FeatRef.rules (f : FeatRef) (s : State) : Bool :=
  decide (1 ≤ f.rows) && decide (f.lineLen ≤ f.rows * 512) && decide (f.width ≤ 8192) && decide (f.height ≤ 8192) &&
  (if f.wheel then decide (64 ≤ bits f.w0 7 0) || (wheelEn s f.key && placeRows s f.key == f.rows) else f.base % 512 == 0)

def FeatRef.range (f : FeatRef) : Bool := f.wheel && decide (64 ≤ bits f.w0 7 0)

/-- Address of line `j`. -/
def FeatRef.line (f : FeatRef) (s : State) (j : Nat) : Nat :=
  if f.wheel then lineAddr s f.key j else f.base + j * f.rows * 512

/-- The feature codes of a pixel. -/
def FeatRef.code (f : FeatRef) (s : State) (tn x y : Nat) : List Nat :=
  (rdBytes s tn (f.line s y + x * f.pitch) f.ch).map BitVec.toNat

/-- The wheels of a list that exist and are enabled. -/
def soundWheels (s : State) (l : List Nat) : List Nat := l.filter (fun k => decide (k % 256 < 64) && wheelEn s k)

/-! ### Matching costs (R157, R181) -/

/-- Census bits of a window of `2 hw + 1` by `2 hh + 1`: a neighbour strictly less than the centre. -/
def census (f : Int → Int → Nat) (hw hh : Nat) (x y : Int) : List Bool :=
  (List.range (2 * hh + 1)).flatMap (fun j => (List.range (2 * hw + 1)).filterMap (fun i =>
    if i = hw ∧ j = hh then none
    else some (decide (f (x + (i : Int) - (hw : Int)) (y + (j : Int) - (hh : Int)) < f x y))))

/-- Hamming distance. -/
def hamming (a b : List Bool) : Nat := ((a.zip b).filter (fun e => e.1 != e.2)).length

/-- min(127, (v × scale) >> 6). -/
def costScale (v scale : Nat) : Int := min 127 (v * scale / 64)

/-- FP32 sum S of a feature cost, `dot` for FEAT_DOT: exact for INT8, in an open order for FP8. -/
def featSum (dot : Bool) (fmt d : Nat) (a b : List Nat) : Nat :=
  if fmt = 1 then
    f32OfInt (sumI ((a.zip b).map (fun e => if dot then sx 8 e.1 * sx 8 e.2 else ((sx 8 e.1 - sx 8 e.2).natAbs : Int))))
  else
    let v := fun c => f32r (fdecode (ffOf fmt) c)
    sumF32 d ((a.zip b).map (fun e => if dot then f32Mul (v e.1) (v e.2) else f32Sub (v e.1) (v e.2) % 2 ^ 31))

/-- clamp(RNE(FEAT_BIAS + FEAT_SCALE × S), 0, 127); NaN gives 127. -/
def featCost (scale bias sum : Nat) : Int :=
  match f32v (f32Add bias (f32Mul scale sum)) with
  | .nan => 127
  | .inf n => if n then 0 else 127
  | .fin n m e => clampI 0 127 (fvInt false n m e)

/-! ### Aggregation (R159, R183) -/

/-- Least element; 0 of none. -/
def minL (l : List Int) : Int :=
  match l with
  | [] => 0
  | a :: t => t.foldl min a

/-- R159: one step of a path over a window of candidates. -/
def pathStep (p1 p2 : Int) (c prev : List Int) : List Int :=
  let m := minL prev
  c.zipIdx.map (fun e =>
    let near := (if e.2 = 0 then [] else [prev.getD (e.2 - 1) 0 + p1]) ++
      (if e.2 + 1 < prev.length then [prev.getD (e.2 + 1) 0 + p1] else [])
    e.1 + minL (prev.getD e.2 0 :: (m + p2) :: near) - m)

/-- The path (dx, ±1): each pixel from the line before it; none at the start of a path. -/
def pathRow (p1 : Int) (p2 : Nat → Int) (dx : Int) (c : List (List Int)) (prev : Option (List (List Int))) : List (List Int) :=
  match prev with
  | none => c
  | some l => c.zipIdx.map (fun e =>
      let q := (e.2 : Int) - dx
      if q < 0 ∨ (l.length : Int) ≤ q then e.1 else pathStep p1 (p2 e.2) e.1 (l.getD q.toNat []))

/-- The path along a line from its first pixel; `p2 x` between pixels `x − 1` and `x`. -/
def pathAlong (p1 : Int) (p2 : Nat → Int) (c : List (List Int)) : List (List Int) :=
  c.zipIdx.foldl (fun acc e => acc ++ [match acc.getLast? with
    | none => e.1
    | some l => pathStep p1 (p2 e.2) e.1 l]) []

/-- Elementwise sum of lines of windows. -/
def addRows (a b : List (List Int)) : List (List Int) := (a.zip b).map (fun e => (e.1.zip e.2).map (fun x => x.1 + x.2))

/-! ### Winners (R162, R163, R184, R185) -/

/-- The first entry of least value among those admitted. -/
def argMin (l : List (Nat × Int)) : Option (Nat × Int) :=
  l.foldl (fun (r : Option (Nat × Int)) e => match r with
    | none => some e
    | some x => if e.2 < x.2 then some e else some x) none

/-- Parabolic offset (S₋ − S₊) / (2 (S₋ − 2 S₀ + S₊)) as a multiple of `1/n`, ties to even; 0 on a zero denominator. -/
def parabola (n : Nat) (a z b : Int) : Int :=
  let d := 2 * (a - 2 * z + b)
  if d = 0 then 0 else if d < 0 then rneDiv (-(n : Int) * (a - b)) d.natAbs else rneDiv ((n : Int) * (a - b)) d.natAbs

/-- min(255, ⌊GAIN × (S₂ − S₀) / (S₂ + 16)⌋). -/
def confidence (gain : Nat) (s0 s2 : Int) : Nat := min 255 ((gain : Int) * (s2 - s0) / (s2 + 16)).toNat

/-- 16 bins of confidence, saturating. -/
def confHist (l : List Nat) : List Nat := (List.range 16).map (fun b => min 65535 (l.filter (fun c => c / 16 == b)).length)

/-- Halfwords packed in words. -/
def packHalves (l : List Nat) : List Nat := (List.range (cdiv l.length 2)).map (fun k => wd l (2 * k) + 65536 * wd l (2 * k + 1))

/-- R174, R198, R425: a plausibility failure that is signalled is logged with the engine. -/
def plausSignal (eng : Nat) (r : Run) (on : Bool) (s : State) : State :=
  if on then addLog (0x100 + Config.plausCode % 0xFF00) r.task.tenant eng 0 0 0 s else s

/-- R172, R196: a status record: word 0 without VALIDITY and STRIPE, six counts, the histogram. -/
def matchRecord (r : Run) (flags w0 : Nat) (counts hist : List Nat) : List Byte :=
  wordsBytes ([validity flags + r.task.stripe % 1024 * 2 ^ 8 + w0, r.task.seq] ++
    (List.range 6).map (fun k => wd counts k) ++ packHalves hist)

end Sys2Proof.Machine
end

