-- ==== Sys2Proof/Machine/Flow.lean ====
section
/-! DEFINITION. Optical-flow engines (R177 to R200). -/

namespace Sys2Proof.Machine

/-! ### Descriptors (R189, R195) -/

def ofCost (d : List Nat) : Nat := bits (wd d 0) 1 0
def ofLevels (d : List Nat) : Nat := bits (wd d 0) 4 2
def ofDensity (d : List Nat) : Nat := bits (wd d 0) 6 5
/-- Grid step s. -/
def ofStep (d : List Nat) : Nat := 2 ^ ofDensity d
def ofRefine (d : List Nat) : Bool := bit (wd d 0) 7
def ofFb (d : List Nat) : Bool := bit (wd d 0) 8
def ofFbInval (d : List Nat) : Bool := bit (wd d 0) 9
def ofTemp (d : List Nat) : Bool := bit (wd d 0) 10
def ofHint (d : List Nat) : Bool := bit (wd d 0) 11
def ofHandle (d : List Nat) : Bool := bit (wd d 0) 12
def ofPlausAct (d : List Nat) : Bool := bit (wd d 0) 13
def ofMillrace (d : List Nat) : Nat := bits (wd d 0) 23 14
def ofR (d : List Nat) : Nat := bits (wd d 0) 25 24
def ofMaxX (d : List Nat) : Nat := bits (wd d 1) 9 0
def ofMaxY (d : List Nat) : Nat := bits (wd d 1) 25 16
def ofP1 (d : List Nat) : Nat := bits (wd d 2) 6 0
def ofP2 (d : List Nat) : Nat := bits (wd d 2) 17 8
def ofScale (d : List Nat) : Nat := bits (wd d 2) 31 24
def ofGain (d : List Nat) : Nat := bits (wd d 5) 15 0
def ofConfMin (d : List Nat) : Nat := bits (wd d 5) 23 16
def ofTol (d : List Nat) : Nat := bits (wd d 5) 27 24
def ofIter (d : List Nat) : Nat := bits (wd d 6) 3 0
def ofEps (d : List Nat) : Nat := bits (wd d 6) 7 4
def ofValidMin (d : List Nat) : Nat := bits (wd d 6) 17 8
def ofBudget (d : List Nat) : Nat := wd d 7
def ofSra (d : List Nat) : Nat := bits (wd d 8) 23 0
def ofRows (d : List Nat) : Nat := bits (wd d 9) 15 0
def ofStat (d : List Nat) : Nat := addr48 d 10
def ofFeat (d : List Nat) : Bool := ofCost d != 0
def ofCh (d : List Nat) : Nat := if ofFeat d then 0 else 3

/-- A flow reference's fields: base, grid width and height, rows of a line. -/
def frBase (d : List Nat) (k : Nat) : Nat := addr48 d k
def frW (d : List Nat) (k : Nat) : Nat := bits (wd d (k + 2)) 13 0 + 1
def frH (d : List Nat) (k : Nat) : Nat := bits (wd d (k + 2)) 29 16 + 1
def frRows (d : List Nat) (k : Nat) : Nat := bits (wd d (k + 3)) 15 0

/-- Its nonzero reserved bits. -/
def frReserved (d : List Nat) (k : Nat) : Bool :=
  decide (bits (wd d (k + 1)) 31 16 ≠ 0) || decide (bits (wd d (k + 2)) 15 14 ≠ 0) || decide (bits (wd d (k + 2)) 31 30 ≠ 0) ||
  decide (bits (wd d (k + 3)) 31 16 ≠ 0)

/-- Its rules for a grid of a size. -/
def frRules (d : List Nat) (k w h : Nat) : Bool :=
  frBase d k % 512 == 0 && frW d k == w && frH d k == h && decide (8 * w ≤ frRows d k * 512) && decide (1 ≤ frRows d k)

/-- Address of an element. -/
def frAt (d : List Nat) (k j i : Nat) : Nat := frBase d k + i * frRows d k * 512 + 8 * j

/-- Offset of OUT and HINT in the descriptor. -/
def ofOutAt : Nat := 76
def ofHintAt : Nat := 72

/-- Size of level 0. -/
def ofW0 (d : List Nat) : Nat := bits (wd d 18) 13 0 + 1
def ofH0 (d : List Nat) : Nat := bits (wd d 18) 29 16 + 1
def ofW (d : List Nat) (k : Nat) : Nat := levelSize (ofW0 d) k
def ofH (d : List Nat) (k : Nat) : Nat := levelSize (ofH0 d) k

/-- Grid size of a level (R178). -/
def ofGw (d : List Nat) (k : Nat) : Nat := cdiv (ofW d k) (ofStep d)
def ofGh (d : List Nat) (k : Nat) : Nat := cdiv (ofH d k) (ofStep d)

/-- Rate factor of a level. -/
def ofFactor (d : List Nat) (k : Nat) : Nat := if ofFeat d then (featAt d (16 + 4 * k)).factor else 1

/-- CUR and PREV of a level. -/
def ofCurAt (k : Nat) : Nat := 16 + 4 * k
def ofPrevAt (k : Nat) : Nat := 44 + 4 * k

/-! ### The dispatch check (R200) -/

/-- Defined bits. -/
def ofMask : List Nat :=
  [0x3FFFFFF, 0x3FF03FF, 0xFF03FF7F, 0xFFFFFFFF, 0xFFFFFFFF, 0xFFFFFFF, 0x3FFFF, 0xFFFFFFFF, 0xFFFFFF, 0xFFFF, 0xFFFFFFFF,
   0xFFFF, 0, 0, 0, 0] ++ List.replicate 64 0xFFFFFFFF

/-- One level's references follow their rules. -/
def ofLevelRules (s : State) (d : List Nat) (k : Nat) : Bool :=
  if ofFeat d then
    let a := featAt d (ofCurAt k)
    let b := featAt d (ofPrevAt k)
    a.rules s && b.rules s && !a.wheel && !b.wheel && a.width == ofW d k && a.height == ofH d k && b.width == a.width &&
    b.height == a.height && a.fmt == b.fmt && a.ch == b.ch
  else
    let a := imgAt d (ofCurAt k)
    let b := imgAt d (ofPrevAt k)
    a.rules s && b.rules s && !a.wheel && !b.wheel && decide (a.pix ≤ 1) && a.planes == 0 && b.planes == 0 && b.pix == a.pix &&
    a.width == ofW d k && a.height == ofH d k && b.width == a.width && b.height == a.height

/-- R193: least CTX_ROWS. -/
def ofMinRows (d : List Nat) : Nat :=
  let nl := (2 * ofR d + 1) * (2 * ofR d + 1)
  1 + sumN ((List.range (ofLevels d)).map (fun k => cdiv ((6 * nl + 8) * ofGw d k) 512))

/-- Four words are zero. -/
def ofZero (d : List Nat) (k : Nat) : Bool := (List.range 4).all (fun i => wd d (k + i) == 0)

/-- The fields' ranges. -/
def ofFieldRules (d : List Nat) (nd : Node) : Bool :=
  decide (1 ≤ ofLevels d) && decide (1 ≤ ofMaxX d) && decide (1 ≤ ofP1 d) && decide (ofP1 d ≤ ofP2 d) &&
  (if ofFeat d then ofScale d == 0 else decide (1 ≤ ofScale d) && wd d 3 == 0 && wd d 4 == 0) &&
  decide (1 ≤ ofGain d) && (if ofRefine d then decide (1 ≤ ofIter d) && decide (1 ≤ ofBudget d) else ofIter d == 0 && ofBudget d == 0) &&
  decide (ofValidMin d ≤ 1000) && decide (ofMinRows d ≤ ofRows d) && ofStat d % 512 == 0 &&
  (nd.height == 0 || nd.height % (ofStep d * 2 ^ (ofLevels d - 1)) == 0) &&
  decide (ofW0 d ≤ 4096) && decide (ofH0 d ≤ 8192) &&
  frRules d ofOutAt (ofGw d 0) (ofGh d 0) && (if ofHint d then frRules d ofHintAt (ofGw d 0) (ofGh d 0) else ofZero d ofHintAt)

/-- The node has a PREV edge from itself. -/
def ofSelfEdge (s : State) (k : Task) : Bool :=
  match taskCtx s k with
  | some (v, nd, _) => (edgesOf v).any (fun e => e.2.2.dst == k.node && selfEdge nd k.node e)
  | none => false

/-- R200: status of the check. -/
def ofCheck (s : State) (nd : Node) (r : Run) (d : List Nat) : Nat :=
  let used := List.range (ofLevels d)
  let refRes := fun (k : Nat) => if ofFeat d then (featAt d k).reserved else (imgAt d k).reserved
  if maskFails d ofMask || ofCost d == 3 || ofDensity d == 3 || ofR d == 0 || frReserved d ofOutAt || frReserved d ofHintAt ||
    used.any (fun k => refRes (ofCurAt k) || refRes (ofPrevAt k)) then 0x01
  else if !ofFieldRules d nd || used.any (fun k => !ofLevelRules s d k) ||
    (List.range 7).any (fun k => decide (ofLevels d ≤ k) && (!ofZero d (ofCurAt k) || !ofZero d (ofPrevAt k))) ||
    (decide (nd.height ≠ 0) && !nd.serial) || !stripesOk nd (ofH0 d) || (ofTemp d && !ofSelfEdge s r.task) then 0x02
  else if decide (1048576 < ctxRow (ofSra d) (ofRows d) r.task.slot + ofRows d) then 0x03
  else 0

/-! ### Costs (R181) -/

/-- Sample of a level's image; CUR lines beyond `reach` take that line. -/
def flowSample (s : State) (tn : Nat) (d : List Nat) (cur : Bool) (k reach : Nat) (x y : Int) : Nat :=
  let i := imgAt d (if cur then ofCurAt k else ofPrevAt k)
  let y := if cur ∧ reach + 1 < ofH d k ∧ (reach : Int) < y then (reach : Int) else y
  i.code s tn 0 (mirror (ofW d k) x).toNat (mirror (ofH d k) y).toNat

/-- A point lies in a level's image. -/
def inLevel (d : List Nat) (k : Nat) (x y : Int) : Bool :=
  decide (0 ≤ x) && decide (x < ofW d k) && decide (0 ≤ y) && decide (y < ofH d k)

/-- Cost between a point of CUR and one of PREV; 127 when either lies outside. -/
def pairCost (s : State) (tn : Nat) (d : List Nat) (k reach : Nat) (cx cy px py : Int) : Int :=
  if !inLevel d k px py || !inLevel d k cx cy then 127
  else if ofFeat d then
    let y := min cy reach
    featCost (wd d 3) (wd d 4) (featSum (ofCost d == 2) (featAt d (ofCurAt k)).fmt s.free
      ((featAt d (ofCurAt k)).code s tn cx.toNat y.toNat) ((featAt d (ofPrevAt k)).code s tn px.toNat py.toNat))
  else
    costScale (hamming (census (flowSample s tn d true k reach) 3 3 cx cy) (census (flowSample s tn d false k reach) 3 3 px py))
      (ofScale d)

/-- Matching cost of a grid position for a label. -/
def flowCost (s : State) (tn : Nat) (d : List Nat) (k reach j i : Nat) (l : Int × Int) : Int :=
  let x : Int := (ofStep d * j : Nat)
  let y : Int := (ofStep d * i : Nat)
  pairCost s tn d k reach x y (x - l.1) (y - l.2)

/-! ### A position (R179 to R184) -/

/-- A grid position of a level: its integer winner, its centre, and per present label the four path costs. -/
structure FlowPos where
  wx : Int
  wy : Int
  cx : Int
  cy : Int
  labels : List ((Int × Int) × List Int)
  deriving DecidableEq, Repr

/-- As one row of context, and back. -/
def posPack (p : FlowPos) : List Int :=
  [p.wx, p.wy, p.cx, p.cy] ++ p.labels.flatMap (fun l => [l.1.1, l.1.2, l.2.getD 0 0, l.2.getD 1 0, l.2.getD 2 0, l.2.getD 3 0])

def posUnpack (l : List Int) : FlowPos where
  wx := l.getD 0 0
  wy := l.getD 1 0
  cx := l.getD 2 0
  cy := l.getD 3 0
  labels := (List.range ((l.length - 4) / 6)).map (fun n =>
    let g := fun (k : Nat) => l.getD (4 + 6 * n + k) 0
    ((g 0, g 1), [g 2, g 3, g 4, g 5]))

/-- Greatest component of a vector. -/
def cheb (a b : Int × Int) : Nat := max (a.1 - b.1).natAbs (a.2 - b.2).natAbs

/-- Limits of a level. -/
def limX (d : List Nat) (k : Nat) : Int := (ofMaxX d / 2 ^ k : Nat)
def limY (d : List Nat) (k : Nat) : Int := (ofMaxY d / 2 ^ k : Nat)

/-- Clamp a label to a level's limits. -/
def clampLabel (d : List Nat) (k : Nat) (v : Int × Int) : Int × Int :=
  (clampI (-(limX d k)) (limX d k) v.1, clampI (-(limY d k)) (limY d k) v.2)

/-- R180: a plane's vector for a level-`k` position, rounded; none when flagged NOVEC.  Rows are those of the stripe. -/
def planeVec (s : State) (tn : Nat) (d : List Nat) (at_ k j i r0 r1 : Nat) : Option (Int × Int) :=
  let x := min (j * 2 ^ k) (ofGw d 0 - 1)
  let y := clampN r0 (r1 - 1) (min (i * 2 ^ k) (ofGh d 0 - 1))
  let a := frAt d at_ x y
  let v := rdN s tn a 4
  if bit (rdN s tn (a + 4) 4) 9 then none
  else some (rneDiv (sx 16 (bits v 15 0)) (16 * 2 ^ k), rneDiv (sx 16 (bits v 31 16)) (16 * 2 ^ k))

/-- R183: one step of a path over labels. -/
def labelStep (p1 p2 : Int) (l : Int × Int) (c : Int) (prev : Option (List ((Int × Int) × Int))) : Int :=
  match prev with
  | none => c
  | some q =>
    let m := minL (q.map (fun e => e.2))
    let near := q.filterMap (fun e => if e.1 = l then some e.2 else if cheb e.1 l = 1 then some (e.2 + p1) else none)
    c + minL ((m + p2) :: near) - m

/-- S of a label's paths. -/
def labelS (e : (Int × Int) × List Int) : Int := sumI e.2

/-- R184: the winner: least S, then least |o|∞, least oy, least ox. -/
def flowWinner (c : Int × Int) (l : List ((Int × Int) × List Int)) : Int × Int :=
  let key := fun (e : (Int × Int) × List Int) => (labelS e, (cheb e.1 c : Int), e.1.2, e.1.1)
  let less := fun (a b : Int × Int × Int × Int) =>
    decide (a.1 < b.1) || (a.1 == b.1 && (decide (a.2.1 < b.2.1) || (a.2.1 == b.2.1 &&
      (decide (a.2.2.1 < b.2.2.1) || (a.2.2.1 == b.2.2.1 && decide (a.2.2.2 < b.2.2.2))))))
  match l.foldl (fun (r : Option ((Int × Int) × List Int)) e => match r with
      | none => some e
      | some x => if less (key e) (key x) then some e else some x) none with
  | some e => e.1
  | none => c

/-- R181: the present labels of a window. -/
def windowLabels (d : List Nat) (k : Nat) (c : Int × Int) : List (Int × Int) :=
  let r : Int := ofR d
  let n := 2 * ofR d + 1
  ((List.range n).flatMap (fun (a : Nat) => (List.range n).map (fun (b : Nat) => (c.1 + (b : Int) - r, c.2 + (a : Int) - r)))).filter
    (fun v => decide (v.1.natAbs ≤ (limX d k).natAbs) && decide (v.2.natAbs ≤ (limY d k).natAbs))

/-- R179: the centre: the candidate of least cost, the earlier of equals. -/
def flowCentre (s : State) (tn : Nat) (d : List Nat) (k reach j i : Nat) (cands : List (Int × Int)) : Int × Int :=
  match (cands.map (fun v => let c := clampLabel d k v; (c, flowCost s tn d k reach j i c))).foldl
    (fun (r : Option ((Int × Int) × Int)) e => match r with
      | none => some e
      | some x => if e.2 < x.2 then some e else some x) none with
  | some e => e.1
  | none => (0, 0)

/-- A path's costs at a position. -/
def pathOf (n : Nat) (p : FlowPos) : List ((Int × Int) × Int) := p.labels.map (fun e => (e.1, e.2.getD n 0))

/-- One position from its candidates, its left neighbour and the row above. -/
def flowPos (s : State) (tn : Nat) (d : List Nat) (k reach j i : Nat) (cands : List (Int × Int)) (left : Option FlowPos)
    (up : Nat → Option FlowPos) : FlowPos :=
  let c := flowCentre s tn d k reach j i cands
  let p1 : Int := ofP1 d
  let p2 : Int := ofP2 d
  let upAt := fun (x : Int) => if x < 0 then none else up x.toNat
  let labels := (windowLabels d k c).map (fun l =>
    let v := flowCost s tn d k reach j i l
    (l, [labelStep p1 p2 l v (left.map (pathOf 0)), labelStep p1 p2 l v ((upAt j).map (pathOf 1)),
         labelStep p1 p2 l v ((upAt ((j : Int) - 1)).map (pathOf 2)), labelStep p1 p2 l v ((upAt ((j : Int) + 1)).map (pathOf 3))]))
  let w := flowWinner c labels
  { wx := w.1, wy := w.2, cx := c.1, cy := c.2, labels := labels }

/-! ### A level over a stripe -/

/-- Rows `[a, b)` of the grid of a level that a stripe covers (R192). -/
def flowRows (d : List Nat) (k y0 y1 : Nat) : Nat × Nat :=
  let q := ofStep d * 2 ^ k
  (min (ofGh d k) (cdiv y0 q), min (ofGh d k) (cdiv y1 q))

/-- R192: the last CUR line a stripe of height `sh` reads at a level. -/
def flowReach (d : List Nat) (nd : Node) (stripe k : Nat) : Nat :=
  if nd.height = 0 then ofH d k - 1 else min (ofH d k - 1) (nd.height * (stripe + 1) / 2 ^ k - 1 + ofCh d)

/-- Candidates 0 to 4 of a position (R179), from the level above: rows `[pa, pb)` and the row before them. -/
def parentCands (d : List Nat) (k j i : Nat) (above : Nat → Nat → Option FlowPos) : List (Int × Int) :=
  let gw := ofGw d (k + 1)
  let gh := ofGh d (k + 1)
  let pj := min (j / 2) (gw - 1)
  let pi := min (i / 2) (gh - 1)
  let two := fun (p : FlowPos) => (2 * p.wx, 2 * p.wy)
  ((([(pj, pi)] : List (Nat × Nat)) ++ (if pj = 0 then [] else [(pj - 1, pi)]) ++ (if pj + 1 < gw then [(pj + 1, pi)] else []) ++
    (if pi = 0 then [] else [(pj, pi - 1)]) ++ (if pi + 1 < gh then [(pj, pi + 1)] else [])).filterMap
      (fun q => (above q.1 q.2).map two))

/-- One level over the stripe's rows: the rows of positions. -/
def flowLevel (s : State) (tn : Nat) (d : List Nat) (k reach : Nat) (rows : Nat × Nat) (prev : List FlowPos)
    (cands : Nat → Nat → List (Int × Int)) : List (List FlowPos) :=
  ((List.range (rows.2 - rows.1)).foldl (fun (acc : List (List FlowPos)) n =>
    let i := rows.1 + n
    let upRow := match acc.getLast? with | some r => r | none => prev
    acc ++ [(List.range (ofGw d k)).foldl (fun (row : List FlowPos) j =>
      row ++ [flowPos s tn d k reach j i (cands j i) row.getLast? (fun x => upRow[x]?)]) []]) [])

/-- A row of positions of a level left by the stripe before. -/
def ctxLevel (old : List (List Int)) (d : List Nat) (k : Nat) : List FlowPos :=
  let off := sumN ((List.range k).map (ofGw d))
  ((old.drop off).take (ofGw d k)).map posUnpack

/-- Every level of a stripe from the coarsest down: entry `n` of the answer is level `levels − 1 − n`. -/
def flowLevels (s : State) (tn : Nat) (d : List Nat) (nd : Node) (stripe y0 y1 : Nat) (old : List (List Int)) (temp : Bool) :
    List (List (List FlowPos)) :=
  let r0 := flowRows d 0 y0 y1
  (List.range (ofLevels d)).foldl (fun (acc : List (List (List FlowPos))) n =>
    let k := ofLevels d - 1 - n
    let rows := flowRows d k y0 y1
    let up := flowRows d (k + 1) y0 y1
    let above := fun (j i : Nat) =>
      if i < up.1 then (if i + 1 = up.1 then (ctxLevel old d (k + 1))[j]? else none)
      else ((acc.getLast?).bind (fun l => l[i - up.1]?)).bind (fun r => r[j]?)
    let cands := fun (j i : Nat) =>
      (if n = 0 then [(0, 0)] else parentCands d k j i above) ++
      (if temp then (match planeVec s tn d ofOutAt k j i r0.1 r0.2 with | some v => [v] | none => []) else []) ++
      (if ofHint d then (match planeVec s tn d ofHintAt k j i r0.1 r0.2 with | some v => [v] | none => []) else [])
    acc ++ [flowLevel s tn d k (flowReach d nd stripe k) rows (ctxLevel old d k) cands]) []

/-! ### Level 0: vector, confidence, checks (R184 to R187, R190) -/

/-- An output vector: sixteenths, confidence, OCC, NOVEC, LIMIT, BUDGET, still active in refinement; the quarter-pixel
vector it started from. -/
structure FlowVec where
  x : Int
  y : Int
  conf : Nat
  occ : Bool
  novec : Bool
  limit : Bool
  budget : Bool
  active : Bool
  qx : Int
  qy : Int
  /-- a component lies where it was clamped to ±MAX -/
  cutX : Bool
  cutY : Bool
  deriving DecidableEq, Repr

/-- S of a label of a position. -/
def posS (p : FlowPos) (l : Int × Int) : Option Int := (p.labels.find? (fun e => e.1 == l)).map labelS

/-- R186: the label that best matches back from the previous frame. -/
def backLabel (s : State) (tn : Nat) (d : List Nat) (reach : Nat) (j i : Nat) (p : FlowPos) : Int × Int :=
  let w : Int × Int := (p.wx, p.wy)
  let rx : Int := (ofStep d * j : Nat) - p.wx
  let ry : Int := (ofStep d * i : Nat) - p.wy
  let l := p.labels.map (fun e => (e.1, pairCost s tn d 0 reach (rx + e.1.1) (ry + e.1.2) rx ry))
  match l.foldl (fun (r : Option ((Int × Int) × Int)) e => match r with
      | none => some e
      | some x => if e.2 < x.2 ∨ (e.2 = x.2 ∧ cheb e.1 w < cheb x.1 w) then some e else some x) none with
  | some e => e.1
  | none => w

/-- R184 to R186, R190: a level-0 position's vector before refinement. -/
def flowVector (s : State) (tn : Nat) (d : List Nat) (reach j i : Nat) (p : FlowPos) : FlowVec :=
  let w : Int × Int := (p.wx, p.wy)
  let z := (posS p w).getD 0
  let off := fun (a b : Int × Int) => match posS p a, posS p b with
    | some u, some v => parabola 4 u z v
    | _, _ => 0
  let qx := 16 * p.wx + 4 * off (p.wx - 1, p.wy) (p.wx + 1, p.wy)
  let qy := 16 * p.wy + 4 * off (p.wx, p.wy - 1) (p.wx, p.wy + 1)
  let mx : Int := 16 * (ofMaxX d : Int)
  let my : Int := 16 * (ofMaxY d : Int)
  let cx := clampI (-mx) mx qx
  let cy := clampI (-my) my qy
  let far := (p.labels.filter (fun e => decide (2 ≤ cheb e.1 w))).map (fun e => (0, labelS e))
  let conf := match argMin far with | some t => confidence (ofGain d) z t.2 | none => 0
  let back := backLabel s tn d reach j i p
  let occ := ofFb d && (decide (ofTol d < (back.1 - w.1).natAbs) || decide (ofTol d < (back.2 - w.2).natAbs))
  let x : Int := (ofStep d * j : Nat)
  let y : Int := (ofStep d * i : Nat)
  let out := p.labels.all (fun e => !inLevel d 0 (x - e.1.1) (y - e.1.2))
  let novec := out || (occ && ofFbInval d)
  let limit := cheb w (p.cx, p.cy) == ofR d
  let v : FlowVec := {
    x := cx, y := cy, conf := conf, occ := occ, novec := false, limit := limit, budget := false, active := ofRefine d,
    qx := cx, qy := cy, cutX := cx != qx, cutY := cy != qy }
  if novec then { v with x := 0, y := 0, conf := 0, novec := true, active := false, qx := 0, qy := 0 } else v

/-- R187: a sample of channel `c` of level 0 as a value; CUR lines beyond `reach` take that line, as taps beyond an image
edge take the edge (R192). -/
def flowVal (s : State) (tn : Nat) (d : List Nat) (cur : Bool) (reach c : Nat) (x y : Int) : Fv :=
  let k := if cur then ofCurAt 0 else ofPrevAt 0
  let x := (clampI 0 ((ofW d 0 : Int) - 1) x).toNat
  let y := (clampI 0 (if cur then (reach : Int) else (ofH d 0 : Int) - 1) y).toNat
  if ofFeat d then
    let f := featAt d k
    let v := (f.code s tn x y).getD c 0
    if f.fmt = 1 then fvOfInt (sx 8 v) else fdecode (ffOf f.fmt) v
  else fvOfInt ((imgAt d k).code s tn 0 x y : Nat)

/-- PREV at a position in sixteenths, bilinear. -/
def flowBil (s : State) (tn : Nat) (d : List Nat) (c : Nat) (x y : Int) : Nat :=
  let at_ := fun (a b w : Int) => fvMul (.fin false w.toNat (-8)) (flowVal s tn d false 0 c (x / 16 + a) (y / 16 + b))
  let fx := x % 16
  let fy := y % 16
  f32r (fvAdd (fvAdd (at_ 0 0 ((16 - fx) * (16 - fy))) (at_ 1 0 (fx * (16 - fy))))
    (fvAdd (at_ 0 1 ((16 - fx) * fy)) (at_ 1 1 (fx * fy))))

/-- R187: the points of the patch around a position: 5 × 5 of the image, or 3 × 3 of every channel of the features. -/
def flowPatch (d : List Nat) : List (Int × Int × Nat) :=
  let r := if ofFeat d then 1 else 2
  let n := if ofFeat d then (featAt d 16).ch else 1
  (List.range (2 * r + 1)).flatMap (fun b => (List.range (2 * r + 1)).flatMap (fun a => (List.range n).map (fun c =>
    ((a : Int) - (r : Int), (b : Int) - (r : Int), c))))

/-- R187: the least-squares update of a vector in sixteenths: over the patch, gradients g and residuals e = PREV − CUR
give Σ g gᵀ Δ = Σ g e.  The order of the sums, and of which image the gradients are, is open. -/
def flowUpdate (s : State) (tn : Nat) (d : List Nat) (reach seed : Nat) (qx qy : Int) (v : FlowVec) : Int × Int :=
  let cur := fun c x y => f32r (flowVal s tn d true reach c x y)
  let old := fun c (x y : Int) => flowBil s tn d c (16 * x - v.x) (16 * y - v.y)
  let f := if Config.gradCur then cur else old
  let half := fun (a b : Nat) => f32Mul f32Half (f32Sub a b)
  let l := (flowPatch d).map (fun p =>
    let x := qx + p.1
    let y := qy + p.2.1
    let c := p.2.2
    (half (f c (x + 1) y) (f c (x - 1) y), half (f c x (y + 1)) (f c x (y - 1)), f32Sub (old c x y) (cur c x y)))
  let sum := fun (k : Nat) (g : Nat × Nat × Nat → Nat × Nat) => sumF32 (seed + k) (l.map (fun e => f32Mul (g e).1 (g e).2))
  let gxx := sum 0 (fun e => (e.1, e.1))
  let gxy := sum 1 (fun e => (e.1, e.2.1))
  let gyy := sum 2 (fun e => (e.2.1, e.2.1))
  let bx := sum 3 (fun e => (e.1, e.2.2))
  let by_ := sum 4 (fun e => (e.2.1, e.2.2))
  let det := f32Sub (f32Mul gxx gyy) (f32Mul gxy gxy)
  let tr := f32Add gxx gyy
  let least := f32Mul 0x35800000 (f32Mul tr tr)
  -- a determinant that is NaN is not at most anything
  if !f32IsNaN det && !f32IsNaN least && !f32Lt least det then (0, 0)
  else (to16 (f32Div (f32Sub (f32Mul gyy bx) (f32Mul gxy by_)) det), to16 (f32Div (f32Sub (f32Mul gxx by_) (f32Mul gxy bx)) det))

/-- R187: one sweep over the active vectors of a stripe whose first grid row is `r0`. -/
def flowSweep (s : State) (tn : Nat) (d : List Nat) (reach r0 seed : Nat) (l : List FlowVec) : List FlowVec :=
  let mx : Int := 16 * (ofMaxX d : Int)
  let my : Int := 16 * (ofMaxY d : Int)
  l.zipIdx.map (fun e =>
    if !e.1.active then e.1
    else
      let gw := max 1 (ofGw d 0)
      let u := flowUpdate s tn d reach (seed + 8 * e.2) (ofStep d * (e.2 % gw) : Nat) (ofStep d * (r0 + e.2 / gw) : Nat) e.1
      let tx := clampI (e.1.qx - 8) (e.1.qx + 8) (e.1.x + u.1)
      let ty := clampI (e.1.qy - 8) (e.1.qy + 8) (e.1.y + u.2)
      let nx := clampI (-mx) mx tx
      let ny := clampI (-my) my ty
      { e.1 with
        x := nx, y := ny, active := decide (ofEps d < max u.1.natAbs u.2.natAbs)
        cutX := nx != tx || (e.1.cutX && nx == e.1.x), cutY := ny != ty || (e.1.cutY && ny == e.1.y) })

/-- Vectors still active. -/
def activeCount (l : List FlowVec) : Nat := (l.filter (fun v => v.active)).length

/-- What refinement ends with. -/
structure Sweeps where
  vecs : List FlowVec
  n : Nat
  cycles : Nat
  stop : Bool
  deriving DecidableEq, Repr

/-- R187, R188: the sweeps.  The stalls that count toward the budget are open. -/
def flowSweeps (s : State) (tn : Nat) (d : List Nat) (reach r0 seed : Nat) : Nat → Sweeps → Sweeps
  | 0, w => w
  | f + 1, w =>
    let a := activeCount w.vecs
    if a = 0 then w
    else
      let stalls := Config.freeWord (seed + f)
      if ofBudget d < w.cycles + stalls + a then
        { w with vecs := w.vecs.map (fun v => if v.active then { v with budget := true } else v), stop := true }
      else flowSweeps s tn d reach r0 seed f {
        vecs := flowSweep s tn d reach r0 (seed + 16 + 2 ^ 34 * f) w.vecs, n := w.n + 1, cycles := w.cycles + stalls + a, stop := false }

/-- LOWCONF of a vector. -/
def lowConf (d : List Nat) (v : FlowVec) : Bool := decide (v.conf < ofConfMin d)

/-- LIMIT of a vector (R185). -/
def atLimit (v : FlowVec) : Bool := v.limit || v.cutX || v.cutY

/-- The 8 bytes of an element (R189). -/
def flowElem (d : List Nat) (v : FlowVec) : List Byte :=
  leBytes 4 (ux 16 v.x + 65536 * ux 16 v.y) ++
  leBytes 4 (v.conf + 2 ^ 8 * b2n v.occ + 2 ^ 9 * b2n v.novec + 2 ^ 10 * b2n (lowConf d v) + 2 ^ 11 * b2n (atLimit v) + 2 ^ 12 * b2n v.budget)

/-- R197: the range check. -/
def flowRangeBad (d : List Nat) (v : FlowVec) : Bool :=
  decide (16 * ofMaxX d < v.x.natAbs) || decide (16 * ofMaxY d < v.y.natAbs) ||
  (!ofRefine d && (v.x % 4 != 0 || v.y % 4 != 0)) || (v.novec && (v.x != 0 || v.y != 0 || v.conf != 0)) || (v.occ && !ofFb d)

/-! ### Tasks -/

/-- R182: the temporal predictor is enabled for a task. -/
def tempUsed (s : State) (r : Run) (d : List Nat) : Bool :=
  ofTemp d && !taskPrevAbsent s r.task && predictorFlags s r.task &&& (fInvalid ||| fUnchecked) == 0

/-- R200, R510: a failed task: its record counts the NOVEC elements it writes. -/
def ofFail (c : Nat) (r : Run) (nd : Node) (d : List Nat) (status : Nat) (s : State) : State :=
  let eng := engV c 1
  let y := stripeLines nd r.task (ofH0 d)
  let rows := flowRows d 0 y.1 y.2
  let good := frRules d ofOutAt (ofGw d 0) (ofGh d 0) && !frReserved d ofOutAt && decide (ofDensity d ≤ 2)
  let fl := outFlags s r fInvalid
  let line := (List.range (ofGw d 0)).flatMap (fun _ => leBytes 4 0 ++ leBytes 4 (2 ^ 9))
  let row := ctxRow (ofSra d) (ofRows d) r.task.slot
  let count := if good then (rows.2 - rows.1) * ofGw d 0 else 0
  let s1 := doWork eng { workNone with
    writes := (if good then (List.range (rows.2 - rows.1)).map (fun n => (frAt d ofOutAt 0 (rows.1 + n), line)) else []) ++
      ctxFail s row (ofRows d) ++
      [(statAddr r nd (ofStat d) 64, matchRecord r fl (2 ^ 20 * b2n (tempUsed s r d) + 2 ^ 21 * b2n (ofHint d))
        [0, count] (confHist (List.replicate count 0)))],
    flags := fl, pushes := onePush s r (ofHandle d) (ofMillrace d) } (draw (failRun eng 0x000C R.ofeEngFault c status s))
  ctxPut r row [] s1

/-- Memory a stripe reads. -/
def flowReads (s : State) (r : Run) (nd : Node) (d : List Nat) (rows : Nat × Nat) (temp : Bool) : List (Nat × Nat) :=
  let row := ctxRow (ofSra d) (ofRows d) r.task.slot
  let plane := fun (at_ : Nat) => (List.range (rows.2 - rows.1)).map (fun n => (frAt d at_ 0 (rows.1 + n), 8 * ofGw d 0))
  ctxReads r row (ofRows d) ++
  (List.range (ofLevels d)).flatMap (fun k =>
    let line := fun (at_ j : Nat) => if ofFeat d then ((featAt d at_).line s j, (featAt d at_).lineLen)
      else ((imgAt d at_).line s 0 j, (imgAt d at_).lineLen)
    (List.range (flowReach d nd r.task.stripe k + 1)).map (line (ofCurAt k)) ++ (List.range (ofH d k)).map (line (ofPrevAt k))) ++
  (if temp then plane ofOutAt else []) ++ (if ofHint d then plane ofHintAt else [])

/-- R177 to R199: a stripe runs. -/
def ofRun (c : Nat) (r : Run) (nd : Node) (d : List Nat) (s : State) : State :=
  let eng := engV c 1
  let tn := r.task.tenant
  let y := stripeLines nd r.task (ofH0 d)
  let rows := flowRows d 0 y.1 y.2
  let row := ctxRow (ofSra d) (ofRows d) r.task.slot
  let temp := tempUsed s r d
  let reads := flowReads s r nd d rows temp
  match chkAll s tn reads [] with
  | .ok =>
    let lv := flowLevels s tn d nd r.task.stripe y.1 y.2 ((ctxGet s r row).getD []) temp
    let zero := (lv.getLast?).getD []
    let reach := flowReach d nd r.task.stripe 0
    let vecs := zero.zipIdx.flatMap (fun e => e.1.zipIdx.map (fun p => flowVector s tn d reach p.2 (rows.1 + e.2) p.1))
    let pos := fun (k : Nat) => (let q := flowRows d k y.1 y.2; (q.2 - q.1) * ofGw d k)
    let base := 64 + 32 * ofLevels d + sumN ((List.range (ofLevels d)).map (fun k => ofFactor d k * pos k)) +
      (if ofFb d then ofFactor d 0 * pos 0 else 0)
    let w0 : Sweeps := { vecs := vecs, n := 0, cycles := base, stop := false }
    let w := if ofRefine d then flowSweeps s tn d reach rows.1 (s.free * 2 ^ 40) (ofIter d) w0 else w0
    let num := fun (p : FlowVec → Bool) => (w.vecs.filter p).length
    let valid := num (fun v => !v.novec)
    let plaus := decide (valid * 1000 < ofValidMin d * w.vecs.length)
    let range := w.vecs.any (flowRangeBad d)
    let fl := outFlags s r (if range || (plaus && ofPlausAct d) then fInvalid else 0)
    let gw := ofGw d 0
    let last := (List.range (ofLevels d)).flatMap (fun k =>
      match (lv.getD (ofLevels d - 1 - k) []).getLast? with
      | some l => l.map posPack
      | none => List.replicate (ofGw d k) [])
    let wk : Work := {
      reads := reads,
      writes := (List.range (rows.2 - rows.1)).map (fun n =>
          (frAt d ofOutAt 0 (rows.1 + n), ((w.vecs.drop (n * gw)).take gw).flatMap (flowElem d))) ++
        ctxWrites s row (ofRows d) ++
        [(statAddr r nd (ofStat d) 64, matchRecord r fl
          (2 ^ 18 * b2n plaus + 2 ^ 19 * b2n range + 2 ^ 20 * b2n temp + 2 ^ 21 * b2n (ofHint d) + 2 ^ 22 * w.n + 2 ^ 26 * b2n w.stop)
          [valid, num (fun v => v.novec), num (fun v => v.occ), num (lowConf d), num atLimit, num (fun v => v.budget)]
          (confHist (w.vecs.map FlowVec.conf)))],
      flags := fl, cycles := w.cycles, pushes := onePush s r (ofHandle d) (ofMillrace d) }
    (match chkAll s tn wk.reads (wk.writes.map (fun x => (x.1, x.2.length))) with
     | .ok =>
       let s1 := plausSignal eng r (plaus && ofPlausAct d) (ctxPut r row last (doWork eng wk (draw s)))
       let s2 := cnt R.ofeEngBudget c (b2n w.stop) (cnt R.ofeEngPlaus c (b2n plaus) (cnt R.ofeEngRange c (b2n range) s1))
       if range then rangeFail eng s2 else s2
     | e => faultRun eng e s)
  | e => faultRun eng e s

/-- A flow task from its dispatch on. -/
def ofGo (c : Nat) (r : Run) (s : State) : State :=
  let eng := engV c 1
  match taskCtx s r.task with
  | none => s
  | some (_, nd, _) =>
    (match chkAccess s r.task.tenant nd.work 384 false with
     | .ok =>
       let d := descWords s r.task 96
       let s1 := rput R.ofeEngStat c (2 * ofCost d + 8 * ofLevels d + 64 * b2n (ofRefine d)) s
       (match ofCheck s nd r d with
        | 0 => ofRun c r nd d s1
        | st => ofFail c r nd d st s1)
     | e => faultRun eng e s)

/-- R181. -/
def execOfeTask (core : Nat) (s : State) : Host.Outcome State Fault Refusal :=
  act (decide (core < 4)) s (fun s => engineStep 2 (engV core 1) (pickCore s 2 core (engV core 1)) (fun _ => true) (ofGo core) s)

end Sys2Proof.Machine
end

