-- ==== Sys2Proof/Machine/Fw.lean ====
section
/-! DEFINITION. Firmware nodes (R70, R71): the small actions of the Sequencer Control Processor. -/

namespace Sys2Proof.Machine

/-- The one engine of class FW. -/
def fwEng : Nat := engU 0x00 0

/-- ACTION of a descriptor. -/
def fwAction (w : List Nat) : Nat := bits (wd w 0) 3 0

/-- TARGET bits an action names. -/
def fwTargetMask (a : Nat) : Nat :=
  if a = 2 then 0x3FFF else if a = 3 then 0x3FF else if a = 4 then 0x1FFFF else if a = 5 then 0x7FF else 0

/-- R70: the rules of a descriptor: 0 when they hold. -/
def fwCheck (w : List Nat) : Nat :=
  let a := fwAction w
  if maskFails w [0xF, 0xFFFFFFFF, 0xFFFF, 0xFFFFFFFF, 0xFFFFFFFF] || a == 0 || decide (5 < a) then 0x01
  else if wd w 3 &&& (0xFFFFFFFF ^^^ fwTargetMask a) ≠ 0 || (a != 4 && wd w 4 != 0) then 0x01
  else if a ≤ 3 then (if addr48 w 1 % 16 ≠ 0 then 0x02 else 0)
  else if addr48 w 1 ≠ 0 then 0x01 else 0

/-- R71: the action fails: every object unchanged, logged, completed with INVALID. -/
def fwFail (a status : Nat) (s : State) : State :=
  match runOn s fwEng with
  | some r => modRun fwEng (fun r => { r with worked := true, flags := r.flags ||| fInvalid })
      (addLog 0x0019 r.task.tenant fwEng a status 0 s)
  | none => s

/-- A descriptor or argument that cannot be read: the fault is logged and the action fails. -/
def fwFault (a : Nat) (c : Chk) (s : State) : State :=
  match runOn s fwEng with
  | some r => fwFail a (match c with | .denied _ => 0x04 | _ => 0x02) (logChk c r.task.tenant fwEng s)
  | none => s

/-- The action is done. -/
def fwDone (flags : Nat) (s : State) : State := modRun fwEng (fun r => { r with worked := true, flags := flags }) s

/-- SETTINGS: a set, submitted as SENSOR_SETTINGS submits it. -/
def fwSettings (r : Run) (w : List Nat) (flags : Nat) (s : State) : State :=
  let tn := r.task.tenant
  let a := addr48 w 1
  match chkAccess s tn a 4 false with
  | .ok =>
    let n := 1 + 2 * setCount (rdWords s tn a 1)
    (match chkAccess s tn a (4 * n) false with
     | .ok =>
       let set := rdWords s tn a n
       (match settingsCheck s tn set with
        | some e => fwFail 1 e.1 s
        | none => fwDone flags (settingsApply set (touchRead a (4 * n) s)))
     | c => fwFault 1 c s)
  | c => fwFault 1 c s

/-- REARM: one base-ring entry, with the ownership check of R309. -/
def fwRearm (r : Run) (w : List Nat) (flags : Nat) (s : State) : State :=
  let tn := r.task.tenant
  let a := addr48 w 1
  match chkAccess s tn a 8 false with
  | .ok =>
    let e := rdWords s tn a 2
    let ctx := bits (wd w 3) 7 0
    if rearmReserved (wd e 1) then fwFail 2 0x01 s
    else if !ownsCtx s tn ctx then fwFail 2 0x04 s
    else fwDone flags (rearmEntry ctx (bits (wd w 3) 13 8) (wd e 0) (wd e 1) (touchRead a 8 s))
  | c => fwFault 2 c s

/-- PUSH: one handle; a full millrace stalls the task. -/
def fwPush (r : Run) (w : List Nat) (flags : Nat) (s : State) : State :=
  let tn := r.task.tenant
  let m := bits (wd w 3) 9 0
  match chkAccess s tn (addr48 w 1) 4 false with
  | .ok =>
    if !mrqGranted s tn m then fwFail 3 0x04 s
    else if !mrqEn s m then fwFail 3 0x02 (cnt R.mrqDrop m 1 s)
    else presentPush { pushOf r m 0 with handle := rdN s tn (addr48 w 1) 4 } (fwDone flags (touchRead (addr48 w 1) 4 s))
  | c => fwFault 3 c s

/-- COUNTER_SET: as a write of SPD_ARR_VALUE. -/
def fwCounterSet (r : Run) (w : List Nat) (flags : Nat) (s : State) : State :=
  let k := wd w 3
  if !arrExists k then fwFail 4 0x03 s
  else if !holdsShare s r.task.tenant (bits k 16 16) (bits k 15 8) then fwFail 4 0x04 s
  else fwDone flags (arrSet (arrKey k) (wd w 4) s)

/-- NOTIFY: one message on a vector of the owning function. -/
def fwNotify (r : Run) (w : List Nat) (flags : Nat) (s : State) : State :=
  let fn := r.task.tenant
  let vec := bits (wd w 3) 10 0
  if nFns s ≤ fn || msixCount fn ≤ vec then fwFail 5 0x02 s else fwDone flags (msixEvent fn vec s)

/-- R70, R71: a task's action: none on input flagged INVALID, otherwise its checks and its effect. -/
def fwGo (go : Run → List Nat → Nat → State → State) (r : Run) (s : State) : State :=
  let fl := outFlags s r 0
  if bit fl 1 then fwDone fl s
  else
    let s0 := modRun fwEng (fun r => { r with flags := fl }) s
    match chkAccess s r.task.tenant (descAddr s r.task) 64 false with
    | .ok =>
      let w := descWords s r.task 16
      (match fwCheck w with
       | 0 => go r w fl s0
       | st => fwFail (fwAction w) st s0)
    | c => fwFault (fwAction (descWords s r.task 1)) c s0

/-- The next FW task is of the action; one whose ACTION is reserved is taken by any. -/
def fwIs (s : State) (a : Nat) (k : Task) : Bool :=
  let x := fwAction (descWords s k 1)
  x == a || x == 0 || decide (5 < x)

/-- Dispatch the next FW task when it is of the action. -/
def fwStep (a : Nat) (go : Run → List Nat → Nat → State → State) (s : State) : State :=
  engineStep 9 fwEng (pickObj s 9 fwEng) (fwIs s a) (fwGo go) s

/-- R70. -/
def execFwSettings (s : State) : Host.Outcome State Fault Refusal := act true s (fwStep 1 fwSettings)
/-- R70. -/
def execFwRearm (s : State) : Host.Outcome State Fault Refusal := act true s (fwStep 2 fwRearm)
/-- R70. -/
def execFwPush (s : State) : Host.Outcome State Fault Refusal := act true s (fwStep 3 fwPush)
/-- R70. -/
def execFwCounterSet (s : State) : Host.Outcome State Fault Refusal := act true s (fwStep 4 fwCounterSet)
/-- R70. -/
def execFwNotify (s : State) : Host.Outcome State Fault Refusal := act true s (fwStep 5 fwNotify)

end Sys2Proof.Machine
end

