-- ==== Sys2Proof/Machine/Graph.lean ====
section
/-! DEFINITION. The sequencer's own events: timers, handles, waits, guards, share windows, completions, sluice window
ends, drained instances, stalled pushes. -/

namespace Sys2Proof.Machine

/-- R51: the exact firing times of a TIMER trigger; the device's clock has reached the next. -/
def timerFire (t : Nat) (s : State) : State :=
  match tmplAt s t with
  | some v =>
    if v.armed && v.trigKind == 3 && decide (v.nextFire ≤ s.now) then
      settle (fireTrigger t { time := v.nextFire, stream := 255, serial := 0, frameNo := 0, handle := none, job := none }
        (modTmpl t (fun v => { v with nextFire := v.nextFire + max 1 v.param0 }) s))
    else s
  | none => s

/-- R59: a TIME wait of a node is due: trigger time + value. -/
def timeWait (t k n : Nat) (second : Bool) (s : State) : State :=
  match (tmplAt s t).bind (fun v => nodeAt v n) with
  | some nd =>
    if (if second then nd.w1Kind else nd.w0Kind) = 4 then
      settle ((List.range nd.stripes).foldl (fun s i => pollWait t k n i second s) s)
    else s
  | none => s

/-- The head of a list of class NCORE. -/
def ncoreHead (s : State) (p : Nat) : Option Task := s.seq.ready.find? (fun k => k.cls == 6 && k.prio == p)

/-- R63: the head of the list has waited LIMIT_US or more; 0 behaves as 1. -/
def starved (s : State) (p : Nat) : Bool :=
  match ncoreHead s p with
  | some k => decide (k.since + max 1 (bits (rget s R.seqGangStarve 0) 15 0) * 1000 ≤ s.now)
  | none => false

/-- R63: the guard starts to hold for the head task of a priority. -/
def guardStart (p : Nat) (s : State) : State :=
  if starved s p && !s.seq.guard.contains p then modSeq (fun q => { q with guard := q.guard ++ [p] }) s else s

/-- R65, R74: a 1 ms window ends: each engine's busy share is shown, and the tenants' engine-time restarts. -/
def shareEnd (s : State) : State :=
  if s.now < s.seq.windowStart + 1000000 then s
  else
    let s1 := s.seq.runs.foldl (fun s r => accountRun r s) s
    let s2 := { s1 with regs := s1.regs.filter (fun e => e.1 % 0x1000000 != R.seqBusy) }
    let s3 := s2.seq.busy.foldl (fun s e => rput R.seqBusy e.1 (min 1000 (e.2 / 1000)) s) s2
    modSeq (fun q => { q with share := [], busy := [], windowStart := s.now / 1000000 * 1000000 }) s3

/-- R143: the RELEASE value of a release: to line STRIPE_HEIGHT × completed prefix − lines kept of the task's frame. -/
def releaseVal (s : State) (r : Run) (x : Nat × Nat × Nat) : Nat :=
  if x.2.1 = 0 then x.2.2
  else match cOrigin (wheelSt s x.1) (wheelFrame r) with
    | some o => o + (x.2.1 * prefixWith s r.task - x.2.2)
    | none => 0

/-- What a task leaves when it completes: the rest of its CSI-2 frame (R371) and its wheel releases (R107, R296). -/
def leaveRun (r : Run) (s : State) : State :=
  if r.cancelled then s
  else
    let s1 := r.releases.foldl (fun s x => putWheel x.1 (raiseRelease (releaseVal s r x) (wheelSt s x.1)) s) s
    match txOf r with | some k => txEnd k false s1 | none => s1

/-- R125: the flags of an image-core task's frame known when the task completes. -/
def frameLate (s : State) (r : Run) : Run :=
  match r.task.cls, r.info with
  | 0, [st, serial] =>
    (match streamAt s st with
     | some v => if v.frames.any (fun f => f.serial == serial && degraded (frameStatus v f)) then
         { r with flags := r.flags ||| fDegraded } else r
     | none => r)
  | _, _ => r

/-- R57: the task on an engine completes once its work is done and none of its pushes is stalled; a stream pass that
has moved its data ends first (R312). -/
def completeTask (eng : Nat) (s0 : State) : State :=
  let s := match runOn s0 eng with
    | some r => if passMoved r then settle (endPass eng r s0) else s0
    | none => s0
  match runOn s eng with
  | some r =>
    if r.worked && !r.stalled && !pushStalled s eng && !(runEngines r).any (fun e => s.pwr.waking.contains e) then
      let sf := r.gang.foldl (fun s c => cacheFlush c s) s
      -- R289, R290: the write-back before the completion lost a line
      if abortAsked sf r.task.tmpl r.task.slot then settle sf else
      let s1 := leaveRun r (dropRun eng (accountRun r sf))
      let s2 := if r.cancelled then releaseRun r s1 else stampRun (frameLate s r) s1
      let s3 := (runEngines r).foldl (fun s e => startGolden e s) (r.gang.foldl (fun s c => teBoundary c s) (settle s2))
      { s3 with pwr := { s3.pwr with engIdle := (runEngines r).foldl (fun t e => tset 0 t e (s.now + 1)) s3.pwr.engIdle } }
    else s
  | none => s

/-- R72: the window end of a sluice is reached with the node incomplete. -/
def sluiceEnd (num : Nat) (s : State) : State :=
  match (sluiceSt s num).bound with
  | none => s
  | some (t, n) =>
    match tmplAt s t with
    | none => s
    | some v =>
      match nodeAt v n with
      | none => s
      | some nd =>
        settle (v.slots.zipIdx.foldl (fun s i =>
          match i.1.nodes[n]? with
          | some m =>
            if i.1.st == .running && !m.verdict && decide (m.stamped < nd.stripes) && decide (i.1.trig + nd.late ≤ s.now)
            then sluiceFault t i.2 n i.1.seq num (windowEndEngine s t i.2 n i.1.seq) false (i.1.trig + nd.late) v.tenant s
            else s
          | none => s) s)

/-- R68 step 4: the last cancelled task of a draining instance has stopped. -/
def drained (t k : Nat) (s : State) : State :=
  match instAt s t k with
  | some i =>
    if i.st == .draining then
      let gone := s.seq.runs.filter (fun r => r.cancelled && r.task.tmpl == t && r.task.slot == k && r.task.seq == i.seq)
      let s1 := gone.foldl (fun s r => dropRun r.eng (accountRun r s)) s
      let s2 := settle (releaseSlot t k s1)
      (gone.flatMap runEngines).foldl (fun s e => startGolden e s) s2
    else s
  | none => s

/-- R51. -/
def execTimerTrigger (tmpl : Nat) (s : State) : Host.Outcome State Fault Refusal :=
  act (decide (tmpl < 256)) s (timerFire tmpl)

/-- R60. -/
def execHandleTrigger (m : Nat) (s : State) : Host.Outcome State Fault Refusal :=
  act (decide (m < 1024)) s (fun s => settle (serveTrigger m s))

/-- R59, R60. -/
def execHandleClaim (m : Nat) (s : State) : Host.Outcome State Fault Refusal :=
  act (decide (m < 1024)) s (fun s => settle (claimHandles m s))

/-- R59. -/
def execTimeWaitExpiry (tmpl slot node : Nat) (second : Bool) (s : State) : Host.Outcome State Fault Refusal :=
  act (decide (tmpl < 256) && decide (slot < 8) && decide (node < 4096)) s (timeWait tmpl slot node second)

/-- R63. -/
def execGangStarveGuard (prio : Nat) (s : State) : Host.Outcome State Fault Refusal :=
  act (decide (prio < 8)) s (guardStart prio)

/-- R65. -/
def execShareWindowEnd (s : State) : Host.Outcome State Fault Refusal := act true s shareEnd

/-- R321, R322. -/
def execMillracePushAccept (m : Nat) (s : State) : Host.Outcome State Fault Refusal :=
  act (decide (m < 1024)) s (fun s => settle (acceptPush m s))

/-- R57. -/
def execTaskComplete (engine : Nat) (s : State) : Host.Outcome State Fault Refusal :=
  act (decide (engine < 0x10100)) s (completeTask engine)

/-- R72. -/
def execSluiceWindowEnd (sluice : Nat) (s : State) : Host.Outcome State Fault Refusal :=
  act (decide (sluice < 512)) s (sluiceEnd sluice)

/-- R68. -/
def execInstanceDrained (tmpl slot : Nat) (s : State) : Host.Outcome State Fault Refusal :=
  act (decide (tmpl < 256) && decide (slot < 8)) s (drained tmpl slot)

end Sys2Proof.Machine
end

