-- ==== Sys2Proof/Machine/HostPort.lean ====
section
/-! DEFINITION. Host ports and the received side of Ethernet (R353, R354, R363, R369, R372, R374): function resets, link
events, the DOE mailbox, what is answered and what is dropped. -/

namespace Sys2Proof.Machine

/-! ### Function resets (R353) -/

/-- The function's lanes lose their packets, and no reply is written for any of them. -/
def dropLanes (f : Nat) (s : State) : State :=
  { s with
    lanes := s.lanes.filter (fun e => e.1 / 16 != f)
    waits := s.waits.filter (fun e => !(decide (e.1 < 512) && e.1 / 16 == f)) }

/-- R353: the device acts on the function's tenant. -/
def resetFn (f : Nat) (s : State) : State :=
  if nFns s ≤ f then s
  else
    let s1 := modFn f (fun x => { x with resetting := true, negotiated := none }) s
    let s2 := s1.seq.tmpls.foldl (fun s e => match e.2 with
      | some v => if v.tenant == f then disarmAbort e.1 (modTmpl e.1 (fun v => { v with doomed := true }) s) else s
      | none => s) s1
    let s3 := (List.range 64).foldl (fun s i => winClose (64 * f + i) false s) s2
    let s4 := destroyTenant f (dropLanes f s3)
    { s4 with
      msix := s4.msix.filter (fun e => e.1 / 4096 != f)
      msixPend := s4.msixPend.filter (fun k => k / 4096 != f) }

/-- Reset functions `lo` to `hi − 1` of a port. -/
def resetFns (port lo hi : Nat) (s : State) : State :=
  settle ((List.range (hi - lo)).foldl (fun s i => resetFn (16 * port + lo + i) s) s)

/-- R353: an FLR; one of PF0 also resets every VF of the port. -/
def flr (fn : Nat) (s : State) : State :=
  if isPf fn then resetFns (portOf fn) 0 16 s else settle (resetFn fn s)

/-- R353: the reset ends; the function accepts requests again. -/
def resetDone (fn : Nat) (s : State) : State :=
  if (fnSt s fn).resetting then modFn fn (fun x => { x with resetting := false }) s else s

/-! ### Links (R354, R457) -/

/-- The port exists (R352). -/
def portExists (s : State) (p : Nat) : Bool := p == 0 || s.bifurcated

/-- R354: the Data Link Layer goes down: outstanding reads of the port's functions end as completion timeouts. -/
def linkFall (p : Nat) (s : State) : State :=
  if !(portSt s p).up then s
  else
    let s1 := cnt R.hostPortDldown p 1 (modPort p (fun q => { q with up := false, speed := 0, width := 0, ptmOut := false }) s)
    settle (s.seq.runs.foldl (fun s r =>
      if r.task.tenant < 32 && portOf r.task.tenant == p then
        (match passReading s r with | some a => faultPass r.eng 6 a s | none => s)
      else s) s1)

/-- A link comes up; it wakes the device from SLEEP. -/
def linkRise (p speed width : Nat) (s : State) : State :=
  if portExists s p && !(s.bifurcated && width == 8) then
    wakeDevice (modPort p (fun q => { q with up := true, speed := speed, width := width }) s)
  else s

/-! ### DOE (R363) -/

/-- A DOE Discovery response: the protocol at an index and the next index. -/
def discoveryWord (index : Nat) : List Byte :=
  if index = 0 then wordsBytes [0x01000001] else if index = 1 then wordsBytes [0x00010001] else Config.doeBeyond index

/-- R363: a Discovery object is answered by DOE Discovery and SPDM; one written while the mailbox is busy is discarded. -/
def doeDiscover (p index : Nat) (s : State) : State :=
  if portExists s p && !(fnSt s (16 * p)).resetting && !doeBusy s p then
    let body := wordsBytes [0x00000001, 3] ++ discoveryWord index
    emit (.doe p body) (doeAnswer p body s)
  else s

/-- R363: DOE Abort discards the object in progress and any partial response. -/
def doeStop (p : Nat) (s : State) : State :=
  if portExists s p then modPort p (fun q => { q with doeResp := [], doeFree := s.now }) s else s

/-! ### Received frames (R372, R374) -/

/-- A port receives: a MAC enabled with its link up, or the management link up. -/
def rxUp (s : State) (m : Nat) : Bool := if m = 2 then (macSt s 2).link else macUp s m

/-- Own addresses of a port. -/
def portMac (s : State) (m : Nat) : List Byte := if m = 2 then Config.mgtMac else ownMac s m
def portIp6 (s : State) (m : Nat) : List Byte := if m = 2 then Config.mgtIp6 else ownIp6 s m

/-- Queue an answer: at priority 0 of a MAC (DESIGN CHOICE), or on the management link. -/
def answer (m : Nat) (f : List Byte) (s : State) : State :=
  if m = 2 then sendOwn (.bytes f) s else queueFrames m 0 [f] s

/-- R372: a received packet of `n` bytes is longer than a MAC's frames carry. -/
def tooLong (s : State) (m n : Nat) : Bool := m < 2 && decide (macMtu s m < n)

/-- A frame that is not answered: counted on a MAC. -/
def rxDrop (m : Nat) (s : State) : State := if m = 2 then s else cnt R.ethRxDrop m 1 s

/-- R372: at most 100 answers of a kind per second on a MAC. -/
def mayAnswer (s : State) (m : Nat) (l : List Nat) : Bool := m == 2 || decide ((recentTimes s.now l).length < 100)

/-- R372: an ARP request for the MAC's IPv4 address is answered. -/
def arpRequest (m : Nat) (sha spa tpa : List Byte) (s : State) : State :=
  if !macUp s m then s
  else if rget s R.ethIp4 m = 0 || tpa ≠ ownIp4 s m || !mayAnswer s m (macSt s m).arpTimes then rxDrop m s
  else
    let body := [0x00, 0x01, 0x08, 0x00, 0x06, 0x04, 0x00, 0x02] ++ ownMac s m ++ ownIp4 s m ++ sha ++ spa
    answer m (etherFrame sha (ownMac s m) none 0x0806 body)
      (modMac m (fun q => { q with arpTimes := s.now :: recentTimes s.now q.arpTimes }) s)

/-- An ICMPv6 message with its checksum over the pseudo-header. -/
def icmp6 (src dst : List Byte) (type : Nat) (body : List Byte) : List Byte :=
  let m := fun c => beBytes 1 type ++ [0x00] ++ beBytes 2 c ++ body
  m (inetSum (src ++ dst ++ beBytes 4 (4 + body.length) ++ [0, 0, 0, 58] ++ m 0))

/-- R372, R374: a Neighbor Solicitation for the port's IPv6 address is answered with an advertisement. -/
def neighborSolicit (m : Nat) (src target sll : List Byte) (s : State) : State :=
  if !rxUp s m then s
  else if (m ≠ 2 ∧ ownIp6 s m = List.replicate 16 0) || target ≠ portIp6 s m || !mayAnswer s m (macSt s m).ndTimes then
    rxDrop m s
  else
    let dad : Bool := src == List.replicate 16 0
    let dst : List Byte := if dad then [0xFF, 0x02] ++ List.replicate 13 0 ++ [0x01] else src
    let dmac : List Byte := if dad then [0x33, 0x33, 0x00, 0x00, 0x00, 0x01] else sll
    let body := beBytes 4 (if dad then 0x20000000 else 0x60000000) ++ target ++ [0x02, 0x01] ++ portMac s m
    answer m (etherFrame dmac (portMac s m) none 0x86DD (ip6 target dst 58 0 255 (icmp6 target dst 136 body)))
      (modMac m (fun q => { q with ndTimes := s.now :: recentTimes s.now q.ndTimes }) s)

/-- R372, R374: an echo request to the port's address is answered. -/
def icmpEcho (m : Nat) (v6 : Bool) (mac src dst body : List Byte) (s : State) : State :=
  let own := if v6 then portIp6 s m else ownIp4 s m
  let off : Bool := if v6 then m != 2 && ownIp6 s m == List.replicate 16 0 else m == 2 || rget s R.ethIp4 m == 0
  if !rxUp s m then s
  else if off || dst ≠ own || tooLong s m ((if v6 then 44 else 24) + body.length) || !mayAnswer s m (macSt s m).echoTimes then
    rxDrop m s
  else
    let pay := if v6 then ip6 own src 58 0 (Config.ipTtl % 256) (icmp6 own src 129 body)
      else
        let e := fun c => [0x00, 0x00] ++ beBytes 2 c ++ body
        ip4 own src 1 0 s.free (e (inetSum (e 0)))
    answer m (etherFrame mac (portMac s m) none (if v6 then 0x86DD else 0x0800) pay)
      (draw (modMac m (fun q => { q with echoTimes := s.now :: recentTimes s.now q.echoTimes }) s))

/-- R372: every other received frame is dropped and counted. -/
def frameDrop (m : Nat) (_frame : List Byte) (s : State) : State := if macUp s m then cnt R.ethRxDrop m 1 s else s

/-- R369: a MAC's link goes up or down; the frames queued when it goes down are discarded and counted. -/
def ethLink (m : Nat) (up : Bool) (s : State) : State :=
  if up then macKick m (modMac m (fun q => { q with link := true }) s)
  else
    let q := macSt s m
    let n := sumN (q.queues.map (fun e => e.2.length)) + q.ahead.length
    cnt R.ethTxLinkdrop m n (modMac m (fun q => { q with link := false, queues := [], ahead := [], asCapable := false, asSent := none, linkDelay := none }) s)

/-- R374: the management link goes up or down. -/
def mgtLink (up : Bool) (speed : Nat) (s : State) : State :=
  let s1 := rput R.mgtStat 0 (b2n up + 2 * speed) s
  modMac 2 (fun q => if up then { q with link := true } else { q with link := false, ahead := [], queues := [] }) s1

/-! ### Commands -/

/-- R353. -/
def execFlr (fn : Nat) (s : State) : Host.Outcome State Fault Refusal := act (decide (fn < 32)) s (flr fn)
/-- R353. -/
def execPerstAssert (port : Nat) (s : State) : Host.Outcome State Fault Refusal :=
  act (decide (port < 2)) s (resetFns port 0 16)
/-- R353. -/
def execHotReset (port : Nat) (s : State) : Host.Outcome State Fault Refusal :=
  act (decide (port < 2)) s (resetFns port 0 16)
/-- R353. -/
def execVfEnableClear (port : Nat) (s : State) : Host.Outcome State Fault Refusal :=
  act (decide (port < 2)) s (resetFns port 1 16)
/-- R353. -/
def execFunctionResetDone (fn : Nat) (s : State) : Host.Outcome State Fault Refusal :=
  act (decide (fn < 32)) s (resetDone fn)
/-- R354. -/
def execLinkDown (port : Nat) (s : State) : Host.Outcome State Fault Refusal := act (decide (port < 2)) s (linkFall port)
/-- R457. -/
def execLinkUp (port speed width : Nat) (s : State) : Host.Outcome State Fault Refusal :=
  act (decide (port < 2) && decide (1 ≤ speed) && decide (speed ≤ 5) && [1, 2, 4, 8].contains width) s
    (linkRise port speed width)
/-- R363. -/
def execDoeDiscovery (port index : Nat) (s : State) : Host.Outcome State Fault Refusal :=
  act (decide (port < 2)) s (doeDiscover port index)
/-- R363. -/
def execDoeAbort (port : Nat) (s : State) : Host.Outcome State Fault Refusal := act (decide (port < 2)) s (doeStop port)
/-- R372. -/
def execEthArpRequest (mac : Nat) (sha spa tpa : List Byte) (s : State) : Host.Outcome State Fault Refusal :=
  act (decide (mac < 2) && sha.length == 6 && spa.length == 4 && tpa.length == 4) s (arpRequest mac sha spa tpa)
/-- R372, R374. -/
def execEthNeighborSolicitation (port : Nat) (src target sll : List Byte) (s : State) :
    Host.Outcome State Fault Refusal :=
  act (decide (port < 3) && src.length == 16 && target.length == 16 && sll.length == 6) s
    (neighborSolicit port src target sll)
/-- R372, R374. -/
def execEthIcmpEcho (port : Nat) (v6 : Bool) (mac src dst body : List Byte) (s : State) :
    Host.Outcome State Fault Refusal :=
  act (decide (port < 3) && mac.length == 6 && src.length == (if v6 then 16 else 4) &&
    dst.length == (if v6 then 16 else 4)) s (icmpEcho port v6 mac src dst body)
/-- R372. -/
def execEthRxDrop (mac : Nat) (frame : List Byte) (s : State) : Host.Outcome State Fault Refusal :=
  act (decide (mac < 2)) s (frameDrop mac frame)
/-- R369. -/
def execEthLinkChange (mac : Nat) (up : Bool) (s : State) : Host.Outcome State Fault Refusal :=
  act (decide (mac < 2)) s (ethLink mac up)
/-- R374. -/
def execMgtLinkChange (up : Bool) (speed : Nat) (s : State) : Host.Outcome State Fault Refusal :=
  act (decide (speed < 3)) s (mgtLink up speed)

end Sys2Proof.Machine
end

