-- ==== Sys2Proof/Machine/IspPixel.lean ====
section
/-! DEFINITION. The image pipe's samples (R104, R105, R108, R114 to R122, R127): the thirteen stages, output elements,
statistics.  A stage whose arithmetic the manual does not give is a free function of everything it can depend on. -/

namespace Sys2Proof.Machine

/-- What the pipe's samples depend on: words of the parameter block, colour filter array and phase, frame size, data
type, lines read so far as pixel codes, lines of stage 5, and the lines whose stripes ran. -/
structure IspIn where
  b : List Nat
  cfa : Nat
  phase : Nat
  w : Nat
  h : Nat
  dt : Nat
  lines : List (List Nat)
  five : List (List Nat)
  ran : List (Nat × Nat)
  deriving DecidableEq, Repr

/-- Halfword `k` of the parameter block. -/
def IspIn.half (i : IspIn) (k : Nat) : Nat := bits (wd i.b (k / 2)) (16 * (k % 2) + 15) (16 * (k % 2))

/-- A stage is enabled. -/
def IspIn.on (i : IspIn) (stage : Nat) : Bool := bit (wd i.b 0) (stage - 1)

/-- R105: YUV422 enters at stage 12, RGB888 at stage 10. -/
def dtYuv (dt : Nat) : Bool := dt == 0x1E || dt == 0x1F
def dtRgb (dt : Nat) : Bool := dt == 0x24

/-- Bits of a pixel code. -/
def codeBits (dt : Nat) : Nat := if dt = 0x2F then 20 else compBits dt

/-- The pixel codes of a landed line: one per pixel of raw data, the components in their order otherwise. -/
def lineCodes (v : Stream) (l : List Byte) : List Nat :=
  match pixGroup (sdDt v) with
  | none => []
  | some (b, p) =>
    let comps := (List.range (cdiv (sdWidth v) p)).flatMap (fun g => unpackGroup (sdDt v) ((l.drop (g * b)).take b))
    if sdDt v = 0x2F then (List.range (comps.length / 2)).map (fun k => wd comps (2 * k) * 1024 + wd comps (2 * k + 1))
    else comps

/-- R105: stages 1 to 9 run; stages 10 and 11 run.  Statistics that a stage feeds which does not run read 0. -/
def IspIn.rawStats (i : IspIn) : Bool := !dtYuv i.dt && !dtRgb i.dt
def IspIn.rgbStats (i : IspIn) : Bool := !dtYuv i.dt

/-! ### Positions of the colour filter array (R114, R116) -/

/-- Column and row within the pattern: PHASE shifts it by one cell, by two for the 4 × 4 arrays. -/
def IspIn.pat (i : IspIn) (x y : Int) : Nat × Nat :=
  let u := if 4 ≤ i.cfa then 2 else 1
  (((x + u * (i.phase % 2 : Nat)) % 4).toNat, ((y + u * (i.phase / 2 : Nat)) % 4).toNat)

/-- CFA position 0 to 3 of a pixel. -/
def IspIn.chan (i : IspIn) (x y : Int) : Nat := let p := i.pat x y; p.2 % 2 * 2 + p.1 % 2

/-- Plane of a pixel: 0 to 2 for P0 to P2, 3 for infrared. -/
def IspIn.kind (i : IspIn) (x y : Int) : Nat :=
  let p := i.pat x y
  if i.cfa = 4 then ([2, 1, 0, 1, 1, 3, 1, 3, 0, 1, 2, 1, 1, 3, 1, 3] : List Nat).getD (p.2 * 4 + p.1) 0
  else
    let c := if i.cfa = 5 then p.2 / 2 * 2 + p.1 / 2 else p.2 % 2 * 2 + p.1 % 2
    if c = 0 then 0 else if c = 3 ∧ i.cfa ≠ 2 then 2 else 1

/-! ### Stages 1 to 7 -/

/-- Value `n` of a line that the pipe holds; of one it does not hold, a value that is open (log entry 99). -/
def lineVal (stage : Nat) (l : List (List Nat)) (y : Int) (n : Nat) : Nat :=
  let r := l.getD y.toNat []
  if r = [] then (Config.ispKernel 21 [stage, n] [y] % 1048576).toNat else wd r n

/-- Value `n` of landed line `y`, within the width of a code; R108: mirrored beyond the edges. -/
def IspIn.land (i : IspIn) (y : Int) (n : Nat) : Nat := lineVal 0 i.lines (mirror i.h y) n % 2 ^ codeBits i.dt

/-- Code of a pixel; R108: mirrored beyond the edges. -/
def IspIn.code (i : IspIn) (x y : Int) : Nat := i.land y (mirror i.w x).toNat

/-- R115: the knee curve: the segment that holds the code, interpolated. -/
def IspIn.knee (i : IspIn) (c : Nat) : Nat :=
  let kx := fun (k : Nat) => bits (wd i.b (128 + 2 * k)) 19 0
  let ky := fun (k : Nat) => bits (wd i.b (129 + 2 * k)) 19 0
  if kx 32 ≤ c then ky 32
  else
    let k := ((List.range 32).filter (fun k => decide (kx k ≤ c))).length - 1
    ((ky k : Int) + rneDiv (((c - kx k : Nat) : Int) * ((ky (k + 1) : Int) - ky k)) (max 1 (kx (k + 1) - kx k))).toNat

/-- Stage 1: unpack and decompand. -/
def IspIn.s1 (i : IspIn) (x y : Int) : Nat :=
  if bit (wd i.b 0) 13 then i.knee (i.code x y) else i.code x y * 2 ^ (20 - codeBits i.dt)

/-- Stage 2: black level. -/
def IspIn.s2 (i : IspIn) (x y : Int) : Nat :=
  if i.on 2 then i.s1 x y - bits (wd i.b (1 + i.chan x y)) 19 0 else i.s1 x y

/-- R104: 256 σ²(x) of a CFA position. -/
def IspIn.var (i : IspIn) (c x : Nat) : Nat := bits (wd i.b (6 + c)) 15 0 * x + 4096 * bits (wd i.b (6 + c)) 31 16

/-- Any 20-bit value. -/
def u20 (v : Int) : Nat := (v % 1048576).toNat

/-- The samples within `r` pixels. -/
def around (f : Int → Int → Nat) (x y : Int) (r : Nat) : List Int :=
  (List.range (2 * r + 1)).flatMap (fun (j : Nat) => (List.range (2 * r + 1)).map (fun (k : Nat) =>
    ((f (x + (k : Int) - (r : Int)) (y + (j : Int) - (r : Int)) : Nat) : Int)))

/-- The static map lists a pixel. -/
def IspIn.mapped (i : IspIn) (x y : Int) : Bool :=
  (List.range (bits (wd i.b 5) 13 0)).any (fun k =>
    let e := wd i.b (6656 + k)
    (bits e 13 0 : Int) == x && (bits e 29 16 : Int) == y)

/-- R104: a pixel differs from the one at an offset by more than DPC_DYN_K × σ. -/
def IspIn.differs (i : IspIn) (x y : Int) (d : Int × Int) : Bool :=
  let v := i.s2 x y
  let k := bits (wd i.b 5) 23 16
  let n : Int := ((v : Nat) : Int) - ((i.s2 (x + d.1) (y + d.2) : Nat) : Int)
  decide (k * k * i.var (i.chan x y) v < 65536 * (n.natAbs * n.natAbs))

/-- R104: a pixel may differ from all 8 same-colour neighbours.  In the 2 × 2 arrays they are those of its CFA position; in
the 4 × 4 arrays the manual does not say which 8 they are, and a pixel that no same-colour pixel within two differs from is
passed. -/
def IspIn.outlier (i : IspIn) (x y : Int) : Bool :=
  bit (wd i.b 5) 24 && bits (wd i.b 5) 23 16 != 0 &&
  (if 4 ≤ i.cfa then
    ((List.range 25).map (fun n => (((n % 5 : Nat) : Int) - 2, ((n / 5 : Nat) : Int) - 2))).any (fun d =>
      d != (0, 0) && i.kind (x + d.1) (y + d.2) == i.kind x y && i.differs x y d)
  else
    ([(-2, -2), (0, -2), (2, -2), (-2, 0), (2, 0), (-2, 2), (0, 2), (2, 2)] : List (Int × Int)).all (i.differs x y))

/-- Stage 3: defective-pixel correction; the replacement's value is open, in the 4 × 4 arrays also where a pixel differs
from some of its neighbours only. -/
def IspIn.s3 (i : IspIn) (x y : Int) : Nat :=
  if i.on 3 && (i.mapped x y || i.outlier x y) then
    u20 (Config.ispKernel 3 [i.cfa, (i.pat x y).1, (i.pat x y).2, b2n (i.mapped x y), wd i.b 5, wd i.b (6 + i.chan x y)]
      (around i.s2 x y 2))
  else i.s2 x y

/-- Stage 4: raw spatial noise reduction. -/
def IspIn.s4 (i : IspIn) (x y : Int) : Nat :=
  if i.on 4 then
    u20 (Config.ispKernel 4 [i.cfa, (i.pat x y).1, (i.pat x y).2, bits (wd i.b 10) 7 0, wd i.b (6 + i.chan x y)]
      (around i.s3 x y 4))
  else i.s3 x y

/-- Pixels between samples of one CFA plane. -/
def IspIn.period (i : IspIn) : Nat := if 4 ≤ i.cfa then 4 else 2

/-- R118: the history at `p − v`, `v` in sixteenths of a pixel: 256 × period² times the bilinear value. -/
def IspIn.histAt (i : IspIn) (hist : Int → Int → Nat) (x y : Int) (v : Int × Int) : Nat :=
  let p : Int := 16 * (i.period : Int)
  let lx := (-v.1) / p
  let ly := (-v.2) / p
  let fx := (-v.1) % p
  let fy := (-v.2) % p
  let at_ := fun (a c : Int) =>
    (hist (mirror i.w (x + (i.period : Int) * (lx + a))) (mirror i.h (y + (i.period : Int) * (ly + c))) : Int)
  ((p - fx) * (p - fy) * at_ 0 0 + fx * (p - fy) * at_ 1 0 + (p - fx) * fy * at_ 0 1 + fx * fy * at_ 1 1).toNat

/-- Stage 5 (R118): `hist` is none when `w` is 0 throughout.  Where the weight is 0 the input passes; how a blended value is
rounded to a code is open. -/
def IspIn.s5 (i : IspIn) (hist : Option (Int → Int → Nat)) (vec : Int → Int → Int × Int) (x y : Int) : Nat :=
  let v := i.s4 x y
  if !i.on 5 then v
  else match hist with
  | none => v
  | some hs =>
    let d := vec x y
    -- p − v outside the frame: v is 0
    let px := 16 * x - d.1
    let py := 16 * y - d.2
    let d := if px < 0 ∨ py < 0 ∨ 16 * ((i.w : Int) - 1) < px ∨ 16 * ((i.h : Int) - 1) < py then (0, 0) else d
    let m := 256 * i.period * i.period
    let hv := i.histAt hs x y d
    let mx := bits (wd i.b 10) 15 8
    let k := max 1 (bits (wd i.b 10) 31 24)
    let dif : Nat := ((m * v : Nat) - (hv : Int)).natAbs
    -- |x − h| ≥ K σ, squared and scaled
    if mx = 0 ∨ k * k * i.var (i.chan x y) v * (m * m) ≤ 65536 * (dif * dif) then v
    else
      -- (y − x) × 256 m = ±TNR_MAX × (|x − h| − |x − h|² / (K σ)) in units of 1/m, to one unit
      let q := Nat.sqrt (65536 * (dif * dif) * (dif * dif) / (m * m * (k * k * i.var (i.chan x y) v)))
      let sg : Int := if (m * v : Nat) < (hv : Int) then 1 else -1
      let at_ := fun (q : Nat) => (256 * m * v : Nat) + sg * (mx : Int) * ((dif : Int) - q)
      let lo := min (at_ q) (at_ (q + 1)) / (256 * m : Nat)
      let hi := max (at_ q) (at_ (q + 1)) / (256 * m : Nat) + 1
      (clampI 0 1048575 (clampI lo hi (Config.ispKernel 5 [mx, k, wd i.b (6 + i.chan x y)] [v, hv, m]))).toNat

/-- A sample of stage 5 kept in the pipe state. -/
def IspIn.f5 (i : IspIn) (x y : Int) : Nat := lineVal 5 i.five (mirror i.h y) (mirror i.w x).toNat

/-- R104: the shading gain of a pixel, times (w − 1) × (h − 1) × 4096: the 64 × 48 nodes span the frame. -/
def IspIn.gain (i : IspIn) (x y : Nat) : Nat :=
  let w := max 1 (i.w - 1)
  let h := max 1 (i.h - 1)
  let c := x * 63 / w
  let r := y * 47 / h
  let at_ := fun (a b : Nat) => i.half (512 + (min 47 (r + b) * 64 + min 63 (c + a)) * 4 + i.chan x y)
  let fx := x * 63 % w
  let fy := y * 47 % h
  (w - fx) * (h - fy) * at_ 0 0 + fx * (h - fy) * at_ 1 0 + (w - fx) * fy * at_ 0 1 + fx * fy * at_ 1 1

/-- Stage 6: lens shading, rounded once. -/
def IspIn.s6 (i : IspIn) (x y : Int) : Nat :=
  let x := mirror i.w x
  let y := mirror i.h y
  if i.on 6 then
    (clampI 0 1048575 (rneDiv ((i.f5 x y * i.gain x.toNat y.toNat : Nat) : Int)
      (max 1 (i.w - 1) * max 1 (i.h - 1) * 4096))).toNat
  else i.f5 x y

/-- Stage 7: white balance. -/
def IspIn.s7 (i : IspIn) (x y : Int) : Nat :=
  let v := i.s6 x y
  if i.on 7 then (clampI 0 1048575 (rneDiv ((v * i.half (22 + i.chan (mirror i.w x) (mirror i.h y)) : Nat) : Int) 4096)).toNat
  else v

/-! ### Stages 8 to 12 -/

/-- Stage 8: plane `p` after demosaic; RCCC has no P2 and only RGB-IR an infrared plane. -/
def IspIn.s8 (i : IspIn) (p : Nat) (x y : Int) : Nat :=
  if (p = 2 ∧ i.cfa = 2) ∨ (p = 3 ∧ i.cfa ≠ 4) then 0
  else u20 (Config.ispKernel 8 [i.cfa, (i.pat x y).1, (i.pat x y).2, p] (around i.s7 x y 2))

/-- An entry of a matrix of s4.12 halfwords whose first is halfword `k`. -/
def IspIn.mat (i : IspIn) (k n : Nat) : Int := sx 16 (i.half (k + n))

/-- Stage 9 (R117): for Bayer and quad-Bayer M_REC is the identity and there is no infrared. -/
def IspIn.s9 (i : IspIn) (c : Nat) (x y : Int) : Nat :=
  if i.on 9 && i.cfa != 0 && i.cfa != 5 then
    (clampI 0 1048575 (rneDiv (16 * sumI ((List.range 3).map (fun n => i.mat 26 (3 * c + n) * (i.s8 n x y : Int))) -
      (i.half (36 + c) : Int) * (i.s8 3 x y : Int)) 65536)).toNat
  else i.s8 c x y

/-- Input of stage 10: stage 9, or RGB888 shifted left to 20 bits (R105; blue comes first). -/
def IspIn.in10 (i : IspIn) (c : Nat) (x y : Int) : Nat :=
  if dtRgb i.dt then i.land y (3 * (mirror i.w x).toNat + (2 - c)) * 4096
  else i.s9 c x y

/-- Stage 10: colour matrix. -/
def IspIn.s10 (i : IspIn) (c : Nat) (x y : Int) : Nat :=
  if i.on 10 then
    (clampI 0 1048575 (rneDiv (sumI ((List.range 3).map (fun n => i.mat 40 (3 * c + n) * (i.in10 n x y : Int)))) 4096)).toNat
  else i.in10 c x y

/-- Local tone mapping: at strength 0 none; its arithmetic is open. -/
def IspIn.ltm (i : IspIn) (c : Nat) (x y : Int) : Nat :=
  let n := bits (wd i.b 25) 7 0
  if n = 0 then i.s10 c x y
  else u20 (Config.ispKernel 11 [n] ([x, y, (c : Int), i.s10 0 x y, i.s10 1 x y, i.s10 2 x y] ++
    (i.five ++ i.lines).flatten.map Int.ofNat))

/-- Input of knot `k` of the tone curve, plus 1, times 2⁴⁰: the 64th root of 2^(5k) (R115). -/
def knotAt (k : Nat) : Nat :=
  Nat.sqrt (Nat.sqrt (Nat.sqrt (Nat.sqrt (Nat.sqrt (Nat.sqrt (2 ^ (5 * k + 64 * 40)))))))

/-- R115: the tone curve at a code, linearly interpolated and rounded once. -/
def IspIn.tone (i : IspIn) (u : Nat) : Nat :=
  let k := min 255 (Nat.log2 ((u + 1) ^ 64) / 5)
  let y0 : Int := i.half (12800 + k)
  let y1 : Int := i.half (12801 + k)
  (y0 + rneDiv ((y1 - y0) * (((u + 1) * 2 ^ 40 : Nat) - (knotAt k : Int))) (knotAt (k + 1) - knotAt k)).toNat

/-- Stage 11: local tone mapping and the global curve. -/
def IspIn.s11 (i : IspIn) (c : Nat) (x y : Int) : Nat :=
  if i.on 11 then i.tone (i.ltm c x y) else i.s10 c x y

/-- Bits of a stage-12 input: 16 of stage 11 and of YUV422, 20 where stage 11 passes its input on. -/
def IspIn.bits12 (i : IspIn) : Nat := if dtYuv i.dt || i.on 11 then 16 else 20

/-- Component `c` at the input of stage 12.  YUV422 enters here: luma shifted left to 16 bits (R105), chroma as stage 12
converts it to 4:4:4, by an arithmetic that is open; where the stage is off, the pair's chroma. -/
def IspIn.in12 (i : IspIn) (c : Nat) (x y : Int) : Nat :=
  if dtYuv i.dt then
    let k := (mirror i.w x).toNat
    let at_ := fun (n : Nat) => i.land y n * 2 ^ (16 - codeBits i.dt)
    if c = 0 then at_ (4 * (k / 2) + 1 + 2 * (k % 2))
    else
      let q := 2 * (c - 1)
      if i.on 12 then
        (Config.ispKernel 14 [c, k % 2] [at_ (4 * (k / 2) + q - 4), at_ (4 * (k / 2) + q), at_ (4 * (k / 2) + q + 4)] % 65536).toNat
      else at_ (4 * (k / 2) + q)
  else i.s11 c x y

/-- Kr and Kb of BT.601, BT.709 and BT.2020 in ten-thousandths. -/
def cscK (std : Nat) : Int × Int := if std = 0 then (2990, 1140) else if std = 1 then (2126, 722) else (2627, 593)

/-- Stage 12: component `c` of YCbCr for an output of `n` bits, as numerator, denominator and offset: the codes pass
where the stage is off and for YUV422 without a custom matrix; a custom matrix has its own offsets; otherwise luma and
colour differences of the standard, quantised in full or limited range. -/
def IspIn.s12 (i : IspIn) (n c : Nat) (x y : Int) : Int × Nat × Int :=
  let v := fun k => (i.in12 k x y : Int)
  let w := i.bits12
  let std := bits (wd i.b 26) 1 0
  if !i.on 12 || (dtYuv i.dt && std != 3) then (v c, 2 ^ (w - n), 0)
  else if std = 3 then
    (sumI ((List.range 3).map (fun k => i.mat 54 (3 * c + k) * v k)), 4096 * 2 ^ (w - n), sx 16 (i.half (64 + c)))
  else
    let k := cscK std
    let luma := k.1 * v 0 + (10000 - k.1 - k.2) * v 1 + k.2 * v 2
    let dif := if c = 0 then luma else if c = 1 then 10000 * v 2 - luma else 10000 * v 0 - luma
    let den : Int := if c = 0 then 10000 else if c = 1 then 2 * (10000 - k.2) else 2 * (10000 - k.1)
    let full := bit (wd i.b 26) 2
    let span : Nat := if full then 2 ^ n - 1 else (if c = 0 then 219 else 224) * 2 ^ (n - 8)
    let off : Nat := if c ≠ 0 then 2 ^ (n - 1) else if full then 0 else 16 * 2 ^ (n - 8)
    (dif * span, den.toNat * 2 ^ w, off)

/-! ### Outputs (R111, R121 to R123) -/

/-- An output descriptor's words. -/
structure IspOut where
  w : List Nat
  deriving DecidableEq, Repr

def IspOut.fmt (o : IspOut) : Nat := bits (wd o.w 0) 3 0
def IspOut.toWheel (o : IspOut) : Bool := bit (wd o.w 0) 4
def IspOut.handle (o : IspOut) : Bool := bit (wd o.w 0) 5
def IspOut.tap (o : IspOut) : Nat := bits (wd o.w 0) 7 6
def IspOut.shift (o : IspOut) : Nat := bits (wd o.w 0) 9 8
def IspOut.millrace (o : IspOut) : Nat := bits (wd o.w 0) 19 10
def IspOut.cx (o : IspOut) : Nat := bits (wd o.w 1) 13 0
def IspOut.cy (o : IspOut) : Nat := bits (wd o.w 1) 29 16
def IspOut.cw (o : IspOut) : Nat := bits (wd o.w 2) 13 0 + 1
def IspOut.ch (o : IspOut) : Nat := bits (wd o.w 2) 29 16 + 1
def IspOut.ow (o : IspOut) : Nat := bits (wd o.w 3) 13 0 + 1
def IspOut.oh (o : IspOut) : Nat := bits (wd o.w 3) 29 16 + 1
def IspOut.base (o : IspOut) : Nat := wd o.w 4 + 2 ^ 32 * bits (wd o.w 5) 15 0
def IspOut.key (o : IspOut) : Nat := wheelKey (bits (wd o.w 4) 7 0) (bits (wd o.w 4) 13 8)
def IspOut.rows (o : IspOut) : Nat := bits (wd o.w 6) 15 0

/-- Output `k` of a descriptor. -/
def ispOut (d : List Nat) (k : Nat) : IspOut := { w := (d.drop (16 + 8 * k)).take 8 }

/-- Bytes of an element. -/
def IspOut.esize (o : IspOut) : Nat := if o.fmt = 0 ∨ o.fmt = 2 ∨ o.fmt = 5 ∨ o.fmt = 8 then 1 else 2

/-- Planes of the layout: two of YUV420SP, three of PLANAR, one otherwise. -/
def IspOut.planes (o : IspOut) : Nat := if o.fmt ≤ 1 then 2 else if o.fmt = 5 ∨ o.fmt = 6 then 3 else 1

/-- Bytes of the widest plane line; a ROWTILE line has a row for each 16 pixels. -/
def IspOut.lineLen (o : IspOut) : Nat := if 8 ≤ o.fmt then cdiv o.ow 16 * 512 else o.ow * o.esize

/-- R123: the source line whose stripe emits output line `j`. -/
def IspOut.lastSrc (o : IspOut) (j : Nat) : Nat := o.cy + cdiv ((j + 1) * o.ch) o.oh - 1

/-- R123: the output lines emitted by source lines `[y0, y1)`. -/
def IspOut.emits (o : IspOut) (y0 y1 : Nat) : List Nat :=
  (List.range o.oh).filter (fun j => decide (y0 ≤ o.lastSrc j) && decide (o.lastSrc j < y1))

/-- The scaled value of output element `(ox, oy)` of a source sample.  Where the crop is not scaled it is the sample
itself; otherwise the filter's coefficients are open. -/
def IspOut.scaled (o : IspOut) (f : Int → Int → Int) (ox oy : Nat) : Int :=
  if o.cw = o.ow ∧ o.ch = o.oh then f (o.cx + ox) (o.cy + oy)
  else
    let dx := o.cw / o.ow
    let dy := o.ch / o.oh
    let x0 := ox * o.cw / o.ow
    let y0 := oy * o.ch / o.oh
    let at_ := fun (a c : Nat) => f (o.cx + clampN 0 (o.cw - 1) a) (o.cy + clampN 0 (o.lastSrc oy - o.cy) c)
    Config.ispKernel 13 [o.cw, o.ow, o.ch, o.oh, ox, oy]
      ((List.range (7 * dy)).flatMap (fun j => (List.range (7 * dx)).map (fun k => at_ (x0 + k - 3 * dx) (y0 + j - 3 * dy))))

/-- Unsigned 8-, 10- or 12-bit code of a free value. -/
def IspOut.yuvBits (o : IspOut) : Nat := if o.fmt = 0 ∨ o.fmt = 2 then 8 else if o.fmt = 4 then 12 else 10

/-- R122: an RGB element from its stage-11 code, by FP32 mean and scale. -/
def rgbCode (int8 : Bool) (mean scale code : Nat) : Nat :=
  let y := f32Mul (f32Sub (f32r (.fin false code (-16))) mean) scale
  if int8 then (toIntFmt 1 false (f32v y) 0).1 else halfCode y

/-- R105: the output is taken after a stage that does not run: a raw tap of YUV422 or RGB888, RGB of YUV422. -/
def IspOut.unfed (o : IspOut) (i : IspIn) : Bool := (o.fmt == 7 && !i.rawStats) || (decide (5 ≤ o.fmt) && !i.rgbStats)

/-- R121, R122: code of component `q` of an output's element; what an output holds whose stage does not run is open (log
entry 97). -/
def IspOut.elem (o : IspOut) (i : IspIn) (q ox oy : Nat) : Nat :=
  if o.unfed i then (Config.ispKernel 22 [i.dt, o.fmt, o.tap, q, ox, oy] (i.lines.flatten.map Int.ofNat) % 2 ^ (8 * o.esize)).toNat
  else if o.fmt = 7 then
    let f := fun x y => ((if o.tap = 0 then i.s1 x y else if o.tap = 1 then i.s3 x y else i.f5 x y : Nat) : Int)
    (o.scaled f ox oy % 1048576).toNat / 2 ^ (4 + o.shift) % 65536
  else if 5 ≤ o.fmt then
    rgbCode (o.fmt == 5 || o.fmt == 8) (wd i.b (37 + q)) (wd i.b (40 + q))
      (o.scaled (fun x y => ((i.s11 q x y : Nat) : Int)) ox oy % (if i.on 11 then 65536 else 1048576)).toNat
  else
    let n := o.yuvBits
    let k := i.s12 n q 0 0
    (clampI 0 (2 ^ n - 1) (rneDiv (o.scaled (fun x y => (i.s12 n q x y).1) ox oy) k.2.1 + k.2.2)).toNat

/-- A chroma element of YUV420: 2 × 2 averaging after scaling; the model's choice (log entry 213): the average is of the four
rounded codes, a tie to even. -/
def IspOut.chroma (o : IspOut) (i : IspIn) (q ox oy : Nat) : Nat :=
  (rneDiv (sumI (([(0, 0), (1, 0), (0, 1), (1, 1)] : List (Nat × Nat)).map
    (fun d => (o.elem i q (2 * ox + d.1) (2 * oy + d.2) : Int)))) 4).toNat

/-- The bytes of line `j` of plane `q`; with no source, zeros. -/
def IspOut.line (o : IspOut) (i : Option IspIn) (q j : Nat) : List Byte :=
  match i with
  | none => List.replicate (min o.lineLen (o.rows * 512)) 0
  | some i =>
    if o.fmt ≤ 1 ∧ q = 1 then
      (List.range (o.ow / 2)).flatMap (fun x => leBytes o.esize (o.chroma i 1 x j) ++ leBytes o.esize (o.chroma i 2 x j))
    else if 8 ≤ o.fmt then
      (List.range (upTo o.ow 16)).flatMap (fun x =>
        if x < o.ow then
          (List.range 3).flatMap (fun c => leBytes o.esize (o.elem i c x j)) ++ List.replicate (32 - 3 * o.esize) 0
        else List.replicate 32 0)
    else (List.range o.ow).flatMap (fun x => leBytes o.esize (o.elem i q x j))

/-- R111, R133: address of line `j` of plane `q`. -/
def IspOut.addr (o : IspOut) (s : State) (q j : Nat) : Nat :=
  if o.toWheel then lineAddr s o.key j else o.base + (q * o.oh + j) * o.rows * 512

/-- What an output writes for the lines `js` it emits: every plane's lines; a wheel holds one plane. -/
def IspOut.writes (o : IspOut) (s : State) (i : Option IspIn) (js : List Nat) : List (Nat × List Byte) :=
  js.flatMap (fun j => (List.range (if o.toWheel then 1 else o.planes)).filterMap (fun q =>
    if o.fmt ≤ 1 ∧ q = 1 then (if j % 2 = 1 then some (o.addr s 1 (j / 2), o.line i 1 (j / 2)) else none)
    else some (o.addr s q j, o.line i q j)))

/-! ### Statistics (R127) -/

/-- Window of the statistics: origin and size. -/
def IspIn.win (i : IspIn) : Nat × Nat × Nat × Nat :=
  (bits (wd i.b 34) 13 0, bits (wd i.b 34) 29 16, bits (wd i.b 35) 13 0, bits (wd i.b 35) 29 16)

/-- Every pixel of a rectangle. -/
def pixelsOf (x0 y0 w h : Nat) : List (Int × Int) :=
  (List.range h).flatMap (fun j => (List.range w).map (fun k => (((x0 + k : Nat) : Int), ((y0 + j : Nat) : Int))))

/-- Statistics take in lines whose stripes ran: a failed stripe adds nothing (log entry 181). -/
def IspIn.counted (i : IspIn) (y : Int) : Bool := i.ran.any (fun r => decide ((r.1 : Int) ≤ y) && decide (y < (r.2 : Int)))

/-- Saturation counts of the four CFA positions. -/
def IspIn.satCounts (i : IspIn) : List Nat :=
  let w := i.win
  (List.range 4).map (fun c => if i.rawStats then
    sat32 ((pixelsOf w.1 w.2.1 w.2.2.1 w.2.2.2).filter (fun p => i.counted p.2 && i.chan p.1 p.2 == c &&
      decide (bits (wd i.b 36) 19 0 ≤ i.s2 p.1 p.2))).length else 0)

/-- Y16 of a pixel after stage 10. -/
def IspIn.y16 (i : IspIn) (x y : Int) : Nat := (i.s10 0 x y + 2 * i.s10 1 x y + i.s10 2 x y) / 4 / 16

/-- Histogram bin: min(255, ⌊16 log₂(1 + Y16)⌋). -/
def histBin (y : Nat) : Nat := min 255 (Nat.log2 ((1 + y) ^ 16))

/-- The histogram. -/
def IspIn.histogram (i : IspIn) : List Nat :=
  let w := i.win
  let l := if i.rgbStats then
      ((pixelsOf w.1 w.2.1 w.2.2.1 w.2.2.2).filter (fun p => i.counted p.2)).map (fun p => histBin (i.y16 p.1 p.2))
    else []
  (List.range 256).map (fun n => sat32 (l.filter (· == n)).length)

/-- The sharpness grid; which 3 × 3 Laplacian is taken is open. -/
def IspIn.sharpness (i : IspIn) : List Nat :=
  let w := i.win
  let cw := w.2.2.1 / 16
  let ch := w.2.2.2 / 12
  (List.range 192).map (fun n => if i.rgbStats then
    sat32 (sumN (((pixelsOf (w.1 + n % 16 * cw) (w.2.1 + n / 16 * ch) cw ch).filter (fun p => i.counted p.2)).map (fun p =>
      (Config.ispKernel 20 [] (around i.y16 p.1 p.2 1)).natAbs))) else 0)

/-- One cell of the white-balance grid: over whole quads none of whose samples reaches SAT_LEVEL, the sums of P0, P1 and
P2, each the average of the quad's samples of that kind shifted right by WB_SHIFT, and the count of quads.  The model's
choice (log entry 213): a quad of a 4 × 4 array is its whole tile. -/
def IspIn.wbCell (i : IspIn) (x0 y0 cw ch : Nat) : List Nat :=
  let t := i.period
  let quads := (pixelsOf x0 y0 cw ch).filter (fun p => i.pat p.1 p.2 == (0, 0) || (t == 2 && (i.pat p.1 p.2).1 % 2 == 0 && (i.pat p.1 p.2).2 % 2 == 0))
  let quads := quads.filter (fun p => decide (p.1 + (t : Int) ≤ ((x0 + cw : Nat) : Int)) && decide (p.2 + (t : Int) ≤ ((y0 + ch : Nat) : Int)))
  let px := fun (p : Int × Int) => (pixelsOf 0 0 t t).map (fun d => (p.1 + d.1, p.2 + d.2))
  let good := quads.filter (fun p => (px p).all (fun q => i.counted q.2 && decide (i.s2 q.1 q.2 < bits (wd i.b 36) 19 0)))
  let avg := fun (k : Nat) (p : Int × Int) =>
    let l := (px p).filter (fun q => i.kind q.1 q.2 == k)
    (rneDiv (sumI (l.map (fun q => (i.s6 q.1 q.2 : Int)))) (max 1 l.length)).toNat / 2 ^ bits (wd i.b 36) 23 20
  (List.range 3).map (fun k => sat32 (sumN (good.map (avg k)))) ++ [sat32 good.length]

/-- The white-balance grid. -/
def IspIn.wbGrid (i : IspIn) : List Nat :=
  let w := i.win
  let cw := w.2.2.1 / 32
  let ch := w.2.2.2 / 24
  (List.range 768).flatMap (fun n => if i.rawStats then i.wbCell (w.1 + n % 32 * cw) (w.2.1 + n / 32 * ch) cw ch
    else [0, 0, 0, 0])

end Sys2Proof.Machine
end

