-- ==== Sys2Proof/Machine/Isp.lean ====
section
/-! DEFINITION. Image-core tasks (R103 to R131): which task a core takes, parameter slots and banks, the dispatch check,
stripes, outputs, history, frame records. -/

namespace Sys2Proof.Machine

/-! ### Contexts and banks -/

/-- What a core keeps of a stream. -/
def ispAt (s : State) (c st : Nat) : Option IspCtx := tget none s.isp (64 * c + st)

/-- Replace it. -/
def ispPut (c st : Nat) (v : IspCtx) (s : State) : State := { s with isp := tset none s.isp (64 * c + st) (some v) }

/-- Change it. -/
def ispMod (c st : Nat) (f : IspCtx → IspCtx) (s : State) : State :=
  match ispAt s c st with
  | some v => ispPut c st (f v) s
  | none => s

/-- A context of a stream that has taken no frame. -/
def ispFresh (st : Nat) : IspCtx where
  stream := st
  serial := 0
  index := 0
  slot := 0
  pseq := 0
  epoch := 0
  lines := []
  five := []
  ran := []
  lastHist := none
  hist := 0
  flow := false
  reset := false
  valid := [0, 0, 0, 0]
  block := 0
  sra := none

/-- Active bank of a core. -/
def ispBank (s : State) (c : Nat) : Nat := bits (rget s R.ispCoreStat c) 6 6

/-- A bank's contents. -/
def ispBankAt (s : State) (c b : Nat) : Option IspBank := tget none s.ispBanks (2 * c + b)

/-- The bank holds a parameter set. -/
def bankHas (o : Option IspBank) (st slot pseq : Nat) : Bool :=
  match o with
  | some b => b.stream == st && b.slot == slot && b.pseq == pseq
  | none => false

/-! ### Which task a core takes (R62, R129 to R131) -/

/-- STREAM of the descriptor of a node. -/
def nodeStream (s : State) (v : Tmpl) (nd : Node) : Nat := bits (rdN s v.tenant nd.work 4) 5 0

/-- The stream of a task. -/
def taskStream (s : State) (k : Task) : Nat :=
  match taskCtx s k with | some (v, nd, _) => nodeStream s v nd | none => 0

/-- The frame of a task on its stream (R509). -/
def taskFrame (s : State) (k : Task) : Option Frame :=
  match taskCtx s k with | some (v, nd, i) => frameOf s i (nodeStream s v nd) | none => none

/-- R129: no task of the same stream comes before it in the order of sequence number and stripe. -/
def ispInOrder (s : State) (k : Task) : Bool :=
  match taskCtx s k with
  | none => false
  | some (v, nd, _) =>
    let st := nodeStream s v nd
    !v.slots.any (fun i => i.st == .running && (serLt i.seq k.seq || i.seq == k.seq) &&
      v.nodes.zipIdx.any (fun n => n.1.cls == 0 && nodeStream s v n.1 == st &&
        (match i.nodes[n.2]? with
         | some m => m.cells.zipIdx.any (fun c => (c.1.phase == .waiting || c.1.phase == .ready) &&
             (i.seq != k.seq || decide (c.2 < k.stripe)))
         | none => false)))

/-- R129: the deadline of a task; none lies after every finite one. -/
def ispDeadline (s : State) (k : Task) : Option Nat :=
  match taskCtx s k with
  | none => none
  | some (v, nd, i) =>
    match frameOf s i (nodeStream s v nd), streamAt s (nodeStream s v nd) with
    | some f, some x =>
      if sdPeriod x = 0 then none
      else some (f.fs + sdPeriod x * min (k.stripe + 2) nd.stripes / max 1 nd.stripes)
    | _, _ => none

/-- R130: the stream's share stands at ⌈0.75 × BUF_ROWS⌉ or above. -/
def ispPressed (s : State) (k : Task) : Bool :=
  match streamAt s (taskStream s k) with
  | some v => v.started && decide (cdiv (3 * sdBufRows v) 4 ≤ bufUsed v)
  | none => false

/-- R130: effective priority. -/
def ispPrio (s : State) (k : Task) : Nat := if ispPressed s k then prioCap s k.tenant else k.prio

/-- R131: a stream whose frame holds the core, until the frame's last stripe completes. -/
def ispMuxed (s : State) (c : Nat) : Option Nat :=
  match tget none s.ispLock c with
  | some x =>
    (match instAt s x.tmpl x.slot with
     | some i => if i.st == .running && i.seq == x.seq &&
         (match i.nodes[x.node]? with | some m => m.cells.any (fun c => c.phase != .done) | none => false)
         then some x.stream else none
     | none => none)
  | none => none

/-- R131: a core that dispatches stripe 0 with MUX_FRAME is held by the frame. -/
def ispHold (c : Nat) (k : Task) (d : List Nat) (s : State) : State :=
  if bit (wd d 0) 6 && k.stripe == 0 then
    let x : IspLock := { stream := bits (wd d 0) 5 0, tmpl := k.tmpl, slot := k.slot, seq := k.seq, node := k.node }
    { s with ispLock := tset none s.ispLock c (some x) }
  else s

/-- The earliest deadline; the first of equals. -/
def earliest (s : State) (l : List Task) : Option Task :=
  l.foldl (fun (r : Option Task) k => match r with
    | none => some k
    | some x => match ispDeadline s x, ispDeadline s k with
      | some a, some b => if b < a then some k else some x
      | none, some _ => some k
      | _, none => some x) none

/-- R62, R129: the task an image core can take. -/
def ispTask (s : State) (c : Nat) : Option Task :=
  let eng := engI c 0
  if !engFree s eng || goldenBlocks s 0 eng || s.seq.halted then none
  else
    let ok := fun (k : Task) => k.cls == 0 && serialOk s k && groupOk s k && ispInOrder s k &&
      (match taskCtx s k with | some (v, nd, _) => bit (eligibleMask s v nd) c | none => false) &&
      (match ispMuxed s c with | some st => st == taskStream s k | none => true)
    let l := s.seq.ready.filter ok
    ((List.range 8).map (fun i => 7 - i)).findSome? (fun p =>
      let q := l.filter (fun k => ispPrio s k == p)
      match earliest s (q.filter (fun k => !overShare s k.tenant k.cls)) with
      | some k => some k
      | none => earliest s q)

/-- R62, R36: the task an image core takes, where its turn comes among the cores that can take it. -/
def ispPick (s : State) (c : Nat) : Option Task :=
  match ispTask s c with
  | some k => if engTurn s 0 (engI c 0) (fun i => ispTask s i == some k) then some k else none
  | none => none

/-! ### The dispatch check (R109) -/

/-- The descriptor's defined bits. -/
def ispMask : List Nat :=
  [0xF7FFF, 0xFFFFFFFF, 0xFFFF, 0xFFFFFF, 0xFFFFFFFF, 0xFFFF, 0xFFFFFFFF, 0xFFFF, 0xFFFFFFFF, 0xFFFF, 0xFFFFFFFF, 0xFFFF,
   0xFFFFF, 0, 0, 0] ++
  (List.replicate 4 [0xFFFFF, 0x3FFF3FFF, 0x3FFF3FFF, 0x3FFF3FFF, 0xFFFFFFFF, 0xFFFF, 0xFFFF, 0]).flatten

/-- Output `o` is enabled. -/
def ispEn (d : List Nat) (o : Nat) : Bool := bit (wd d 0) (16 + o)

/-- The enabled outputs with their numbers. -/
def ispOuts (d : List Nat) : List (Nat × IspOut) :=
  ((List.range 4).filter (ispEn d)).map (fun o => (o, ispOut d o))

/-- Nonzero reserved field or reserved encoding of a descriptor, in its four output descriptors whether enabled or not. -/
def ispReserved (d : List Nat) : Bool :=
  maskFails d ispMask || decide (5 < bits (wd d 0) 11 8) || bits (wd d 12) 1 0 == 3 ||
  ((List.range 4).map (ispOut d)).any (fun o => decide (9 < o.fmt) || (o.fmt == 7 && o.tap == 3) ||
    (o.toWheel && (decide (bits (wd o.w 4) 31 14 ≠ 0) || wd o.w 5 != 0)))

/-- Nonzero reserved field or reserved encoding of a parameter block: its header, its arrays, its defect map's order. -/
def ispBlockReserved (b : List Nat) : Bool :=
  let hdr : List Nat := [0x3FFF, 0xFFFFF, 0xFFFFF, 0xFFFFF, 0xFFFFF, 0x1FF3FFF, 0xFFFFFFFF, 0xFFFFFFFF, 0xFFFFFFFF,
    0xFFFFFFFF, 0xFFFFFFFF, 0xFFFFFFFF, 0xFFFFFFFF, 0xFFFFFFFF, 0xFFFFFFFF, 0xFFFFFFFF, 0xFFFFFFFF, 0xFFFF, 0xFFFFFFFF,
    0xFFFF, 0xFFFFFFFF, 0xFFFFFFFF, 0xFFFFFFFF, 0xFFFFFFFF, 0xFFFF, 0xFF, 0x7, 0xFFFFFFFF, 0xFFFFFFFF, 0xFFFFFFFF,
    0xFFFFFFFF, 0xFFFF, 0xFFFFFFFF, 0xFFFF, 0x3FFF3FFF, 0x3FFF3FFF, 0xFFFFFF, 0xFFFFFFFF, 0xFFFFFFFF, 0xFFFFFFFF,
    0xFFFFFFFF, 0xFFFFFFFF, 0xFFFFFFFF]
  let n := bits (wd b 5) 13 0
  let kx := fun k => bits (wd b (128 + 2 * k)) 19 0
  let at_ := fun k => bits (wd b (6656 + k)) 29 16 * 16384 + bits (wd b (6656 + k)) 13 0
  maskFails (b.take 128) hdr ||
  (List.range 66).any (fun k => decide (2 ^ 20 ≤ wd b (128 + k))) ||
  (List.range 62).any (fun k => wd b (194 + k) != 0) ||
  decide (2 ^ 16 ≤ wd b 6528) || (List.range 127).any (fun k => wd b (6529 + k) != 0) ||
  (List.range 8192).any (fun k => decide (bits (wd b (6656 + k)) 15 14 ≠ 0) || decide (bits (wd b (6656 + k)) 31 30 ≠ 0)) ||
  !bit (wd b 0) 0 || !bit (wd b 0) 7 || !bit (wd b 0) 12 || decide (8192 < n) || decide (8 < bits (wd b 36) 23 20) ||
  decide (kx 0 ≠ 0) || (List.range 32).any (fun k => decide (kx (k + 1) ≤ kx k)) ||
  (List.range (n - 1)).any (fun k => decide (at_ (k + 1) ≤ at_ k))

/-- The statistics window lies within the frame and has its least size. -/
def ispWindowOk (b : List Nat) (w h : Nat) : Bool :=
  let ww := bits (wd b 35) 13 0
  let wh := bits (wd b 35) 29 16
  decide (32 ≤ ww) && decide (24 ≤ wh) && decide (bits (wd b 34) 13 0 + ww ≤ w) && decide (bits (wd b 34) 29 16 + wh ≤ h)

/-- R123, and the rules of R111, R298 for an output. -/
def ispOutOk (s : State) (w h : Nat) (o : IspOut) : Bool :=
  decide (o.cx + o.cw ≤ w) && decide (o.cy + o.ch ≤ h) &&
  decide (o.ow ≤ o.cw) && decide (o.cw ≤ 16 * o.ow) && decide (o.oh ≤ o.ch) && decide (o.ch ≤ 16 * o.oh) &&
  (decide (1 < o.fmt) || (o.ow % 2 == 0 && o.oh % 2 == 0)) &&
  decide (1 ≤ o.rows) && decide (o.lineLen ≤ o.rows * 512) &&
  (if o.toWheel then o.planes == 1 && (decide (64 ≤ o.key % 256) || (wheelEn s o.key && placeRows s o.key == o.rows))
   else o.base % 512 == 0)

/-- R109: status of the check; `b` the parameter block where one is selected, `noReady` when no slot is READY. -/
def ispCheck (s : State) (c : Nat) (k : Task) (d : List Nat) (b : Option (List Nat)) (noReady : Bool) : Nat :=
  let st := bits (wd d 0) 5 0
  if ispReserved d || (match b with | some b => ispBlockReserved b | none => false) then 0x01
  else match streamAt s st, taskCtx s k with
  | some v, some (_, nd, _) =>
    if !v.started || !isPixel v then 0x02
    else if !stripesOk nd (sdHeight v) then 0x02
    else if (ispOuts d).any (fun o => !ispOutOk s (sdWidth v) (sdHeight v) o.2) ||
      (List.range 5).any (fun n => addr48 d ([1, 4, 6, 8, 10].getD n 0) % 512 != 0) ||
      (match b with | some b => !ispWindowOk b (sdWidth v) (sdHeight v) | none => false) then 0x02
    else if (ispOuts d).any (fun o => o.2.toWheel && decide (64 ≤ o.2.key % 256)) || decide (bits (wd d 3) 23 0 + 256 > 1048576)
    then 0x03
    else if (ispAt s c st).isNone && decide (16 ≤ (s.isp.filter (fun e => e.1 / 64 == c && e.2.isSome)).length) then 0x05
    else if noReady then 0x02
    else 0
  | _, _ => 0x02

/-! ### Parameter slots (R112, R113) -/

/-- Epoch `e` has been reached by `b` in serial order. -/
def epochReached (e b : Nat) : Bool := decide ((b + 65536 - e % 65536) % 65536 < 32768)

/-- R100: the epoch that binds a frame's parameters. -/
def bindingEpoch (v : Stream) (f : Frame) : Nat :=
  let e := frameEpochs v f
  if f.embFirst && (f.embExp.isSome || f.embGain.isSome) then epochMin e.1 e.2.1 else e.2.2.1

/-- READY slots of a ring, with their words. -/
def readySlots (ring : List Nat) : List (Nat × List Nat) :=
  ((List.range 8).map (fun n => (n, (ring.drop (4 * n)).take 4))).filter (fun e => bit (wd e.2 0) 24)

/-- EPOCH of a slot. -/
def slotEpoch (w : List Nat) : Nat := bits (wd w 0) 15 0

/-- R113: the slot selected for a binding epoch, and whether its epoch had not been reached. -/
def selectSlot (ring : List Nat) (b : Nat) : Option (Nat × List Nat × Bool) :=
  let l := readySlots ring
  let latest := fun (l : List (Nat × List Nat)) => l.foldl (fun (r : Option (Nat × List Nat)) e => match r with
    | none => some e
    | some x => if slotEpoch e.2 ≠ slotEpoch x.2 && epochReached (slotEpoch x.2) (slotEpoch e.2) then some e else some x) none
  let first := fun (l : List (Nat × List Nat)) => l.foldl (fun (r : Option (Nat × List Nat)) e => match r with
    | none => some e
    | some x => if slotEpoch e.2 ≠ slotEpoch x.2 && epochReached (slotEpoch e.2) (slotEpoch x.2) then some e else some x) none
  match latest (l.filter (fun e => epochReached (slotEpoch e.2) b)) with
  | some e => some (e.1, e.2, false)
  | none => (first l).map (fun e => (e.1, e.2, true))

/-- A reserved field of a slot is not 0. -/
def slotReserved (w : List Nat) : Bool :=
  decide (bits (wd w 0) 31 25 ≠ 0) || decide (bits (wd w 2) 31 16 ≠ 0) || wd w 3 != 0

/-- R112: what a slot fails the task's check with; a misaligned BLOCK is out of range, as every misaligned address (log
entry 101). -/
def slotStatus (w : List Nat) : Nat := if slotReserved w then 0x01 else if addr48 w 1 % 512 ≠ 0 then 0x02 else 0

/-! ### Flow and history (R118 to R120) -/

/-- Flags of the flow node: those over the PREV edges of kind FULL. -/
def ispFlowFlags (s : State) (k : Task) : Nat :=
  match taskCtx s k with
  | none => 0
  | some (v, _, i) =>
    orAll (((edgesOf v).filter (fun e => e.2.2.dst == k.node && e.2.2.prev && e.2.2.kind == 0)).map
      (fun e => prevFlags v i.seq e.2.1))

/-- R118: the frame uses the flow plane. -/
def ispFlowUsed (s : State) (k : Task) (d : List Nat) : Bool :=
  bit (wd d 0) 14 && !taskPrevAbsent s k && ispFlowFlags s k &&& (fInvalid ||| fUnchecked) == 0

/-- Grid size of the flow plane. -/
def flowGrid (d : List Nat) (w h : Nat) : Nat × Nat :=
  let q := 2 ^ bits (wd d 12) 3 2
  let g := 2 ^ bits (wd d 12) 1 0
  (cdiv (cdiv w q) g, cdiv (cdiv h q) g)

/-- R119: the vector position nearest to a pixel coordinate; of two equally near the even one, the model's choice (log
entry 213). -/
def flowNear (d : List Nat) (n : Nat) (x : Int) : Nat :=
  (clampI 0 ((n : Int) - 1) (rneDiv x (2 ^ (bits (wd d 12) 3 2 + bits (wd d 12) 1 0)))).toNat

/-- R118, R119: the motion vector of a pixel, in sixteenths. -/
def flowVec (s : State) (tn : Nat) (d b : List Nat) (w h : Nat) (x y : Int) : Int × Int :=
  let g := flowGrid d w h
  let a := addr48 d 10 + flowNear d g.2 y * bits (wd d 12) 19 4 * 512 + 8 * flowNear d g.1 x
  let v := rdN s tn a 4
  let c := rdN s tn (a + 4) 4
  if bits c 7 0 < bits (wd b 10) 23 16 ∨ bit c 8 then (0, 0)
  else ((2 ^ bits (wd d 12) 3 2 : Nat) * sx 16 (bits v 15 0), (2 ^ bits (wd d 12) 3 2 : Nat) * sx 16 (bits v 31 16))

/-- Address of a line of a history buffer. -/
def histLine (d : List Nat) (buf w y : Nat) : Nat := addr48 d (6 + 2 * buf) + y * cdiv (4 * w) 512 * 512

/-! ### A stripe -/

/-- R295: the image core accesses a frame on its landing wheel. -/
def openLand (k : Nat) (r : Run) (serial : Nat) (s : State) : State :=
  putWheel k (landStep (places s k) serial
    { wheelSt s k with cNode := some (nodeName r.task.tmpl r.task.node) }) s

/-- Lines below `hi` of the frame have landed; none when the frame is older than the two kept. -/
def landReady (s : State) (k serial hi : Nat) : Option Bool :=
  let w := wheelSt s k
  match cOrigin w serial with
  | some o => some (decide (o + hi ≤ w.tail))
  | none => if w.pUsed && decide (serial < w.pFrame) then none else some false

/-- The lines a stripe needs, `[y0, y1)` being its own: to 8 below. -/
def ispReach (y1 h : Nat) : Nat := min h (y1 + 8)

/-- R14, R125: what an output carries of its instance and its engine. -/
def ownFlags (s : State) (r : Run) : Nat :=
  (if (instAt s r.task.tmpl r.task.slot).map (fun i => i.stale) = some true then fStale else 0) ||| goldenFlags s r

/-- The flags a stripe's outputs carry (R125).  A frame whose history restarts passes the flow plane's flags too, the model's
choice (log entry 213). -/
def ispFlags (s : State) (r : Run) (f : Frame) (v : Stream) (flow : Bool) : Nat :=
  flagBits ((if degraded (frameStatus v f) then fDegraded else 0) |||
    (if flow then ispFlowFlags s r.task else 0) ||| ownFlags s r)

/-- R128: exchange the active bank; the stream that leaves has its pipe state saved in its rows, whose contents are
open. -/
def ispSwitch (c st slot pseq : Nat) (words : List Nat) (s : State) : State :=
  let a := ispBank s c
  if bankHas (ispBankAt s c a) st slot pseq then s
  else
    let loaded := bankHas (ispBankAt s c (1 - a)) st slot pseq
    let s1 := if loaded then s
      else cnt R.ispCoreLoad c 1 { s with ispBanks := tset none s.ispBanks (2 * c + (1 - a))
                                            (some { stream := st, slot := slot, pseq := pseq, words := words }) }
    let s2 := match ispBankAt s c a with
      | some b =>
        (match ispAt s c b.stream, streamAt s b.stream with
         | some x, some v =>
           let w := rowAddr (x.sra.getD 0)
           if x.sra.isNone then s1
           else (match chkAccess s v.tenant w 131072 true with
            | .ok => wrBytes v.tenant w ((List.range 131072).map (fun n => Config.lostByte s.free n)) (draw s1)
            | e => logChk e v.tenant (engI c 0) s1)
         | _, _ => s1)
      | none => s1
    cnt R.ispCoreSwitch c 1 (rput R.ispCoreStat c (st + 64 * (1 - a)) s2)

/-- R107: the landing lines a stripe releases when it completes: those above its own less 8, after the last one the
frame. -/
def ispReleases (s : State) (k serial y1 h : Nat) (last : Bool) : List (Nat × Nat × Nat) :=
  match cOrigin (wheelSt s k) serial with
  | some o => if last then [(k, 0, nextOrigin (places s k) o h)] else [(k, 0, o + (y1 - 8))]
  | none => []

/-- The flags of the enabled outputs added to those of the failed stripes of a stream's frame. -/
def ispLose (st serial flags : Nat) (d : List Nat) (s : State) : State :=
  let l := tget (0, []) s.ispLost st
  let old := if l.1 = serial then l.2 else []
  { s with
    ispLost := tset (0, []) s.ispLost st (serial, (List.range 4).map (fun o => if ispEn d o then wd old o ||| flags else wd old o)) }

/-- R109: an enabled output whose zero lines have a format and a place: one to a wheel needs the wheel, of its lines'
size. -/
def ispZeroes (s : State) (d : List Nat) : List (Nat × IspOut) :=
  (ispOuts d).filter (fun o => decide (o.2.fmt ≤ 9) &&
    (!o.2.toWheel || (decide (o.2.key % 256 < 64) && wheelEn s o.2.key && placeRows s o.2.key == o.2.rows)))

/-- The source lines whose output lines a failed stripe writes: its own; after the last stripe all that are left, where an
output's crop passes the frame or the frame's height is not known. -/
def ispFailLines (nd : Node) (k : Task) (h : Nat) : Nat × Nat :=
  let y0 := if h = 0 then nd.height * k.stripe else (stripeLines nd k h).1
  (y0, if k.stripe + 1 = nd.stripes then 2 ^ 32 else if h = 0 then nd.height * (k.stripe + 1) else (stripeLines nd k h).2)

/-- R106: the task's frame was landed on the stream's wheel. -/
def ispLanded (v : Option Stream) : Bool := match v with | some v => v.landed && isPixel v | none => false

/-- R109, R125, R510: a failed stripe: zero lines flagged INVALID, no history, its handles, log and count.  It completes
as any other: it releases its landing lines, and the last of a frame writes the frame record, also where the stream has
stopped since. -/
def ispFail (c : Nat) (r : Run) (d : List Nat) (status : Nat) (s : State) : State :=
  let eng := engI c 0
  let st := bits (wd d 0) 5 0
  let v := (streamAt s st).filter isPixel
  let f := if v.isSome then taskFrame s r.task else none
  let h := match v, f with
    | some v, some _ => sdHeight v
    | some v, none => if v.started then sdHeight v else 0
    | none, _ => 0
  let k := landKey s st
  let s0 := ispHold c r.task d (failRun eng 0x0018 R.ispCoreFault c status s)
  let s0 := match f with | some f => if ispLanded v then openLand k r f.serial s0 else s0 | none => s0
  match taskCtx s r.task with
  | none => s0
  | some (_, nd, _) =>
    let y := ispFailLines nd r.task h
    let outs := ispZeroes s d
    let wh := outs.filter (fun o => o.2.toWheel)
    let dst := wh.map (fun o => (o.2.key, (o.2.emits y.1 y.2).foldl (fun a j => max a (j + 1)) 0))
    let s1 := wh.foldl (fun s o => openProd o.2.key r o.2.oh s) s0
    match wheelsReady s1 r [] dst with
    | some (.stall k) => stallRun eng k s
    | some (.bad e) => faultRun eng e s
    | _ =>
      let own := fInvalid ||| (match f, v with | some f, some v => ispFlags s r f v false | _, _ => ownFlags s r)
      let w : Work := {
        reads := [], writes := outs.flatMap (fun o => o.2.writes s none (o.2.emits y.1 y.2)), flags := flagBits own, cycles := 0,
        pushes := ((ispOuts d).filter (fun o => o.2.handle)).map (fun o =>
          (o.2.millrace, handleIdx r.task.stripe (match f with | some f => f.index | none => 0) o.1)) }
      let s2 := wh.foldl (fun s o => markLines o.2.key r (o.2.emits y.1 y.2) s) (doWork eng w s1)
      match f with
      | none => s2
      | some f =>
        let last := decide (r.task.stripe + 1 = nd.stripes)
        let rel := if ispLanded v then ispReleases s2 k f.serial (stripeLines nd r.task h).2 h last else []
        modRun eng (fun r => { r with
          releases := rel, info := [st, f.serial], worked := !last, aux := b2n last })
          (ispLose st f.serial own d s2)

/-- What a stripe works with. -/
structure IspJob where
  d : List Nat
  v : Stream
  f : Frame
  x : IspCtx
  words : List Nat
  y0 : Nat
  y1 : Nat
  deriving DecidableEq, Repr

/-- The pipe holds line `n` of a frame. -/
def lineHeld (l : List (List Nat)) (n : Nat) : Bool := l.getD n [] != []

/-- The lines of `[lo, hi)` that the pipe does not hold. -/
def linesLacking (l : List (List Nat)) (lo hi : Nat) : List Nat :=
  ((List.range (hi - lo)).map (lo + ·)).filter (fun n => !lineHeld l n)

/-- Those lines filled in by `f`; lines above `lo` that the pipe does not hold, of stripes that failed, stay absent. -/
def fillLines (l : List (List Nat)) (lo hi : Nat) (f : Nat → List Nat) : List (List Nat) :=
  (List.range (max hi l.length)).map (fun n =>
    if lineHeld l n || decide (n < lo) || decide (hi ≤ n) then l.getD n [] else f n)

/-- R108: the landed lines a stripe reads, of its own and 8 on each side those the pipe does not hold. -/
def ispTakes (j : IspJob) : List Nat := linesLacking j.x.lines (j.y0 - 8) (ispReach j.y1 (sdHeight j.v))

/-- The lines of stage 5 a stripe computes, of its own and 2 on each side those the pipe does not hold. -/
def ispMakes (j : IspJob) : List Nat := linesLacking j.x.five (j.y0 - 2) (min (sdHeight j.v) (j.y1 + 2))

/-- The pipe's inputs with the lines a stripe reads and the lines of stage 5 it computes. -/
def ispInputs (s : State) (r : Run) (j : IspJob) : IspIn :=
  let k := landKey s j.x.stream
  let w := sdWidth j.v
  let h := sdHeight j.v
  let lines := fillLines j.x.lines (j.y0 - 8) (ispReach j.y1 h) (fun n =>
    lineCodes j.v (rdBytes s j.v.tenant (lineAddr s k n) (lineBytes j.v)))
  let base : IspIn := { b := j.words, cfa := bits (wd j.d 0) 11 8, phase := bits (wd j.d 0) 13 12, w := w, h := h,
                        dt := sdDt j.v, lines := lines, five := j.x.five, ran := [] }
  let tn := r.task.tenant
  let hist : Option (Int → Int → Nat) :=
    if j.x.reset then none
    else some (fun a b => rdN s tn (histLine j.d (1 - j.f.index % 2) w b.toNat + 4 * a.toNat) 4 % 1048576)
  let vec := fun a b => if j.x.flow then flowVec s tn j.d j.words w h a b else (0, 0)
  if base.rawStats then
    { base with five := fillLines j.x.five (j.y0 - 2) (min h (j.y1 + 2)) (fun n =>
        (List.range w).map (fun (x : Nat) => base.s5 hist vec (x : Int) ((n : Nat) : Int))) }
  else base

/-- The stripe writes history. -/
def ispHistOn (j : IspJob) : Bool := bit (wd j.words 0) 4 && !dtYuv (sdDt j.v) && !dtRgb (sdDt j.v)

/-- R103, R118 to R125: the memory work of a stripe. -/
def ispWork (s : State) (r : Run) (j : IspJob) (i : IspIn) (cycles : Nat) : Work :=
  let k := landKey s j.x.stream
  let w := sdWidth j.v
  let h := sdHeight j.v
  let outs := ispOuts j.d
  let hb := cdiv (4 * w) 512 * 512
  let g := flowGrid j.d w h
  let fl := bits (wd j.d 12) 19 4 * 512
  let rows := ((ispMakes j).map (fun n => flowNear j.d g.2 ((n : Nat) : Int))).eraseDups
  { reads := (ispTakes j).map (fun n => (lineAddr s k n, lineBytes j.v)) ++
      (if ispHistOn j && !j.x.reset then [(histLine j.d (1 - j.f.index % 2) w 0, h * hb)] else []) ++
      (if ispHistOn j && j.x.flow && !j.x.reset then rows.map (fun q => (addr48 j.d 10 + q * fl, 8 * g.1)) else []),
    writes := outs.flatMap (fun o => o.2.writes s (some i) (o.2.emits j.y0 j.y1)) ++
      (if ispHistOn j then (List.range (j.y1 - j.y0)).map (fun q =>
        (histLine j.d (j.f.index % 2) w (j.y0 + q), (i.five.getD (j.y0 + q) []).flatMap (leBytes 4))) else []),
    flags := ispFlags s r j.f j.v j.x.flow, cycles := cycles,
    pushes := (outs.filter (fun o => o.2.handle)).map (fun o => (o.2.millrace, handleIdx r.task.stripe j.f.index o.1)) }

/-- The context after a stripe. -/
def ispAfter (j : IspJob) (i : IspIn) (nd : Node) (flags : Nat) : IspCtx :=
  let ran := if j.x.ran.contains (j.y0, j.y1) then j.x.ran else j.x.ran ++ [(j.y0, j.y1)]
  let hist := if ispHistOn j then ran.length else 0
  { j.x with
    lines := i.lines, five := i.five, ran := ran, hist := hist,
    lastHist := if hist = nd.stripes then some j.f.index else j.x.lastHist,
    valid := (List.range 4).map (fun o => if ispEn j.d o then wd j.x.valid o ||| flags else wd j.x.valid o),
    sra := some (bits (wd j.d 3) 23 0) }

/-- The stripe runs: bank switch, outputs, history, landing releases at its completion. -/
def ispLines (c : Nat) (r : Run) (j : IspJob) (nd : Node) (s : State) : State :=
  let eng := engI c 0
  let st := j.x.stream
  let k := landKey s st
  let hi := ispReach j.y1 (sdHeight j.v)
  let outs := (ispOuts j.d).filter (fun o => o.2.toWheel)
  let dst := outs.map (fun o => (o.2.key, (o.2.emits j.y0 j.y1).foldl (fun a n => max a (n + 1)) 0))
  let s1 := outs.foldl (fun s o => openProd o.2.key r o.2.oh s) (openLand k r j.f.serial s)
  match landReady s1 k j.f.serial hi, wheelsReady s1 r [] dst with
  | none, _ => faultRun eng (.unmapped (lineAddr s k 0)) s1
  | some false, _ => stallRun eng k s1
  | some true, some (.stall q) => stallRun eng q s1
  | some true, some (.bad e) => faultRun eng e s1
  | some true, _ =>
    let a := ispBank s c
    let inA := bankHas (ispBankAt s c a) st j.x.slot j.x.pseq
    let inB := bankHas (ispBankAt s c (1 - a)) st j.x.slot j.x.pseq
    let cyc := cdiv (sdWidth j.v) 2 * (j.y1 - j.y0) + (if inA then 0 else 256) + (if inA || inB then 0 else 928)
    let i := ispInputs s1 r j
    let w0 := ispWork s1 r j i cyc
    let w := { w0 with reads := w0.reads ++ (if inA || inB then [] else [(j.x.block, 59392)]) ++
      (if inA || j.x.sra.isNone then [] else [(rowAddr (bits (wd j.d 3) 23 0), 131072)]) }
    match chkAll s1 r.task.tenant w.reads (w.writes.map (fun x => (x.1, x.2.length))) with
    | .ok =>
      let s2 := ispSwitch c st j.x.slot j.x.pseq j.words s1
      let s3 := doWork eng w s2
      let s4 := outs.foldl (fun s o => markLines o.2.key r (o.2.emits j.y0 j.y1) s) s3
      let s5 := ispHold c r.task j.d (ispPut c st (ispAfter j i nd w.flags) s4)
      let last := decide (r.task.stripe + 1 = nd.stripes)
      let rel := ispReleases s5 k j.f.serial j.y1 (sdHeight j.v) last
      modRun eng (fun r => { r with
        releases := rel, info := [st, j.f.serial], worked := !last, aux := b2n last }) s5
    | e => faultRun eng e s1

/-- R106, R107: a stripe of a frame that is landed runs; one whose stream opened without a bound wheel reads lines that
never land, and waits without touching a wheel (log entry 100). -/
def ispRun (c : Nat) (r : Run) (j : IspJob) (nd : Node) (s : State) : State :=
  if j.v.landed then ispLines c r j nd s else modRun (engI c 0) (fun r => { r with stalled := true }) s

/-- R113, R120: a core's first stripe of a frame: slot, bank, history and flow are fixed for the frame. -/
def ispBegin (s : State) (k : Task) (d : List Nat) (f : Frame) (x : IspCtx) (slot pseq epoch block : Nat) (tnr : Bool) : IspCtx :=
  { x with
    serial := f.serial, index := f.index, slot := slot, pseq := pseq, epoch := epoch, block := block, lines := [], five := [], ran := [],
    hist := 0, valid := [0, 0, 0, 0], flow := tnr && ispFlowUsed s k d,
    reset := tnr && !(ispCtxs s x.stream).any (fun y => y.lastHist == some (w32 (f.index + 2 ^ 32 - 1))) }

/-- Lines held by either of two states of the pipe. -/
def mergeLines (a b : List (List Nat)) : List (List Nat) := fillLines a 0 b.length (fun n => b.getD n [])

/-- What two cores know of one frame. -/
def IspCtx.merge (x y : IspCtx) : IspCtx :=
  let ran := x.ran ++ y.ran.filter (fun p => !x.ran.contains p)
  { x with
    lines := mergeLines x.lines y.lines, five := mergeLines x.five y.five, ran := ran, hist := if x.hist + y.hist = 0 then 0 else ran.length,
    lastHist := if y.lastHist = some y.index then y.lastHist else x.lastHist,
    valid := (List.range 4).map (fun o => wd x.valid o ||| wd y.valid o), sra := match x.sra with | some a => some a | none => y.sra }

/-- All that a list of contexts knows of a frame. -/
def frameCtx (l : List IspCtx) (serial : Nat) : Option IspCtx :=
  match l.filter (fun x => x.serial == serial) with
  | [] => none
  | x :: r => some (r.foldl IspCtx.merge x)

/-- The state of a stream's pipe (R120, R128): of the frame where a core has taken a stripe of it, whichever core that was;
otherwise that of the latest frame. -/
def ispFind (s : State) (st serial : Nat) : IspCtx :=
  let l := ispCtxs s st
  match frameCtx l serial with
  | some x => x
  | none => (frameCtx l (l.foldl (fun m x => max m x.serial) 0)).getD (ispFresh st)

/-- A stripe whose frame, slot and block are known goes through the rest of its check and runs. -/
def ispStripe (c : Nat) (r : Run) (d : List Nat) (v : Stream) (f : Frame) (x : IspCtx) (words : List Nat) (s : State) : State :=
  match ispCheck s c r.task d (some words) false, taskCtx s r.task with
  | 0, some (_, nd, _) =>
    let y := stripeLines nd r.task (sdHeight v)
    ispRun c r { d := d, v := v, f := f, x := x, words := words, y0 := y.1, y1 := y.2 } nd s
  | st, _ => ispFail c r d (max 1 st) s

/-- The block of a parameter set: from a bank that holds it, otherwise read. -/
def ispBlock (s : State) (c tn st slot pseq a : Nat) : Chk × List Nat :=
  match (List.range 2).find? (fun b => bankHas (ispBankAt s c b) st slot pseq) with
  | some b => (.ok, match ispBankAt s c b with | some x => x.words | none => [])
  | none =>
    match chkAccess s tn a 59392 false with
    | .ok => (.ok, rdWords s tn a 14848)
    | e => (e, [])

/-- R113, R118, R120: the first stripe of a frame fixes slot, flow and history, counts what the frame does, and runs. -/
def ispFirst (c : Nat) (r : Run) (d : List Nat) (v : Stream) (f : Frame) (x : IspCtx) (slot : Nat) (w : List Nat) (early : Bool)
    (words : List Nat) (s : State) : State :=
  let tnr := bit (wd words 0) 4 && !dtYuv (sdDt v) && !dtRgb (sdDt v)
  let x1 := ispBegin s r.task d f x slot (bits (wd w 0) 23 16) (slotEpoch w) (addr48 w 1) tnr
  let s1 := if ispCheck s c r.task d (some words) false = 0 then
      cnt R.ispCoreEarly c (b2n early) (cnt R.ispCoreFallback c (b2n (tnr && !x1.flow))
        (cnt R.ispCoreTnrReset c (b2n x1.reset) (ispPut c (bits (wd d 0) 5 0) x1 (readMark r.task.tenant (addr48 d 1) 128 s))))
    else s
  ispStripe c r d v f x1 words s1

/-- The parameter block of a task whose frame is known, where ring and block can be read: the check looks at it first
(R109). -/
def ispPeek (s : State) (c : Nat) (r : Run) (d : List Nat) : Option (List Nat) :=
  let st := bits (wd d 0) 5 0
  let tn := r.task.tenant
  let got := fun (e : Chk × List Nat) => match e with | (.ok, w) => some w | _ => none
  match (streamAt s st).filter (fun v => v.started && isPixel v), taskFrame s r.task with
  | some v, some f =>
    let x := ispFind s st f.serial
    if x.serial = f.serial then got (ispBlock s c tn st x.slot x.pseq x.block)
    else match chkAccess s tn (addr48 d 1) 128 false with
      | .ok => (match selectSlot (rdWords s tn (addr48 d 1) 32) (bindingEpoch v f) with
        | some (slot, w, _) => got (ispBlock s c tn st slot (bits (wd w 0) 23 16) (addr48 w 1))
        | none => none)
      | _ => none
  | _, _ => none

/-- R103, R109, R113: an image-core task from its dispatch on.  R422: one dispatched for a camera stream that its tenant is
not granted aborts its instance. -/
def ispGo (c : Nat) (r : Run) (s : State) : State :=
  let eng := engI c 0
  if r.aux = 1 then s
  else match chkAccess s r.task.tenant (descAddr s r.task) 192 false with
  | .ok =>
    let d := descWords s r.task 48
    let st := bits (wd d 0) 5 0
    if !r.stalled && !streamGranted s r.task.tenant st then wantAbort r.task.tmpl r.task.slot 2 s
    else (match ispCheck s c r.task d (ispPeek s c r d) false, streamAt s st, taskFrame s r.task with
     | 0, some v, some f =>
       let tn := r.task.tenant
       let x := ispFind s st f.serial
       if x.serial = f.serial then
         (match ispBlock s c tn st x.slot x.pseq x.block with
          | (.ok, words) => ispStripe c r d v f x words s
          | (e, _) => faultRun eng e s)
       else (match chkAccess s tn (addr48 d 1) 128 false with
        | .ok =>
          (match selectSlot (rdWords s tn (addr48 d 1) 32) (bindingEpoch v f) with
           | none => ispFail c r d (ispCheck s c r.task d none true) s
           | some (slot, w, early) =>
             if slotStatus w ≠ 0 then ispFail c r d (slotStatus w) s
             else (match ispBlock s c tn st slot (bits (wd w 0) 23 16) (addr48 w 1) with
              | (.ok, words) => ispFirst c r d v f x slot w early words s
              | (e, _) => faultRun eng e s))
        | e => faultRun eng e s)
     | 0, _, _ => modRun eng (fun r => { r with stalled := true }) s
     | e, _, _ => ispFail c r d e s)
  | e => faultRun eng e s

/-- A core takes or goes on with an image-core task; a dispatch at raised priority is counted (R130). -/
def ispStep (c : Nat) (s : State) : State :=
  let eng := engI c 0
  match runOn s eng with
  | some _ => engineStep 0 eng none (fun _ => true) (ispGo c) s
  | none =>
    match ispPick s c with
    | some k =>
      let s1 := if ispPressed s k && decide (k.prio < prioCap s k.tenant) then cnt R.ispCorePress c 1 s else s
      engineStep 0 eng (some k) (fun _ => true) (ispGo c) s1
    | none => s

/-! ### The frame record (R126) -/

/-- The bytes of a frame record; EFF_EPOCH and REQ_EPOCH are the final metadata record's (R92).  OUT_VALIDITY of an output
that no stripe enabled has no flags, the model's choice (log entry 213). -/
def ispRecord (st : Nat) (v : Stream) (f : Frame) (x : IspCtx) (stats : Bool) (i : IspIn) : List Byte :=
  let ov := sumN ((List.range 4).map (fun o => validity (wd x.valid o) * 2 ^ (8 * o)))
  let hd := [st + 256 * (if degraded (frameStatus v f) then 8 else 1), w32 f.index,
    f.eff + 65536 * f.req, x.epoch + 65536 * x.slot, ov, b2n x.flow + 2 * b2n x.reset]
  let sec := fun (n : Nat) (l : List Nat) => if stats then l else List.replicate n 0
  wordsBytes (hd ++ List.replicate 10 0 ++ sec 4 i.satCounts ++ List.replicate 12 0 ++ sec 256 i.histogram ++
    sec 192 i.sharpness ++ sec 3072 i.wbGrid ++ List.replicate 32 0)

/-- What is known of a frame when its record is written: what the cores that took its stripes gathered, or nothing where all
failed, and the flags of the stripes that failed. -/
def ispFrameCtx (s : State) (st serial : Nat) : IspCtx :=
  let y := (frameCtx (ispCtxs s st ++ tget [] s.ispKept st) serial).getD (ispFresh st)
  let l := tget (0, []) s.ispLost st
  { y with valid := (List.range 4).map (fun o => wd y.valid o ||| (if l.1 = serial then wd l.2 o else 0)) }

/-- R126: the last task of a frame writes the frame record once the final metadata record exists, and completes. -/
def ispFinish (c : Nat) (s : State) : State :=
  let eng := engI c 0
  match runOn s eng with
  | none => s
  | some r =>
    let st := wd r.info 0
    match streamAt s st with
    | some v =>
      (match v.frames.find? (fun f => f.serial == wd r.info 1) with
       | some f =>
         if r.task.cls == 0 && r.aux == 1 && !r.worked && !r.cancelled && f.close.isSome then
           let x := ispFrameCtx s st f.serial
           let d := descWords s r.task 48
           let words := if x.serial = 0 then [] else (ispBlock s c r.task.tenant st x.slot x.pseq x.block).2
           let i : IspIn := { b := words, cfa := bits (wd d 0) 11 8, phase := bits (wd d 0) 13 12, w := sdWidth v,
                              h := sdHeight v, dt := sdDt v, lines := x.lines, five := x.five, ran := x.ran }
           let fl := ispFlags s r f v x.flow
           let x1 := { x with valid := (List.range 4).map (fun o => if ispEn d o then wd x.valid o ||| fl else wd x.valid o) }
           let w : Work := { workNone with
             writes := [(addr48 d 4 + f.index % 8 * 14336, ispRecord st v f x1 (bit (wd d 0) 7) i)], flags := fl }
           let s1 := if (ispAt s c st).map (fun x => x.serial) = some f.serial then ispPut c st { x1 with lines := [], five := [] } s
             else s
           settle (modRun eng (fun r => { r with aux := 0 }) (doWork eng w s1))
         else s
       | none => s)
    | none => s

/-- R103. -/
def execIcoreTask (core : Nat) (s : State) : Host.Outcome State Fault Refusal := act (decide (core < 4)) s (ispStep core)

/-- R126. -/
def execIspFrameRecord (core : Nat) (s : State) : Host.Outcome State Fault Refusal := act (decide (core < 4)) s (ispFinish core)

end Sys2Proof.Machine
end

