-- ==== Sys2Proof/Machine/Keypoint.lean ====
section
/-! DEFINITION. Keypoint engines (R201 to R225): descriptors, checks, DETECT and MATCH. -/

namespace Sys2Proof.Machine

/-! ### Descriptors (R220) -/

def kpHandle (d : List Nat) : Bool := bit (wd d 0) 2
def kpMillrace (d : List Nat) : Nat := bits (wd d 0) 13 4
def kpStat (d : List Nat) : Nat := addr48 d 1

def dtT (d : List Nat) : Nat := bits (wd d 8) 15 0
def dtArc (d : List Nat) : Nat := bits (wd d 8) 19 16
/-- Half width of the suppression window. -/
def dtNms (d : List Nat) : Nat := if bit (wd d 8) 20 then 2 else 1
def dtShift (d : List Nat) : Nat := bits (wd d 8) 24 23
def dtK (d : List Nat) : Nat := bits (wd d 9) 7 0
def dtMax (d : List Nat) : Nat := bits (wd d 9) 15 8
def dtCw (d : List Nat) : Nat := 16 * 2 ^ bits (wd d 9) 18 16
def dtCh (d : List Nat) : Nat := 16 * 2 ^ bits (wd d 9) 21 19
def dtMin (d : List Nat) : Nat := wd d 10
def dtBorder (d : List Nat) : Nat := bits (wd d 11) 7 0
def dtCap (d : List Nat) : Nat := bits (wd d 11) 20 8
def dtRows (d : List Nat) : Nat := bits (wd d 12) 15 0
def dtList (d : List Nat) : Nat := addr48 d 13
def dtPattern (d : List Nat) : Nat := addr48 d 15
def dtSrc (d : List Nat) : ImgRef := imgAt d 20
def dtMap (d : List Nat) : FeatRef := featAt d 24

/-- R209: KH. -/
def dtKh (d : List Nat) : Nat := if dtKind d = 1 then 17 else if dtNms d = 2 then 6 else 5

/-- The lists a TRACK or MATCH task reads: the words that hold them begin at `k`. -/
structure Lists where
  base : Nat
  rows : Nat
  cap : Nat
  stripes : Nat
  deriving DecidableEq, Repr

def listsAt (d : List Nat) (k : Nat) : Lists :=
  { base := addr48 d k, rows := bits (wd d (k + 2)) 15 0, cap := bits (wd d (k + 2)) 28 16, stripes := bits (wd d (k + 3)) 9 0 + 1 }

/-- R208: the block of stripe `i` of an instance slot. -/
def Lists.block (l : Lists) (slot i : Nat) : Nat := l.base + (slot * l.stripes + i) * l.rows * 512

/-- R208: their rules. -/
def Lists.rules (l : Lists) : Bool :=
  l.base % 512 == 0 && decide (1 ≤ l.cap) && decide (l.cap ≤ 4096) && decide (cdiv (1 + l.cap) 8 ≤ l.rows)

def mtKind (d : List Nat) : Nat := bits (wd d 8) 1 0
def mtMask (d : List Nat) : Bool := bit (wd d 8) 2
def mtRatio (d : List Nat) : Nat := bits (wd d 8) 15 8
def mtPart (d : List Nat) : Nat := bits (wd d 8) 21 16
def mtMaxDist (d : List Nat) : Nat := wd d 9
def mtFirst (d : List Nat) : Nat := bits (wd d 10) 15 0
def mtCount (d : List Nat) : Nat := bits (wd d 10) 28 16
def mtRef (d : List Nat) : Nat := addr48 d 11
def mtOut (d : List Nat) : Nat := addr48 d 17

def tkPart (d : List Nat) : Nat := bits (wd d 8) 5 0
/-- Side of the window. -/
def tkSide (d : List Nat) : Nat := if bit (wd d 8) 9 then 16 else 8
def tkIter (d : List Nat) : Nat := bits (wd d 8) 14 10
def tkPredict (d : List Nat) : Bool := bit (wd d 8) 15
def tkHintEn (d : List Nat) : Bool := bit (wd d 8) 16
def tkHintStep (d : List Nat) : Nat := 2 ^ bits (wd d 8) 18 17
def tkRevive (d : List Nat) : Bool := bit (wd d 8) 19
def tkSpawn (d : List Nat) : Bool := bit (wd d 8) 20
def tkEps (d : List Nat) : Nat := bits (wd d 9) 7 0
def tkLostMax (d : List Nat) : Nat := bits (wd d 9) 15 8
def tkConfirm (d : List Nat) : Nat := bits (wd d 9) 23 16
def tkDist (d : List Nat) : Nat := bits (wd d 9) 31 24
def tkEig (d : List Nat) : Nat := wd d 10
def tkResid (d : List Nat) : Nat := bits (wd d 11) 15 0
def tkReviveMax (d : List Nat) : Nat := wd d 12
def tkMatch (d : List Nat) : Nat := addr48 d 17
def tkStore (d : List Nat) : Nat := addr48 d 19
def tkSnap (d : List Nat) : Nat := addr48 d 21
def tkCur (d : List Nat) (k : Nat) : ImgRef := imgAt d (24 + 4 * k)
def tkPrev (d : List Nat) (k : Nat) : ImgRef := imgAt d (52 + 4 * k)
def tkHintAt : Nat := 80

/-! ### The dispatch check (R224) -/

/-- Defined bits of the words the operations share. -/
def kpHead : List Nat := [0x3FF7, 0xFFFFFFFF, 0xFFFF, 0, 0, 0, 0, 0]

/-- Defined bits of an operation. -/
def kpMask (op : Nat) : List Nat :=
  let f := 0xFFFFFFFF
  if op = 0 then kpHead ++ [0x1FFFFFF, 0x3FFFFF, f, 0x1FFFFF, 0xFFFF, f, 0xFFFF, f, 0xFFFF, 0, 0, 0, f, f, f, f, f, f, f, f]
  else if op = 1 then kpHead ++ [0x1FFFFF, f, f, 0xFFFF, f, f, 0xFFFF, 0x1FFFFFFF, 0x3FF, f, 0xFFFF, f, 0xFFFF, f, 0xFFFF, 0] ++
    List.replicate 60 f
  else kpHead ++ [0x3FFF07, f, 0x1FFFFFFF, f, 0xFFFF, f, 0xFFFF, 0x1FFFFFFF, 0x3FF, f, 0xFFFF]

/-- An image a keypoint task reads: one plane of U8 or U16, 16 to 8,192 on each side. -/
def kpImage (s : State) (i : ImgRef) : Bool :=
  i.rules s && decide (i.pix ≤ 1) && i.planes == 0 && decide (16 ≤ i.width) && decide (16 ≤ i.height)

/-- Signed bytes of the pattern block: one list of four a pair. -/
def kpPattern (s : State) (tn : Nat) (d : List Nat) (q : Nat) : List (List Int) :=
  let b := rdBytes s tn (dtPattern d + 1024 * q) 1024
  (List.range 256).map (fun n => (List.range 4).map (fun k => sx 8 ((b.getD (4 * n + k) 0).toNat)))

/-- R206: every pattern byte lies in −15 to 15. -/
def patternOk (s : State) (tn : Nat) (d : List Nat) : Bool :=
  (rdBytes s tn (dtPattern d) 32768).all (fun b => decide ((sx 8 b.toNat).natAbs ≤ 15))

/-- The HALO in-edges of a task's node: the greatest HALO_K, and all satisfy a bound. -/
def haloEdges (s : State) (k : Task) : List Nat :=
  match taskCtx s k with
  | some (v, _, _) => ((edgesOf v).filter (fun e => e.2.2.dst == k.node && !e.2.2.prev && decide (2 ≤ e.2.2.kind))).map (fun e => e.2.2.halo)
  | none => []

/-- R205, R209: striping of a DETECT node.  A HALO edge joins the image's producer; which of several it is the descriptor
does not say, and one that satisfies the bounds serves. -/
def dtStripes (s : State) (nd : Node) (k : Task) (d : List Nat) : Bool :=
  let src := dtSrc d
  stripesOk nd src.height && (nd.height == 0 || (nd.height % dtCh d == 0 &&
    (haloEdges s k).any (fun x => decide (dtKh d ≤ nd.height * x) &&
      (!src.wheel || src.range || decide (2 * dtKh d + nd.height * (x + 2) ≤ places s src.key)))))

/-- Ranges of a DETECT descriptor. -/
def dtRules (s : State) (nd : Node) (r : Run) (d : List Nat) : Bool :=
  decide (1 ≤ dtT d) && decide (9 ≤ dtArc d) && decide (dtArc d ≤ 12) && (dtKind d == 2 || dtShift d == 0) &&
  decide (1 ≤ dtK d) && decide (1 ≤ dtMax d) && f32NonNeg (dtMin d) && decide (3 ≤ dtBorder d) &&
  (dtKind d != 1 || decide (17 ≤ dtBorder d)) && decide (1 ≤ dtCap d) && decide (dtCap d ≤ 4096) &&
  decide (cdiv (1 + dtCap d) 8 ≤ dtRows d) && dtList d % 512 == 0 && dtPattern d % 512 == 0 &&
  (dtKind d == 1 || dtPattern d == 0) && kpImage s (dtSrc d) && dtStripes s nd r.task d &&
  (if dtKind d = 2 then (dtMap d).rules s && (dtMap d).fmt == 1 && (dtMap d).ch == 32 else ofZero d 24) &&
  (dtKind d != 1 || chkAll s r.task.tenant [(dtPattern d, 32768)] [] != .ok || patternOk s r.task.tenant d)

/-- R224: a partition is enabled and its stream is granted to the task's tenant. -/
def partOpen (s : State) (r : Run) (p : Nat) : Bool :=
  let c := rget s R.kpePartCtrl p
  bit c 0 && streamGranted s r.task.tenant (bits c 8 3)

/-- Ranges of a MATCH descriptor. -/
def mtRules (s : State) (nd : Node) (r : Run) (d : List Nat) : Bool :=
  nd.height == 0 && nd.stripes == 1 && (mtKind d == 1 || mtKind d == 2) && (mtMask d || mtPart d == 0) && decide (1 ≤ mtCount d) &&
  decide (mtCount d ≤ 4096) && mtRef d % 512 == 0 && mtOut d % 512 == 0 && (listsAt d 13).rules &&
  (!mtMask d || (partOpen s r (mtPart d) && decide (mtFirst d + mtCount d ≤ (partRange s (mtPart d)).2)))

/-- One level's images of a TRACK task. -/
def tkLevelRules (s : State) (d : List Nat) (k : Nat) : Bool :=
  let a := tkCur d k
  let b := tkPrev d k
  kpImage s a && kpImage s b && a.width == levelSize (tkCur d 0).width k &&
  a.height == levelSize (tkCur d 0).height k && b.width == a.width && b.height == a.height && b.pix == a.pix

/-- The node has a PREV edge from itself. -/
def kpSelf (s : State) (k : Task) : Bool :=
  match taskCtx s k with
  | some (v, nd, _) => (edgesOf v).any (fun e => e.2.2.dst == k.node && selfEdge nd k.node e)
  | none => false

/-- Ranges of a TRACK descriptor. -/
def tkRules (s : State) (nd : Node) (r : Run) (d : List Nat) : Bool :=
  let p := tkPart d
  let own := rget s R.kpePartOwner p
  let lists := tkRevive d || tkSpawn d
  let w := (tkCur d 0).width
  let h := (tkCur d 0).height
  nd.height == 0 && nd.stripes == 1 && decide (1 ≤ tkLevels d) && decide (1 ≤ tkIter d) && decide (tkIter d ≤ 30) && decide (1 ≤ tkEps d) &&
  decide (tkLostMax d ≤ 254) && decide (1 ≤ tkConfirm d) && f32NonNeg (tkEig d) && decide (tkReviveMax d ≤ 2080800) &&
  (if lists then (listsAt d 13).rules else addr48 d 13 == 0) && (if tkRevive d then tkMatch d % 512 == 0 else tkMatch d == 0) &&
  tkStore d % 512 == 0 && tkSnap d % 512 == 0 && (List.range (tkLevels d)).all (tkLevelRules s d) &&
  (List.range 7).all (fun k => decide (k < tkLevels d) || (ofZero d (24 + 4 * k) && ofZero d (52 + 4 * k))) &&
  (if tkHintEn d then frRules d tkHintAt (cdiv w (tkHintStep d)) (cdiv h (tkHintStep d)) else ofZero d tkHintAt) &&
  kpSelf s r.task && partOpen s r p && bits own 7 0 == r.task.tmpl && bits own 27 8 == r.task.node

/-- Reserved encodings and bits of the references. -/
def kpReserved (d : List Nat) : Bool :=
  kpOp d == 3 || maskFails d (kpMask (kpOp d)) ||
  (if kpOp d = 0 then dtKind d == 3 || decide (4 < bits (wd d 9) 18 16) || decide (4 < bits (wd d 9) 21 19) || (dtSrc d).reserved ||
     (dtKind d == 2 && (dtMap d).reserved)
   else if kpOp d = 1 then bits (wd d 8) 18 17 == 3 || frReserved d tkHintAt ||
     (List.range (tkLevels d)).any (fun k => (tkCur d k).reserved || (tkPrev d k).reserved)
   else false)

/-- A reference names a wheel of a core that does not exist. -/
def kpRange (d : List Nat) : Bool :=
  if kpOp d = 0 then (dtSrc d).range || (dtKind d == 2 && (dtMap d).range)
  else kpOp d == 1 && (List.range (tkLevels d)).any (fun k => (tkCur d k).range || (tkPrev d k).range)

/-- R224: status of the check. -/
def kpCheck (s : State) (nd : Node) (r : Run) (d : List Nat) : Nat :=
  if kpReserved d then 0x01
  else if kpStat d % 512 != 0 || !(if kpOp d = 0 then dtRules s nd r d else if kpOp d = 1 then tkRules s nd r d else mtRules s nd r d) then 0x02
  else if kpRange d then 0x03
  else 0

/-! ### Detection (R202 to R205) -/

/-- The circle, in order. -/
def fastCircle : List (Int × Int) :=
  [(0, -3), (1, -3), (2, -2), (3, -1), (3, 0), (3, 1), (2, 2), (1, 3), (0, 3), (-1, 3), (-2, 2), (-3, 1), (-3, 0), (-3, -1), (-2, -2), (-1, -3)]

/-- At least `arc` of 16 circular flags in a row. -/
def arcOf (arc : Nat) (l : List Bool) : Bool :=
  (List.range 16).any (fun a => (List.range arc).all (fun k => l.getD ((a + k) % 16) false))

/-- R202: a candidate. -/
def isFast (f : Int → Int → Nat) (t arc : Nat) (x y : Int) : Bool :=
  let c : Int := f x y
  let ring := fastCircle.map (fun o => ((f (x + o.1) (y + o.2) : Nat) : Int))
  arcOf arc (ring.map (fun v => decide (c + t < v))) || arcOf arc (ring.map (fun v => decide (v < c - t)))

/-- Offsets −3 to 3. -/
def sevenOff : List Int := [-3, -2, -1, 0, 1, 2, 3]

/-- R203: the Harris score. -/
def harris (f : Int → Int → Nat) (k : Nat) (x y : Int) : Nat :=
  let g := sevenOff.flatMap (fun v => sevenOff.map (fun u =>
    (((f (x + u + 1) (y + v) : Nat) : Int) - (f (x + u - 1) (y + v) : Nat), ((f (x + u) (y + v + 1) : Nat) : Int) - (f (x + u) (y + v - 1) : Nat))))
  let a := f32OfInt (sumI (g.map (fun e => e.1 * e.1)))
  let b := f32OfInt (sumI (g.map (fun e => e.2 * e.2)))
  let m := f32OfInt (sumI (g.map (fun e => e.1 * e.2)))
  let t := f32Add a b
  f32Sub (f32Sub (f32Mul a b) (f32Mul m m)) (f32Mul (f32Lit k (-8)) (f32Mul t t))

/-- A scored candidate or a feature. -/
structure Corner where
  x : Nat
  y : Nat
  score : Nat
  deriving DecidableEq, Repr

/-- Raster order. -/
def Corner.before (a b : Corner) : Bool := decide (a.y < b.y) || (a.y == b.y && decide (a.x < b.x))

/-- The candidates of lines `[a, b)` in raster order. -/
def dtCands (f : Int → Int → Nat) (d : List Nat) (w h a b : Nat) : List Corner :=
  let m := dtBorder d
  (List.range (b - a)).flatMap (fun j => (List.range w).filterMap (fun x =>
    let y := a + j
    if decide (m ≤ x) && decide (x + m < w) && decide (m ≤ y) && decide (y + m < h) && isFast f (dtT d) (dtArc d) x y
    then some { x := x, y := y, score := harris f (dtK d) x y } else none))

/-- R204: the candidate survives. -/
def nmsKeeps (n : Nat) (l : List Corner) (c : Corner) : Bool :=
  l.all (fun o => decide (n < ((o.x : Int) - c.x).natAbs) || decide (n < ((o.y : Int) - c.y).natAbs) || o == c ||
    (if o.before c then f32Lt o.score c.score else !f32Lt c.score o.score))

/-- Insert by descending score, after its equals. -/
def byScore (c : Corner) : List Corner → List Corner
  | [] => [c]
  | a :: t => if f32Lt a.score c.score then c :: a :: t else a :: byScore c t

/-- R205: the features of lines `[y0, y1)`, cell by cell in raster order. -/
def bucketed (d : List Nat) (w y0 y1 : Nat) (l : List Corner) : List Corner :=
  let cw := dtCw d
  let ch := dtCh d
  (List.range (cdiv y1 ch - y0 / ch)).flatMap (fun j => (List.range (cdiv w cw)).flatMap (fun i =>
    ((l.filter (fun c => c.y / ch == y0 / ch + j && c.x / cw == i)).foldl (fun acc c => byScore c acc) []).take (dtMax d)))

/-! ### Descriptors (R206, R207) -/

/-- Quadrant of a nonzero vector, half open. -/
def quadrant (x y : Int) : Nat :=
  if 0 < x ∧ 0 ≤ y then 0 else if x ≤ 0 ∧ 0 < y then 1 else if x < 0 ∧ y ≤ 0 then 2 else 3

/-- ⌊2^n θ / 90°⌋ of the angle θ in [0°, 360°) of a vector: squaring it as a complex number doubles the angle. -/
def angleSteps : Nat → Int → Int → Nat → Nat
  | 0, _, _, q => q
  | n + 1, x, y, q =>
    let x' := x * x - y * y
    let y' := 2 * x * y
    angleSteps n x' y' (2 * q + quadrant x' y' % 2)

/-- R206: the orientation bin of exact moments. -/
def angleBin (m10 m01 : Int) : Nat :=
  if m10 = 0 ∧ m01 = 0 then 0 else (angleSteps 4 m10 m01 (quadrant m10 m01) + 1) / 2 % 32

/-- Offsets −15 to 15. -/
def discOff : List Int := (List.range 31).map (fun (n : Nat) => (n : Int) - 15)

/-- R206: orientation of a feature. -/
def orientation (f : Int → Int → Nat) (x y : Int) : Nat :=
  let l := discOff.flatMap (fun v => discOff.filterMap (fun u =>
    if u * u + v * v ≤ 225 then some (u, v, ((f (x + u) (y + v) : Nat) : Int)) else none))
  angleBin (sumI (l.map (fun e => e.1 * e.2.2))) (sumI (l.map (fun e => e.2.1 * e.2.2)))

/-- 5 × 5 box sum. -/
def box5 (f : Int → Int → Nat) (x y : Int) : Nat := sumN (fiveOff.flatMap (fun v => fiveOff.map (fun u => f (x + u) (y + v))))

/-- Bytes of bits, bit `b` in byte ⌊b/8⌋ at position b mod 8. -/
def bitsBytes (l : List Bool) : List Byte :=
  (List.range (l.length / 8)).map (fun n => BitVec.ofNat 8 (sumN ((List.range 8).map (fun k => b2n (l.getD (8 * n + k) false) * 2 ^ k))))

/-- R206: the binary descriptor. -/
def binaryDesc (f : Int → Int → Nat) (pat : List (List Int)) (x y : Int) : List Byte :=
  bitsBytes (pat.map (fun p => decide (box5 f (x + p.getD 0 0) (y + p.getD 1 0) < box5 f (x + p.getD 2 0) (y + p.getD 3 0))))

/-- R207: a map coordinate to 1/64. -/
def mapPos (v sh : Nat) : Int := rneDiv (64 * (2 * (v : Int) + 1)) (2 * 2 ^ sh) - 32

/-- R207: the learned descriptor. -/
def learnedDesc (s : State) (tn : Nat) (m : FeatRef) (sh x y : Nat) : List Byte :=
  let px := mapPos x sh
  let py := mapPos y sh
  let at_ := fun (i j : Int) => m.code s tn (clampI 0 (m.width - 1) (px / 64 + i)).toNat (clampI 0 (m.height - 1) (py / 64 + j)).toNat
  let fx := px % 64
  let fy := py % 64
  let a := at_ 0 0
  let b := at_ 1 0
  let c := at_ 0 1
  let e := at_ 1 1
  (List.range 32).map (fun k =>
    let v := fun (l : List Nat) => sx 8 (wd l k)
    BitVec.ofNat 8 (pixCode 3 (rneDiv ((64 - fx) * (64 - fy) * v a + fx * (64 - fy) * v b + (64 - fx) * fy * v c + fx * fy * v e) 4096)))

/-! ### Feature lists (R208) -/

/-- A feature record. -/
structure Feature where
  x : Nat
  y : Nat
  score : Nat
  angle : Nat
  kind : Nat
  desc : List Byte
  deriving DecidableEq, Repr

/-- Its 64 bytes. -/
def featureBytes (f : Feature) : List Byte :=
  wordsBytes [f.x + 65536 * f.y, f.score, f.angle + 32 * f.kind, 0] ++ (f.desc ++ List.replicate (32 - f.desc.length) 0) ++ List.replicate 16 0

/-- A feature read back. -/
def featureAt (s : State) (tn a : Nat) : Feature :=
  let w := rdWords s tn a 3
  { x := bits (wd w 0) 15 0, y := bits (wd w 0) 31 16, score := wd w 1, angle := bits (wd w 2) 4 0, kind := bits (wd w 2) 6 5,
    desc := rdBytes s tn (a + 16) 32 }

/-- Header of a list block. -/
def listHeader (flags stripe count : Nat) : List Byte :=
  wordsBytes [validity flags + stripe % 1024 * 256, count] ++ List.replicate 56 0

/-- COUNT of a block. -/
def Lists.count (l : Lists) (s : State) (tn slot i : Nat) : Nat := min l.cap (bits (rdN s tn (l.block slot i + 4) 4) 12 0)

/-- The features of the lists with their query indices. -/
def Lists.queries (l : Lists) (s : State) (tn slot : Nat) : List (Nat × Feature) :=
  (List.range l.stripes).flatMap (fun i => (List.range (l.count s tn slot i)).map (fun j =>
    (i * l.cap + j, featureAt s tn (l.block slot i + 64 * (1 + j)))))

/-- Headers, and then features, that a task reads. -/
def Lists.headReads (l : Lists) (slot : Nat) : List (Nat × Nat) := (List.range l.stripes).map (fun i => (l.block slot i, 64))
def Lists.reads (l : Lists) (s : State) (tn slot : Nat) : List (Nat × Nat) :=
  l.headReads slot ++ (List.range l.stripes).filterMap (fun i =>
    let n := l.count s tn slot i
    if n = 0 then none else some (l.block slot i + 64, 64 * n))

/-- R221: a status record. -/
def kpRecord (r : Run) (d : List Nat) (flags : Nat) (range full gap : Bool) (counts : List Nat) : List Byte :=
  matchRecord r flags (kpOp d * 2 ^ 18 + 2 ^ 20 * b2n range + 2 ^ 21 * b2n full + 2 ^ 22 * b2n gap) counts (List.replicate 16 0)

/-- Address of a task's status record. -/
def kpStatAt (r : Run) (nd : Node) (d : List Nat) : Nat := statAddr r nd (kpStat d) 64

/-- Address of a DETECT task's list block. -/
def dtBlock (r : Run) (nd : Node) (d : List Nat) : Nat := dtList d + (r.task.slot * nd.stripes + r.task.stripe) * dtRows d * 512

/-- Wheels of a DETECT task: those it reads, and what it releases of its source when it completes (R209). -/
def dtWheels (d : List Nat) : List (Nat × Nat) :=
  (if (dtSrc d).wheel then [((dtSrc d).key, (dtSrc d).height)] else []) ++
  (if dtKind d = 2 ∧ (dtMap d).wheel then [((dtMap d).key, (dtMap d).height)] else [])
def dtReleases (nd : Node) (d : List Nat) : List (Nat × Nat × Nat) :=
  if (dtSrc d).wheel && nd.height != 0 then [((dtSrc d).key, nd.height, dtKh d)] else []

/-- A task opens the wheels it reads, with their heights. -/
def openAll (l : List (Nat × Nat)) (r : Run) (s : State) : State := l.foldl (fun s k => openCons k.1 r k.2 s) s

/-! ### Failed tasks (R224) -/

/-- A failed task: its status record and, for DETECT, an empty list. -/
def kpFail (c : Nat) (r : Run) (nd : Node) (d : List Nat) (status : Nat) (s : State) : State :=
  let eng := engV c 2
  let fl := outFlags s r fInvalid
  let list := kpOp d == 0 && dtList d % 512 == 0 && decide (1 ≤ dtRows d) && decide (wd d 14 < 65536)
  let src := if kpOp d = 0 then (dtWheels d).filter (fun k => soundWheels s [k.1] == [k.1]) else []
  setReleases eng (if kpOp d = 0 then (dtReleases nd d).filter (fun x => (src.map Prod.fst).contains x.1) else []) <|
  doWork eng { workNone with
    writes := (if list then [(dtBlock r nd d, listHeader fl r.task.stripe 0)] else []) ++
      [(kpStatAt r nd d, kpRecord r d fl false false false [])],
    flags := fl, pushes := onePush s r (kpHandle d) (kpMillrace d) } (openAll src r (failRun eng 0x000D R.kpeEngFault c status s))

/-! ### DETECT -/

/-- Lines `[a, b)` that a stripe reads. -/
def dtLines (d : List Nat) (y0 y1 : Nat) : Nat × Nat := (y0 - dtKh d, min (dtSrc d).height (y1 + dtKh d))

/-- R222: a feature list that breaks its conditions. -/
def listBad (d : List Nat) (w h y0 y1 : Nat) (l : List Feature) : Bool :=
  decide (dtCap d < l.length) || l.any (fun f => decide (f.x < dtBorder d) || decide (w ≤ f.x + dtBorder d) || decide (f.y < dtBorder d) ||
    decide (h ≤ f.y + dtBorder d) || decide (f.y < y0) || decide (y1 ≤ f.y) ||
    decide (dtMax d < (l.filter (fun g => g.x / dtCw d == f.x / dtCw d && g.y / dtCh d == f.y / dtCh d)).length))

/-- A kept corner with its descriptor. -/
def dtFeature (s : State) (tn : Nat) (d : List Nat) (f : Int → Int → Nat) (c : Corner) : Feature :=
  let q := if dtKind d = 1 then orientation f c.x c.y else 0
  { x := c.x, y := c.y, score := c.score, angle := q, kind := dtKind d,
    desc := if dtKind d = 1 then binaryDesc f (kpPattern s tn d q) c.x c.y
      else if dtKind d = 2 then learnedDesc s tn (dtMap d) (dtShift d) c.x c.y else List.replicate 32 0 }

/-- R202 to R209: a DETECT stripe runs. -/
def dtRun (c : Nat) (r : Run) (nd : Node) (d : List Nat) (s0 : State) : State :=
  let eng := engV c 2
  let tn := r.task.tenant
  let src := dtSrc d
  let y := stripeLines nd r.task src.height
  let ln := dtLines d y.1 y.2
  let s := openAll (dtWheels d) r s0
  match wheelsReady s r ((if src.wheel then [(src.key, ln.2)] else []) ++ (dtWheels d).drop (b2n src.wheel)) [] with
  | some (.stall k) => stallRun eng k s
  | some (.bad e) => faultRun eng e s
  | _ =>
    let reads := (List.range (ln.2 - ln.1)).map (fun j => (src.line s 0 (ln.1 + j), src.lineLen)) ++
      (if dtKind d = 1 then [(dtPattern d, 32768)] else []) ++
      (if dtKind d = 2 then (List.range (dtMap d).height).map (fun j => ((dtMap d).line s j, (dtMap d).lineLen)) else [])
    match chkAll s tn reads [] with
    | .ok =>
      let f := fun (x y : Int) => src.code s tn 0 (mirror src.width x).toNat (mirror src.height y).toNat
      let m := dtNms d
      let cands := dtCands f d src.width src.height (y.1 - m) (min src.height (y.2 + m))
      let own := fun (c : Corner) => decide (y.1 ≤ c.y) && decide (c.y < y.2)
      let scored := cands.filter (fun c => f32Lt (dtMin d) c.score)
      let kept := bucketed d src.width y.1 y.2 ((scored.filter own).filter (nmsKeeps m scored))
      let feats := (kept.take (dtCap d)).map (dtFeature s tn d f)
      let drop := kept.length - feats.length
      let range := listBad d src.width src.height y.1 y.2 feats
      let fl := outFlags s r (if range then fInvalid else 0)
      let wk : Work := {
        reads := reads,
        writes := [(dtBlock r nd d, listHeader fl r.task.stripe feats.length ++ feats.flatMap featureBytes),
          (kpStatAt r nd d, kpRecord r d fl range (decide (drop ≠ 0)) false [(cands.filter own).length, feats.length, drop])],
        flags := fl,
        cycles := 64 + cdiv src.width 4 * (y.2 - y.1) + (if dtKind d = 1 then 32 else if dtKind d = 2 then 8 else 0) * feats.length,
        pushes := onePush s r (kpHandle d) (kpMillrace d) }
      (match chkAll s tn wk.reads (wk.writes.map (fun x => (x.1, x.2.length))) with
       | .ok =>
         let s1 := cnt R.kpeEngDrop c drop (cnt R.kpeEngRange c (b2n range) (doWork eng wk s))
         let s2 := setReleases eng (dtReleases nd d) s1
         if range then rangeFail eng s2 else s2
       | e => faultRun eng e s)
    | e => faultRun eng e s

/-! ### MATCH (R218) -/

/-- References compared. -/
def mtRefs (s : State) (d : List Nat) : List Nat :=
  let l := (List.range (mtCount d)).map (fun n => mtFirst d + n)
  if mtMask d then l.filter (fun n => match tget none s.tracks ((partRange s (mtPart d)).1 + n) with | some t => t.state == 3 | none => false)
  else l

/-- Set bits of a byte. -/
def popByte (b : Byte) : Nat := sumN ((List.range 8).map (fun k => b2n (bit b.toNat k)))

/-- Distance of two descriptors. -/
def mtDistance (kind : Nat) (a b : List Byte) : Nat :=
  if kind = 1 then sumN ((a.zip b).map (fun e => popByte (e.1 ^^^ e.2)))
  else sumN ((a.zip b).map (fun e => let v := sx 8 e.1.toNat - sx 8 e.2.toNat; (v * v).toNat))

/-- A match record: BEST, DIST1 and DIST2.  With nothing compared DIST1 is open. -/
structure Match where
  best : Nat
  dist1 : Nat
  dist2 : Nat
  any : Bool
  deriving DecidableEq, Repr

/-- All ones. -/
def noRef : Nat := 0xFFFFFFFF

/-- R218: the match of a feature among references with their descriptors. -/
def matchOf (s : State) (d : List Nat) (q : Nat) (f : Feature) (refs : List (Nat × List Byte)) : Match :=
  let l := if f.kind = mtKind d then refs.map (fun r => (r.1, ((mtDistance (mtKind d) f.desc r.2 : Nat) : Int))) else []
  match argMin l with
  | none => { best := noRef, dist1 := w32 (Config.freeWord (s.free * 2 ^ 40 + q)), dist2 := noRef, any := false }
  | some b =>
    let second := argMin (l.filter (fun e => e.1 != b.1))
    let d1 := b.2.toNat
    let d2 := match second with | some e => e.2.toNat | none => noRef
    let bad := decide (mtMaxDist d < d1) || (mtRatio d != 0 && second.isSome && decide (mtRatio d * d2 < d1 * 256))
    { best := if bad then noRef else b.1, dist1 := d1, dist2 := d2, any := true }

/-- R222: a record that breaks its conditions. -/
def matchBad (d : List Nat) (m : Match) : Bool :=
  let top := if mtKind d = 1 then 256 else 2080800
  m.any && (decide (m.dist2 < m.dist1) || decide (top < m.dist1) || (m.dist2 != noRef && decide (top < m.dist2)) ||
    (m.best != noRef && (decide (m.best < mtFirst d) || decide (mtFirst d + mtCount d ≤ m.best))))

/-- R218: a MATCH task runs. -/
def mtRun (c : Nat) (r : Run) (nd : Node) (d : List Nat) (s : State) : State :=
  let eng := engV c 2
  let tn := r.task.tenant
  let lists := listsAt d 13
  match chkAll s tn (lists.headReads r.task.slot) [] with
  | .ok =>
    let refs := mtRefs s d
    let reads := lists.reads s tn r.task.slot ++ refs.map (fun n => (mtRef d + 32 * n, 32))
    (match chkAll s tn reads [] with
     | .ok =>
       let qs := lists.queries s tn r.task.slot
       let got := refs.map (fun n => (n, rdBytes s tn (mtRef d + 32 * n) 32))
       let res := qs.map (fun q => (q.1, matchOf s d q.1 q.2 got))
       let num := (qs.filter (fun q => q.2.kind == mtKind d)).length
       let range := res.any (fun m => matchBad d m.2)
       let fl := outFlags s r (if range then fInvalid else 0)
       let wk : Work := {
         reads := reads,
         writes := res.map (fun m => (mtOut d + 16 * m.1, wordsBytes [m.2.best, m.2.dist1, m.2.dist2, 0])) ++
           [(kpStatAt r nd d, kpRecord r d fl range false false [num, (res.filter (fun m => m.2.best != noRef)).length])],
         flags := fl, cycles := 64 + cdiv (num * refs.length) 16, pushes := onePush s r (kpHandle d) (kpMillrace d) }
       (match chkAll s tn wk.reads (wk.writes.map (fun x => (x.1, x.2.length))) with
        | .ok =>
          let s1 := cnt R.kpeEngRange c (b2n range) (doWork eng wk (draw s))
          if range then rangeFail eng s1 else s1
        | e => faultRun eng e s)
     | e => faultRun eng e s)
  | e => faultRun eng e s

/-! ### Tasks of an operation -/

/-- A keypoint task from its dispatch on: `run` carries out the operation of its row. -/
def kpGo (c : Nat) (run : Run → Node → List Nat → State → State) (r : Run) (s : State) : State :=
  let eng := engV c 2
  match taskCtx s r.task with
  | none => s
  | some (_, nd, _) =>
    (match chkAccess s r.task.tenant nd.work 384 false with
     | .ok =>
       let d := descWords s r.task 96
       let s1 := rput R.kpeEngStat c (2 * kpOp d) s
       (match kpCheck s nd r d with
        | 0 => (match chkAll s r.task.tenant (if kpOp d = 0 ∧ dtKind d = 1 then [(dtPattern d, 32768)] else []) [] with
          | .ok => run r nd d s1
          | e => faultRun eng e s)
        | st => kpFail c r nd d st s1)
     | e => faultRun eng e s)

/-- The task's OP is that of the row; a task with the reserved encoding fails in any. -/
def kpTakes (s : State) (op : Nat) (k : Task) : Bool :=
  let o := kpOp (descWords s k 1)
  o == op || o == 3

/-- R201. -/
def kpStep (op core : Nat) (run : Run → Node → List Nat → State → State) (s : State) : State :=
  engineStep 3 (engV core 2) (pickCore s 3 core (engV core 2)) (kpTakes s op) (kpGo core run) s

/-- R202. -/
def execKpeDetect (core : Nat) (s : State) : Host.Outcome State Fault Refusal :=
  act (decide (core < 4)) s (fun s => kpStep 0 core (dtRun core) s)

/-- R218. -/
def execKpeMatch (core : Nat) (s : State) : Host.Outcome State Fault Refusal :=
  act (decide (core < 4)) s (fun s => kpStep 2 core (mtRun core) s)

end Sys2Proof.Machine
end

