-- ==== Sys2Proof/Machine/Neural.lean ====
section
/-! DEFINITION. Neural cores (R248 to R258, R268, R269): tensor operation descriptors, slivers, the weight operand, activation
tables, product sums, held accumulators, dispatch of a gang. -/

namespace Sys2Proof.Machine

/-! ### Descriptors (R256) -/

/-- A tensor operation descriptor with the operands its slots name. -/
structure Tod where
  w : List Nat
  t : List Tensor
  deriving DecidableEq, Repr

def Tod.op (d : Tod) : Nat := bits (wd d.w 0) 7 0
def Tod.split (d : Tod) : Nat := bits (wd d.w 0) 10 8
def Tod.sync (d : Tod) : Bool := bit (wd d.w 0) 11
def Tod.rtz (d : Tod) : Bool := bit (wd d.w 0) 12
def Tod.sparse (d : Tod) : Bool := bit (wd d.w 0) 13
def Tod.wcomp (d : Tod) : Bool := bit (wd d.w 0) 14
def Tod.actEn (d : Tod) : Bool := bit (wd d.w 0) 15
def Tod.actCode (d : Tod) : Nat := bits (wd d.w 0) 19 16
def Tod.carry (d : Tod) : Bool := bit (wd d.w 0) 20
def Tod.hold (d : Tod) : Bool := bit (wd d.w 0) 21
def Tod.alpha (d : Tod) : Nat := wd d.w 1
def Tod.table (d : Tod) : Nat := addr48 d.w 2
/-- Address in slot Sj. -/
def Tod.slot (d : Tod) (j : Nat) : Nat := addr48 d.w (4 + 2 * j)
def Tod.has (d : Tod) (j : Nat) : Bool := d.slot j != 0
def Tod.wcBytes (d : Tod) : Nat := wd d.w 16
def Tod.holdRow (d : Tod) : Nat := bits (wd d.w 17) 13 0
def Tod.stat (d : Tod) : Nat := addr48 d.w 18
/-- Parameter word Pk. -/
def Tod.p (d : Tod) (k : Nat) : Nat := wd d.w (24 + k)

/-- No tensor. -/
def noTensor : Tensor := { w := [], x := [], sh := [] }

/-- The operand in slot Sj. -/
def Tod.s (d : Tod) (j : Nat) : Tensor := d.t.getD j noTensor
/-- Output S4. -/
def Tod.y (d : Tod) : Tensor := d.s 4

/-- Read a descriptor and its operands. -/
def todAt (s : State) (tn a : Nat) : Tod :=
  let w := rdWords s tn a 64
  { w := w, t := (List.range 6).map (fun j =>
      let x := addr48 w (4 + 2 * j)
      if x = 0 then noTensor else tensorOf s tn x) }

/-- Memory the descriptor, its operands' references and its activation table take. -/
def todReads (s : State) (tn a : Nat) (d : Tod) : List (Nat × Nat) :=
  [(a, 256)] ++ (List.range 6).flatMap (fun j => if d.has j then tensorReads s tn (d.slot j) else []) ++
  (if d.table = 0 then [] else [(d.table, 512)])

/-! ### Slivers (R251) -/

/-- Units of the split axis of extent `e` in sliver `n` of `m`. -/
def sliverUnits (m e n : Nat) : Nat := (n + 1) * e / m - n * e / m

/-- The sliver of `m` that covers unit `i`. -/
def sliverOf (m e i : Nat) : Nat := cdiv ((i + 1) * m) (max 1 e) - 1

/-- Rank that computes an output element; with SPLIT 6 and 7, rank 0. -/
def Tod.rank (d : Tod) (k : Nat) (idx : List Nat) : Nat :=
  if 6 ≤ d.split then 0 else sliverOf (32 * k) (d.y.extent d.split) (wd idx d.split) / 32

/-- Units of each sliver: of the output's split axis, of the reduction of length `red`, or all in sliver 0. -/
def Tod.units (d : Tod) (k red : Nat) : List Nat :=
  let m := 32 * k
  let e := if d.split = 6 then red else d.y.extent d.split
  if d.split = 7 then 1 :: List.replicate (m - 1) 0 else (List.range m).map (sliverUnits m e)

/-- Row-major number of an index. -/
def flatIdx (shape idx : List Nat) : Nat := (shape.zip idx).foldl (fun a e => a * e.1 + e.2) 0

/-- Product of a list. -/
def prodN (l : List Nat) : Nat := l.foldl (· * ·) 1

/-- ⌈log₂ n⌉. -/
def clog2 (n : Nat) : Nat := if n ≤ 1 then 0 else Nat.log2 (n - 1) + 1

/-! ### What a TOD reads with -/

/-- Where a TOD's values come from: the state as each rank sees it, the tenant, the gang, a draw. -/
structure Env where
  views : List State
  tn : Nat
  gang : List Nat
  seed : Nat

/-- R250, R288: the state as a rank sees it: HBM through its core's cache, and what other ranks wrote since the last
barrier open. -/
def viewOf (s : State) (r : Run) (rank : Nat) : State :=
  r.unsynced.foldl (fun v e => if e.2 = rank + 1 then v else wrBytes r.task.tenant e.1 [Config.lostByte s.free e.1] v)
    (match r.gang[rank]? with | some c => cacheView s c | none => s)

/-- The environment of a run. -/
def envOf (s : State) (r : Run) : Env :=
  { views := (List.range r.gang.length).map (viewOf s r), tn := r.task.tenant, gang := r.gang, seed := s.free * 2 ^ 40 }

def Env.view (e : Env) (rank : Nat) : State := e.views.getD rank State.reset
def Env.core (e : Env) (rank : Nat) : Option Nat := e.gang[rank]?

/-- Dequantised value, code, and value before scale and zero point of an element as a rank reads it. -/
def Env.real (e : Env) (t : Tensor) (rank : Nat) (idx : List Nat) : Nat := t.real (e.view rank) e.tn (e.core rank) idx
def Env.code (e : Env) (t : Tensor) (rank : Nat) (idx : List Nat) : Nat := t.code (e.view rank) e.tn (e.core rank) idx
def Env.raw (e : Env) (t : Tensor) (rank : Nat) (idx : List Nat) : Fv :=
  elemVal t.fmt (e.code t rank idx) 0 (t.blk (e.view rank) e.tn idx)
def Env.quant (e : Env) (t : Tensor) (rank : Nat) (idx : List Nat) : Nat × Int := t.quant (e.view rank) e.tn idx
/-- R236: the scale and zero point that the terms of a sum share; none where those of a per-channel tensor differ along
it or no term has any, for which the manual gives no result. -/
def Env.quants (e : Env) (t : Tensor) (rank : Nat) (l : List (List Nat)) : Option (Nat × Int) :=
  if t.qmode ≠ 2 then some (e.quant t rank [])
  else match (l.map (e.quant t rank)).eraseDups with
    | [q] => some q
    | _ => none
/-- A word the manual gives no value. -/
def Env.free (e : Env) (k : Nat) : Nat := w32 (Config.freeWord (e.seed + k))
/-- An INT32 element. -/
def Env.int (e : Env) (t : Tensor) (rank : Nat) (idx : List Nat) : Int := sx 32 (e.code t rank idx)

/-- A value of an integer format as an integer. -/
def fvToInt (v : Fv) : Int := match v with | .fin n m e => fvInt true n m e | _ => 0

/-! ### Results (R258) -/

/-- What an output element receives: a value in units of its scale, or a code. -/
inductive OutVal where
  | q (v : Fv)
  | code (c : Nat)
  deriving DecidableEq, Repr

/-- An output element: slot, index, rank that writes it, value. -/
structure OutEl where
  slot : Nat
  idx : List Nat
  rank : Nat
  val : OutVal
  deriving DecidableEq, Repr

/-- R241: the function of a TOD. -/
def Tod.actFn (d : Tod) (e : Env) (rank x : Nat) : Nat :=
  if f32IsNaN x then f32NaN
  else match d.actCode with
  | 0 => if f32Lt 0 x then x else 0
  | 1 => if f32Lt 0 x then (if f32Lt (f32OfInt 6) x then f32OfInt 6 else x) else 0
  | 2 => if f32Lt x 0 then f32Mul d.alpha x else x
  | 7 => tableAt (rdWords (e.view rank) e.tn d.table 69) x
  | c => actIn c x

/-- A real result as the output element receives it from a rank, the function applied first. -/
def Tod.outReal (d : Tod) (e : Env) (rank : Nat) (idx : List Nat) (x : Nat) : OutVal :=
  let v := if d.actEn then d.actFn e rank x else x
  .q (f32v (f32Div v (e.quant d.y rank idx).1))

/-- R236, R258: an INT32 product sum of scale `sab` as the output element receives it. -/
def Tod.outInt (d : Tod) (e : Env) (rank : Nat) (idx : List Nat) (v : Int) (sab : Nat) : OutVal :=
  if d.actEn then d.outReal e rank idx (f32Mul sab (f32OfInt v))
  else .q (f32v (f32Mul (f32OfInt v) (f32Div sab (e.quant d.y rank idx).1)))

/-- R234: ACT, SOFTMAX and NORM write no subnormal FP16 or BF16. -/
def Tod.flush (d : Tod) (fmt c : Nat) : Nat :=
  if (d.op = 5 ∨ d.op = 6 ∨ d.op = 0x0A) ∧ (fmt = 8 ∨ fmt = 9) ∧ bits c 14 (ffOf fmt).mb = 0 then c / 0x8000 * 0x8000 else c

/-- R231, R232: a value in units of the scale as a code, with its saturation. -/
def encodeQ (fmt : Nat) (rtz : Bool) (zp : Int) (v : Fv) : Nat × Bool :=
  if fmtInt fmt then toIntFmt fmt rtz v zp else fencode (ffOf fmt) rtz false v

/-- Bytes of one output slot, and its saturated elements; what a byte or block keeps is what its writer sees there. -/
def Tod.patch (d : Tod) (e : Env) (j : Nat) (l : List OutEl) : Patch × Nat :=
  let t := d.s j
  let mine := l.filter (fun o => o.slot == j)
  if t.fmt = 5 then
    t.putFp4 (fun i => e.view (((mine.find? (fun o => o.idx == i)).map OutEl.rank).getD 0)) e.tn d.rtz [] (mine.map (fun o => (o.idx, match o.val with | .q v => v | .code c => fdecode ffFp4 c)))
  else mine.foldl (fun acc o => match o.val with
    | .code c => (t.putCode (e.view o.rank) e.tn acc.1 o.idx c, acc.2)
    | .q v =>
      let c := encodeQ t.fmt d.rtz (e.quant t o.rank o.idx).2 v
      (t.putCode (e.view o.rank) e.tn acc.1 o.idx (d.flush t.fmt c.1), acc.2 + b2n c.2)) ([], 0)

/-! ### The weight operand (R252 to R255, R245) -/

/-- Nibbles of bytes, low first. -/
def nibbles (l : List Byte) : List Nat := l.flatMap (fun b => [b.toNat % 16, b.toNat / 16])

/-- R255: decode the nibble-run code to `n` bytes: `acc` holds the decoded bytes in reverse.  None on a decode error. -/
def nibDecode : Nat → Nat → List Nat → List Nat → Option (List Nat)
  | 0, _, _, _ => none
  | f + 1, n, acc, l =>
    if n ≤ acc.length then (if acc.length = n ∧ l.all (· == 0) then some acc.reverse else none)
    else match l with
    | [] => none
    | c :: t =>
      if c < 8 then
        (let k := 2 * (c + 1)
         if t.length < k then none
         else nibDecode f n (((List.range (c + 1)).map (fun i => wd t (2 * i) + 16 * wd t (2 * i + 1))).reverse ++ acc) (t.drop k))
      else if c < 15 then nibDecode f n (List.replicate (2 ^ (c - 6)) 0 ++ acc) t
      else match acc, t with
      | b :: _, m :: t' => nibDecode f n (List.replicate (m + 1) b ++ acc) t'
      | _, _ => none

/-- R254: reduction length rounded up to 4, and the bytes of a record of a 2:4 operand. -/
def sparsePad (red : Nat) : Nat := upTo red 4
def recBytes (fmt red : Nat) : Nat :=
  let rp := sparsePad red
  upTo ((if fmtBits fmt = 4 then rp / 4 else rp / 2) + cdiv rp 8) 32

/-- The weight operand of a TOD: its tensor, the core that reads it (R253), reduction length, number of records, stored
bytes and, when coded, what they decode to. -/
structure Weights where
  t : Tensor
  core : Option Nat
  red : Nat
  recs : Nat
  size : Nat
  bytes : Option (List Nat)
  deriving DecidableEq, Repr

/-- R255: the stored size of S1. -/
def weightSize (d : Tod) (red recs : Nat) : Nat :=
  if d.sparse then recs * recBytes (d.s 1).fmt red else (d.s 1).bound (d.s 1).shape

/-- The operand, decoded where it is coded; none on a decode error. -/
def weightsOf (s : State) (tn : Nat) (core : Option Nat) (d : Tod) (red recs : Nat) : Option Weights :=
  let t := d.s 1
  let n := weightSize d red recs
  if d.wcomp then
    (nibDecode (2 * d.wcBytes + 2) n [] (nibbles (rdBytes s tn t.base d.wcBytes))).map
      (fun b => { t := t, core := core, red := red, recs := recs, size := n, bytes := some b })
  else some { t := t, core := core, red := red, recs := recs, size := n, bytes := none }

/-- Stored byte `k`. -/
def Weights.byte (w : Weights) (s : State) (tn k : Nat) : Nat :=
  match w.bytes with | some b => wd b k | none => rdN s tn (w.t.base + k) 1

/-- Code of a dense element. -/
def Weights.dense (w : Weights) (s : State) (tn : Nat) (idx : List Nat) : Nat :=
  match w.bytes with
  | none => w.t.code s tn w.core idx
  | some b =>
    let p := w.t.place 0 idx w.t.shape
    if w.t.nib then wd b p.1 / 16 ^ p.2 % 16 else leNat ((List.range w.t.esize).map (fun k => BitVec.ofNat 8 (wd b (p.1 + k))))

/-- R254: index nibble of group `g` of a record. -/
def Weights.nibble (w : Weights) (s : State) (tn o g : Nat) : Nat :=
  let rp := sparsePad w.red
  let a := o * recBytes w.t.fmt w.red + (if w.t.nib then rp / 4 else rp / 2) + g / 2
  w.byte s tn a / 16 ^ (g % 2) % 16

/-- R245: a nibble whose first position is not below its second. -/
def Weights.badNibble (w : Weights) (s : State) (tn : Nat) : Bool :=
  (List.range w.recs).any (fun o => (List.range (sparsePad w.red / 4)).any (fun g =>
    let n := w.nibble s tn o g
    decide (n / 4 ≤ n % 4)))

/-- The stored terms of a record: position in the reduction, value before scale and zero point. -/
def Weights.stored (w : Weights) (s : State) (tn o : Nat) : List (Nat × Fv) :=
  let rp := sparsePad w.red
  (List.range (rp / 4)).flatMap (fun g => (List.range 2).filterMap (fun v =>
    let n := w.nibble s tn o g
    let pos := 4 * g + (if v = 0 then n % 4 else n / 4)
    let k := 2 * g + v
    let a := o * recBytes w.t.fmt w.red
    let c := if w.t.nib then w.byte s tn (a + k / 2) / 16 ^ (k % 2) % 16 else w.byte s tn (a + k)
    let blk := if w.t.fmt = 5 then rdN s tn (w.t.scales + o * cdiv (rp / 2) 16 + k / 16) 1 else 127
    if pos < w.red then some (pos, elemVal w.t.fmt c 0 blk) else none))

/-- The terms of an output's weights: stored ones, or every position of a dense operand with its index. -/
def Weights.terms (w : Weights) (sp : Bool) (s : State) (tn o : Nat) (idx : Nat → List Nat) : List (Nat × Fv) :=
  if sp then w.stored s tn o
  else (List.range w.red).map (fun r => (r, elemVal w.t.fmt (w.dense s tn (idx r)) 0 (w.t.blk s tn (idx r))))

/-- Memory the operand takes of the core that reads it: the coded stream, the records, or its elements; with its scales. -/
def weightReads (d : Tod) (core : Option Nat) (red recs : Nat) : List (Nat × Nat) :=
  let t := d.s 1
  let scales := if t.fmt = 5 then
      (if d.sparse then [(t.scales, recs * cdiv (sparsePad red / 2) 16)] else scaleRange t)
    else []
  if d.wcomp then (t.base, d.wcBytes) :: scales
  else if d.sparse then (t.base, weightSize d red recs) :: scales
  else if t.sharded then (allIdx t.shape).flatMap (t.elemReads core)
  else (t.base, t.bound t.shape) :: scaleRange t

/-- 512-byte rows that some bytes lie in. -/
def rowSpan (x : Nat × Nat) : List Nat :=
  if x.2 = 0 then [] else (List.range ((x.1 + x.2 - 1) / 512 + 1 - x.1 / 512)).map (fun i => x.1 / 512 + i)

/-- Bytes of the weight operand, as the core that reads it does, that hold an element of record `o`: the coded stream, the record, or the element's. -/
def weightPlace (d : Tod) (core : Option Nat) (red o : Nat) (idx : List Nat) : Nat × Nat :=
  let t := d.s 1
  if d.wcomp then (t.base, d.wcBytes)
  else if d.sparse then (t.base + o * recBytes t.fmt red, recBytes t.fmt red)
  else ((t.readPlace core idx).1, t.bytesAt)

/-- R252, R253: the weight rows that each member's slivers use.  `keys` gives the outputs' ranks and weights, each named by
a list of indices; `recOf` is its record and `idxOf` the index of a term. -/
def memberRows (d : Tod) (core : Option Nat) (k red : Nat) (keys : List (Nat × List Nat)) (recOf : List Nat → Nat) (idxOf : List Nat → Nat → List Nat) :
    List (List Nat) :=
  let used := keys.eraseDups
  (List.range k).map (fun q =>
    let mine := (List.range red).filter (fun r => d.split != 6 || sliverOf (32 * k) red r / 32 == q)
    let terms := if d.wcomp || d.sparse then mine.take 1 else mine
    (used.flatMap (fun x =>
      if d.split = 6 ∨ x.1 = q then terms.flatMap (fun r => rowSpan (weightPlace d core red (recOf x.2) (idxOf x.2 r))) else [])).eraseDups)

/-! ### Product sums (R236 to R240) -/

/-- An integer product sum, its terms by sliver: the accumulator, and the value combined with the zero points and the
bias. -/
def dotInt (seed : Nat) (carry : Option Nat) (parts : List (List (Int × Int))) (za zb bias : Int) : Nat × Int :=
  let l := parts.flatten
  let acc := satI32 (sumChunks seed (carry.map (sx 32)) (parts.map (fun p => p.map (fun e => e.1 * e.2))))
  (ux 32 acc, satI32 (acc - zb * sumI (l.map (fun e => e.1)) - za * sumI (l.map (fun e => e.2)) + l.length * za * zb + bias))

/-- A floating product sum, with the carried accumulator and the bias as further terms. -/
def dotFloat (seed : Nat) (carry bias : Option Nat) (l : List (Fv × Fv)) : Nat :=
  sumProducts seed (l.map (fun e => fvMul e.1 e.2)) (carry.toList ++ bias.toList)

/-! ### Cycles (R249, R267) -/

/-- Quarters of a cycle a reduction step takes. -/
def stepQuarters (a b : Nat) (sp : Bool) : Nat :=
  let n := max (fmtBits a) (fmtBits b)
  (if n = 4 then 2 else if n = 8 then 4 else if n = 16 then 16 else 64) / (if sp then 2 else 1)

/-- Cycles of a product sum of `p` positions, `c` channels, `r` terms. -/
def macCycles (p c r q : Nat) : Nat := cdiv p 16 * cdiv c 16 * cdiv (r * q) 4

/-! ### Held accumulators and tenant switches (R268, R269) -/

/-- The tenant of a core's last task (NC_CORE_STAT.TENANT). -/
def coreTenant (s : State) (c : Nat) : Nat := bits (rget s R.ncCoreStat c) 13 8

/-- Address of the rows that hold saved accumulators. -/
def saveAddr (c row : Nat) : Nat := rowAddr (c * 16384 + row)

/-- Bytes of a save. -/
def saveBytes : Nat := 4096 * 512

/-- Contents of the rows of a save: their layout is internal. -/
def savePattern (k : Nat) : List Byte := (List.range saveBytes).map (Config.lostByte k)

/-- Step 1: the outgoing tenant's accumulators go to its rows where its grant holds them; otherwise they are cleared. -/
def saveOut (c tn : Nat) (s : State) : State × Bool :=
  let k := 64 * c + tn
  match heldAcc s c tn with
  | some a =>
    if a.saved.isSome then (s, false)
    else match chkAccess s tn (saveAddr c a.row) saveBytes true with
    | .ok =>
      let s1 := wrBytes tn (saveAddr c a.row) (savePattern s.free) s
      (draw { s1 with accs := tset none s1.accs k (some { a with saved := some s.free }) }, true)
    | _ => ({ s with accs := tset none s.accs k none }, false)
  | none => ({ s with accs := tset none s.accs k none }, false)

/-- Step 3: the incoming tenant's accumulators come back; rows written since the save give open values. -/
def restoreIn (c tn : Nat) (s : State) : State × Bool × Chk :=
  let k := 64 * c + tn
  match tget none s.accs k with
  | some a =>
    match a.saved with
    | none => (s, false, .ok)
    | some f =>
      (match chkAccess s tn (saveAddr c a.row) saveBytes false with
       | .ok =>
         let same := rdBytes s tn (saveAddr c a.row) saveBytes == savePattern f
         let vals := if same then a.vals else a.vals.map (fun e => (e.1, w32 (Config.freeWord (s.free * 2 ^ 40 + e.1))))
         (draw (touchRead (saveAddr c a.row) saveBytes
            { s with accs := tset none s.accs k (some { a with saved := none, vals := vals }) }), true, .ok)
       | e => ({ s with accs := tset none s.accs k none }, false, e))
  | none => (s, false, .ok)

/-- R269: a core takes a task of a tenant.  Answers the switch's ARCLK cycles and what its restore met: the clear takes
256 cycles of ARCLK, each save or restore 1,024 of SPCLK at 700 MHz. -/
def switchCore (c tn : Nat) (s : State) : State × Nat × Chk :=
  let old := coreTenant s c
  if old = tn then (s, 0, .ok)
  else
    let a := saveOut c old s
    let b := restoreIn c tn a.1
    let n := b2n a.2 + b2n b.2.1
    let cyc := 256 + cdiv (1024 * n * envClock s.pwr.env) 700
    let ns := min 65535 ((rhuDiv (256 * 7000 + 1024 * n * 10 * envClock s.pwr.env : Nat) (7 * envClock s.pwr.env)).toNat)
    let s1 := rmax R.ncCoreSwmax c ns (cnt R.ncCoreSwitch c 1 b.1)
    (rput R.ncCoreStat c (tn * 256) s1, cyc, b.2.2)

/-- R269: every member switches; the longest switch counts, and the first failing restore. -/
def switchGang (gang : List Nat) (tn : Nat) (s : State) : State × Nat × Chk :=
  gang.foldl (fun acc c =>
    let r := switchCore c tn acc.1
    (r.1, max acc.2.1 r.2.1, if acc.2.2 = .ok then r.2.2 else acc.2.2)) (s, 0, .ok)

/-! ### Dispatch of a gang (R63, R268) -/

/-- Arbiter of N-cores. -/
def ptrNcore : Nat := 0x20000

/-- R63: cores a guard keeps from a task: those of the set of a starved head of equal or higher priority. -/
def guardedCores (s : State) (k : Task) : Nat :=
  orAll (s.seq.guard.map (fun p => match ncoreHead s p with
    | some h => if starved s p && h != k && decide (k.prio ≤ p) then
        (match tmplAt s h.tmpl with
         | some v => (match nodeAt v h.node with | some nd => coreSetOf v nd | none => 0)
         | none => 0)
        else 0
    | none => 0))

/-- Free cores a task may take, in circular order from the pointer. -/
def freeCores (s : State) (k : Task) : List Nat :=
  match (tmplAt s k.tmpl).bind (fun v => (nodeAt v k.node).map (fun nd => eligibleMask s v nd)) with
  | some m =>
    let g := guardedCores s k
    let p := tget 0 s.seq.ptrs ptrNcore
    ((List.range 64).map (fun i => (p + i) % 64)).filter (fun c => bit m c && !bit g c && ncoreFree s c)
  | none => []

/-- Gang size of a task. -/
def gangOf (s : State) (k : Task) : Nat := match taskCtx s k with | some (_, nd, _) => nd.gang | none => 0

/-- R63: the next NCORE task whose gang is free is dispatched, its members switch tenant, and its first TOD starts 64
cycles later (R267). -/
def ncoreDispatch (s : State) : State :=
  match pickTask s 6 (fun k => decide (gangOf s k ≤ (freeCores s k).length)) with
  | none => s
  | some k =>
    let taken := (freeCores s k).take (gangOf s k)
    let last := (taken.getLast?).getD 0
    let gang := (List.range 64).filter (fun c => taken.contains c)
    let eng := engN ((gang.head?).getD 0) 32
    let s0 := modSeq (fun q => { q with
      guard := q.guard.filter (fun p => ncoreHead s p != some k), ptrs := tset 0 q.ptrs ptrNcore ((last + 1) % 64) }) s
    let s1 := dispatch k eng gang s0
    let s2 := switchGang gang k.tenant (gang.foldl (fun s c => cacheStart c (coreTenant s c != k.tenant) s) s1)
    let s3 := modRun eng (fun r => { r with cycles := 64 + s2.2.1 }) s2.1
    settle (if s2.2.2 = .ok then s3 else faultRun eng s2.2.2 s3)

/-- R63. -/
def execNcoreTaskDispatch (s : State) : Host.Outcome State Fault Refusal := act true s ncoreDispatch

end Sys2Proof.Machine
end

