-- ==== Sys2Proof/Machine/Stereo.lean ====
section
/-! DEFINITION. Stereo engines (R155 to R176). -/

namespace Sys2Proof.Machine

/-! ### Descriptors (R171) -/

def stPaths8 (d : List Nat) : Bool := bit (wd d 0) 2
def stSubpix (d : List Nat) : Nat := bits (wd d 0) 4 3
def stLr (d : List Nat) : Bool := bit (wd d 0) 5
def stLrInval (d : List Nat) : Bool := bit (wd d 0) 6
def stHandle (d : List Nat) : Bool := bit (wd d 0) 8
def stPlausAct (d : List Nat) : Bool := bit (wd d 0) 9
def stMillrace (d : List Nat) : Nat := bits (wd d 0) 19 10
def stCvCode (d : List Nat) : Nat := bits (wd d 0) 22 20
def stCvN (d : List Nat) : Nat := if stCvCode d = 0 then 0 else 4 * 2 ^ stCvCode d
def stCvSrc (d : List Nat) : Bool := bit (wd d 0) 23
def stMin (d : List Nat) : Nat := bits (wd d 1) 11 0
def stCount (d : List Nat) : Nat := bits (wd d 1) 24 16 + 1
def stP1 (d : List Nat) : Nat := bits (wd d 2) 6 0
def stP2 (d : List Nat) : Nat := bits (wd d 2) 17 8
def stGamma (d : List Nat) : Nat := bits (wd d 2) 31 24
def stScale (d : List Nat) : Nat := bits (wd d 3) 7 0
def stWcen (d : List Nat) : Nat := bits (wd d 3) 11 8
def stAdShift (d : List Nat) : Nat := bits (wd d 3) 15 12
def stWad (d : List Nat) : Nat := bits (wd d 3) 23 16
def stPixShift (d : List Nat) : Nat := bits (wd d 3) 27 24
def stGain (d : List Nat) : Nat := bits (wd d 6) 15 0
def stConfMin (d : List Nat) : Nat := bits (wd d 6) 23 16
def stTol (d : List Nat) : Nat := bits (wd d 6) 27 24
def stCvShift (d : List Nat) : Nat := bits (wd d 6) 30 28
def stExt (d : List Nat) : Nat := bits (wd d 7) 6 0
def stValidMin (d : List Nat) : Nat := bits (wd d 7) 25 16
def stSra (d : List Nat) : Nat := bits (wd d 8) 23 0
def stRows (d : List Nat) : Nat := bits (wd d 9) 15 0
def stSpill (d : List Nat) : Nat := addr48 d 10
def stSpillRows (d : List Nat) : Nat := bits (wd d 12) 23 0
def stStat (d : List Nat) : Nat := addr48 d 14
/-- Census half-height CH. -/
def stCh (d : List Nat) : Nat := if stCost d = 0 then 3 else if stCost d = 1 then 2 else 0
/-- Number of halves H (R161). -/
def stHalves (d : List Nat) : Nat := if 256 < stCount d then 2 else 1
/-- Rows of an export line (R166). -/
def stCvRows (d : List Nat) (w : Nat) : Nat := cdiv w 16 * cdiv (stCvN d) 32

/-- The references. -/
def stSrcL (d : List Nat) : ImgRef := imgAt d 16
def stSrcR (d : List Nat) : ImgRef := imgAt d 20
def stFeatL (d : List Nat) : FeatRef := featAt d 24
def stFeatR (d : List Nat) : FeatRef := featAt d 28
def stDisp (d : List Nat) : ImgRef := imgAt d 32


/-- The planes written, as (reference, plane): 0 DISP, 1 CONF, 2 FLAGS, 3 CV_WIN. -/
def stPlanes (d : List Nat) : List (ImgRef × Nat) :=
  ((List.range 4).filter (fun q => q == 0 || !zero4 d (32 + 4 * q))).map (fun q => (imgAt d (32 + 4 * q), q))

/-- SRC_L is used: census costs, or EDGE_ADAPT. -/
def stUsesL (d : List Nat) : Bool := !stFeat d || stEdge d

/-- The cost-volume destination. -/
def stCvWheel (d : List Nat) : Bool := bit (wd d 49) 16
def stCvKey (d : List Nat) : Nat := bits (wd d 48) 7 0 + 256 * bits (wd d 48) 13 8
def stCvBase (d : List Nat) : Nat := wd d 48 + 2 ^ 32 * bits (wd d 49) 15 0

/-! ### The dispatch check (R176) -/

/-- Defined bits. -/
def stMask : List Nat :=
  [0xFFFFFF, 0x1FF0FFF, 0xFF03FF7F, 0xFFFFFFF, 0xFFFFFFFF, 0xFFFFFFFF, 0x7FFFFFFF, 0x3FF007F, 0xFFFFFF, 0xFFFF, 0xFFFFFFFF,
   0xFFFF, 0xFFFFFF, 0, 0xFFFFFFFF, 0xFFFF] ++ List.replicate 32 0xFFFFFFFF ++ [0xFFFFFFFF, 0x1FFFF]

/-- R169: least SPILL_ROWS. -/
def stMinSpill (d : List Nat) (w ls : Nat) : Nat :=
  let p := b2n (stPaths8 d)
  let h := stHalves d
  cdiv (p * 2 * w * ls * (stCount d / h) + (h - 1) * 16 * w * ls) 512

/-- The references required are there and follow their rules; those that are not used are zeros. -/
def stRefRules (s : State) (d : List Nat) : Bool :=
  let w := (stDisp d).width
  let h := (stDisp d).height
  let img := fun (i : ImgRef) (pix : Nat) => i.rules s && i.planes == 0 && i.pix == pix && i.width == w && i.height == h
  let src := fun (i : ImgRef) => decide (i.pix ≤ 1) && img i i.pix
  let feat := fun (f : FeatRef) => f.rules s && f.width == w && f.height == h
  (if stUsesL d then src (stSrcL d) else zero4 d 16) &&
  (if stFeat d then zero4 d 20 && feat (stFeatL d) && feat (stFeatR d) && (stFeatL d).fmt == (stFeatR d).fmt &&
      (stFeatL d).ch == (stFeatR d).ch
   else src (stSrcR d) && (stSrcR d).pix == (stSrcL d).pix && zero4 d 24 && zero4 d 28) &&
  img (stDisp d) 1 && (zero4 d 36 || img (imgAt d 36) 0) && (zero4 d 40 || img (imgAt d 40) 0) &&
  (zero4 d 44 || img (imgAt d 44) 1) &&
  (if stCvN d = 0 then wd d 48 == 0 && wd d 49 == 0
   else !zero4 d 44 && stHalves d == 1 &&
    (if stCvWheel d then decide (64 ≤ bits (wd d 48) 7 0) || (wheelEn s (stCvKey d) && placeRows s (stCvKey d) == stCvRows d w)
     else stCvBase d % 512 == 0)) &&
  decide (w ≤ 4096) && decide (h ≤ 8192)

/-- The fields' ranges. -/
def stFieldRules (d : List Nat) (nd : Node) : Bool :=
  let w := (stDisp d).width
  let ls := if nd.height = 0 then (stDisp d).height else nd.height
  let spill := stPaths8 d || stHalves d == 2
  decide (16 ≤ stCount d) && stCount d % 16 == 0 && decide (stMin d + stCount d ≤ 4095) &&
  decide (1 ≤ stP1 d) && decide (1 ≤ stP2 d) && decide (stP1 d ≤ stP2 d) &&
  (if stFeat d then stScale d == 0 else decide (1 ≤ stScale d) && wd d 4 == 0 && wd d 5 == 0) &&
  (stCost d == 1 || (stWcen d == 0 && stWad d == 0)) &&
  decide (stAdShift d ≤ 8) && decide (stPixShift d ≤ 8) && decide (1 ≤ stGain d) && decide (stExt d ≤ 64) &&
  (stPaths8 d || stExt d == 0) && decide (stValidMin d ≤ 1000) &&
  decide (1 + cdiv w 512 + cdiv (6 * w * stCount d) 512 ≤ stRows d) &&
  (if spill then stSpill d % 512 == 0 && decide (stSpill d < hostBase) && decide (stMinSpill d w ls ≤ stSpillRows d) else stSpill d == 0 && stSpillRows d == 0) &&
  stStat d % 512 == 0

/-- R176: status of the check. -/
def stCheck (s : State) (nd : Node) (r : Run) (d : List Nat) : Nat :=
  let cvBad := stCvWheel d && (decide (bits (wd d 48) 31 14 ≠ 0) || decide (bits (wd d 49) 15 0 ≠ 0))
  if maskFails d stMask || stSubpix d == 3 || decide (4 < stCvCode d) || cvBad ||
    (stUsesL d && (stSrcL d).reserved) || (!stFeat d && (stSrcR d).reserved) ||
    (stFeat d && ((stFeatL d).reserved || (stFeatR d).reserved)) || (stPlanes d).any (fun p => p.1.reserved) then 0x01
  else if !stFieldRules d nd || !stRefRules s d || (decide (nd.height ≠ 0) && !nd.serial) ||
    !stripesOk nd (stDisp d).height then 0x02
  else if (stUsesL d && (stSrcL d).range) || (!stFeat d && (stSrcR d).range) ||
    (stFeat d && ((stFeatL d).range || (stFeatR d).range)) || (stPlanes d).any (fun p => p.1.range) ||
    (decide (stCvN d ≠ 0) && stCvWheel d && decide (64 ≤ bits (wd d 48) 7 0)) ||
    decide (1048576 < ctxRow (stSra d) (stRows d) r.task.slot + stRows d) then 0x03
  else 0

/-! ### Costs (R156, R157) -/

/-- An image sample mirrored at the edges. -/
def imgSample (s : State) (tn : Nat) (i : ImgRef) (x y : Int) : Nat :=
  i.code s tn 0 (mirror i.width x).toNat (mirror i.height y).toNat

/-- Matching cost of left pixel `(x, y)` at disparity `k`. -/
def stereoCost (s : State) (tn : Nat) (d : List Nat) (x y k : Nat) : Int :=
  if x < k then 127
  else if stFeat d then
    featCost (wd d 4) (wd d 5)
      (featSum (stCost d == 3) (stFeatL d).fmt s.free ((stFeatL d).code s tn x y) ((stFeatR d).code s tn (x - k) y))
  else
    let l := imgSample s tn (stSrcL d)
    let r := imgSample s tn (stSrcR d)
    let x' : Int := ((x - k : Nat) : Int)
    if stCost d = 0 then costScale (hamming (census l 4 3 x y) (census r 4 3 x' y)) (stScale d)
    else
      let a := min 255 (((l x y : Int) - (r x' y : Int)).natAbs / 2 ^ stAdShift d)
      costScale (stWcen d * hamming (census l 2 2 x y) (census r 2 2 x' y) + stWad d * a / 16) (stScale d)

/-- Intensities of a line for EDGE_ADAPT. -/
def edgeRow (s : State) (tn : Nat) (d : List Nat) (w y : Nat) : List Int :=
  if stEdge d then (List.range w).map (fun x => ((min 255 ((stSrcL d).code s tn 0 x y / 2 ^ stPixShift d) : Nat) : Int))
  else List.replicate w 0

/-- P2′ between two intensities. -/
def stP2At (d : List Nat) (a b : Int) : Int :=
  if stEdge d then max (stP1 d : Int) ((stP2 d : Int) - ((stGamma d * (a - b).natAbs / 16 : Nat) : Int)) else stP2 d

/-! ### Passes over a stripe (R159 to R161) -/

/-- State of the downward or upward paths: the lines of (0, ±1), (1, ±1), (−1, ±1), and the intensities. -/
structure PathSt where
  a : Option (List (List Int))
  b : Option (List (List Int))
  c : Option (List (List Int))
  i : List Int
  deriving DecidableEq, Repr

/-- The empty state. -/
def pathEmpty : PathSt := { a := none, b := none, c := none, i := [] }

/-- One line of a pass: the three paths from the line before and the one along the line; `back` for the reverse pass.
Answers the line's sum and the state after it. -/
def passLine (d : List Nat) (back : Bool) (c : List (List Int)) (iy : List Int) (p : PathSt) : List (List Int) × PathSt :=
  let p1 : Int := stP1 d
  let at_ := fun (l : List Int) (x : Int) => l.getD x.toNat 0
  let down := fun (dx : Int) (prev : Option (List (List Int))) =>
    pathRow p1 (fun x => stP2At d (at_ iy x) (at_ p.i ((x : Int) - dx))) dx c prev
  let a := down 0 p.a
  let b := down (if back then -1 else 1) p.b
  let e := down (if back then 1 else -1) p.c
  let along :=
    if back then
      (pathAlong p1 (fun n => stP2At d (at_ iy ((c.length : Int) - 1 - n)) (at_ iy ((c.length : Int) - n))) c.reverse).reverse
    else pathAlong p1 (fun x => stP2At d (at_ iy x) (at_ iy ((x : Int) - 1))) c
  (addRows (addRows a b) (addRows e along), { a := some a, b := some b, c := some e, i := iy })

/-- The lines of one half's pass in their order, from a state. -/
def passLines (d : List Nat) (back : Bool) (l : List (List (List Int) × List Int)) (p : PathSt) :
    List (List (List Int)) × PathSt :=
  l.foldl (fun (acc : List (List (List Int)) × PathSt) e =>
    let r := passLine d back e.1 e.2 acc.2
    (acc.1 ++ [r.1], r.2)) ([], p)

/-- The state as rows, and back: a leading row says how many windows a line has. -/
def pathPack (w : Nat) (p : PathSt) : List (List Int) := [(w : Int)] :: p.i :: (p.a.getD [] ++ p.b.getD [] ++ p.c.getD [])

/-- The state a stripe starts from. -/
def pathUnpack (l : List (List Int)) : PathSt :=
  match l with
  | [n] :: i :: t =>
    let w := n.toNat
    if t.length = 3 * w ∧ w ≠ 0 then { a := some (t.take w), b := some ((t.drop w).take w), c := some (t.drop (2 * w)), i := i }
    else pathEmpty
  | _ => pathEmpty

/-- Costs of the lines `[ya, yb)` of half `h`, with their intensities. -/
def halfCosts (s : State) (tn : Nat) (d : List Nat) (w h ya yb : Nat) : List (List (List Int) × List Int) :=
  let n := stCount d / stHalves d
  (List.range (yb - ya)).map (fun j =>
    ((List.range w).map (fun x => (List.range n).map (fun k => stereoCost s tn d x (ya + j) (stMin d + h * n + k))),
     edgeRow s tn d w (ya + j)))

/-- S of a half over the lines of a stripe, and the state after its downward pass. -/
def halfSums (s : State) (tn : Nat) (d : List Nat) (w h y0 y1 ext : Nat) (p : PathSt) : List (List (List Int)) × PathSt :=
  let f := passLines d false (halfCosts s tn d w h y0 y1) p
  if stPaths8 d then
    let b := (passLines d true (halfCosts s tn d w h y0 (y1 + ext)).reverse pathEmpty).1.reverse
    ((f.1.zip b).map (fun e => addRows e.1 e.2), f.2)
  else f

/-! ### Winners (R162 to R164) -/

/-- The available candidates of a half at a pixel, as (disparity, S). -/
def avail (d : List Nat) (h x : Nat) (sums : List Int) : List (Nat × Int) :=
  let n := stCount d / stHalves d
  (sums.zipIdx.map (fun e => (stMin d + h * n + e.2, e.1))).filter (fun e => decide (e.1 ≤ x))

/-- A pixel's winner with its S, its offset in sixteenths and its runner-up. -/
structure Winner where
  win : Nat
  s0 : Int
  off : Int
  s2 : Option Int
  deriving DecidableEq, Repr

/-- R162, R163: the winner of a pixel from its halves' sums. -/
def stWinner (d : List Nat) (x : Nat) (halves : List (List Int)) : Option Winner :=
  let cs := halves.zipIdx.map (fun e => avail d e.2 x e.1)
  let ws := cs.filterMap argMin
  match argMin ws with
  | none => none
  | some (w, z) =>
    let own := (cs.find? (fun l => l.any (fun e => e.1 == w))).getD []
    let look := fun (k : Nat) => (own.find? (fun e => e.1 == k)).map (fun e => e.2)
    let off : Int := match (if w = 0 then none else look (w - 1)), look (w + 1) with
      | some a, some b =>
        if stSubpix d = 1 then parabola 16 a z b
        else if stSubpix d = 2 then
          (let m := 2 * max (a - z) (b - z)
           if m = 0 then 0 else rneDiv (16 * (a - b)) m.toNat)
        else 0
      | _, _ => 0
    let far := fun (e : Nat × Int) => decide (w + 2 ≤ e.1) || decide (e.1 + 2 ≤ w)
    let rest := own.filter far ++ (ws.filter (fun e => !own.any (fun o => o.1 == e.1))).filter far
    some { win := w, s0 := z, off := off, s2 := (argMin rest).map (fun e => e.2) }

/-- R164: the right-view winner of a column from a line's sums. -/
def rightWinner (d : List Nat) (w : Nat) (rows : List (List (List Int))) (xr : Nat) : Option Nat :=
  let n := stCount d / stHalves d
  (argMin (rows.zipIdx.flatMap (fun h => (List.range n).filterMap (fun k =>
    let q := stMin d + h.2 * n + k
    if xr + q < w then some (q, (h.1.getD (xr + q) []).getD k 0) else none)))).map (fun e => e.1)

/-- What a task writes for a pixel: DISP, CONF, FLAGS, CV_WIN, and the exported costs. -/
structure StePix where
  disp : Nat
  conf : Nat
  flags : Nat
  win : Nat
  /-- first candidate of the exported window -/
  start : Int
  cv : List Nat
  deriving DecidableEq, Repr

/-- R166: the first candidate exported for a winner. -/
def cvStart (d : List Nat) (win : Nat) : Int := (win : Int) - (stCvN d / 2 : Nat)

/-- R166: the exported costs of a pixel. -/
def exportCosts (s : State) (tn : Nat) (d : List Nat) (x y win : Nat) (noMatch : Bool) (sums : List Int) : List Nat :=
  (List.range (stCvN d)).map (fun (j : Nat) =>
    let k : Int := cvStart d win + (j : Int)
    if noMatch ∨ k < stMin d ∨ ((stMin d + stCount d : Nat) : Int) ≤ k ∨ (x : Int) < k then 255
    else if stCvSrc d then min 255 ((sums.getD (k.toNat - stMin d) 0).toNat / 2 ^ stCvShift d)
    else (stereoCost s tn d x y k.toNat).toNat)

/-- A pixel's outputs. -/
def stPixel (s : State) (tn : Nat) (d : List Nat) (w x y : Nat) (rows : List (List (List Int))) : StePix :=
  let halves := rows.map (fun r => r.getD x [])
  match stWinner d x halves with
  | none =>
    -- NOMATCH; confidence 0 may also lie below CONF_MIN
    { disp := 0xFFFF, conf := 0, flags := 1 + 2 * b2n (decide (0 < stConfMin d)), win := 0xFFFF, start := cvStart d 0xFFFF,
      cv := exportCosts s tn d x y 0 true [] }
  | some v =>
    let conf := match v.s2 with | some t => confidence (stGain d) v.s0 t | none => 0
    let low := decide (conf < stConfMin d)
    let dr := if stLr d then rightWinner d w rows (x - v.win) else some v.win
    let q := dr.getD v.win
    let bad := decide (stTol d < ((v.win : Int) - (q : Int)).natAbs)
    let occ := bad && decide (v.win + stTol d < q)
    let mis := bad && !occ
    let edge := v.win == stMin d || v.win + 1 == stMin d + stCount d
    { disp := if low || ((occ || mis) && stLrInval d) then 0xFFFF else (16 * (v.win : Int) + v.off).toNat,
      conf := conf, flags := 2 * b2n low + 4 * b2n mis + 8 * b2n occ + 16 * b2n edge, win := v.win, start := cvStart d v.win,
      cv := exportCosts s tn d x y v.win false (halves.getD 0 []) }

/-- R173: the range check of a pixel. -/
def stRangeBad (d : List Nat) (p : StePix) : Bool :=
  (p.disp != 0xFFFF && (decide (p.disp < 16 * stMin d) || decide (16 * (stMin d + stCount d - 1) < p.disp) || bit p.flags 0 ||
    decide (p.conf < stConfMin d))) || (bit p.flags 0 && p.conf != 0) ||
  (stCvN d != 0 && p.start != (p.win : Int) - (stCvN d / 2 : Nat))

/-- A plane's code of a pixel. -/
def stPlane (q : Nat) (p : StePix) : Nat :=
  if q = 0 then p.disp else if q = 1 then p.conf else if q = 2 then p.flags else p.win

/-- R166: an export line. -/
def cvLine (d : List Nat) (w : Nat) (l : List StePix) : List Byte :=
  let nb := cdiv (stCvN d) 32
  (List.range (cdiv w 16)).flatMap (fun t => (List.range nb).flatMap (fun b => (List.range 16).flatMap (fun i =>
    (List.range 32).map (fun c => BitVec.ofNat 8 (((l.map StePix.cv).getD (16 * t + i) []).getD (32 * b + c) 0)))))

/-- Address of an export line. -/
def cvAddr (s : State) (d : List Nat) (w y : Nat) : Nat :=
  if stCvWheel d then lineAddr s (stCvKey d) y else stCvBase d + y * stCvRows d w * 512

/-! ### Tasks -/

/-- Wheels a task reads, and writes: keys. -/
def stSources (d : List Nat) : List Nat :=
  (if stUsesL d && (stSrcL d).wheel then [(stSrcL d).key] else []) ++
  (if !stFeat d && (stSrcR d).wheel then [(stSrcR d).key] else []) ++
  (if stFeat d && (stFeatL d).wheel then [(stFeatL d).key] else []) ++
  (if stFeat d && (stFeatR d).wheel then [(stFeatR d).key] else [])

def stDests (d : List Nat) : List Nat :=
  ((stPlanes d).filter (fun p => p.1.wheel)).map (fun p => p.1.key) ++
  (if stCvN d ≠ 0 && stCvWheel d then [stCvKey d] else [])

/-- Memory a stripe reads of its inputs: lines `[lo, hi)`. -/
def stReads (s : State) (d : List Nat) (lo hi : Nat) : List (Nat × Nat) :=
  (List.range (hi - lo)).flatMap (fun j =>
    (if stUsesL d then [((stSrcL d).line s 0 (lo + j), (stSrcL d).lineLen)] else []) ++
    (if stFeat d then [((stFeatL d).line s (lo + j), (stFeatL d).lineLen), ((stFeatR d).line s (lo + j), (stFeatR d).lineLen)]
     else [((stSrcR d).line s 0 (lo + j), (stSrcR d).lineLen)]))

/-- The lines of a stripe as writes to every plane and the export. -/
def stWrites (s : State) (d : List Nat) (y0 : Nat) (l : List (List StePix)) : List (Nat × List Byte) :=
  let w := (stDisp d).width
  l.zipIdx.flatMap (fun e => (stPlanes d).map (fun p => (p.1.line s 0 (y0 + e.2), lineBytesOf p.1.pix (e.1.map (stPlane p.2)))) ++
    (if stCvN d = 0 then [] else [(cvAddr s d w (y0 + e.2), cvLine d w e.1)]))

/-- The spill buffer of a task's slot (R169). -/
def stSpillAt (d : List Nat) (slot : Nat) : Nat × Nat := (stSpill d + slot * stSpillRows d * 512, stSpillRows d * 512)

/-- R168: what a stripe releases of its wheel sources when it completes. -/
def stReleases (nd : Node) (d : List Nat) (l : List Nat) : List (Nat × Nat × Nat) :=
  if nd.height = 0 then [] else l.map (fun k => (k, nd.height, max (stCh d) 1))

/-- The planes and the export that a failed task writes: those with a format and a place. -/
def stSound (s : State) (d : List Nat) : List (ImgRef × Nat) × Bool :=
  ((stPlanes d).filter (fun p => p.1.sink s),
   stCvN d != 0 && decide (stCvCode d ≤ 4) &&
    (!stCvWheel d || ((soundWheels s [stCvKey d]).length == 1 && placeRows s (stCvKey d) == stCvRows d (stDisp d).width)))

/-- R176, R510: a failed task.  It completes as any other and releases its source lines (R168). -/
def stFail (c : Nat) (r : Run) (nd : Node) (d : List Nat) (status : Nat) (s : State) : State :=
  let eng := engV c 0
  let w := (stDisp d).width
  let h := (stDisp d).height
  let y := stripeLines nd r.task h
  let ok := stSound s d
  let src := soundWheels s (stSources d)
  let dst := (ok.1.filter (fun p => p.1.wheel)).map (fun p => p.1.key) ++ (if ok.2 && stCvWheel d then [stCvKey d] else [])
  let s0 := src.foldl (fun s k => openCons k r h s) (failRun eng 0x000B R.steEngFault c status s)
  let s1 := dst.foldl (fun s k => openProd k r h s) s0
  match wheelsReady s1 r [] (dst.map (fun k => (k, y.2))) with
  | some (.stall k) => stallRun eng k s
  | some (.bad e) => faultRun eng e s
  | _ =>
    let fl := outFlags s r fInvalid
    let lines := (List.range (y.2 - y.1)).map (· + y.1)
    let zero := lines.flatMap (fun j => ok.1.map (fun p => (p.1.line s1 0 j, List.replicate p.1.zeroLen (0 : Byte))) ++
      (if ok.2 then [(cvAddr s1 d w j, List.replicate (stCvRows d w * 512) (0 : Byte))] else []))
    let s2 := doWork eng { workNone with
      writes := zero ++ ctxFail s1 (ctxRow (stSra d) (stRows d) r.task.slot) (stRows d) ++
        [(statAddr r nd (stStat d) 64, matchRecord r fl 0 [] (List.replicate 16 0))],
      flags := fl, pushes := onePush s r (stHandle d) (stMillrace d) } (draw s1)
    let s3 := setReleases eng (stReleases nd d src) (dst.foldl (fun s k => markLines k r lines s) s2)
    ctxPut r (ctxRow (stSra d) (stRows d) r.task.slot) [] s3

/-- Sums of every half over a stripe, and the states after them. -/
def stSums (s : State) (tn : Nat) (d : List Nat) (w y0 y1 ext : Nat) (old : List (List Int)) :
    List (List (List (List Int))) × List PathSt :=
  let hs := (List.range (stHalves d)).map (fun h =>
    let n := 2 + 3 * w
    halfSums s tn d w h y0 y1 ext (pathUnpack ((old.drop (h * n)).take n)))
  (hs.map (fun e => e.1), hs.map (fun e => e.2))

/-- R155 to R175: a stripe runs. -/
def stRun (c : Nat) (r : Run) (nd : Node) (d : List Nat) (s : State) : State :=
  let eng := engV c 0
  let tn := r.task.tenant
  let w := (stDisp d).width
  let h := (stDisp d).height
  let y := stripeLines nd r.task h
  let ext := if nd.height = 0 then 0 else min (stExt d) (h - y.2)
  let lo := y.1 - max (stCh d) (b2n (stEdge d))
  let hi := min h (y.2 + stCh d + ext)
  let row := ctxRow (stSra d) (stRows d) r.task.slot
  let s1 := (stDests d).foldl (fun s k => openProd k r h s) ((stSources d).foldl (fun s k => openCons k r h s) s)
  match wheelsReady s1 r ((stSources d).map (fun k => (k, hi))) ((stDests d).map (fun k => (k, y.2))) with
  | some (.stall k) => cnt R.steEngStall c 1 (stallRun eng k s1)
  | some (.bad e) => faultRun eng e s1
  | _ =>
    let sp := stSpillAt d r.task.slot
    let reads := ctxReads r row (stRows d) ++ stReads s1 d lo hi
    (match chkAll s1 tn reads [] with
     | .ok =>
       let sums := stSums s1 tn d w y.1 y.2 ext ((ctxGet s1 r row).getD [])
       let pix := (List.range (y.2 - y.1)).map (fun j => (List.range w).map (fun x =>
         stPixel s1 tn d w x (y.1 + j) (sums.1.map (fun h => h.getD j []))))
       let all := pix.flatten
       let num := fun (p : StePix → Bool) => (all.filter p).length
       let valid := num (fun p => p.disp != 0xFFFF)
       let plaus := decide (valid * 1000 < stValidMin d * all.length)
       let range := all.any (stRangeBad d)
       let fl := outFlags s1 r (if range || (plaus && stPlausAct d) then fInvalid else 0)
       let hv := stHalves d
       let f := if stFeat d then (stFeatL d).factor else 1
       let ln := y.2 - y.1
       let wk : Work := {
         reads := reads,
         writes := stWrites s1 d y.1 pix ++ ctxWrites s1 row (stRows d) ++
           (if stSpillRows d = 0 then [] else [(sp.1, (List.range sp.2).map (fun n => Config.lostByte s1.free n))]) ++
           [(statAddr r nd (stStat d) 64, matchRecord r fl (2 ^ 18 * b2n plaus + 2 ^ 19 * b2n range)
             [valid, num (fun p => bit p.flags 0), num (fun p => bit p.flags 1), num (fun p => bit p.flags 2),
              num (fun p => bit p.flags 3), 0] (confHist (all.map StePix.conf)))],
         flags := fl, cycles := hv * cdiv (stCount d) (64 * hv) * f * w * (ln + b2n (stPaths8 d) * (ln + ext)),
         pushes := onePush s1 r (stHandle d) (stMillrace d) }
       (match chkAll s1 tn wk.reads (wk.writes.map (fun x => (x.1, x.2.length))) with
        | .ok =>
          let s2 := doWork eng wk (draw s1)
          let s3 := (stDests d).foldl (fun s k => markLines k r ((List.range ln).map (· + y.1)) s) s2
          let s4 := ctxPut r row (sums.2.flatMap (pathPack w)) s3
          let s5 := plausSignal eng r (plaus && stPlausAct d) (setReleases eng (stReleases nd d (stSources d)) s4)
          let s6 := cnt R.steEngPlaus c (b2n plaus) (cnt R.steEngRange c (b2n range) s5)
          if range then rangeFail eng s6 else s6
        | e => faultRun eng e s1)
     | e => faultRun eng e s1)

/-- A stereo task from its dispatch on. -/
def stGo (c : Nat) (r : Run) (s : State) : State :=
  let eng := engV c 0
  match taskCtx s r.task with
  | none => s
  | some (_, nd, _) =>
    (match chkAccess s r.task.tenant nd.work 256 false with
     | .ok =>
       let d := descWords s r.task 64
       let s1 := rput R.steEngStat c (2 * stCost d + 8 * b2n (stPaths8 d) + 16 * b2n (stHalves d == 2)) s
       (match stCheck s nd r d with
        | 0 => stRun c r nd d s1
        | st => stFail c r nd d st s1)
     | e => faultRun eng e s)

/-- R162. -/
def execSteTask (core : Nat) (s : State) : Host.Outcome State Fault Refusal :=
  act (decide (core < 4)) s (fun s => engineStep 1 (engV core 0) (pickCore s 1 core (engV core 0)) (fun _ => true) (stGo core) s)

end Sys2Proof.Machine
end

