-- ==== Sys2Proof/Machine/NeuralOps.lean ====
section
/-! DEFINITION. What each tensor operation computes (R258 to R266, R341 to R345): its output elements, and its cycles (R267). -/

namespace Sys2Proof.Machine

/-- The outcome of a TOD's computation: output elements, a failure status (0 for none), out-of-range count, RESULT, cycles of
each sliver, weight rows of each member, accumulators by element (element, rank, value). -/
structure TodOut where
  els : List OutEl
  status : Nat
  oob : Nat
  result : Nat
  slivers : List Nat
  rows : List (List Nat)
  accs : List (Nat × Nat × Nat)
  deriving DecidableEq, Repr

/-- An outcome with output elements and sliver cycles alone. -/
def outEls (els : List OutEl) (slivers : List Nat) : TodOut :=
  { els := els, status := 0, oob := 0, result := 0, slivers := slivers, rows := [], accs := [] }

/-- A computation that fails. -/
def outFail (status : Nat) : TodOut := { els := [], status := status, oob := 0, result := 0, slivers := [], rows := [], accs := [] }

/-- Accumulators carried into a TOD: rank and element to value. -/
abbrev Carry := Nat → Nat → Option Nat

/-! ### Cycles -/

/-- Cycles of a sliver with `u` units, 0 for an empty one. -/
def sliverList (d : Tod) (k red : Nat) (f : Nat → Nat) : List Nat := (d.units k red).map (fun u => if u = 0 then 0 else f u)

/-- Output elements of a sliver with `u` units. -/
def Tod.elems (d : Tod) (u : Nat) : Nat :=
  if 6 ≤ d.split then d.y.count else d.y.count / max 1 (d.y.extent d.split) * u

/-- Cycles of an elementwise operation: `c` a group of 32 elements. -/
def vecSlivers (d : Tod) (k c : Nat) : List Nat := sliverList d k 0 (fun u => 32 + c * cdiv (d.elems u) 32)

/-- Cycles of an operation charged by input elements. -/
def inSlivers (d : Tod) (k inn c : Nat) : List Nat :=
  sliverList d k 0 (fun u => 32 + c * cdiv (d.elems u * inn / max 1 d.y.count) 32)

/-- Cycles of CONV2D and MATMUL: `pos` positions, `ch` channels along output dimension `cd`, `red` terms. -/
def macSlivers (d : Tod) (k pos ch cd red : Nat) : List Nat :=
  let q := stepQuarters (d.s 0).fmt (d.s 1).fmt d.sparse
  sliverList d k red (fun u =>
    32 + (if d.split = 7 then macCycles pos ch red q
      else if d.split = 6 then macCycles pos ch u q + cdiv d.y.count 32 * clog2 (32 * k)
      else if d.split = cd then macCycles pos u red q
      else macCycles (pos / max 1 (d.y.extent d.split) * u) ch red q))

/-! ### CONV2D and MATMUL (R260) -/

/-- A term of a product sum: its place in the reduction, the index and value of its activation (none in padding), what of
its index padding still has, and its weight. -/
structure Term where
  pos : Nat
  act : Option (List Nat × Fv)
  pad : List Nat
  w : Fv

/-- R238: the terms of a sum as its slivers divide them. -/
def Tod.parts (d : Tod) (k red : Nat) (l : List Term) : List (List Term) :=
  if d.split = 6 then (List.range (32 * k)).map (fun s => l.filter (fun t => sliverOf (32 * k) red t.pos == s)) else [l]

/-- One output element from its terms; `o` is its channel and `widx` gives the indices of its weights. -/
def macOut (d : Tod) (e : Env) (carry : Carry) (red rank o : Nat) (idx : List Nat) (widx : Nat → List Nat) (l : List Term) :
    OutEl × (Nat × Nat × Nat) :=
  let x := d.s 0
  let flat := flatIdx d.y.shape idx
  let c := if d.carry then some ((carry rank flat).getD 0) else none
  let el := fun (v : OutVal) => ({ slot := 4, idx := idx, rank := rank, val := v } : OutEl)
  -- the parameters of a per-channel activation apply to its padding too (R260)
  let acts := if x.qaxis ≤ 1 then l.map (fun t => t.pad) else l.filterMap (fun t => t.act.map Prod.fst)
  match e.quants x rank acts, e.quants (d.s 1) rank (l.map (fun t => widx t.pos)) with
  | some qa, some qb =>
    let sab := f32Mul qa.1 qb.1
    if fmtInt x.fmt then
      let b := if d.has 2 then e.int (d.s 2) rank [o] else 0
      let pair := fun (t : Term) => (match t.act with | some v => fvToInt v.2 | none => qa.2, fvToInt t.w)
      let r := dotInt (e.seed + flat) c ((d.parts e.gang.length red l).map (fun p => p.map pair)) qa.2 qb.2 b
      (el (d.outInt e rank idx r.2 sab), (flat, rank, r.1))
    else
      let b := if d.has 2 then some (e.code (d.s 2) rank [o]) else none
      let r := dotFloat (e.seed + flat) c b (l.filterMap (fun t => t.act.map (fun v => (v.2, t.w))))
      (el (d.outReal e rank idx (f32Mul sab r)), (flat, rank, r))
  | _, _ => (el (d.outReal e rank idx (e.free flat)), (flat, rank, e.free (2 ^ 35 + flat)))

/-- Rank that reads term `r` of a reduction. -/
def Tod.redRank (d : Tod) (k red rank r : Nat) : Nat := if d.split = 6 then sliverOf (32 * k) red r / 32 else rank

def cvKh (d : Tod) : Nat := bits (d.p 0) 3 0 + 1
def cvKw (d : Tod) : Nat := bits (d.p 0) 7 4 + 1
def cvSh (d : Tod) : Nat := bits (d.p 0) 10 8 + 1
def cvSw (d : Tod) : Nat := bits (d.p 0) 13 11 + 1
def cvDh (d : Tod) : Nat := bits (d.p 0) 16 14 + 1
def cvDw (d : Tod) : Nat := bits (d.p 0) 19 17 + 1
def cvPt (d : Tod) : Nat := bits (d.p 1) 7 0
def cvPb (d : Tod) : Nat := bits (d.p 1) 15 8
def cvPl (d : Tod) : Nat := bits (d.p 1) 23 16
def cvPr (d : Tod) : Nat := bits (d.p 1) 31 24
def cvG (d : Tod) : Nat := bits (d.p 2) 15 0

/-- Source position of a window's tap; none in padding. -/
def tapAt (n st pad dil o k : Nat) : Option Nat :=
  let v : Int := (st * o + dil * k : Nat) - (pad : Int)
  if 0 ≤ v ∧ v < n then some v.toNat else none

/-- Size of an output along an axis; 0 when there is none. -/
def convSize (n pad dil k st : Nat) : Nat := if n + pad < dil * (k - 1) + 1 then 0 else (n + pad - dil * (k - 1) - 1) / st + 1

/-- Reduction length and output channels of CONV2D. -/
def cvRed (d : Tod) : Nat := (d.s 1).extent 1 * cvKh d * cvKw d

/-- Source of position `p` of a record in the window of output element `idx`; none in padding. -/
def cvSrc (d : Tod) (idx p : List Nat) : Option (List Nat) :=
  match tapAt ((d.s 0).extent 2) (cvSh d) (cvPt d) (cvDh d) (wd idx 2) (wd p 2),
    tapAt ((d.s 0).extent 3) (cvSw d) (cvPl d) (cvDw d) (wd idx 3) (wd p 3) with
  | some yy, some xx => some [wd idx 0, wd idx 1 / max 1 ((d.s 1).extent 0 / max 1 (cvG d)) * (d.s 1).extent 1 + wd p 1, yy, xx]
  | _, _ => none

/-- Index of term `r` of the weights of channel `o`. -/
def cvWeight (d : Tod) (o r : Nat) : List Nat := [o, r / (cvKh d * cvKw d), r / cvKw d % cvKh d, r % cvKw d]

/-- CONV2D. -/
def runConv (d : Tod) (e : Env) (carry : Carry) : TodOut :=
  let x := d.s 0
  let k := e.gang.length
  let red := cvRed d
  let co := (d.s 1).extent 0
  let cg := (d.s 1).extent 1
  let sp := d.sparse
  match weightsOf (e.view 0) e.tn (e.core 0) d red co with
  | none => outFail 0x02
  | some w =>
    if sp && w.badNibble (e.view 0) e.tn then outFail 0x01
    else
      let res := (allIdx d.y.shape).map (fun idx =>
        let o := wd idx 1
        let rank := d.rank k idx
        let widx := cvWeight d o
        let l := (w.terms sp (e.view 0) e.tn o widx).map (fun t =>
          let p := widx t.1
          let act := (cvSrc d idx p).map (fun i => (i, e.raw x (d.redRank k red rank t.1) i))
          ({ pos := t.1, act := act, pad := [wd idx 0, o / max 1 (co / max 1 (cvG d)) * cg + wd p 1], w := t.2 } : Term))
        macOut d e carry red rank o idx widx l)
      { outEls (res.map (fun r => r.1)) (macSlivers d k (d.y.extent 0 * d.y.extent 2 * d.y.extent 3) co 1 red) with
        rows := memberRows d (e.core 0) k red (res.map (fun r => (r.1.rank, [wd r.1.idx 1]))) (fun x => wd x 0)
          (fun x r => cvWeight d (wd x 0) r)
        accs := res.map (fun r => r.2) }

def mmTa (d : Tod) : Bool := bit (d.p 0) 0
def mmTb (d : Tod) : Bool := bit (d.p 0) 1

/-- Extents M, K of A and K, N of B. -/
def mmM (d : Tod) : Nat := (d.s 0).extent ((d.s 0).ndim - (if mmTa d then 1 else 2))
def mmK (d : Tod) : Nat := (d.s 0).extent ((d.s 0).ndim - (if mmTa d then 2 else 1))
def mmKb (d : Tod) : Nat := (d.s 1).extent ((d.s 1).ndim - (if mmTb d then 1 else 2))
def mmN (d : Tod) : Nat := (d.s 1).extent ((d.s 1).ndim - (if mmTb d then 2 else 1))

/-- Batch extents of a tensor. -/
def batchOf (t : Tensor) : List Nat := t.shape.take (t.ndim - 2)

/-- An index broadcast to extents of which some are 1. -/
def bcast (ext idx : List Nat) : List Nat := (ext.zip idx).map (fun e => if e.1 = 1 then 0 else e.2)

/-- MATMUL. -/
def runMatmul (d : Tod) (e : Env) (carry : Carry) : TodOut :=
  let a := d.s 0
  let b := d.s 1
  let k := e.gang.length
  let red := mmK d
  let n := mmN d
  let nb := prodN (batchOf b)
  match weightsOf (e.view 0) e.tn (e.core 0) d red (nb * n) with
  | none => outFail 0x02
  | some w =>
    if d.sparse && w.badNibble (e.view 0) e.tn then outFail 0x01
    else
      let nd := d.y.ndim
      let res := (allIdx d.y.shape).map (fun idx =>
        let m := wd idx (nd - 2)
        let o := wd idx (nd - 1)
        let rank := d.rank k idx
        let ba := bcast (batchOf a) (idx.take (nd - 2))
        let bb := bcast (batchOf b) (idx.take (nd - 2))
        let bidx := fun (r : Nat) => bb ++ (if mmTb d then [o, r] else [r, o])
        let l := (w.terms d.sparse (e.view 0) e.tn (flatIdx (batchOf b) bb * n + o) bidx).map (fun t =>
          let i := ba ++ (if mmTa d then [t.1, m] else [m, t.1])
          ({ pos := t.1, act := some (i, e.raw a (d.redRank k red rank t.1) i), pad := i, w := t.2 } : Term))
        macOut d e carry red rank o idx bidx l)
      { outEls (res.map (fun r => r.1)) (macSlivers d k (d.y.count / max 1 n) n (nd - 1) red) with
        rows := memberRows d (e.core 0) k red (res.map (fun r => (r.1.rank, bcast (batchOf b) (r.1.idx.take (nd - 2)) ++ [wd r.1.idx (nd - 1)])))
          (fun x => flatIdx (batchOf b) (x.take (nd - 2)) * n + wd x (nd - 2))
          (fun x r => x.take (nd - 2) ++ (if mmTb d then [wd x (nd - 2), r] else [r, wd x (nd - 2)]))
        accs := res.map (fun r => r.2) }

/-! ### SOFTMAX and ATTENTION (R243, R261) -/

def negInf : Nat := 0xFF800000
def posInf : Nat := 0x7F800000

/-- R243: what the elements of a row that are not masked contribute, exactly: e^(x − m) of each, to 200 fraction bits. -/
def softmaxExact (m : Nat) (l : List Nat) : List Nat := l.map (fun x => fxExp (fxAbs (fvAdd (f32v x) (fvNeg (f32v m)))))

/-- R243: a row; none marks an element masked out.  Each output stays within the bound of the exact value. -/
def softmaxRow (seed : Nat) (l : List (Option Nat)) : List Nat :=
  let live := (l.filterMap id).filter (fun x => x != negInf)
  if live.any (fun x => f32IsNaN x || x == posInf) then l.map (fun _ => f32NaN)
  else match live with
  | [] => l.map (fun _ => 0)
  | a :: t =>
    let m := t.foldl selMax a
    let ex := fun (x : Nat) => expIn (f32Sub x m)
    let r := recipIn (sumF32 seed (live.map ex))
    let total := sumN (softmaxExact m live)
    l.map (fun o => match o with
      | some x =>
        if x = negInf then 0
        else
          let y := sumN (softmaxExact m [x]) * fx1 / max 1 total
          pickNear (f32Mul (ex x) r) (.fin false y (-200)) (.fin false ((l.length + 9) * y) (-224))
      | none => 0)

/-- A mask with dimensions of extent 1 broadcast hides an element. -/
def maskedOut (d : Tod) (e : Env) (j rank : Nat) (idx : List Nat) : Bool :=
  d.has j && e.code (d.s j) rank (bcast (d.s j).shape idx) == 0

def smAxis (d : Tod) : Nat := bits (d.p 0) 2 0

/-- SOFTMAX. -/
def runSoftmax (d : Tod) (e : Env) : TodOut :=
  let x := d.s 0
  let k := e.gang.length
  let ax := smAxis d
  outEls ((allIdx ((x.shape).set ax 1)).flatMap (fun base =>
    let line := (List.range (x.extent ax)).map (fun i => base.set ax i)
    let row := line.map (fun i => if maskedOut d e 1 (d.rank k i) i then none else some (e.real x (d.rank k i) i))
    let out := softmaxRow (e.seed + flatIdx x.shape base) row
    (line.zip out).map (fun p => { slot := 4, idx := p.1, rank := d.rank k p.1, val := d.outReal e (d.rank k p.1) p.1 p.2 })))
    (vecSlivers d k 3)

def atCausal (d : Tod) : Bool := bit (d.p 0) 0

/-- SCALE, or 1/√D. -/
def atScale (d : Tod) : Nat := if d.p 1 = 0 then f32Div f32One (f32Sqrt (f32OfInt ((d.s 0).extent 3 : Nat))) else d.p 1

/-- Scale 1/255 of INT8 probabilities. -/
def probScale : Nat := f32Div f32One (f32OfInt 255)

/-- The dot product of a query and a key, dequantised. -/
def atDot (d : Tod) (e : Env) (rank seed : Nat) (q kx : List Nat) : Nat :=
  let a := d.s 0
  let b := d.s 1
  let ix := List.range (a.extent 3)
  match e.quants a rank (ix.map (fun i => q ++ [i])), e.quants b rank (ix.map (fun i => kx ++ [i])) with
  | some qa, some qb =>
    let l := ix.map (fun i => (e.raw a rank (q ++ [i]), e.raw b rank (kx ++ [i])))
    let sab := f32Mul qa.1 qb.1
    if fmtInt a.fmt then f32Mul sab (f32OfInt (dotInt (e.seed + seed) none [l.map (fun t => (fvToInt t.1, fvToInt t.2))] qa.2 qb.2 0).2)
    else f32Mul sab (dotFloat (e.seed + seed) none none l)
  | _, _ => e.free seed

/-- ATTENTION. -/
def runAttention (d : Tod) (e : Env) : TodOut :=
  let q := d.s 0
  let v := d.s 2
  let k := e.gang.length
  let tq := q.extent 2
  let tk := v.extent 2
  let els := (allIdx [q.extent 0, q.extent 1, tq]).flatMap (fun r =>
    let b := wd r 0
    let h := wd r 1
    let i := wd r 2
    let hk := h * v.extent 1 / max 1 (q.extent 1)
    let base := fun (rank : Nat) => (rank * prodN [q.extent 0, q.extent 1, tq] + flatIdx [q.extent 0, q.extent 1, tq] r) * 16777216
    -- the members that compute elements of the row each form its scores
    let score := fun (rank : Nat) => (List.range tk).map (fun j =>
      if maskedOut d e 3 rank [i, j] || (atCausal d && decide (i + tk < j + tq)) then none
      else some (f32Mul (atScale d) (atDot d e rank (base rank + j) r [b, hk, j])))
    let rows := (if d.split = 3 then List.range k else [d.rank k (r ++ [0])]).map (fun rank =>
      let z := score rank
      (rank, z.all (fun o => o.isNone), softmaxRow (e.seed + base rank + 65536) z))
    (List.range (v.extent 3)).map (fun c =>
      let idx := r ++ [c]
      let rank := d.rank k idx
      let row := (rows.find? (fun x => x.1 == rank)).getD (rank, true, [])
      let val := fun (j : Nat) => e.raw v rank [b, hk, j, c]
      let seed := base rank + 131072 + c
      let p := row.2.2.zipIdx
      { slot := 4, idx := idx, rank := rank,
        val := if row.2.1 then d.outReal e rank idx 0
          else match e.quants v rank ((List.range tk).map (fun j => [b, hk, j, c])) with
          | none => d.outReal e rank idx (e.free seed)
          | some qv =>
            if fmtInt v.fmt then
              d.outInt e rank idx (dotInt (e.seed + seed) none [p.map (fun t => (((quantTo 2 probScale 0 false t.1).1 : Int), fvToInt (val t.2)))]
                0 qv.2 0).2 (f32Mul probScale qv.1)
            else d.outReal e rank idx (f32Mul qv.1 (dotFloat (e.seed + seed) none none
              (p.map (fun t => (fdecode (ffOf v.fmt) (fencode (ffOf v.fmt) false false (f32v t.1)).1, val t.2))))) }))
  let f := stepQuarters q.fmt v.fmt false
  outEls els (sliverList d k 0 (fun u =>
    let rows := if d.split ≤ 2 then q.extent 0 * q.extent 1 * tq / max 1 (d.y.extent d.split) * u else q.extent 0 * q.extent 1 * tq
    let c := if d.split = 3 then u else v.extent 3
    32 + max (macCycles rows tk (q.extent 3) f + macCycles rows c tk f) (3 * cdiv (rows * tk) 32)))

/-! ### ELTWISE, ACT, QUANT (R262) -/

def ewOp (d : Tod) : Nat := bits (d.p 0) 3 0
def ewScalar (d : Tod) : Bool := bit (d.p 0) 4

/-- The operation on two FP32 values. -/
def ewFn (op a b : Nat) : Nat :=
  match op with
  | 0 => f32Add a b
  | 1 => f32Sub a b
  | 2 => f32Mul a b
  | 3 => selMax a b
  | 4 => selMin a b
  | 5 => f32Abs (f32Sub a b)
  | _ => f32Div a b

/-- ELTWISE. -/
def runEltwise (d : Tod) (e : Env) : TodOut :=
  let k := e.gang.length
  outEls ((allIdx d.y.shape).map (fun idx =>
    let r := d.rank k idx
    let a := e.real (d.s 0) r (bcast (d.s 0).shape idx)
    let b := if ewScalar d then d.p 1 else e.real (d.s 1) r (bcast (d.s 1).shape idx)
    { slot := 4, idx := idx, rank := r, val := d.outReal e r idx (ewFn (ewOp d) a b) })) (vecSlivers d k (if ewOp d = 6 then 4 else 1))

/-- ACT and QUANT: each element converted, the function of ACT applied. -/
def runMap (d : Tod) (e : Env) : TodOut :=
  let k := e.gang.length
  outEls ((allIdx d.y.shape).map (fun idx =>
    let r := d.rank k idx
    { slot := 4, idx := idx, rank := r, val := d.outReal e r idx (e.real (d.s 0) r idx) })) (vecSlivers d k 1)

/-! ### NORM (R244, R263) -/

def nmMode (d : Tod) : Nat := bits (d.p 0) 1 0
def nmAxes (d : Tod) : Nat := bits (d.p 0) 7 2
def nmGroups (d : Tod) : Nat := bits (d.p 0) 23 8

/-- The channel dimension: C of [N,] C, H, W; for LAYER the last normalised dimension when C is not normalised. -/
def nmChan (d : Tod) : Nat :=
  let n := (d.s 0).ndim
  let c := if 3 ≤ n then n - 3 else n - 1
  if nmMode d = 0 ∧ ¬ bit (nmAxes d) c then Nat.log2 (max 1 (nmAxes d)) else c

/-- Elements normalised together. -/
def nmSame (d : Tod) (a b : List Nat) : Bool :=
  let c := nmChan d
  let g := max 1 ((d.s 0).extent c / max 1 (nmGroups d))
  (List.range (d.s 0).ndim).all (fun i =>
    bit (nmAxes d) i || (if nmMode d = 1 ∧ i = c then wd a i / g == wd b i / g else wd a i == wd b i))

/-- R244: the normalised value, exactly: (n v − Σ) √(n / (Σ (n u − Σ)² + n³ ε)), and 0 where variance + ε is 0. -/
def normExact (all : List Nat) (v eps : Nat) : Fv :=
  let n : Fv := fvOfInt (all.length : Nat)
  let sum := exactSum all
  let dev := fun (u : Nat) => fvAdd (fvMul n (f32v u)) (fvNeg sum)
  let den := fvAdd (fvSum (all.map (fun u => fvMul (dev u) (dev u)))) (fvMul (fvMul n (fvMul n n)) (f32v eps))
  match dev v, den with
  | .fin s m e, .fin _ p q =>
    if p = 0 then .fin false 0 0
    else
      let k := 2 * e - q + 400
      let num := m * m * all.length
      .fin s (isqrt (if 0 ≤ k then num * 2 ^ k.toNat / p else num / (p * 2 ^ (-k).toNat))) (-200)
  | _, _ => .nan

/-- R244: an output held within its bound of g z + b; a value that is not finite stays. -/
def normNear (n c : Nat) (z g b : Fv) : Nat :=
  match fvAdd (fvMul g z) b with
  | .fin s m e => pickNear c (.fin s m e) (fvMul (fvAdd (fvMul (fvMag g) (fvAdd fvOne (fvMag z))) (fvMag b)) (.fin false (n + 10) (-24)))
  | _ => c

/-- One element. -/
def nmOne (d : Tod) (e : Env) (rank : Nat) (idx : List Nat) : Nat :=
  let x := d.s 0
  let c := [wd idx (nmChan d)]
  let g := e.real (d.s 1) rank c
  let b := e.real (d.s 2) rank c
  let v := e.real x rank idx
  if nmMode d = 2 then
    match fvAdd (fvMul (f32v v) (f32v g)) (f32v b) with
    | .fin n m q => pickNear (Config.refine (e.seed + flatIdx x.shape idx) [(v : Int), (g : Int), (b : Int)]).toNat (.fin n m q)
        (fvMul (fvAdd (fvMag (fvMul (f32v v) (f32v g))) (fvMag (f32v b))) (.fin false 1 (-23)))
    | _ => f32Add (f32Mul v g) b
  else
    let all := ((allIdx x.shape).filter (nmSame d idx)).map (e.real x rank)
    let n := f32OfInt all.length
    let seed := e.seed + 2 * flatIdx x.shape ((((allIdx x.shape).filter (nmSame d idx)).head?).getD idx)
    let mean := f32Div (sumF32 seed all) n
    let dev := all.map (fun u => f32Sub u mean)
    let var := f32Div (sumF32 (seed + 1) (dev.map (fun u => f32Mul u u))) n
    let ve := f32Add var (d.p 1)
    let z := if ve % 0x80000000 = 0 then 0 else f32Mul (f32Sub v mean) (rsqrtIn ve)
    normNear all.length (f32Add (f32Mul g z) b) (if all.all f32IsFin then normExact all v (d.p 1) else .nan) (f32v g) (f32v b)

/-- NORM. -/
def runNorm (d : Tod) (e : Env) : TodOut :=
  let k := e.gang.length
  outEls ((allIdx d.y.shape).map (fun idx =>
    { slot := 4, idx := idx, rank := d.rank k idx, val := d.outReal e (d.rank k idx) idx (nmOne d e (d.rank k idx) idx) })) (vecSlivers d k 3)

/-! ### POOL and RESIZE (R263) -/

def plAvg (d : Tod) : Bool := bit (d.p 2) 0
def plCountPad (d : Tod) : Bool := bit (d.p 2) 1
def plGlobal (d : Tod) : Bool := bit (d.p 2) 2

/-- Window of a POOL: lines and columns. -/
def plKh (d : Tod) : Nat := if plGlobal d then (d.s 0).extent 2 else cvKh d
def plKw (d : Tod) : Nat := if plGlobal d then (d.s 0).extent 3 else cvKw d

/-- Elements in the window of an output element. -/
def plTaps (d : Tod) (idx : List Nat) : List (List Nat) :=
  (List.range (plKh d)).flatMap (fun a => (List.range (plKw d)).filterMap (fun b =>
    match tapAt ((d.s 0).extent 2) (cvSh d) (cvPt d) (cvDh d) (wd idx 2) a,
      tapAt ((d.s 0).extent 3) (cvSw d) (cvPl d) (cvDw d) (wd idx 3) b with
    | some yy, some xx => some [wd idx 0, wd idx 1, yy, xx]
    | _, _ => none))

/-- POOL.  The largest of a window wholly in padding is open. -/
def runPool (d : Tod) (e : Env) : TodOut :=
  let x := d.s 0
  let k := e.gang.length
  outEls ((allIdx d.y.shape).map (fun idx =>
    let r := d.rank k idx
    let flat := e.seed + flatIdx d.y.shape idx
    let taps := (plTaps d idx).map (e.real x r)
    let n := if plCountPad d then plKh d * plKw d else taps.length
    let v := if plAvg d then f32Div (sumF32 flat taps) (f32OfInt n)
      else match taps with
        | [] => w32 (Config.freeWord flat)
        | a :: t => t.foldl selMax a
    { slot := 4, idx := idx, rank := r, val := d.outReal e r idx v }))
    (sliverList d k 0 (fun u => 32 + cdiv (d.elems u * plKh d * plKw d) 32))

def rsBilinear (d : Tod) : Bool := bits (d.p 0) 1 0 == 1
def rsCoord (d : Tod) : Nat := bits (d.p 0) 3 2

/-- Source coordinate of an output position, in FP32. -/
def rsPos (d : Tod) (o inn out : Nat) : Nat :=
  let f := fun (n : Nat) => f32OfInt (n : Int)
  if rsCoord d = 0 then f32Sub (f32Div (f32Mul (f32Add (f o) f32Half) (f inn)) (f out)) f32Half
  else if rsCoord d = 1 then (if out = 1 then 0 else f32Div (f32Mul (f o) (f (inn - 1))) (f (out - 1)))
  else f32Div (f32Mul (f o) (f inn)) (f out)

/-- The floor of a source coordinate. -/
def rsFloor (v : Nat) : Int := match f32v v with | .fin n m q => fvFloor n m q | _ => 0

/-- Source elements of an output element: four in row-major order with BILINEAR, one with NEAREST. -/
def rsTaps (d : Tod) (idx : List Nat) : List (List Nat) :=
  let h := (d.s 0).extent 2
  let w := (d.s 0).extent 3
  let py := rsPos d (wd idx 2) h (d.y.extent 2)
  let px := rsPos d (wd idx 3) w (d.y.extent 3)
  let at' := fun (yy xx : Int) => [wd idx 0, wd idx 1, (clampI 0 (h - 1) yy).toNat, (clampI 0 (w - 1) xx).toNat]
  if rsBilinear d then
    let iy := rsFloor py
    let ix := rsFloor px
    [at' iy ix, at' iy (ix + 1), at' (iy + 1) ix, at' (iy + 1) (ix + 1)]
  else [at' (rsFloor (f32Add py f32Half)) (rsFloor (f32Add px f32Half))]

/-- RESIZE. -/
def runResize (d : Tod) (e : Env) : TodOut :=
  let x := d.s 0
  let k := e.gang.length
  let h := x.extent 2
  let w := x.extent 3
  outEls ((allIdx d.y.shape).map (fun idx =>
    let r := d.rank k idx
    let py := rsPos d (wd idx 2) h (d.y.extent 2)
    let px := rsPos d (wd idx 3) w (d.y.extent 3)
    let tap := fun (n : Nat) => e.real x r ((rsTaps d idx).getD n [])
    let v := if rsBilinear d then
        (let fy := f32Sub py (f32OfInt (rsFloor py))
         let fx := f32Sub px (f32OfInt (rsFloor px))
         let gy := f32Sub f32One fy
         let gx := f32Sub f32One fx
         sumF32 (e.seed + flatIdx d.y.shape idx) [f32Mul (f32Mul gy gx) (tap 0), f32Mul (f32Mul gy fx) (tap 1),
           f32Mul (f32Mul fy gx) (tap 2), f32Mul (f32Mul fy fx) (tap 3)])
      else tap 0
    { slot := 4, idx := idx, rank := r, val := d.outReal e r idx v })) (vecSlivers d k 1)

/-! ### REDUCE, ARGMAX, TOPK (R263, R265) -/

def rdOp (d : Tod) : Nat := bits (d.p 0) 2 0
def rdAxes (d : Tod) : Nat := bits (d.p 0) 13 8

/-- Elements an output element of REDUCE is formed from. -/
def rdLine (d : Tod) (idx : List Nat) : List (List Nat) :=
  (allIdx (d.s 0).shape).filter (fun i => (List.range (d.s 0).ndim).all (fun a => bit (rdAxes d) a || wd i a == wd idx a))

/-- REDUCE. -/
def runReduce (d : Tod) (e : Env) : TodOut :=
  let x := d.s 0
  let k := e.gang.length
  outEls ((allIdx d.y.shape).map (fun idx =>
    let r := d.rank k idx
    let l := (rdLine d idx).map (e.real x r)
    let seed := e.seed + flatIdx d.y.shape idx
    let sq := sumF32 seed (l.map (fun v => f32Mul v v))
    let v := match rdOp d with
      | 0 => sumF32 seed l
      | 1 => f32Div (sumF32 seed l) (f32OfInt l.length)
      | 2 => (l.drop 1).foldl selMax ((l.head?).getD 0)
      | 3 => (l.drop 1).foldl selMin ((l.head?).getD 0)
      | 4 => sq
      | _ => sqrtIn sq
    { slot := 4, idx := idx, rank := r, val := d.outReal e r idx v })) (inSlivers d k x.count 1)

/-- The elements of a line along an axis. -/
def lineOf (e : Env) (x : Tensor) (rank ax : Nat) (base : List Nat) : List Nat :=
  (List.range (x.extent ax)).map (fun i => e.real x rank (base.set ax i))

/-- ARGMAX. -/
def runArgmax (d : Tod) (e : Env) : TodOut :=
  let x := d.s 0
  let k := e.gang.length
  outEls ((allIdx d.y.shape).map (fun idx =>
    let r := d.rank k idx
    let l := lineOf e x r (smAxis d) idx
    let best := (l.zipIdx.drop 1).foldl (fun (b : Nat × Nat) v => if selLt b.1 v.1 then v else b) ((l.head?).getD 0, 0)
    { slot := 4, idx := idx, rank := r, val := .code (ux 32 (best.2 : Int)) })) (inSlivers d k x.count 1)

def tkSmallest (d : Tod) : Bool := bit (d.p 0) 3
def tkN (d : Tod) : Nat := bits (d.p 0) 15 4 + 1

/-- `a` comes before `b` in TOPK's order: NaN after every number. -/
def topBefore (small : Bool) (a b : Nat) : Bool :=
  if f32IsNaN a then false else if f32IsNaN b then true else if small then f32Lt a b else f32Lt b a

/-- Insert behind everything not after it. -/
def topInsert (small : Bool) (v : Nat × Nat) : List (Nat × Nat) → List (Nat × Nat)
  | [] => [v]
  | a :: t => if topBefore small v.1 a.1 then v :: a :: t else a :: topInsert small v t

/-- TOPK. -/
def runTopk (d : Tod) (e : Env) : TodOut :=
  let x := d.s 0
  let k := e.gang.length
  let ax := smAxis d
  let els := (allIdx (x.shape.set ax 1)).flatMap (fun base =>
    let r := d.rank k base
    let top := ((lineOf e x r ax base).zipIdx.foldl (fun acc v => topInsert (tkSmallest d) v acc) []).take (tkN d)
    top.zipIdx.flatMap (fun t =>
      let i := base.set ax t.2
      [{ slot := 4, idx := i, rank := r, val := d.outReal e r i t.1.1 }, { slot := 5, idx := i, rank := r, val := .code (ux 32 (t.1.2 : Int)) }]))
  outEls els (inSlivers d k x.count (clog2 (tkN d + 1)))

/-! ### NMS (R266) -/

def nsMax (d : Tod) : Nat := bits (d.p 0) 11 0 + 1
def nsClass (d : Tod) : Bool := bit (d.p 0) 12

/-- R266: intersection over union of two boxes in FP32. -/
def iou (a b : List Nat) : Nat :=
  let pos := fun (v : Nat) => selMax 0 v
  let area := fun (q : List Nat) => f32Mul (pos (f32Sub (wd q 2) (wd q 0))) (pos (f32Sub (wd q 3) (wd q 1)))
  let i := f32Mul (pos (f32Sub (selMin (wd a 2) (wd b 2)) (selMax (wd a 0) (wd b 0))))
    (pos (f32Sub (selMin (wd a 3) (wd b 3)) (selMax (wd a 1) (wd b 1))))
  let u := f32Sub (f32Add (area a) (area b)) i
  if u % 0x80000000 = 0 then 0 else f32Div i u

/-- A candidate: index, score, class, box. -/
structure NmsBox where
  i : Nat
  score : Nat
  cls : Int
  box : List Nat
  deriving DecidableEq, Repr

/-- Insert by descending score, after its equals. -/
def nmsInsert (v : NmsBox) : List NmsBox → List NmsBox
  | [] => [v]
  | a :: t => if f32Lt a.score v.score then v :: a :: t else a :: nmsInsert v t

/-- The kept boxes, in keep order. -/
def nmsKeep (cap thr : Nat) (byCls : Bool) : List NmsBox → List NmsBox → List NmsBox
  | kept, [] => kept
  | kept, c :: t =>
    if cap ≤ kept.length then kept
    else if kept.any (fun b => (!byCls || b.cls == c.cls) && f32Lt thr (iou b.box c.box)) then nmsKeep cap thr byCls kept t
    else nmsKeep cap thr byCls (kept ++ [c]) t

/-- NMS. -/
def runNms (d : Tod) (e : Env) : TodOut :=
  let k := e.gang.length
  let n := (d.s 0).extent 0
  let cands := (List.range n).filterMap (fun i =>
    let sc := e.real (d.s 1) 0 [i]
    if f32Lt (d.p 2) sc then
      some { i := i, score := sc, cls := if nsClass d then e.int (d.s 2) 0 [i] else 0, box := (List.range 4).map (fun c => e.real (d.s 0) 0 [i, c]) }
    else none)
  let kept := nmsKeep (nsMax d) (d.p 1) (nsClass d) [] (cands.foldl (fun l c => nmsInsert c l) [])
  let els := (List.range (nsMax d)).map (fun j =>
      { slot := 4, idx := [j], rank := 0, val := .code (match kept[j]? with | some b => b.i | none => 0xFFFFFFFF) : OutEl }) ++
    [{ slot := 5, idx := [0], rank := 0, val := .code kept.length }]
  { outEls els ((64 + 4 * cdiv n 32 * clog2 n + kept.length * cdiv n 32) :: List.replicate (32 * k - 1) 0) with result := kept.length }

/-! ### GATHER and SCATTER (R342 to R345) -/

/-- Coordinates of entry `j`, one for each dimension of the addressed tensor. -/
def coordsOf (d : Tod) (e : Env) (rank nd j : Nat) : List Int :=
  (List.range nd).map (fun q => if q < (d.s 1).extent 1 then e.int (d.s 1) rank [j, q] else 0)

/-- The block shape. -/
def blockShape (t : Tensor) (m : Nat) : List Nat := (t.shape).zipIdx.map (fun x => if x.2 = 0 then x.1 / max 1 m else x.1)

/-- R343: an entry is in range. -/
def coordIn (ext blk : List Nat) (c : List Int) : Bool :=
  (c.zip (blk.zip ext)).all (fun x => decide (0 ≤ x.1) && decide ((x.1 + 1) * (x.2.1 : Int) ≤ x.2.2))

/-- Distinct 512-byte rows of some accesses. -/
def rowsOf (l : List (Nat × Nat)) : Nat := (l.flatMap rowSpan).eraseDups.length

/-- The rows an output's element lies in. -/
def elemPlaces (t : Tensor) (idx : List Nat) : List (Nat × Nat) :=
  (t.held idx).map (fun h => ((t.place h.2.1 h.2.2.1 h.2.2.2).1, t.bytesAt))

/-- R267: cycles of a member that moves some rows, shared by its engines. -/
def moveSlivers (rows : List Nat) : List Nat := rows.flatMap (fun n => List.replicate 32 (32 + 2 * n))

/-- A moved element: its code, or its value in a block-scaled format. -/
def moved (e : Env) (t : Tensor) (rank : Nat) (idx : List Nat) : OutVal :=
  if t.fmt = 5 then .q (e.raw t rank idx) else .code (e.code t rank idx)

/-- A constant that the QUANT rule converts with a tensor's parameters. -/
def movedConst (e : Env) (t : Tensor) (rank : Nat) (idx : List Nat) (v : Nat) : OutVal :=
  .q (f32v (f32Div v (e.quant t rank idx).1))

/-- Index in the addressed tensor of element `i` of a block-sized tensor. -/
def blockElem (blk i : List Nat) (c : List Int) : List Nat :=
  (i.zip (blk.zip c)).zipIdx.map (fun x => (x.1.2.2 * x.1.2.1).toNat + (if x.2 = 0 then x.1.1 % max 1 x.1.2.1 else x.1.1))

/-- GATHER. -/
def runGather (d : Tod) (e : Env) : TodOut :=
  let x := d.s 0
  let k := e.gang.length
  let m := (d.s 1).extent 0
  let blk := blockShape d.y m
  let b0 := max 1 (wd blk 0)
  let coord := fun (rank j : Nat) => coordsOf d e rank x.ndim j
  let good := fun (rank j : Nat) => coordIn x.shape blk (coord rank j)
  let els := (allIdx d.y.shape).map (fun idx =>
    let r := d.rank k idx
    let j := wd idx 0 / b0
    let q := if good r j then moved e x r (blockElem blk idx (coord r j)) else movedConst e x r idx (d.p 1)
    { slot := 4, idx := idx, rank := r, val := q })
  let rows := (List.range k).map (fun r =>
    let mine := (allIdx d.y.shape).filter (fun i => d.rank k i == r)
    let fetch := (List.range 32).map (fun t =>
      let part := mine.filter (fun i => 6 ≤ d.split || sliverOf (32 * k) (d.y.extent d.split) (wd i d.split) == 32 * r + t)
      if 6 ≤ d.split ∧ t ≠ 0 then 0
      else sumN ((List.range m).map (fun j =>
        let own := part.filter (fun i => wd i 0 / b0 == j)
        let prev := part.any (fun i => wd i 0 / b0 + 1 == j)
        if own.isEmpty || !good r j || (prev && decide (0 < j) && coord r (j - 1) == coord r j) then 0
        else rowsOf (own.flatMap (fun i => (x.elemReads (e.core r) (blockElem blk i (coord r j))).take 1)))))
    sumN fetch + rowsOf (mine.flatMap (elemPlaces d.y)))
  { outEls els (moveSlivers rows) with
    oob := ((allIdx d.y.shape).filterMap (fun i => if good (d.rank k i) (wd i 0 / b0) then none else some (wd i 0 / b0))).eraseDups.length }

def scAccum (d : Tod) : Bool := bit (d.p 0) 0

/-- R344: the updates aimed at one element, `aimed` by entry, in the runs that the sliver's list of entries serves: entries
next to each other are one run. -/
def scRuns {α : Type} (entries : List Nat) (aimed : List (Nat × α)) : List (List (Nat × α)) :=
  (entries.foldl (fun (acc : List (List (Nat × α)) × Bool) j =>
    match aimed.find? (fun x => x.1 == j) with
    | none => (acc.1, false)
    | some x => match acc.2, acc.1 with
      | true, r :: t => ((r ++ [x]) :: t, true)
      | _, l => ([x] :: l, true)) ([], false)).1.reverse

/-- R344: scatter-accumulate of one element: each run adds its updates to what the destination holds, and what it writes
is read again by the next. -/
def scAdd (d : Tod) (e : Env) (rank : Nat) (idx : List Nat) (runs : List (List (Nat × List Nat))) : OutVal :=
  let u := d.s 0
  let y := d.y
  let zp := (e.quant y rank idx).2
  let seed := e.seed + flatIdx y.shape idx
  let one := fun (held : Fv) (n : Nat) (run : List (Nat × List Nat)) =>
    if fmtInt y.fmt then
      fvOfInt (satI32 (sumI32 (seed + 2 ^ 34 * n) ((fvToInt held - zp) :: run.map (fun x => fvToInt (e.raw u rank x.2) - zp))))
    else f32v (sumF32 (seed + 2 ^ 34 * n) (f32r held :: run.map (fun x => f32r (e.raw u rank x.2))))
  let again := fun (v : Fv) => if y.fmt = 5 then v else elemVal y.fmt (encodeQ y.fmt d.rtz zp v).1 0 127
  .q ((runs.zipIdx.foldl (fun (acc : Fv × Fv) r =>
    let v := one acc.2 r.2 r.1
    (v, again v)) (.fin false 0 0, e.raw y rank idx)).1)

/-- SCATTER. -/
def runScatter (d : Tod) (e : Env) : TodOut :=
  let u := d.s 0
  let y := d.y
  let k := e.gang.length
  let m := (d.s 1).extent 0
  let blk := blockShape u m
  let b0 := max 1 (wd blk 0)
  let all := allIdx y.shape
  let ranks := (all.map (d.rank k)).eraseDups
  let ent := ranks.map (fun r => (r, (List.range m).map (fun j => (j, coordsOf d e r y.ndim j))))
  let entOf := fun (r : Nat) => ((ent.find? (fun x => x.1 == r)).map (fun x => x.2)).getD []
  let good := fun (r : Nat) => (entOf r).filter (fun x => coordIn y.shape blk x.2)
  let sliver := fun (i : List Nat) => if 6 ≤ d.split then 0 else sliverOf (32 * k) (y.extent d.split) (wd i d.split)
  -- an entry's block has elements in a sliver
  let touches := fun (x : Nat × List Int) (t : Nat) => decide (6 ≤ d.split) ||
    (List.range (wd blk d.split)).any (fun o => sliver (List.replicate d.split 0 ++ [(x.2.getD d.split 0).toNat * wd blk d.split + o]) == t)
  -- updates aimed at an element, as the member that computes it sees the list: entry and index in the updates
  let aimed := fun (r : Nat) (i : List Nat) => (good r).filterMap (fun x =>
    if (i.zip (blk.zip x.2)).all (fun z => decide (z.2.2 * (z.2.1 : Int) ≤ z.1) && decide ((z.1 : Int) < (z.2.2 + 1) * z.2.1)) then
      some (x.1, (i.zip (blk.zip x.2)).zipIdx.map (fun z => (if z.2 = 0 then x.1 * b0 else 0) + (z.1.1 - (z.1.2.2 * z.1.2.1).toNat)))
    else none)
  let els := all.filterMap (fun i =>
    let r := d.rank k i
    let l := aimed r i
    let pick := l.getD (Config.freeWord (e.seed + flatIdx y.shape i) % max 1 l.length) (0, [])
    if l.isEmpty then none
    else
      let val := if scAccum d then scAdd d e r i (scRuns (((good r).filter (fun x => touches x (sliver i))).map (fun x => x.1)) l)
        else moved e u r pick.2
      some { slot := 4, idx := i, rank := r, val := val })
  let rows := (List.range k).map (fun r => sumN ((List.range 32).map (fun t =>
    -- the entries with elements in the sliver, in list order; the destination of a run of equal ones moves once
    ((good r).foldl (fun (acc : Nat × Option (List Int)) x =>
      let part := (allIdx u.shape).filter (fun i => wd i 0 / b0 == x.1 && sliver (blockElem blk i x.2) == 32 * r + t)
      if part.isEmpty then acc
      else
        let dst := (part.map (fun i => blockElem blk i x.2)).flatMap (elemPlaces y)
        (acc.1 + rowsOf (part.flatMap (fun i => (u.elemReads (e.core r) i).take 1)) + (if acc.2 = some x.2 then 0 else 2 * rowsOf dst),
         some x.2)) (0, none)).1)))
  { outEls els (moveSlivers rows) with
    oob := ((List.range m).filter (fun j => ent.any (fun x => x.2.any (fun y' => y'.1 == j && !coordIn y.shape blk y'.2)))).length }

/-! ### TRANSFORM (R341, R350) -/

def tfKind (d : Tod) : Nat := bits (d.p 0) 1 0
def tfPerm (d : Tod) (q : Nat) : Nat := bits (d.p 0) (4 + 3 * q) (2 + 3 * q)
def tfCat (d : Tod) : Nat := bits (d.p 0) 22 20
def tfPad (d : Tod) : Nat := bits (d.p 0) 24 23
def tfStaged (d : Tod) : Bool := bit (d.p 0) 25
def tfStart (d : Tod) (q : Nat) : Int := sx 32 (d.p (4 + q))
def tfBefore (d : Tod) (q : Nat) : Nat := d.p (4 + q)
def tfStep (d : Tod) (q : Nat) : Nat := d.p (10 + q)

/-- Inputs of a TRANSFORM. -/
def tfInputs (d : Tod) : List Tensor := if tfKind d = 2 then ((List.range 4).filter d.has).map d.s else [d.s 0]

/-- Offsets of CONCAT's inputs along its axis. -/
def catOffset (d : Tod) (n : Nat) : Nat := sumN (((tfInputs d).take n).map (fun t => t.extent (tfCat d)))

/-- Source of an output element: input and what of it. -/
def tfSource (d : Tod) (idx : List Nat) : Nat × Src1 :=
  let x := d.s 0
  match tfKind d with
  | 0 => (0, .elem ((List.range x.ndim).map (fun q =>
      wd idx (((List.range x.ndim).find? (fun o => tfPerm d o == q)).getD 0))))
  | 1 => (0, .elem (idx.zipIdx.map (fun i => (tfStart d i.2 + (i.1 * tfStep d i.2 : Nat)).toNat)))
  | 2 =>
    let c := wd idx (tfCat d)
    let n := ((List.range (tfInputs d).length).filter (fun q => decide (catOffset d q ≤ c))).length - 1
    (n, .elem (idx.set (tfCat d) (c - catOffset d n)))
  | _ => (0, fillSrc x.shape (tfPad d + 1) (idx.zipIdx.map (fun i => (i.1 : Int) - tfBefore d i.2)))

/-- R349: an input's bounding range meets the output's. -/
def tfOverlap (d : Tod) : Bool := (tfInputs d).any (fun t => rangesMeet (tensorRanges t) (tensorRanges d.y))

/-- TRANSFORM. -/
def runTransform (d : Tod) (e : Env) : TodOut :=
  let k := e.gang.length
  let src := fun (idx : List Nat) => tfSource d idx
  let els := (allIdx d.y.shape).map (fun idx =>
    let r := d.rank k idx
    let s := src idx
    { slot := 4, idx := idx, rank := r,
      val := match s.2 with
        | .elem i => moved e ((tfInputs d).getD s.1 noTensor) r i
        | _ => movedConst e d.y r idx (d.p 1) })
  let rows := (List.range k).map (fun r =>
    let mine := (allIdx d.y.shape).filter (fun i => d.rank k i == r)
    rowsOf (mine.flatMap (fun i => match src i with
      | (n, .elem q) => (((tfInputs d).getD n noTensor).elemReads (e.core r) q).take 1
      | _ => [])) + rowsOf (mine.flatMap (elemPlaces d.y)))
  let twice := tfStaged d && tfOverlap d
  outEls els (moveSlivers (rows.map (fun n => if twice then 2 * n else n)))

end Sys2Proof.Machine
end

