-- ==== Sys2Proof/Machine/TodRun.lean ====
section
/-! DEFINITION. Tensor operations on a gang: the check of R272, failed TODs, a TOD's effect, and the seventeen operations. -/

namespace Sys2Proof.Machine

/-! ### The check (R256 to R265, R272) -/

/-- Defined bits of the parameter words of an opcode. -/
def todParams (op : Nat) : List Nat :=
  let f := 0xFFFFFFFF
  match op with
  | 0x01 => [0xFFFFF, f, 0xFFFF]
  | 0x02 => [0x3]
  | 0x03 => [0x1, f]
  | 0x04 => [0x1F, f]
  | 0x06 => [0xFFFFFF, f]
  | 0x07 => [0xFFFFF, f, 0x7]
  | 0x08 => [0xF]
  | 0x09 => [0x3F07]
  | 0x0A => [0x7]
  | 0x0B => [0, f]
  | 0x0C => [0x1]
  | 0x0D => [0x3FFFFFF, f, 0xFFFFFF, 0xFFFFFF] ++ List.replicate 12 f
  | 0x0F => [0xFFFF]
  | 0x10 => [0x1FFF, f, f]
  | 0x11 => [0x7]
  | _ => []

/-- Defined bits of a descriptor. -/
def todMask (op : Nat) : List Nat :=
  let a := [0xFFFFFFFF, 0xFFFF]
  [0x3FFFFF, 0xFFFFFFFF] ++ a ++ a ++ a ++ a ++ a ++ a ++ a ++ [0xFFFFFFFF, 0x3FFF] ++ a ++ [0, 0, 0, 0] ++ todParams op

/-- Slots an operation needs, and slots it may have. -/
def todSlots (d : Tod) : List Nat × List Nat :=
  match d.op with
  | 0x01 | 0x02 => ([0, 1, 4], [2])
  | 0x03 => ([0, 1, 2, 4], [3])
  | 0x04 => (if ewScalar d then [0, 4] else [0, 1, 4], [])
  | 0x06 => ([0, 1, 2, 4], [])
  | 0x0A => ([0, 4], [1])
  | 0x0B | 0x0C => ([0, 1, 4], [])
  | 0x0D => ([0, 4], if tfKind d = 2 then [1, 2, 3] else [])
  | 0x0F => ([0, 4, 5], [])
  | 0x10 => (if nsClass d then [0, 1, 2, 4, 5] else [0, 1, 4, 5], [2])
  | _ => ([0, 4], [])

/-- Operands of an operation that are present. -/
def todUsed (d : Tod) : List Nat := (List.range 6).filter d.has

/-- Reserved encodings of the parameters. -/
def todReserved (d : Tod) : Bool :=
  d.op == 0 || decide (0x11 < d.op) || maskFails d.w (todMask d.op) || decide (8 ≤ d.actCode) ||
  (match d.op with
   | 0x04 => decide (6 < ewOp d)
   | 0x06 => nmMode d == 3
   | 0x08 => decide (1 < bits (d.p 0) 1 0) || rsCoord d == 3
   | 0x09 => decide (5 < rdOp d)
   | 0x0D => tfPad d == 3
   | _ => false)

/-- R242: a table's rules. -/
def tableOk (tab : List Nat) : Bool :=
  (tab.take 69).all f32IsFin && f32Lt (wd tab 65) (wd tab 66)

/-- R10, R242: nonzero reserved words of the activation table a TOD names. -/
def tableReserved (s : State) (tn : Nat) (d : Tod) : Bool :=
  d.actEn && d.actCode == 7 && d.table != 0 && (rdWords s tn (d.table + 276) 59).any (· != 0)

/-- R246, R251: dimensions an operation reduces, normalises or selects along. -/
def todReduces (d : Tod) (q : Nat) : Bool :=
  match d.op with
  | 0x06 => bit (nmAxes d) q || (nmMode d == 1 && q == nmChan d)
  | 0x09 => bit (rdAxes d) q
  | 0x0A | 0x0F | 0x11 => q == smAxis d
  | _ => false

/-- R251: SPLIT is permitted. -/
def splitOk (d : Tod) : Bool :=
  if d.op = 0x10 then d.split == 7
  else if d.split = 7 then true
  else if d.split = 6 then (d.op == 1 || d.op == 2) && decide (d.y.count ≤ 16384)
  else decide (d.split < d.y.ndim) && !todReduces d d.split

/-- Rules of the fields every operation shares. -/
def todCommon (s : State) (r : Run) (d : Tod) : Bool :=
  let tn := r.task.tenant
  let mac := d.op == 1 || d.op == 2
  (todSlots d).1.all d.has && (todUsed d).all (fun j => (todSlots d).1.contains j || (todSlots d).2.contains j) &&
  (!d.sparse || mac) && (!d.wcomp || mac) && (d.wcomp || d.wcBytes == 0) &&
  (if d.actEn then [1, 2, 4, 5, 6].contains d.op else d.op != 5) && (d.actEn && d.actCode == 2 || d.alpha == 0) &&
  (if d.actEn ∧ d.actCode = 7 then d.table != 0 && d.table % 512 == 0 && tableOk (rdWords s tn d.table 128) else d.table == 0) &&
  (d.hold || d.holdRow == 0) && decide (d.holdRow ≤ 12288) && d.stat % 32 == 0 &&
  (!d.hold || r.gang.all (fun c => match chkAccess s tn (saveAddr c d.holdRow) saveBytes true with
    | .unmapped _ => false
    | .denied _ => false
    | _ => true)) &&
  (!d.carry || r.gang.all (fun c => match heldAcc s c tn with
    | some a => a.shape == d.y.shape && a.split == d.split && a.gang == r.gang.length
    | none => true)) && splitOk d

/-- The formats of a multiply (R249). -/
def macFormats (d : Tod) : Bool :=
  let a := (d.s 0).fmt
  let b := (d.s 1).fmt
  fmtInt a == fmtInt b && a != 4 && b != 4 && (!d.has 2 || (d.s 2).fmt == (if fmtInt a then 4 else 0x0A)) &&
  (!d.sparse || ([0, 1, 5, 6, 7].contains b && decide (fmtBits a ≤ 8) && (d.s 1).layout == 0)) &&
  (!(d.sparse || d.wcomp) || !(d.s 1).sharded)

/-- A bias of `n` channels. -/
def biasOk (d : Tod) (n : Nat) : Bool := !d.has 2 || ((d.s 2).ndim == 1 && (d.s 2).extent 0 == n)

/-- Each extent is 1 or the other's. -/
def bcastOk (a y : List Nat) : Bool := a.length == y.length && (a.zip y).all (fun e => e.1 == 1 || e.1 == e.2)

/-- Extents equal but along some dimensions. -/
def sameBut (a b : List Nat) (f : Nat → Bool) : Bool := a.length == b.length && (a.zip b).zipIdx.all (fun e => f e.2 || e.1.1 == e.1.2)

/-- Shapes of CONV2D. -/
def convRules (d : Tod) : Bool :=
  let x := d.s 0
  let w := d.s 1
  let y := d.y
  let h := convSize (x.extent 2) (cvPt d + cvPb d) (cvDh d) (cvKh d) (cvSh d)
  let v := convSize (x.extent 3) (cvPl d + cvPr d) (cvDw d) (cvKw d) (cvSw d)
  macFormats d && x.ndim == 4 && w.ndim == 4 && y.ndim == 4 && decide (1 ≤ cvG d) && x.extent 1 % cvG d == 0 && w.extent 0 % cvG d == 0 &&
  w.shape == [w.extent 0, x.extent 1 / cvG d, cvKh d, cvKw d] && decide (1 ≤ h) && decide (1 ≤ v) &&
  y.shape == [x.extent 0, w.extent 0, h, v] && biasOk d (w.extent 0)

/-- Shapes of MATMUL. -/
def matmulRules (d : Tod) : Bool :=
  let a := d.s 0
  let b := d.s 1
  let y := d.y
  macFormats d && decide (2 ≤ a.ndim) && a.ndim == b.ndim && y.ndim == a.ndim && mmK d == mmKb d && y.extent (y.ndim - 2) == mmM d &&
  y.extent (y.ndim - 1) == mmN d && bcastOk (batchOf a) (batchOf y) && bcastOk (batchOf b) (batchOf y) &&
  ((batchOf a).zip ((batchOf b).zip (batchOf y))).all (fun e => e.2.2 == max e.1 e.2.1) && biasOk d (mmN d)

/-- Shapes and formats of ATTENTION (R261). -/
def attentionRules (d : Tod) : Bool :=
  let q := d.s 0
  let k := d.s 1
  let v := d.s 2
  let f := fun (p : Nat → Bool) => p q.fmt && p k.fmt && p v.fmt
  q.ndim == 4 && k.ndim == 4 && v.ndim == 4 && k.shape == [q.extent 0, k.extent 1, k.extent 2, q.extent 3] &&
  v.shape == [q.extent 0, k.extent 1, k.extent 2, v.extent 3] && d.y.shape == [q.extent 0, q.extent 1, q.extent 2, v.extent 3] &&
  decide (q.extent 3 ≤ 256) && decide (v.extent 3 ≤ 256) && decide (q.extent 2 ≤ 8192) && decide (k.extent 2 ≤ 8192) &&
  q.extent 1 % max 1 (k.extent 1) == 0 && (f (· == 8) || f (· == 9) || f (fun x => x == 6 || x == 7) || f (· == 1)) &&
  (!d.has 3 || ((d.s 3).fmt == 2 && bcastOk (d.s 3).shape [q.extent 2, k.extent 2]))

/-- Shapes of NORM. -/
def normRules (d : Tod) : Bool :=
  let x := d.s 0
  let c := nmChan d
  let chan := fun (j : Nat) => (d.s j).ndim == 1 && (d.s j).extent 0 == x.extent c && ((d.s j).fmt == 0x0A || (d.s j).fmt == 8)
  d.y.shape == x.shape && decide (nmAxes d < 2 ^ x.ndim) && (nmMode d != 2 || nmAxes d == 0) && chan 1 && chan 2 && f32NonNeg (d.p 1) &&
  (if nmMode d = 1 then decide (1 ≤ nmGroups d) && x.extent c % nmGroups d == 0 else nmGroups d == 0)

/-- Shapes of POOL. -/
def poolRules (d : Tod) : Bool :=
  let x := d.s 0
  let h := convSize (x.extent 2) (cvPt d + cvPb d) (cvDh d) (cvKh d) (cvSh d)
  let v := convSize (x.extent 3) (cvPl d + cvPr d) (cvDw d) (cvKw d) (cvSw d)
  x.ndim == 4 && (if plGlobal d then d.p 0 == 0 && d.p 1 == 0 && d.y.shape == [x.extent 0, x.extent 1, 1, 1]
    else decide (1 ≤ h) && decide (1 ≤ v) && d.y.shape == [x.extent 0, x.extent 1, h, v])

/-- Shapes of RESIZE. -/
def resizeRules (d : Tod) : Bool :=
  let x := d.s 0
  let y := d.y
  x.ndim == 4 && y.ndim == 4 && x.extent 0 == y.extent 0 && x.extent 1 == y.extent 1 &&
  [2, 3].all (fun q => decide (y.extent q ≤ 16 * x.extent q) && decide (x.extent q ≤ 16 * y.extent q))

/-- R342: shapes of GATHER and SCATTER: the addressed and the block-sized tensor. -/
def blockRules (s : State) (tn : Nat) (d : Tod) (big blk : Tensor) : Bool :=
  let l := d.s 1
  let m := l.extent 0
  l.fmt == 4 && l.layout == 0 && l.ndim == 2 && l.qmode == 0 && !l.sharded && decide (m ≤ 16777216) && decide (l.extent 1 ≤ big.ndim) &&
  blk.ndim == big.ndim && blk.extent 0 % max 1 m == 0 && big.fmt == blk.fmt && sameQuant s tn big blk

/-- R341: shapes of TRANSFORM. -/
def transformRules (s : State) (r : Run) (d : Tod) : Bool :=
  let tn := r.task.tenant
  let x := d.s 0
  let y := d.y
  let n := x.ndim
  let all := tfInputs d
  let perm := (List.range 6).map (tfPerm d)
  let ident := perm == List.range 6
  let stage := (rowAddr (d.p 2), d.p 3 * 512)
  y.ndim == n && all.all (fun t => t.fmt == y.fmt && t.ndim == n && sameQuant s tn t y) &&
  (tfStaged d || (d.p 2 == 0 && d.p 3 == 0)) &&
  (match tfKind d with
   | 0 => (List.range n).all (fun q => (perm.take n).contains q) && perm.drop n == (List.range 6).drop n &&
          (List.range n).all (fun q => y.extent q == x.extent (tfPerm d q))
   | 1 => ident && (List.range n).all (fun q => decide (1 ≤ tfStep d q) && decide (tfStep d q < 2 ^ 31) && decide (0 ≤ tfStart d q) &&
          decide (tfStart d q + ((y.extent q - 1) * tfStep d q : Nat) < x.extent q))
   | 2 => ident && decide (tfCat d < n) && (List.range all.length).all d.has && all.all (fun t => sameBut t.shape y.shape (· == tfCat d)) &&
          y.extent (tfCat d) == catOffset d all.length
   | _ => ident && (List.range n).all (fun q => decide (tfBefore d q ≤ 65535) &&
          y.extent q == tfBefore d q + x.extent q + tfStep d q &&
          (tfPad d != 2 || reachOk (-(tfBefore d q : Int)) (((x.extent q + tfStep d q : Nat) : Int) - 1) (x.extent q)))) &&
  (!tfStaged d || !tfOverlap d ||
    (decide (sumN (all.map (fun t => sumN ((tensorRanges t).map (fun g => cdiv g.2 512)))) + 1 ≤ d.p 3) &&
     (match chkAccess s tn stage.1 stage.2 true with
      | .unmapped _ => false
      | .denied _ => false
      | _ => true) &&
     !rangesMeet [stage] (tensorRanges y) && !all.any (fun t => rangesMeet [stage] (tensorRanges t))))

/-- The places of a tensor's elements. -/
def tensorBytes (t : Tensor) : List (Nat × Nat) := (allIdx t.shape).flatMap (elemPlaces t) ++ scaleRange t

/-- The places a tensor's writer fills, those beyond the extents of a ROWTILE row among them (R336). -/
def writtenBytes (t : Tensor) : List (Nat × Nat) :=
  tensorBytes t ++ (allIdx t.shape).flatMap (fun i => (t.held i).flatMap (fun h =>
    (t.padPlaces h.2.2.1 h.2.2.2).map (fun p => ((t.place h.2.1 p h.2.2.2).1, t.bytesAt))))

/-- Length of a TOD's reduction, and records of its weight operand. -/
def macSize (d : Tod) : Nat × Nat :=
  if d.op = 1 then (cvRed d, (d.s 1).extent 0) else (mmK d, prodN (batchOf (d.s 1)) * mmN d)

/-- R257: an output shares a byte with an input.  A weight operand in the 2:4 form or coded takes the bytes of its records
or its stream. -/
def sharesByte (d : Tod) : Bool :=
  let stored := fun (i : Nat) => i == 1 && (d.sparse || d.wcomp) && (d.op == 1 || d.op == 2)
  let rough := fun (i : Nat) => if stored i then weightReads d none (macSize d).1 (macSize d).2 else tensorRanges (d.s i)
  let exact := fun (i : Nat) => if stored i then rough i else tensorBytes (d.s i)
  [4, 5].any (fun j => d.has j && [0, 1, 2, 3].any (fun i => d.has i &&
    rangesMeet (rough i) (tensorRanges (d.s j)) && rangesMeet (exact i) (writtenBytes (d.s j))))

/-- Rules of an operation's shapes and formats. -/
def opRules (s : State) (r : Run) (d : Tod) : Bool :=
  let tn := r.task.tenant
  let x := d.s 0
  let y := d.y
  match d.op with
  | 0x01 => convRules d
  | 0x02 => matmulRules d
  | 0x03 => attentionRules d
  | 0x04 => bcastOk x.shape y.shape && (ewScalar d || bcastOk (d.s 1).shape y.shape)
  | 0x05 | 0x0E => x.shape == y.shape
  | 0x06 => normRules d
  | 0x07 => poolRules d
  | 0x08 => resizeRules d
  | 0x09 => decide (rdAxes d < 2 ^ x.ndim) && sameBut x.shape y.shape (bit (rdAxes d)) &&
      (List.range x.ndim).all (fun q => !bit (rdAxes d) q || y.extent q == 1)
  | 0x0A => x.shape == y.shape && decide (smAxis d < x.ndim) && decide (x.extent (smAxis d) ≤ 65536) &&
      (!d.has 1 || ((d.s 1).fmt == 2 && bcastOk (d.s 1).shape x.shape))
  | 0x0B => blockRules s tn d x y
  | 0x0C => blockRules s tn d y x
  | 0x0D => transformRules s r d
  | 0x0F => decide (smAxis d < x.ndim) && decide (tkN d ≤ x.extent (smAxis d)) && decide (x.extent (smAxis d) ≤ 16777216) &&
      y.shape == x.shape.set (smAxis d) (tkN d) && (d.s 5).shape == y.shape && (d.s 5).fmt == 4
  | 0x10 => (x.fmt == 8 || x.fmt == 0x0A) && x.shape == [x.extent 0, 4] && (d.s 1).shape == [x.extent 0] && decide (x.extent 0 ≤ 65536) &&
      (!d.has 2 || ((d.s 2).shape == [x.extent 0] && (d.s 2).fmt == 4)) && y.fmt == 4 && y.shape == [nsMax d] &&
      (d.s 5).fmt == 4 && (d.s 5).shape == [1] && f32NonNeg (d.p 1) && !f32Lt f32One (d.p 1)
  | _ => decide (smAxis d < x.ndim) && y.shape == x.shape.set (smAxis d) 1 && y.fmt == 4

/-- R272: status of the check. -/
def todCheck (s : State) (r : Run) (d : Tod) : Nat :=
  let chk := fun (st : Nat) => (todUsed d).any (fun j => (d.s j).check s r.task.tenant (d.slot j) (decide (4 ≤ j)) false == st)
  if todReserved d || chk 0x01 || tableReserved s r.task.tenant d then 0x01
  else if chk 0x02 || !todCommon s r d || !opRules s r d || (d.op != 0x0C && d.op != 0x0D && sharesByte d) then 0x02
  else if chk 0x03 then 0x03
  else if d.op == 0x0D && tfOverlap d && !tfStaged d then 0x1A
  else 0

/-! ### Effects -/

/-- The computation of a TOD. -/
def todCompute (d : Tod) (e : Env) (carry : Carry) : TodOut :=
  match d.op with
  | 0x01 => runConv d e carry
  | 0x02 => runMatmul d e carry
  | 0x03 => runAttention d e
  | 0x04 => runEltwise d e
  | 0x05 | 0x0E => runMap d e
  | 0x06 => runNorm d e
  | 0x07 => runPool d e
  | 0x08 => runResize d e
  | 0x09 => runReduce d e
  | 0x0A => runSoftmax d e
  | 0x0B => runGather d e
  | 0x0C => runScatter d e
  | 0x0D => runTransform d e
  | 0x0F => runTopk d e
  | 0x10 => runNms d e
  | _ => runArgmax d e

/-- What the computation of output element `idx` by a rank reads of the operands, the weights of a multiply apart: rank,
slot and index.  A line of SOFTMAX, ARGMAX or TOPK is read whole for each of its outputs. -/
def elemDeps (d : Tod) (k : Nat) (idx : List Nat) : List (Nat × Nat × List Nat) :=
  let r := d.rank k idx
  let nd := d.y.ndim
  let x := d.s 0
  let line := fun (ax : Nat) => (List.range (x.extent ax)).map (fun i => idx.set ax i)
  let mask := fun (j : Nat) (l : List (List Nat)) => if d.has j then l.map (fun i => (r, j, bcast (d.s j).shape i)) else []
  match d.op with
  | 0x01 =>
    (List.range (cvRed d)).filterMap (fun t => (cvSrc d idx (cvWeight d (wd idx 1) t)).map (fun i => (d.redRank k (cvRed d) r t, 0, i))) ++
    (if d.has 2 then [(r, 2, [wd idx 1])] else [])
  | 0x02 =>
    let b := bcast (batchOf x) (idx.take (nd - 2))
    let m := wd idx (nd - 2)
    (List.range (mmK d)).map (fun t => (d.redRank k (mmK d) r t, 0, b ++ (if mmTa d then [t, m] else [m, t]))) ++
    (if d.has 2 then [(r, 2, [wd idx (nd - 1)])] else [])
  | 0x03 =>
    let b := wd idx 0
    let h := wd idx 1
    let i := wd idx 2
    let hk := h * (d.s 2).extent 1 / max 1 (x.extent 1)
    let tk := (d.s 2).extent 2
    (List.range (x.extent 3)).map (fun c => (r, 0, [b, h, i, c])) ++
    (List.range tk).flatMap (fun j => (r, 2, [b, hk, j, wd idx 3]) :: (List.range (x.extent 3)).map (fun c => (r, 1, [b, hk, j, c]))) ++
    mask 3 ((List.range tk).map (fun j => [i, j]))
  | 0x04 => (r, 0, bcast x.shape idx) :: (if ewScalar d then [] else [(r, 1, bcast (d.s 1).shape idx)])
  | 0x06 =>
    (if nmMode d = 2 then [idx] else (allIdx x.shape).filter (nmSame d idx)).map (fun i => (r, 0, i)) ++
    [(r, 1, [wd idx (nmChan d)]), (r, 2, [wd idx (nmChan d)])]
  | 0x07 => (plTaps d idx).map (fun i => (r, 0, i))
  | 0x08 => (rsTaps d idx).map (fun i => (r, 0, i))
  | 0x09 => (rdLine d idx).map (fun i => (r, 0, i))
  | 0x0A => (line (smAxis d)).map (fun i => (d.rank k i, 0, i)) ++
    (if d.has 1 then (line (smAxis d)).map (fun i => (d.rank k i, 1, bcast (d.s 1).shape i)) else [])
  | 0x0F | 0x11 => (line (smAxis d)).map (fun i => (r, 0, i))
  | _ => [(r, 0, idx)]

/-- Memory the operands' elements take, each from the rank that serves its reader (R348). -/
def operandReads (d : Tod) (e : Env) : List (Nat × Nat) :=
  let k := e.gang.length
  let out := allIdx d.y.shape
  -- an operand held whole is one place whoever reads it
  let whole := fun (j : Nat) => if !d.has j then []
    else if !(d.s j).sharded then tensorBytes (d.s j)
    else ((if d.op = 0x10 then (allIdx (d.s j).shape).map (fun i => (0, j, i))
        else out.flatMap (fun i => (elemDeps d k i).filter (fun x => x.2.1 == j))).eraseDups).flatMap
      (fun x => (d.s j).elemReads (e.core x.1) x.2.2)
  -- the coordinates of an entry as the ranks of some output elements read them
  let coords := fun (l : List (Nat × Nat)) => if !(d.s 1).sharded then tensorBytes (d.s 1)
    else l.eraseDups.flatMap (fun x => (List.range ((d.s 1).extent 1)).flatMap (fun q => (d.s 1).elemReads (e.core x.1) [x.2, q]))
  match d.op with
  | 0x01 | 0x02 => whole 0 ++ weightReads d (e.core 0) (macSize d).1 (macSize d).2 ++ whole 2
  | 0x0B =>
    let blk := blockShape d.y ((d.s 1).extent 0)
    let x := d.s 0
    let entry := fun (i : List Nat) => wd i 0 / max 1 (wd blk 0)
    coords (out.map (fun i => (d.rank k i, entry i))) ++ out.flatMap (fun i =>
      let c := coordsOf d e (d.rank k i) x.ndim (entry i)
      if coordIn x.shape blk c then x.elemReads (e.core (d.rank k i)) (blockElem blk i c) else [])
  | 0x0C =>
    -- R344: every member that holds output elements serves the list; a destination block is read and written
    let u := d.s 0
    let m := (d.s 1).extent 0
    let blk := blockShape u m
    let ranks := (out.map (d.rank k)).eraseDups
    let sets := ranks.map (fun r => (r, (List.range m).map (fun j => (j, coordsOf d e r d.y.ndim j))))
    coords (ranks.flatMap (fun r => (List.range m).map (fun j => (r, j)))) ++
    sets.flatMap (fun s => s.2.flatMap (fun c =>
      if !coordIn d.y.shape blk c.2 then []
      else ((allIdx u.shape).filter (fun i => wd i 0 / max 1 (wd blk 0) == c.1)).flatMap (fun i =>
        let t := blockElem blk i c.2
        if d.rank k t = s.1 then u.elemReads (e.core s.1) i ++ d.y.elemReads (e.core s.1) t else [])))
  | 0x0D => out.flatMap (fun i => match tfSource d i with
      | (n, .elem q) => ((tfInputs d).getD n noTensor).elemReads (e.core (d.rank k i)) q
      | _ => [])
  | _ => whole 0 ++ whole 1 ++ whole 2 ++ whole 3

/-- R270: a status record. -/
def todRecord (r : Run) (flags status : Nat) (noCarry : Bool) (oob sat result : Nat) : List Byte :=
  wordsBytes [validity flags + 256 * status + 65536 * b2n noCarry, r.task.seq, w32 oob, sat32 sat, result, 0, 0, 0]

/-- The record's write. -/
def todStat (r : Run) (d : Tod) (b : List Byte) : List (Nat × List Byte) :=
  if d.stat = 0 ∨ d.stat % 32 ≠ 0 then [] else [(d.stat + 32 * r.task.slot, b)]

/-- R252: cycles of a TOD and the waits on the chain of each member, from the weight rows of each. -/
def chainTimes (k : Nat) (rows : List (List Nat)) (l : List Nat) : Nat × List Nat :=
  if rows.all List.isEmpty then (l.foldl max 0, List.replicate k 0)
  else
    let b := fun (n : Nat) => match (rows.getD (n / 32) []).length with | 0 => 0 | w => 2 * w + 2 * (n % 32) + 16
    ((l.zipIdx.map (fun x => if x.1 = 0 then 0 else max x.1 (b x.2))).foldl max 0,
     (List.range k).map (fun r => sumN (((l.zipIdx.drop (32 * r)).take 32).map (fun x => if x.1 = 0 then 0 else b x.2 - x.1))))

/-- R268: what the members hold after a TOD. -/
def holdAccs (r : Run) (d : Tod) (last : Bool) (accs : List (Nat × Nat × Nat)) (s : State) : State :=
  { s with accs := r.gang.zipIdx.foldl (fun t c =>
      tset none t (64 * c.1 + r.task.tenant) (if d.hold then some {
        tmpl := r.task.tmpl, slot := r.task.slot, seq := r.task.seq, node := r.task.node, stripe := r.task.stripe, final := last,
        shape := d.y.shape, split := d.split, gang := r.gang.length, row := d.holdRow, saved := none,
        vals := (accs.filter (fun a => a.2.1 == c.2)).foldl (fun v a => tset 0 v a.1 a.2.2) [] } else none)) s.accs }

/-- R250: the bytes of output elements with the rank that wrote them. -/
def writtenBy (d : Tod) (els : List OutEl) (t : Tab Nat) : Tab Nat :=
  els.foldl (fun t o => ((elemPlaces (d.s o.slot) o.idx) ++ (if (d.s o.slot).fmt = 5 then [((d.s o.slot).scaleAt o.idx, 1)] else [])).foldl
    (fun (t : Tab Nat) (p : Nat × Nat) => (List.range p.2).foldl (fun t i => tset 0 t (p.1 + i) (o.rank + 1)) t) t) t

/-- The staging rows of a staged copy, whose contents are open afterwards (R350). -/
def stageWrites (s : State) (d : Tod) : List (Nat × List Byte) :=
  if d.op = 0x0D ∧ tfStaged d ∧ tfOverlap d then
    (List.range (d.p 3)).map (fun n => (rowAddr (d.p 2 + n), (List.range 512).map (fun i => Config.lostByte s.free (512 * n + i))))
  else []

/-- R290: what a gang's accesses to HBM meet in its members' caches: the first dirty line with an error. -/
def gangBad (s : State) (gang : List Nat) (l : List (Nat × Nat)) : Option (Nat × CacheLine) :=
  gang.findSome? (fun c => (dirtyBad s c (linesOf l)).map (fun x => (c, x)))

/-- R288: the members' caches take the reads of a TOD: the weights of a multiply are read by rank 0 alone and multicast
(R253), the rest by every member (log entry 173). -/
def gangReads (d : Tod) (gang : List Nat) (reads : List (Nat × Nat)) (s : State) : State :=
  let w := if d.op = 1 ∨ d.op = 2 then weightReads d gang.head? (macSize d).1 (macSize d).2 else []
  gang.zipIdx.foldl (fun s c => cacheReads c.1 (if c.2 = 0 then reads else reads.filter (fun x => !w.contains x)) s) s

/-- A write of a TOD's output goes through the cache of the member that makes it. -/
def throughCache (s : State) (gang : List Nat) (x : Nat × List Byte) : Bool :=
  decide (x.1 + x.2.length ≤ hbmBytes) && gang.any (fun c => cacheN s c != 0)

/-- R288: the outputs that a gang writes to HBM go to the caches of the members that make them. -/
def gangWrites (tn : Nat) (gang : List Nat) (w : List (Nat × Nat × List Byte)) (s : State) : State :=
  w.foldl (fun s x =>
    let c := gang.getD x.1 0
    if cacheN s c = 0 then wrBytes tn x.2.1 x.2.2 s
    else cacheWrite c (x.2.2.length / 512 + 2) x.2.1 x.2.2 s) s

/-- R272: a TOD fails: the rest of the list does not run. -/
def todFail (r : Run) (d : Tod) (status : Nat) (s : State) : State :=
  let eng := r.eng
  let fl := outFlags s r (r.flags ||| fInvalid)
  let s1 := r.gang.foldl (fun s c => cnt R.ncCoreFault c 1 s) (addLog 0x000E r.task.tenant (engRef eng) r.pos status 0 s)
  let stat := todStat r d (todRecord r fl status false 0 0 0)
  let mine := stat.filter (throughCache s r.gang)
  match chkAll s r.task.tenant [] (stat.map (fun x => (x.1, x.2.length))), gangBad s r.gang (mine.map (fun x => (x.1, x.2.length))) with
  | .ok, some (c, x) => dropBad c x s1
  | .ok, none => gangWrites r.task.tenant r.gang (mine.map (fun x => (0, x)))
      (doWork eng { workNone with writes := stat.filter (fun x => !mine.contains x), flags := fl } s1)
  | _, _ => doWork eng { workNone with writes := stat, flags := fl } s1

/-- A checked TOD runs on its gang. -/
def todGo (r : Run) (d : Tod) (count : Nat) (s0 : State) : State :=
  let eng := r.eng
  let tn := r.task.tenant
  let k := r.gang.length
  let reads := operandReads d (envOf s0 r)
  match gangBad s0 r.gang reads with
  | some (c, x) => dropBad c x s0
  | none =>
  let s := gangReads d r.gang reads s0
  let e := envOf s r
  match chkAll s0 tn reads [] with
  | .ok =>
    let held := r.gang.map (fun c => heldAcc s c tn)
    let carry : Carry := fun rank flat => ((held.getD rank none).map (fun a => tget 0 a.vals flat))
    let o := todCompute d e carry
    if o.status ≠ 0 then todFail r d o.status (if o.status = 2 then cnt R.ncWcompErr 0 1 s else s)
    else
      let last := decide (count ≤ r.pos + 1)
      let missing := if d.carry then (r.gang.zip held).filterMap (fun c => if c.2.isNone then some c.1 else none) else []
      let fl := outFlags s r (r.flags ||| (if missing.isEmpty then 0 else fInvalid))
      let mine := fun (q : Nat) => o.els.filter (fun x => x.rank == q)
      let sats := (List.range k).map (fun q =>
        (d.patch e 4 (mine q)).2 + (if d.has 5 then (d.patch e 5 (mine q)).2 else 0))
      let times := chainTimes k o.rows o.slivers
      let outs := (d.patch e 4 o.els).1.runs ++ (if d.has 5 then (d.patch e 5 o.els).1.runs else [])
      -- rank 0 writes the status record
      let stat := todStat r d (todRecord r fl 0 (!missing.isEmpty) o.oob (sumN sats) o.result)
      let cached := (outs ++ stat).any (throughCache s r.gang)
      let own := if cached then (List.range k).flatMap (fun q =>
          ((d.patch e 4 (mine q)).1.runs ++ (if d.has 5 then (d.patch e 5 (mine q)).1.runs else []) ++
            (if q = 0 then stat else [])).map (fun x => (q, x)))
        else []
      let wk : Work := {
        reads := reads,
        writes := stageWrites s d ++ outs ++ stat,
        flags := fl, cycles := times.1 + (if d.sync then 16 else 0), pushes := [] }
      (match chkAll s0 tn wk.reads (wk.writes.map (fun x => (x.1, x.2.length))),
          gangBad s r.gang (((outs ++ stat).filter (throughCache s r.gang)).map (fun x => (x.1, x.2.length))) with
       | .ok, some (c, x) => dropBad c x s
       | .ok, none =>
         let s1 := gangWrites tn r.gang (own.filter (fun x => throughCache s r.gang x.2))
           (doWork eng { wk with writes := wk.writes.filter (fun x => !(cached && (outs ++ stat).contains x && throughCache s r.gang x)) }
             (draw s))
         let s2 := modRun eng (fun r => { r with
           pos := r.pos + 1, worked := last, unsynced := if k ≤ 1 then [] else writtenBy d o.els r.unsynced }) s1
         let s3 := r.gang.zipIdx.foldl (fun s c =>
           cnt R.ncCoreChain c.1 (times.2.getD c.2 0) (cnt R.ncCoreSat c.1 (sats.getD c.2 0) (cnt R.ncCoreTods c.1 1 s))) s2
         holdAccs r d last o.accs (missing.foldl (fun s c => cnt R.ncCoreFault c 1 s) (cnt R.ncMcastRows 0 o.rows.flatten.eraseDups.length s3))
       | c, _ => faultRun eng c s)
  | c => faultRun eng c s0

/-- Address of the TOD a run has reached (R250). -/
def todAddr (s : State) (r : Run) : Option (Nat × Nat) :=
  (taskCtx s r.task).map (fun v =>
    (v.2.1.work + ((r.task.slot * v.2.1.stripes + r.task.stripe) * v.2.1.workCount + r.pos) * 256, v.2.1.workCount))

/-- The TOD a gang has reached starts and runs.  Every member reads the descriptor and what it names, HBM through its cache
(R288); rank 0's reading counts. -/
def todStart (r : Run) (s : State) : State :=
  match todAddr s r with
  | none => s
  | some (a, count) =>
    let tn := r.task.tenant
    let lead := (r.gang.head?).getD 0
    let d := todAt (cacheView s lead) tn a
    let reads := todReads (cacheView s lead) tn a d
    match chkAll s tn reads [], gangBad s r.gang reads with
    | .ok, some (c, x) => dropBad c x s
    | .ok, none =>
      let s0 := reads.foldl (fun s x => touchRead x.1 x.2 s) (r.gang.foldl (fun s c => cacheReads c reads s) s)
      let s1 := if d.sync then cacheSync r.gang (modRun r.eng (fun r => { r with unsynced := [] }) s0) else s0
      let r1 := if d.sync then { r with unsynced := [] } else r
      (match todCheck (cacheView s1 lead) r d with
       | 0 => todGo r1 d count s1
       | st => todFail r d st s1)
    | c, _ => faultRun r.eng c s

/-- The gang whose rank 0 is a core takes its next TOD when it has an opcode; one with a reserved opcode fails in any row. -/
def todStep (op core : Nat) (s : State) : State :=
  match runOn s (engN core 32) with
  | some r =>
    if r.task.cls == 6 && !r.worked && !r.cancelled then
      (match todAddr s r with
       | some (a, _) =>
         let o := rdN s r.task.tenant a 1
         if o = op ∨ o = 0 ∨ 0x11 < o then settle (todStart r s) else s
       | none => s)
    else s
  | none => s

/-- R260. -/
def execTodConv2d (core : Nat) (s : State) : Host.Outcome State Fault Refusal := act (decide (core < 64)) s (todStep 0x01 core)

/-- R260. -/
def execTodMatmul (core : Nat) (s : State) : Host.Outcome State Fault Refusal := act (decide (core < 64)) s (todStep 0x02 core)

/-- R261. -/
def execTodAttention (core : Nat) (s : State) : Host.Outcome State Fault Refusal := act (decide (core < 64)) s (todStep 0x03 core)

/-- R262. -/
def execTodEltwise (core : Nat) (s : State) : Host.Outcome State Fault Refusal := act (decide (core < 64)) s (todStep 0x04 core)

/-- R258. -/
def execTodAct (core : Nat) (s : State) : Host.Outcome State Fault Refusal := act (decide (core < 64)) s (todStep 0x05 core)

/-- R263. -/
def execTodNorm (core : Nat) (s : State) : Host.Outcome State Fault Refusal := act (decide (core < 64)) s (todStep 0x06 core)

/-- R263. -/
def execTodPool (core : Nat) (s : State) : Host.Outcome State Fault Refusal := act (decide (core < 64)) s (todStep 0x07 core)

/-- R263. -/
def execTodResize (core : Nat) (s : State) : Host.Outcome State Fault Refusal := act (decide (core < 64)) s (todStep 0x08 core)

/-- R263. -/
def execTodReduce (core : Nat) (s : State) : Host.Outcome State Fault Refusal := act (decide (core < 64)) s (todStep 0x09 core)

/-- R263. -/
def execTodSoftmax (core : Nat) (s : State) : Host.Outcome State Fault Refusal := act (decide (core < 64)) s (todStep 0x0A core)

/-- R342. -/
def execTodGather (core : Nat) (s : State) : Host.Outcome State Fault Refusal := act (decide (core < 64)) s (todStep 0x0B core)

/-- R345. -/
def execTodScatter (core : Nat) (s : State) : Host.Outcome State Fault Refusal := act (decide (core < 64)) s (todStep 0x0C core)

/-- R341. -/
def execTodTransform (core : Nat) (s : State) : Host.Outcome State Fault Refusal := act (decide (core < 64)) s (todStep 0x0D core)

/-- R262. -/
def execTodQuant (core : Nat) (s : State) : Host.Outcome State Fault Refusal := act (decide (core < 64)) s (todStep 0x0E core)

/-- R265. -/
def execTodTopk (core : Nat) (s : State) : Host.Outcome State Fault Refusal := act (decide (core < 64)) s (todStep 0x0F core)

/-- R266. -/
def execTodNms (core : Nat) (s : State) : Host.Outcome State Fault Refusal := act (decide (core < 64)) s (todStep 0x10 core)

/-- R265. -/
def execTodArgmax (core : Nat) (s : State) : Host.Outcome State Fault Refusal := act (decide (core < 64)) s (todStep 0x11 core)

end Sys2Proof.Machine
end

