-- ==== Sys2Proof/Machine/Track.lean ====
section
/-! DEFINITION. TRACK tasks of the keypoint engines and the track table (R210 to R217). -/

namespace Sys2Proof.Machine

/-! ### Following one track (R214, R215) -/

/-- Floor of an FP32 coordinate; 0 of NaN. -/
def f32Floor (w : Nat) : Int :=
  match f32v w with
  | .nan => 0
  | .inf n => if n then -1048576 else 1048576
  | .fin n m e => fvFloor n m e

/-- An image as FP32 pixels, taps beyond the edge taking the edge pixel. -/
def tkPixels (s : State) (tn : Nat) (i : ImgRef) (x y : Int) : Nat :=
  f32OfInt (i.code s tn 0 (clampI 0 (i.width - 1) x).toNat (clampI 0 (i.height - 1) y).toNat)

/-- A bilinear sample; the sum's order is open. -/
def bilF (f : Int → Int → Nat) (d x y : Nat) : Nat :=
  let ix := f32Floor x
  let iy := f32Floor y
  let fx := f32Sub x (f32OfInt ix)
  let fy := f32Sub y (f32OfInt iy)
  let gx := f32Sub f32One fx
  let gy := f32Sub f32One fy
  sumF32 d [f32Mul (f32Mul gx gy) (f ix iy), f32Mul (f32Mul fx gy) (f (ix + 1) iy), f32Mul (f32Mul gx fy) (f ix (iy + 1)),
    f32Mul (f32Mul fx fy) (f (ix + 1) (iy + 1))]

/-- Samples of the window of side `n` about a point, moved by (ox, oy) pixels. -/
def window (f : Int → Int → Nat) (d n : Nat) (x y : Nat) (ox oy : Int) : List Nat :=
  (List.range (n * n)).map (fun k =>
    let at_ := fun (c i : Nat) (o : Int) => f32Add c (f32Lit (2 * (i : Int) - n + 1 + 2 * o) (-1))
    bilF f (d + k) (at_ x (k % n) ox) (at_ y (k / n) oy))

/-- Half the difference of two lists of samples. -/
def halfDiff (a b : List Nat) : List Nat := (a.zip b).map (fun e => f32Mul f32Half (f32Sub e.1 e.2))

/-- Elementwise products. -/
def prods (a b : List Nat) : List Nat := (a.zip b).map (fun e => f32Mul e.1 e.2)

/-- The template at a level: T, its gradients and the sums of G. -/
structure Templ where
  t : List Nat
  gx : List Nat
  gy : List Nat
  g : List Nat
  deriving DecidableEq, Repr

/-- T, gradients by central difference, G. -/
def templAt (f : Int → Int → Nat) (d n x y : Nat) : Templ :=
  let w := fun (k : Nat) (ox oy : Int) => window f (d + 256 * k) n x y ox oy
  let gx := halfDiff (w 1 1 0) (w 2 (-1) 0)
  let gy := halfDiff (w 3 0 1) (w 4 0 (-1))
  { t := w 0 0 0, gx := gx, gy := gy,
    g := [sumF32 (d + 1280) (prods gx gx), sumF32 (d + 1281) (prods gx gy), sumF32 (d + 1282) (prods gy gy)] }

/-- An FP32 value that the manual's formula leaves to the order of its operations: open near the value `v` of one order,
within 2⁻²⁰ of `bound`, or free where that is not finite. -/
def openF32 (d : Nat) (l : List Nat) (v : Nat) (bound : Fv) : Nat :=
  let c := w32 (Config.refine d (l.map Int.ofNat)).toNat
  match f32v v, bound with
  | .fin n m e, .fin _ p q => pickNear c (.fin n m e) (.fin false p (q - 20))
  | .nan, _ => v
  | _, _ => c

/-- The least eigenvalue of G over n²: (a + c − √((a − c)² + 4 b²)) / 2 over n². -/
def eigOf (d n : Nat) (v : Templ) : Nat :=
  let a := wd v.g 0
  let b := wd v.g 1
  let c := wd v.g 2
  let dif := f32Sub a c
  let root := f32Sqrt (f32Add (f32Mul dif dif) (f32Mul (f32OfInt 4) (f32Mul b b)))
  f32Div (openF32 d v.g (f32Mul f32Half (f32Sub (f32Add a c) root)) (fvMags [f32v a, f32v b, f32v c])) (f32OfInt (n * n : Nat))

/-- δ = G⁻¹ Σ e (gx, gy): one of its components, by Cramer's rule, from p u − b w over the determinant a c − b². -/
def solveF32 (d : Nat) (g : List Nat) (p u w : Nat) : Nat :=
  let a := wd g 0
  let b := wd g 1
  let c := wd g 2
  let det := f32Sub (f32Mul a c) (f32Mul b b)
  let v := f32Div (f32Sub (f32Mul p u) (f32Mul b w)) det
  let top := fvMags [fvMul (f32v p) (f32v u), fvMul (f32v b) (f32v w)]
  let size := fvMags [fvMul (f32v a) (f32v c), fvMul (f32v b) (f32v b)]
  openF32 d (g ++ [p, u, w]) v (fvAdd (fvDiv top (fvMag (f32v det))) (fvDiv (fvMul (fvMag (f32v v)) size) (fvMag (f32v det))))

/-- Where the iterations of a level stand: displacement, iterations run, convergence. -/
structure Disp where
  x : Nat
  y : Nat
  n : Nat
  conv : Bool
  deriving DecidableEq, Repr

/-- |v| at most LK_EPS / 256. -/
def withinEps (eps v : Nat) : Bool := !f32IsNaN v && !f32Lt (f32Lit eps (-8)) (f32Abs v)

/-- e = T − samples of CUR. -/
def residual (f : Int → Int → Nat) (d n x y : Nat) (v : Templ) (q : Disp) : List Nat :=
  ((v.t.zip (window f d n (f32Add x q.x) (f32Add y q.y) 0 0))).map (fun e => f32Sub e.1 e.2)

/-- The iterations of a level. -/
def lkLoop (f : Int → Int → Nat) (d n x y eps : Nat) (v : Templ) : Nat → Disp → Disp
  | 0, q => q
  | k + 1, q =>
    if q.conv then q
    else
      let e := residual f (d + 512 * k) n x y v q
      let b := [sumF32 (d + 512 * k + 256) (prods e v.gx), sumF32 (d + 512 * k + 257) (prods e v.gy)]
      let mx := solveF32 (d + 512 * k + 258) v.g (wd v.g 2) (wd b 0) (wd b 1)
      let my := solveF32 (d + 512 * k + 259) v.g (wd v.g 0) (wd b 1) (wd b 0)
      lkLoop f d n x y eps v k
        { x := f32Add q.x mx, y := f32Add q.y my, n := q.n + 1, conv := withinEps eps mx && withinEps eps my }

/-- What following a track gives: success, the new position, the iterations over all levels, each at least 1. -/
structure Followed where
  ok : Bool
  x : Nat
  y : Nat
  dx : Nat
  dy : Nat
  iters : Nat
  deriving DecidableEq, Repr

/-- The images of a task as FP32 pixels: current and previous, by level. -/
structure Pyramids where
  cur : Nat → Int → Int → Nat
  prev : Nat → Int → Int → Nat

/-- Levels `k` down to 0 from the guess `g`; `px`, `py` is the old position and `d` a draw. -/
def lkLevels (im : Pyramids) (d : List Nat) (seed px py : Nat) : Nat → Nat × Nat → Nat → Followed
  | 0, _, it => { ok := false, x := 0, y := 0, dx := 0, dy := 0, iters := it }
  | k + 1, g, it =>
    let n := tkSide d
    let sd := seed + k * 2 ^ 18
    let x := f32Mul px (f32Lit 1 (-(k : Int)))
    let y := f32Mul py (f32Lit 1 (-(k : Int)))
    let v := templAt (im.prev k) sd n x y
    if f32Lt (eigOf (sd + 2000) n v) (tkEig d) then { ok := false, x := 0, y := 0, dx := 0, dy := 0, iters := it + 1 + k }
    else
      let q := lkLoop (im.cur k) (sd + 4096) n x y (tkEps d) v (tkIter d) { x := g.1, y := g.2, n := 0, conv := false }
      let it' := it + max 1 q.n
      if k = 0 then
        (let e := residual (im.cur 0) (sd + 2048) n x y v q
         let mean := f32Div (sumF32 (sd + 2001) (e.map f32Abs)) (f32OfInt (n * n : Nat))
         { ok := q.conv && !f32Lt (f32Lit (tkResid d) (-8)) mean, x := f32Add px q.x, y := f32Add py q.y, dx := q.x, dy := q.y, iters := it' })
      else lkLevels im d seed px py k (f32Mul f32Two q.x, f32Mul f32Two q.y) it'

/-- p lies in [0, top]. -/
def insideF (p top : Nat) : Bool := !f32IsNaN p && !f32Lt p 0 && !f32Lt (f32OfInt top) p

/-- An FP32 value in steps of 2^−`fr`, ties to even, saturated; 0 of NaN. -/
def f32Fix (fr : Nat) (lo hi : Int) (w : Nat) : Int :=
  match f32v w with
  | .nan => 0
  | .inf n => if n then lo else hi
  | .fin n m e => clampI lo hi (fvInt false n m (e + fr))

/-- R214, R215: a track followed. -/
def followTrack (im : Pyramids) (d : List Nat) (seed : Nat) (t : Track) : Followed :=
  let px := f32Lit t.x (-16)
  let py := f32Lit t.y (-16)
  let g := fun (v : Int) => if tkPredict d then f32Lit v (-4 - ((tkLevels d - 1 : Nat) : Int)) else 0
  let r := lkLevels im d seed px py (tkLevels d) (g t.vx, g t.vy) 0
  { r with ok := r.ok && insideF r.x ((tkCur d 0).width - 1) && insideF r.y ((tkCur d 0).height - 1) }

/-! ### A task's changes (R212, R216) -/

/-- An entry of the partition during a task. -/
structure Entry where
  idx : Nat
  old : Option Track
  new : Option Track
  followed : Bool
  ok : Bool
  revived : Bool
  spawned : Bool
  iters : Nat
  deriving DecidableEq, Repr

/-- STATE of an entry, 0 of a FREE one. -/
def stateOf (t : Option Track) : Nat := match t with | some v => v.state | none => 0

/-- AGE one up, saturating. -/
def older (t : Track) : Nat := min 65535 (t.age + 1)

/-- R212: the failure transition. -/
def failTrack (t : Track) : Option Track :=
  if t.state = 1 then none else some { t with state := 3, misses := 1, age := older t }

/-- R212, R215: the success transition. -/
def passTrack (d : List Nat) (frame : Nat) (t : Track) (q : Followed) : Track :=
  { t with
    x := (f32Fix 16 0 (2 ^ 32 - 1) q.x).toNat, y := (f32Fix 16 0 (2 ^ 32 - 1) q.y).toNat,
    vx := f32Fix 4 (-16384) 16383 (f32Sub q.x (f32Lit t.x (-16))), vy := f32Fix 4 (-16384) 16383 (f32Sub q.y (f32Lit t.y (-16))),
    frame := frame, age := older t, state := if t.state = 2 ∨ tkConfirm d ≤ older t then 2 else 1 }

/-- Steps 1 and 2 for one entry. -/
def followEntry (im : Pyramids) (d : List Nat) (seed frame : Nat) (gap : Bool) (e : Entry) : Entry :=
  match e.old with
  | none => e
  | some t =>
    if t.state = 3 then e
    else if gap then { e with new := failTrack t }
    else
      let q := followTrack im d (seed + e.idx * 2 ^ 22) t
      { e with new := if q.ok then some (passTrack d frame t q) else failTrack t, followed := true, ok := q.ok, iters := q.iters }

/-- What steps 3 and 5 carry along. -/
structure Growth where
  entries : List Entry
  used : List Nat
  next : Nat
  full : Nat
  stores : List (Nat × List Byte)
  deriving DecidableEq, Repr

/-- Step 3 for one query, with its BEST and DIST1. -/
def reviveOne (d : List Nat) (first frame : Nat) (g : Growth) (q : Nat × Feature) (best dist : Nat) : Growth :=
  match g.entries[best]? with
  | none => g
  | some e =>
    match e.new, e.old with
    | some t, some o =>
      if t.state = 3 ∧ !e.revived ∧ e.idx = first + best ∧ dist ≤ tkReviveMax d then
        { g with
          used := g.used ++ [q.1],
          entries := g.entries.set best { e with
            revived := true,
            new := some { t with
              state := 2, x := q.2.x * 65536, y := q.2.y * 65536, frame := frame, vx := 0, vy := 0, misses := 0, age := older o } } }
      else g
    | _, _ => g

/-- Step 4 for one entry. -/
def ageEntry (d : List Nat) (e : Entry) : Entry :=
  match e.old with
  | some t =>
    if t.state = 3 ∧ !e.revived then
      { e with new := if tkLostMax d < t.misses + 1 then none else some { t with misses := min 255 (t.misses + 1), age := older t } }
    else e
  | none => e

/-- A live track lies within SPAWN_DIST of a feature in both axes. -/
def nearTrack (d : List Nat) (f : Feature) (t : Track) : Bool :=
  decide (((f.x * 65536 : Nat) - (t.x : Int)).natAbs ≤ tkDist d * 65536) && decide (((f.y * 65536 : Nat) - (t.y : Int)).natAbs ≤ tkDist d * 65536)

/-- NEXT_ID after a value. -/
def idAfter (n : Nat) : Nat := if w32 (n + 1) = 0 then 1 else w32 (n + 1)

/-- Step 5 for one feature. -/
def spawnOne (d : List Nat) (first frame : Nat) (g : Growth) (q : Nat × Feature) : Growth :=
  let f := q.2
  if g.used.contains q.1 || g.entries.any (fun e => match e.new with
      | some t => (t.state == 1 || t.state == 2) && nearTrack d f t
      | none => false) then g
  else match g.entries.find? (fun e => e.old.isNone && e.new.isNone) with
    | none => { g with full := g.full + 1 }
    | some e =>
      let slot := e.idx - first
      let t : Track := {
        id := g.next, state := 1, misses := 0, age := 1, x := f.x * 65536, y := f.y * 65536, vx := 0, vy := 0, score := f.score,
        slot := slot, dvalid := f.kind != 0, dkind := f.kind, frame := frame }
      { g with
        next := idAfter g.next, entries := g.entries.set slot { e with new := some t, spawned := true },
        stores := g.stores ++ (if f.kind = 0 then [] else [(tkStore d + 32 * slot, f.desc)]) }

/-- The state of a partition before a task. -/
def entriesOf (s : State) (p : Nat) : List Entry :=
  let r := partRange s p
  (List.range r.2).map (fun n =>
    let t := tget none s.tracks (r.1 + n)
    { idx := r.1 + n, old := t, new := t, followed := false, ok := false, revived := false, spawned := false, iters := 0 })

/-! ### Outputs (R211, R217, R222) -/

/-- The 32 bytes of an entry. -/
def trackBytes (t : Track) : List Byte :=
  wordsBytes [t.id, t.state + 256 * t.misses + 65536 * t.age, t.x, t.y, ux 16 t.vx + 65536 * ux 16 t.vy, t.score,
    t.slot + 65536 * b2n t.dvalid + 131072 * t.dkind, t.frame]

/-- The snapshot. -/
def snapBytes (flags frame : Nat) (l : List Track) : List Byte :=
  wordsBytes [validity flags, l.length, frame] ++ List.replicate 52 0 ++ l.flatMap trackBytes

/-- Grid position of a track coordinate, halves upward. -/
def hintPos (st size x : Nat) : Nat := min (size - 1) ((2 * x + st * 65536) / (2 * st * 65536))

/-- The hint's element at a grid position: the CONFIRMED tracks tracked in this task that fall on it. -/
def hintElem (l : List Track) : List Byte :=
  match l.foldl (fun (r : Option Track) t => match r with
      | none => some t
      | some a => if f32Lt a.score t.score then some t else some a) none with
  | some t => leBytes 4 (ux 16 t.vx + 65536 * ux 16 t.vy) ++ leBytes 4 255
  | none => leBytes 4 0 ++ leBytes 4 (2 ^ 9)

/-- The lines of the hint plane. -/
def hintWrites (d : List Nat) (l : List Entry) : List (Nat × List Byte) :=
  let st := tkHintStep d
  let w := frW d tkHintAt
  let h := frH d tkHintAt
  let hits := l.filterMap (fun e => match e.new with
    | some t => if e.ok && t.state == 2 then some (hintPos st w t.x, hintPos st h t.y, t) else none
    | none => none)
  (List.range h).map (fun i =>
    let row := hits.filter (fun e => e.2.1 == i)
    (frAt d tkHintAt 0 i, (List.range w).flatMap (fun j => hintElem ((row.filter (fun e => e.1 == j)).map (fun e => e.2.2)))))

/-- R222: an entry that breaks its conditions. -/
def entryBad (d : List Nat) (first count : Nat) (e : Entry) : Bool :=
  match e.new with
  | none => false
  | some t => decide (e.idx < first) || decide (first + count ≤ e.idx) || decide (3 < t.state) || t.state == 0 ||
      decide (((tkCur d 0).width - 1) * 65536 < t.x) || decide (((tkCur d 0).height - 1) * 65536 < t.y)

/-! ### Tasks -/

/-- R213: another task holds the partition, one whose completion is still held (R432) among them. -/
def partHeld (s : State) (eng p : Nat) : Bool :=
  s.seq.runs.any (fun r => r.task.cls == 3 && r.aux == partMark p && r.eng != eng) ||
  s.seq.held.any (fun h => h.run.task.cls == 3 && h.run.aux == partMark p && taskLive s h.run.task)

/-- R213: TRACK tasks that stall for a partition, the one on engine `eng` among them. -/
def partAsks (s : State) (eng p : Nat) : List Run :=
  s.seq.runs.filter (fun r => r.task.cls == 3 && !r.cancelled && !r.worked && r.aux != partMark p &&
    (r.eng == eng || (r.stalled && (let d := descWords s r.task 96; kpOp d == 1 && tkPart d == p))))

/-- The arbiter of a partition's lock (R36, R213). -/
def ptrPart (p : Nat) : Nat := 5000 + p

/-- R213: the index of the engine that a free partition goes to among those that ask: the highest effective priority, then
the first at or after the arbiter's pointer. -/
def partWinner (s : State) (eng p : Nat) : Option Nat :=
  let l := partAsks s eng p
  let top := l.foldl (fun m r => max m r.task.prio) 0
  rotFind 4 (tget 0 s.seq.ptrs (ptrPart p)) (fun i => l.any (fun r => r.eng == classEng 3 i && r.task.prio == top))

/-- R213: the partition goes to engine `i`. -/
def partGrant (p i : Nat) (s : State) : State :=
  modRun (classEng 3 i) (fun r => { r with aux := partMark p })
    { s with seq := { s.seq with ptrs := tset 0 s.seq.ptrs (ptrPart p) ((i + 1) % 4) } }

/-- R213: the partition's lock as engine `eng` asks for it: the state after the arbitration, and whether it holds it. -/
def partLock (eng p : Nat) (s : State) : State × Bool :=
  if s.seq.runs.any (fun r => r.eng == eng && r.aux == partMark p) then (s, true)
  else if partHeld s eng p then (s, false)
  else match partWinner s eng p with
    | some i => (partGrant p i s, classEng 3 i == eng)
    | none => (s, false)

/-- R216 step 1: the task is a gap, and whether its input flags make it one. -/
def tkGap (s : State) (r : Run) (p frame : Nat) : Bool × Bool :=
  let byFlags := inputFlags s r.task &&& (fInvalid ||| fUnchecked) != 0
  (taskPrevAbsent s r.task || (bit (rget s R.kpePartCtrl p) 9 && w32 (rget s R.kpePartLast p + 1) != frame) || byFlags, byFlags)

/-- The wheels a task reads, with the lines of their images. -/
def tkWheels (d : List Nat) : List (Nat × Nat) :=
  (List.range (tkLevels d)).flatMap (fun k =>
    ([tkCur d k, tkPrev d k].filter (fun i => i.wheel)).map (fun i => (i.key, i.height)))

/-- Memory a task reads. -/
def tkReads (s : State) (r : Run) (d : List Nat) (gap lists : Bool) : List (Nat × Nat) :=
  let img := fun (i : ImgRef) => (List.range i.height).map (fun j => (i.line s 0 j, i.lineLen))
  let l := listsAt d 13
  (if gap then [] else (List.range (tkLevels d)).flatMap (fun k => img (tkCur d k) ++ img (tkPrev d k))) ++
  (if lists then l.reads s r.task.tenant r.task.slot ++
    (if tkRevive d then (l.queries s r.task.tenant r.task.slot).map (fun q => (tkMatch d + 16 * q.1, 16)) else []) else [])

/-- R216: the steps of a task over its partition. -/
def tkSteps (s : State) (r : Run) (d : List Nat) (frame : Nat) (gap byFlags : Bool) : Growth :=
  let tn := r.task.tenant
  let p := tkPart d
  let first := (partRange s p).1
  let im : Pyramids := { cur := fun k => tkPixels s tn (tkCur d k), prev := fun k => tkPixels s tn (tkPrev d k) }
  let lists := (tkRevive d || tkSpawn d) && !byFlags
  let qs := if lists then (listsAt d 13).queries s tn r.task.slot else []
  let g0 : Growth := {
    entries := (entriesOf s p).map (followEntry im d (s.free * 2 ^ 40) frame gap), used := [], next := rget s R.kpePartNextid p, full := 0, stores := [] }
  let g1 := if tkRevive d then qs.foldl (fun g q =>
      let w := rdWords s tn (tkMatch d + 16 * q.1) 2
      reviveOne d first frame g q (wd w 0) (wd w 1)) g0 else g0
  let g2 := { g1 with entries := g1.entries.map (ageEntry d) }
  if tkSpawn d then qs.foldl (spawnOne d first frame) g2 else g2

/-- R213 to R217: a TRACK task runs. -/
def tkRun (c : Nat) (r : Run) (nd : Node) (d : List Nat) (s0 : State) : State :=
  let eng := engV c 2
  let tn := r.task.tenant
  let p := tkPart d
  let lk := partLock eng p s0
  let wheels := if (tkGap s0 r p (taskFrameNo s0 r.task)).1 then [] else tkWheels d
  let s := openAll wheels r lk.1
  if !lk.2 then cnt R.kpeEngLock c 1 (modRun eng (fun r => { r with stalled := true }) lk.1)
  else match wheelsReady s r wheels [] with
  | some (.stall k) => stallRun eng k s
  | some (.bad e) => faultRun eng e s
  | _ =>
    let frame := taskFrameNo s r.task
    let gap := tkGap s r p frame
    let lists := (tkRevive d || tkSpawn d) && !gap.2
    match chkAll s tn (if lists then (listsAt d 13).headReads r.task.slot else []) [] with
    | .ok =>
      let reads := tkReads s r d gap.1 lists
      (match chkAll s tn reads [] with
       | .ok =>
         let rng := partRange s p
         let g := tkSteps s r d frame gap.1 gap.2
         let live := g.entries.filterMap (fun e => e.new)
         let num := fun (f : Entry → Bool) => (g.entries.filter f).length
         let spawned := num (fun e => e.spawned)
         let revived := num (fun e => e.revived)
         let range := g.entries.any (entryBad d rng.1 rng.2)
         let fl := outFlags s r (if range then fInvalid else 0)
         let it := sumN (g.entries.map (fun e => e.iters))
         let wk : Work := {
           reads := reads,
           writes := g.stores ++ [(tkSnap d, snapBytes fl frame live)] ++ (if tkHintEn d then hintWrites d g.entries else []) ++
             [(kpStatAt r nd d, kpRecord r d fl range false gap.1 [num (fun e => e.followed), num (fun e => e.ok), spawned, revived,
               num (fun e => e.old.isSome && e.new.isNone), g.full])],
           flags := fl,
           cycles := 64 + cdiv rng.2 16 + it * (if tkSide d = 16 then 16 else 4) + 16 * (spawned + revived) + cdiv live.length 2 +
             (if tkHintEn d then cdiv (frW d tkHintAt * frH d tkHintAt) 64 else 0),
           pushes := onePush s r (kpHandle d) (kpMillrace d) }
         (match chkAll s tn wk.reads (wk.writes.map (fun x => (x.1, x.2.length))) with
          | .ok =>
            let s1 := cnt R.kpeEngRange c (b2n range) (doWork eng wk (draw s))
            if range then rangeFail eng s1
            else modRun eng (fun r => { r with
              commit := (g.entries.filter (fun e => e.old != e.new)).map (fun e => (e.idx, e.new)), info := [p, g.next, frame] }) s1
          | e => faultRun eng e s)
       | e => faultRun eng e s)
    | e => faultRun eng e s

/-- R216. -/
def execKpeTrack (core : Nat) (s : State) : Host.Outcome State Fault Refusal :=
  act (decide (core < 4)) s (fun s => kpStep 1 core (tkRun core) s)

end Sys2Proof.Machine
end

