-- ==== Sys2Proof/Machine/Dispatch.lean ====
section
/-! DEFINITION. The meaning of each command, one arm per row of the operation table. -/

namespace Sys2Proof.Machine

/-- The effect of a command on everything but the queue. -/
def exec (i : Instr) (s : State) : Host.Outcome State Fault Refusal :=
  match i with
  | .hello src => Sys2Proof.Machine.execHello src s
  | .capsRead src => Sys2Proof.Machine.execCapsRead src s
  | .echo src => Sys2Proof.Machine.execEcho src s
  | .regionMap src => Sys2Proof.Machine.execRegionMap src s
  | .regionUnmap src => Sys2Proof.Machine.execRegionUnmap src s
  | .windowOpen src => Sys2Proof.Machine.execWindowOpen src s
  | .windowClose src => Sys2Proof.Machine.execWindowClose src s
  | .graphLoad src => Sys2Proof.Machine.execGraphLoad src s
  | .graphArm src => Sys2Proof.Machine.execGraphArm src s
  | .graphDisarm src => Sys2Proof.Machine.execGraphDisarm src s
  | .graphUnload src => Sys2Proof.Machine.execGraphUnload src s
  | .jobSubmit src => Sys2Proof.Machine.execJobSubmit src s
  | .jobCancel src => Sys2Proof.Machine.execJobCancel src s
  | .streamRearm src => Sys2Proof.Machine.execStreamRearm src s
  | .queuePush src => Sys2Proof.Machine.execQueuePush src s
  | .queuePop src => Sys2Proof.Machine.execQueuePop src s
  | .sensorProfile src => Sys2Proof.Machine.execSensorProfile src s
  | .sensorSettings src => Sys2Proof.Machine.execSensorSettings src s
  | .streamStart src => Sys2Proof.Machine.execStreamStart src s
  | .streamStop src => Sys2Proof.Machine.execStreamStop src s
  | .txConfig src => Sys2Proof.Machine.execTxConfig src s
  | .sessionOpen src => Sys2Proof.Machine.execSessionOpen src s
  | .sessionClose src => Sys2Proof.Machine.execSessionClose src s
  | .jobKey src => Sys2Proof.Machine.execJobKey src s
  | .statsRead src => Sys2Proof.Machine.execStatsRead src s
  | .logRead src => Sys2Proof.Machine.execLogRead src s
  | .fwBlock src => Sys2Proof.Machine.execFwBlock src s
  | .fwCommit src => Sys2Proof.Machine.execFwCommit src s
  | .fwConfirm src => Sys2Proof.Machine.execFwConfirm src s
  | .fwStatus src => Sys2Proof.Machine.execFwStatus src s
  | .packetWindowWrite fn lane off dws => Sys2Proof.Machine.execPacketWindowWrite fn lane off dws s
  | .hostLaneConsWrite fn lane v => Sys2Proof.Machine.execHostLaneConsWrite fn lane v s
  | .hostLaneCfgWrite fn lane v => Sys2Proof.Machine.execHostLaneCfgWrite fn lane v s
  | .modWindowEnd fn lane => Sys2Proof.Machine.execModWindowEnd fn lane s
  | .regRead sess off => Sys2Proof.Machine.execRegRead sess off s
  | .regWrite sess off v => Sys2Proof.Machine.execRegWrite sess off v s
  | .registerWrite rq off v => Sys2Proof.Machine.execRegisterWrite rq off v s
  | .rcRegisterRead rq off => Sys2Proof.Machine.execRcRegisterRead rq off s
  | .w1cRegisterWrite rq off v => Sys2Proof.Machine.execW1cRegisterWrite rq off v s
  | .mmioMisshapedAccess rq off size wr => Sys2Proof.Machine.execMmioMisshapedAccess rq off size wr s
  | .mmioHoleAccess rq off wr => Sys2Proof.Machine.execMmioHoleAccess rq off wr s
  | .pwrTimeLoRead rq => Sys2Proof.Machine.execPwrTimeLoRead rq s
  | .seqSluiceLastLoRead rq => Sys2Proof.Machine.execSeqSluiceLastLoRead rq s
  | .camFsiLastLoRead rq n => Sys2Proof.Machine.execCamFsiLastLoRead rq n s
  | .secIsoTimeLoRead rq => Sys2Proof.Machine.execSecIsoTimeLoRead rq s
  | .safCauseTimeLoRead rq => Sys2Proof.Machine.execSafCauseTimeLoRead rq s
  | .partitionClear rq v => Sys2Proof.Machine.execPartitionClear rq v s
  | .spdArrValueWrite rq v => Sys2Proof.Machine.execSpdArrValueWrite rq v s
  | .spdSlicePwrWrite rq v => Sys2Proof.Machine.execSpdSlicePwrWrite rq v s
  | .bankPowerDownDone slice bank => Sys2Proof.Machine.execBankPowerDownDone slice bank s
  | .bankPowerUpDone slice bank => Sys2Proof.Machine.execBankPowerUpDone slice bank s
  | .spdSliceCacheWrite rq v => Sys2Proof.Machine.execSpdSliceCacheWrite rq v s
  | .cacheInv rq v => Sys2Proof.Machine.execCacheInv rq v s
  | .spdWheelCfgWrite rq v => Sys2Proof.Machine.execSpdWheelCfgWrite rq v s
  | .mrqCfgWrite rq v => Sys2Proof.Machine.execMrqCfgWrite rq v s
  | .strCtxOwnerWrite rq v => Sys2Proof.Machine.execStrCtxOwnerWrite rq v s
  | .isoCommit rq v => Sys2Proof.Machine.execIsoCommit rq v s
  | .isolationEpoch => Sys2Proof.Machine.execIsolationEpoch s
  | .credCommit rq v => Sys2Proof.Machine.execCredCommit rq v s
  | .pkgWindowWrite rq off v => Sys2Proof.Machine.execPkgWindowWrite rq off v s
  | .pkgErase rq v => Sys2Proof.Machine.execPkgErase rq v s
  | .pkgEraseDone => Sys2Proof.Machine.execPkgEraseDone s
  | .pkgCommit rq v => Sys2Proof.Machine.execPkgCommit rq v s
  | .pkgCommitDone => Sys2Proof.Machine.execPkgCommitDone s
  | .vcoreSetPointReached => Sys2Proof.Machine.execVcoreSetPointReached s
  | .arclkSwitchDone => Sys2Proof.Machine.execArclkSwitchDone s
  | .csi2FrameStart port vc num ecc => Sys2Proof.Machine.execCsi2FrameStart port vc num ecc s
  | .csi2LineStart port vc num ecc => Sys2Proof.Machine.execCsi2LineStart port vc num ecc s
  | .csi2LongPacket port vc dt payload ecc crcOk => Sys2Proof.Machine.execCsi2LongPacket port vc dt payload ecc crcOk s
  | .embeddedData port vc payload ecc crcOk => Sys2Proof.Machine.execEmbeddedData port vc payload ecc crcOk s
  | .csi2FrameEnd port vc num ecc => Sys2Proof.Machine.execCsi2FrameEnd port vc num ecc s
  | .lineTimeout stream => Sys2Proof.Machine.execLineTimeout stream s
  | .streamLoss stream => Sys2Proof.Machine.execStreamLoss stream s
  | .lineLanded stream => Sys2Proof.Machine.execLineLanded stream s
  | .settingsWindowOpen stream => Sys2Proof.Machine.execSettingsWindowOpen stream s
  | .settingsWindowClose stream => Sys2Proof.Machine.execSettingsWindowClose stream s
  | .sensorTransferDone stream ack dataBytes => Sys2Proof.Machine.execSensorTransferDone stream ack dataBytes s
  | .i2cStretchTimeout stream dataBytes => Sys2Proof.Machine.execI2cStretchTimeout stream dataBytes s
  | .sensorIbi port addr data => Sys2Proof.Machine.execSensorIbi port addr data s
  | .fsyncOutAssert k => Sys2Proof.Machine.execFsyncOutAssert k s
  | .fsyncOutDeassert k => Sys2Proof.Machine.execFsyncOutDeassert k s
  | .fsyncInEdge n rising => Sys2Proof.Machine.execFsyncInEdge n rising s
  | .timerTrigger tmpl => Sys2Proof.Machine.execTimerTrigger tmpl s
  | .handleTrigger mrq => Sys2Proof.Machine.execHandleTrigger mrq s
  | .handleClaim mrq => Sys2Proof.Machine.execHandleClaim mrq s
  | .timeWaitExpiry tmpl slot node second => Sys2Proof.Machine.execTimeWaitExpiry tmpl slot node second s
  | .gangStarveGuard prio => Sys2Proof.Machine.execGangStarveGuard prio s
  | .shareWindowEnd => Sys2Proof.Machine.execShareWindowEnd s
  | .icoreTask core => Sys2Proof.Machine.execIcoreTask core s
  | .ispFrameRecord core => Sys2Proof.Machine.execIspFrameRecord core s
  | .wpeResample core unit => Sys2Proof.Machine.execWpeResample core unit s
  | .wpeMeshInvert core unit => Sys2Proof.Machine.execWpeMeshInvert core unit s
  | .pyeTask core => Sys2Proof.Machine.execPyeTask core s
  | .steTask core => Sys2Proof.Machine.execSteTask core s
  | .ofeTask core => Sys2Proof.Machine.execOfeTask core s
  | .kpeDetect core => Sys2Proof.Machine.execKpeDetect core s
  | .kpeTrack core => Sys2Proof.Machine.execKpeTrack core s
  | .kpeMatch core => Sys2Proof.Machine.execKpeMatch core s
  | .ncoreTaskDispatch => Sys2Proof.Machine.execNcoreTaskDispatch s
  | .todConv2d core => Sys2Proof.Machine.execTodConv2d core s
  | .todMatmul core => Sys2Proof.Machine.execTodMatmul core s
  | .todAttention core => Sys2Proof.Machine.execTodAttention core s
  | .todEltwise core => Sys2Proof.Machine.execTodEltwise core s
  | .todAct core => Sys2Proof.Machine.execTodAct core s
  | .todNorm core => Sys2Proof.Machine.execTodNorm core s
  | .todPool core => Sys2Proof.Machine.execTodPool core s
  | .todResize core => Sys2Proof.Machine.execTodResize core s
  | .todReduce core => Sys2Proof.Machine.execTodReduce core s
  | .todSoftmax core => Sys2Proof.Machine.execTodSoftmax core s
  | .todGather core => Sys2Proof.Machine.execTodGather core s
  | .todScatter core => Sys2Proof.Machine.execTodScatter core s
  | .todTransform core => Sys2Proof.Machine.execTodTransform core s
  | .todQuant core => Sys2Proof.Machine.execTodQuant core s
  | .todTopk core => Sys2Proof.Machine.execTodTopk core s
  | .todNms core => Sys2Proof.Machine.execTodNms core s
  | .todArgmax core => Sys2Proof.Machine.execTodArgmax core s
  | .streamCopy ctx => Sys2Proof.Machine.execStreamCopy ctx s
  | .streamTensor ctx => Sys2Proof.Machine.execStreamTensor ctx s
  | .streamReadReturn ctx outcome read => Sys2Proof.Machine.execStreamReadReturn ctx outcome read s
  | .pcieCompletionTimeout ctx read => Sys2Proof.Machine.execPcieCompletionTimeout ctx read s
  | .publishEthernet mac => Sys2Proof.Machine.execPublishEthernet mac s
  | .ethRecordCommit mac => Sys2Proof.Machine.execEthRecordCommit mac s
  | .ethFrameSent mac => Sys2Proof.Machine.execEthFrameSent mac s
  | .publishHostRing port => Sys2Proof.Machine.execPublishHostRing port s
  | .publishCsi2Tx tx => Sys2Proof.Machine.execPublishCsi2Tx tx s
  | .csi2TxCommit tx => Sys2Proof.Machine.execCsi2TxCommit tx s
  | .fwSettings => Sys2Proof.Machine.execFwSettings s
  | .fwRearm => Sys2Proof.Machine.execFwRearm s
  | .fwPush => Sys2Proof.Machine.execFwPush s
  | .fwCounterSet => Sys2Proof.Machine.execFwCounterSet s
  | .fwNotify => Sys2Proof.Machine.execFwNotify s
  | .millracePushAccept mrq => Sys2Proof.Machine.execMillracePushAccept mrq s
  | .taskComplete engine => Sys2Proof.Machine.execTaskComplete engine s
  | .sluiceWindowEnd sluice => Sys2Proof.Machine.execSluiceWindowEnd sluice s
  | .instanceDrained tmpl slot => Sys2Proof.Machine.execInstanceDrained tmpl slot s
  | .windowWrite fn req off data => Sys2Proof.Machine.execWindowWrite fn req off data s
  | .windowRead fn req off len atomic => Sys2Proof.Machine.execWindowRead fn req off len atomic s
  | .windowWriteLanded win => Sys2Proof.Machine.execWindowWriteLanded win s
  | .scrubRow slice group err => Sys2Proof.Machine.execScrubRow slice group err s
  | .eccWriteback slice => Sys2Proof.Machine.execEccWriteback slice s
  | .sliceIdleRepair slice => Sys2Proof.Machine.execSliceIdleRepair slice s
  | .repairCopyDone slice => Sys2Proof.Machine.execRepairCopyDone slice s
  | .wheelPoisonFill core wheel => Sys2Proof.Machine.execWheelPoisonFill core wheel s
  | .checkIntervalStart => Sys2Proof.Machine.execCheckIntervalStart s
  | .goldenRunDone engine disagree => Sys2Proof.Machine.execGoldenRunDone engine disagree s
  | .safeHbToggle => Sys2Proof.Machine.execSafeHbToggle s
  | .safetyRecordRepeat => Sys2Proof.Machine.execSafetyRecordRepeat s
  | .scpLockstepMismatch => Sys2Proof.Machine.execScpLockstepMismatch s
  | .siLockstepMismatch => Sys2Proof.Machine.execSiLockstepMismatch s
  | .clockFault => Sys2Proof.Machine.execClockFault s
  | .sslCsFall => Sys2Proof.Machine.execSslCsFall s
  | .sslNop => Sys2Proof.Machine.execSslNop s
  | .sslSelect index => Sys2Proof.Machine.execSslSelect index s
  | .sslAckTransient => Sys2Proof.Machine.execSslAckTransient s
  | .sslBadFrame frame => Sys2Proof.Machine.execSslBadFrame frame s
  | .supplyWarn => Sys2Proof.Machine.execSupplyWarn s
  | .supplyWarnEnd => Sys2Proof.Machine.execSupplyWarnEnd s
  | .supplyReset => Sys2Proof.Machine.execSupplyReset s
  | .supplyResetEnd => Sys2Proof.Machine.execSupplyResetEnd s
  | .powerMeasure milliwatts => Sys2Proof.Machine.execPowerMeasure milliwatts s
  | .thermalStepDown temp => Sys2Proof.Machine.execThermalStepDown temp s
  | .thermalStepUp temp => Sys2Proof.Machine.execThermalStepUp temp s
  | .thermalTrip temp => Sys2Proof.Machine.execThermalTrip temp s
  | .thermtripAssert => Sys2Proof.Machine.execThermtripAssert s
  | .ceWindowEnd => Sys2Proof.Machine.execCeWindowEnd s
  | .engineIdle engine => Sys2Proof.Machine.execEngineIdle engine s
  | .coreNap unit => Sys2Proof.Machine.execCoreNap unit s
  | .unitWakeDone unit => Sys2Proof.Machine.execUnitWakeDone unit s
  | .sleepEntry => Sys2Proof.Machine.execSleepEntry s
  | .sleepWakeDone => Sys2Proof.Machine.execSleepWakeDone s
  | .prewake tmpl => Sys2Proof.Machine.execPrewake tmpl s
  | .prewakeExpire tmpl => Sys2Proof.Machine.execPrewakeExpire tmpl s
  | .deviceTimeTick => Sys2Proof.Machine.execDeviceTimeTick s
  | .ptmRequest port enabled => Sys2Proof.Machine.execPtmRequest port enabled s
  | .ptmResponse port master => Sys2Proof.Machine.execPtmResponse port master s
  | .gptpMessage mac msg => Sys2Proof.Machine.execGptpMessage mac msg s
  | .ethArpRequest mac sha spa tpa => Sys2Proof.Machine.execEthArpRequest mac sha spa tpa s
  | .ethNeighborSolicitation port src target sll => Sys2Proof.Machine.execEthNeighborSolicitation port src target sll s
  | .ethIcmpEcho port v6 mac src dst body => Sys2Proof.Machine.execEthIcmpEcho port v6 mac src dst body s
  | .ethRxDrop mac frame => Sys2Proof.Machine.execEthRxDrop mac frame s
  | .ethLinkChange mac up => Sys2Proof.Machine.execEthLinkChange mac up s
  | .flr fn => Sys2Proof.Machine.execFlr fn s
  | .perstAssert port => Sys2Proof.Machine.execPerstAssert port s
  | .hotReset port => Sys2Proof.Machine.execHotReset port s
  | .vfEnableClear port => Sys2Proof.Machine.execVfEnableClear port s
  | .linkDown port => Sys2Proof.Machine.execLinkDown port s
  | .linkUp port speed width => Sys2Proof.Machine.execLinkUp port speed width s
  | .msixUnmask fn vec => Sys2Proof.Machine.execMsixUnmask fn vec s
  | .doeDiscovery port index => Sys2Proof.Machine.execDoeDiscovery port index s
  | .doeAbort port => Sys2Proof.Machine.execDoeAbort port s
  | .getVersion link req => Sys2Proof.Machine.execGetVersion link req s
  | .getCapabilities link req => Sys2Proof.Machine.execGetCapabilities link req s
  | .negotiateAlgorithms link req => Sys2Proof.Machine.execNegotiateAlgorithms link req s
  | .getDigests link req => Sys2Proof.Machine.execGetDigests link req s
  | .getCertificate link req => Sys2Proof.Machine.execGetCertificate link req s
  | .challenge link req => Sys2Proof.Machine.execChallenge link req s
  | .getMeasurements link req => Sys2Proof.Machine.execGetMeasurements link req s
  | .keyExchange link req => Sys2Proof.Machine.execKeyExchange link req s
  | .finish link req => Sys2Proof.Machine.execFinish link req s
  | .endSession link req => Sys2Proof.Machine.execEndSession link req s
  | .heartbeat link req => Sys2Proof.Machine.execHeartbeat link req s
  | .keyUpdate link req => Sys2Proof.Machine.execKeyUpdate link req s
  | .getEncapsulatedRequest link req => Sys2Proof.Machine.execGetEncapsulatedRequest link req s
  | .deliverEncapsulatedResponse link req => Sys2Proof.Machine.execDeliverEncapsulatedResponse link req s
  | .spdmUnsupportedRequest link code req => Sys2Proof.Machine.execSpdmUnsupportedRequest link code req s
  | .sessionHandshakeTimeout sess => Sys2Proof.Machine.execSessionHandshakeTimeout sess s
  | .aonPowerUp bifurcated => Sys2Proof.Machine.execAonPowerUp bifurcated s
  | .powerOff => Sys2Proof.Machine.execPowerOff s
  | .resetAssert => Sys2Proof.Machine.execResetAssert s
  | .resetRelease => Sys2Proof.Machine.execResetRelease s
  | .selfTestDone missed => Sys2Proof.Machine.execSelfTestDone missed s
  | .trialCountStore => Sys2Proof.Machine.execTrialCountStore s
  | .trialRunExpiry => Sys2Proof.Machine.execTrialRunExpiry s
  | .functionResetDone fn => Sys2Proof.Machine.execFunctionResetDone fn s
  | .pmbusTransferDone ok => Sys2Proof.Machine.execPmbusTransferDone ok s
  | .mgtLinkChange up speed => Sys2Proof.Machine.execMgtLinkChange up speed s
  | .peerDelayRequest mac => Sys2Proof.Machine.execPeerDelayRequest mac s

end Sys2Proof.Machine
end

