-- ==== Sys2Proof/Safety.lean ====
section
/-! DEFINITION. What counts as a safe run, which commands the always-on domain takes, and the terms the statements
share: a packet that its source applies next, an answered packet, a task on its engine. -/

namespace Sys2Proof

/-- The three memories are in canonical form. -/
def memoriesOk (s : Machine.State) : Prop :=
  Machine.Memory.wf s.mem = true ∧ Machine.Memory.wf s.host0 = true ∧ Machine.Memory.wf s.host1 = true

/-- The register table lists its keys in rising order. -/
def registersOk (s : Machine.State) : Prop := Machine.tkeys 0 s.regs = true

/-- A run of `k` steps that never stops. -/
def SafeRun (k : Nat) (s : Machine.State) : Prop := ∃ t, core.run k s = .next t

/-- The commands of the always-on domain (R27, R443, R463, R465, R496, R497, R505): power, resets, device time. -/
def alwaysOn : Instr → Bool
  | .aonPowerUp _ | .powerOff | .resetAssert | .resetRelease | .supplyReset | .supplyResetEnd | .thermtripAssert
  | .deviceTimeTick => true
  | _ => false

/-- The requester sees the register blocks: the management port, or PF0 of a port that is there. -/
def seesRegs (s : Machine.State) (rq : Nat) : Bool := Machine.reaches s rq && (rq == 32 || Machine.isPf rq)

/-- Accesses complete at once: the device neither sleeps nor wakes. -/
def prompt (s : Machine.State) : Bool := !Machine.deferred s

/-- The state a packet acts on: a management message wakes the device, and those behind it wait. -/
def servedState (s : Machine.State) (p : Machine.Pkt) : Machine.State := Machine.served s p

/-- The packet a source applies next carries the opcode and passes the header checks. -/
def serves (s : Machine.State) (src : Src) (op : Nat) (p : Machine.Pkt) : Prop :=
  Machine.alive s = true ∧ src.wf = true ∧ Machine.nextPkt s src = some p ∧ Machine.pOpcode p = op ∧
    Machine.headCheck (servedState s p) p = none

/-- What a packet that was applied leaves: its reply of status 0 with three results, on the state `t` it led to. -/
def applied (s : Machine.State) (p : Machine.Pkt) (r0 r1 r2 : Nat) (t : Machine.State) : Machine.State :=
  Machine.keepQueue s (Machine.settle (Machine.answerPkt p 0 0 r0 r1 r2 [] t))

/-- What a packet that failed leaves: its reply with status and DETAIL. -/
def turnedAway (s : Machine.State) (p : Machine.Pkt) (status detail : Nat) (t : Machine.State) : Machine.State :=
  Machine.keepQueue s (Machine.settle (Machine.answerPkt p status detail 0 0 0 [] t))

/-- Every waiting command names objects the device has. -/
def queueOk (s : Machine.State) : Bool := s.pending.all Instr.wf

end Sys2Proof
end

