-- ==== Sys2Proof/Certificates/Slice0/Obligations.lean ====
section
/-! DEFINITION. The statements about the model, from the rules of the specification. -/

open Sys2Proof Sys2Proof.Machine

/-- A step takes the command at the front of the queue and carries it out on the state with the queue's rest; with no
command waiting the state stays as it is. Where the specification leaves it open, this is the model's choice: log entry
2. (98_reader.) -/
def Obligations.FrontCommandRuns : Prop :=
  (∀ (c : Instr) (rest : List Instr) (s : State), s.pending = c :: rest →
    step s = exec c { s with pending := rest }) ∧
  (∀ s : State, s.pending = [] → step s = .next s)

/-- A command stops exactly where its operands name something the device does not have; otherwise it answers a next state,
which leaves the waiting commands as they were. No command is refused. Where the specification leaves it open, this is
the model's choice: log entry 1. (00_scope, 98_reader.) -/
def Obligations.StopsExactlyOnIllFormedOperands : Prop :=
  ∀ (c : Instr) (s : State),
    (c.wf = true → ∃ t, exec c s = .next t ∧ t.pending = s.pending) ∧
    (c.wf = false → exec c s = .fault .noSuchObject)

/-- A queue of well-formed commands runs through, one command a step, from any state. Where the specification leaves it
open, this is the model's choice: log entry 1. (01_architecture, 98_reader.) -/
def Obligations.WellFormedQueueRunsThrough : Prop :=
  ∀ (k : Nat) (s : State), queueOk s = true →
    ∃ t, core.run k s = .next t ∧ t.pending = s.pending.drop k

/-- Every step keeps the queue well formed and shortens it by the command it took. Where the specification leaves it open,
this is the model's choice: log entries 1, 2. (98_reader.) -/
def Obligations.QueueStaysWellFormed : Prop :=
  ∀ s t : State, queueOk s = true → step s = .next t →
    queueOk t = true ∧ t.pending = s.pending.tail

/-- The state right after reset meets what the statements ask of a state: an empty queue, the three memories in canonical
form, the register table in order. What the block is right after reset: safe state of cause 0x0A with SAFE_N low, no
stream, template or session, every lane with 32 credits, the links down, envelope P2, the boot ROM's phase, device time
0, an empty log. Where the specification leaves it open, this is the model's choice: log entries 7, 8, 9.
(01_architecture, 14_host_network_ports, 17_functional_safety, 19_boot_update.) -/
def Obligations.ResetState : Prop :=
  (
  queueOk State.reset = true ∧ memoriesOk State.reset ∧ registersOk State.reset ∧ State.reset.pending = []) ∧
  (
  State.reset.saf.safe = true ∧ State.reset.saf.cause = 0x0A ∧ State.reset.saf.safeN = false ∧
  State.reset.seq.tmpls = [] ∧ State.reset.cam.streams = [] ∧ State.reset.sec.sessions = [] ∧
  (∀ n, (laneSt State.reset n).credits = 32) ∧ (∀ p, (portSt State.reset p).up = false) ∧
  State.reset.pwr.env = 1 ∧ State.reset.boot.phase = 0 ∧ State.reset.now = 0 ∧ State.reset.log = [] ∧
  (∀ off idx, rget State.reset off idx = regInit off % 2 ^ 32))

/-- While the device is unpowered or held in reset, a command of the part outside the always-on domain does nothing. Over
any number of steps a dead block that gets no command of the always-on domain only takes its queue in. Where the
specification leaves it open, this is the model's choice: log entry 1. (01_architecture.) -/
def Obligations.DeadBlockStaysAsItIs : Prop :=
  (
  ∀ (c : Instr) (s : State), alive s = false → alwaysOn c = false → c.wf = true → exec c s = .next s) ∧
  (
  ∀ (k : Nat) (s : State), alive s = false → queueOk s = true →
    s.pending.all (fun c => !alwaysOn c) = true →
    core.run k s = .next { s with pending := s.pending.drop k })

/-- RESET_N low, a supply below its reset threshold and THERMTRIP_N, 2 ms after the trip, each hold all but the always-on
domain in reset: the first of them puts it in its reset state and a further one only adds its reason. A supply's reset
is logged unless RESET_N is low. Device time, fuses, flash and the memories behind the ports stay. While unpowered
RESET_N and supplies do nothing. Power removed and given again: the fuses and the flash stay, device time starts from 0,
and the device waits with RESET_N low; the ports' bifurcation is taken then. A second power-up changes nothing. Where
the specification leaves it open, this is the model's choice: log entries 7, 10, 12. (01_architecture,
18_power_service_life, 19_boot_update.) -/
def Obligations.ResetsAndPowerCycles : Prop :=
  (
  (∀ s : State,
    exec .resetAssert s = .next (if s.powered = false then s
      else if s.held = 0 then { coldReset s with held := 1 } else { s with held := s.held ||| 1 })) ∧
  (∀ s : State, exec .supplyReset s = .next (if s.powered = false ∨ bit s.held 1 = true then s
      else let t := if s.held = 0 then { coldReset s with held := 2 } else { s with held := s.held ||| 2 }
        if bit s.held 0 then t else addLog 0x0201 63 pwrEng 0 0 0 t)) ∧
  (∀ s : State, s.powered = true → exec .thermtripAssert s = .next (match s.pwr.tripAt with
    | none => s
    | some t => if s.now < t then s
      else if s.held = 0 then { coldReset s with held := 4, pwr := { (coldReset s).pwr with thermtrip := true } }
      else { s with held := s.held ||| 4, pwr := { s.pwr with thermtrip := true } })) ∧
  (∀ s : State, (coldReset s).now = s.now ∧ (coldReset s).nv = s.nv ∧ (coldReset s).bifurcated = s.bifurcated ∧
    (coldReset s).host0 = s.host0 ∧ (coldReset s).host1 = s.host1 ∧ (coldReset s).out = s.out ∧
    (coldReset s).regs = [] ∧ (coldReset s).log = [] ∧ (coldReset s).seq = seqReset ∧ (coldReset s).sec = secReset ∧
    (coldReset s).saf = safReset ∧ (coldReset s).cam = camReset ∧ (coldReset s).spd = spdReset ∧
    (coldReset s).lanes = [] ∧ (coldReset s).windows = [] ∧ (coldReset s).mrq = [] ∧ (coldReset s).msix = [])) ∧
  (
  (∀ s : State, exec .powerOff s = .next (unpowered s)) ∧
  (∀ (s : State) (two : Bool), exec (.aonPowerUp two) s = .next (if s.powered then s
    else { unpowered s with powered := true, held := 1, bifurcated := two })) ∧
  (∀ s : State, (unpowered s).nv = s.nv ∧ (unpowered s).host0 = s.host0 ∧ (unpowered s).host1 = s.host1 ∧
    (unpowered s).now = 0 ∧ (unpowered s).powered = false ∧ (unpowered s).mem = [] ∧ (unpowered s).regs = []))

/-- The device boots when the last of its reset reasons ends; while another holds, only the reason goes. RESET_N going high
with nothing held boots a device that stands in its reset state, and nothing else does. The start-up self-test ends: a
checker that missed its fault is logged and puts the device in safe state with cause 0x09; the configuration is applied
and check interval 0 begins with the golden runs. It ends once, and only in firmware. Where the specification leaves it
open, this is the model's choice: log entries 3, 60. (01_architecture, 17_functional_safety, 19_boot_update.) -/
def Obligations.BootStartsAndSelfTestEnds : Prop :=
  (
  ∀ (s : State), ∀ x ∈ [(Instr.resetRelease, 1), (.supplyResetEnd, 2)],
    (s.powered = false → exec x.1 s = .next s) ∧
    (s.powered = true → s.held = 0 → exec x.1 s = .next (keepQueue s (
      if x.2 = 1 ∧ s.boot.phase = 0 then bootChain s else s))) ∧
    (s.powered = true → s.held ≠ 0 → s.held - (s.held &&& x.2) = 0 →
      exec x.1 s = .next (keepQueue s (bootChain { s with held := 0 }))) ∧
    (s.powered = true → s.held - (s.held &&& x.2) ≠ 0 → exec x.1 s = .next { s with held := s.held - (s.held &&& x.2) })) ∧
  (
  (∀ (s : State) (missed : Option Nat), alive s = true → s.boot.phase = 2 → s.saf.selfTested = false →
    exec (.selfTestDone missed) s = .next (keepQueue s
      (let s1 := match missed with
        | some c => enterSafe 0x09 0xFFFF
            (addLog 0x0105 63 0xFFFF c 0 0 { s with saf := { s.saf with selfFailed := true } })
        | none => s
       let s2 := applyConfig s1
       settle (goldenEngines.foldl placeGolden
         { s2 with saf := { s2.saf with selfTested := true, intervals := 1, intStart := s2.now,
                                        intLen := intervalNs s2, intEnd := s2.now + intervalNs s2 } })))) ∧
  (∀ (s : State) (missed : Option Nat), alive s = true → s.boot.phase ≠ 2 ∨ s.saf.selfTested = true →
    exec (.selfTestDone missed) s = .next s))

/-- R27: Device time advances by 4 ns, in SLEEP by 40 ns, whether or not the rest is held in reset; nothing but the clock's
own state moves; the errors that strike scratch rows or node-table entries meanwhile (a free value) are kept as such,
and no stored byte changes. Without power nothing happens. It starts from 0 when the always-on domain powers up, and a
reset leaves it as it is. -/
def Obligations.DeviceTimeAdvances : Prop :=
  ∀ s : State,
    (s.powered = true → ∃ t, exec .deviceTimeTick s = .next t ∧
      t.now = s.now + (if s.pwr.st = .sleep then 40 else 4) ∧
      t.pwr.st = s.pwr.st ∧ t.pwr.env = s.pwr.env ∧ t.mem = s.mem ∧ t.cam = s.cam ∧
      (t = { tick s with spd := t.spd, seq := t.seq, free := s.free + 1 } ∧ t.spd = { s.spd with upsets := t.spd.upsets } ∧
        t.seq = { s.seq with nodeUpsets := t.seq.nodeUpsets } ∧
        (alive s = false → t.spd = s.spd ∧ t.seq = s.seq)) ∧
      t.sec = s.sec ∧ t.saf = s.saf ∧ t.nv = s.nv ∧ t.boot = s.boot ∧ t.log = s.log ∧ t.lanes = s.lanes ∧
      t.mrq = s.mrq ∧ t.windows = s.windows ∧ t.out = s.out ∧ t.held = s.held ∧ t.host0 = s.host0 ∧
      t.host1 = s.host1 ∧ t.macs = s.macs ∧
      (∀ off idx, off ≠ R.pwrTimeCtrl → off < 0x1000000 → registersOk s → rget t off idx = rget s off idx)) ∧
    (s.powered = false → exec .deviceTimeTick s = .next s ∧
      ∀ two, ∃ t, exec (.aonPowerUp two) s = .next t ∧ t.now = 0) ∧
    (s.powered = true → ∀ c ∈ [Instr.resetAssert, .resetRelease, .supplyReset, .supplyResetEnd, .thermtripAssert],
      ∃ t, exec c s = .next t ∧ t.now = s.now)

/-- The order of an envelope change: upward the core rail is raised first and the frequency switched once it is there;
downward the frequency switches first and the rail follows; between envelopes of one frequency nothing need change, and
a return to the envelope in force ends a change under way. A set point's transfer that fails is repeated, and after
three failures it counts as a supply warning. A supply warning is logged, latches PWR_STAT.SAG, sends its message and
forces P4 until every rail has recovered; a second warning changes nothing. Where the specification leaves it open, this
is the model's choice: log entries 3, 141, 188. (18_power_service_life.) -/
def Obligations.EnvelopesChange : Prop :=
  (
  (∀ s : State, reformEnv s =
    if effEnv s = s.pwr.envTarget ∧ s.pwr.change ≠ 0 then s
    else if effEnv s = s.pwr.env then { s with pwr := { s.pwr with envTarget := effEnv s, change := 0 } }
    else if envClock (effEnv s) = envClock s.pwr.env then
      { s with pwr := { s.pwr with envTarget := effEnv s, env := effEnv s, change := 0 } }
    else if effEnv s < s.pwr.env then { s with
      pwr := { s.pwr with envTarget := effEnv s, change := 1, pmbusBusy := true, pmbusFails := 0 },
      out := s.out ++ [voutCommand (Config.railMv (effEnv s))] }
    else { s with pwr := { s.pwr with envTarget := effEnv s, change := 2 } }) ∧
  (∀ s : State, alive s = true → exec .vcoreSetPointReached s = .next (
    if s.pwr.change = 1 ∧ s.pwr.pmbusBusy = false then { s with pwr := { s.pwr with change := 2 } } else s)) ∧
  (∀ s : State, alive s = true → exec .arclkSwitchDone s = .next (
    if s.pwr.change ≠ 2 then s
    else if s.pwr.env < s.pwr.envTarget then { s with
      pwr := { s.pwr with env := s.pwr.envTarget, change := 0, pmbusBusy := true, pmbusFails := 0 },
      out := s.out ++ [voutCommand (Config.railMv s.pwr.envTarget)] }
    else { s with pwr := { s.pwr with env := s.pwr.envTarget, change := 0 } })) ∧
  (∀ s : State, alive s = true → s.pwr.pmbusBusy = true →
    exec (.pmbusTransferDone true) s = .next { s with
      pwr := { s.pwr with pmbusBusy := false, pmbusFails := 0, volt := Config.railMv s.pwr.envTarget } }) ∧
  (∀ s : State, alive s = true → s.pwr.pmbusBusy = true → s.pwr.pmbusFails < 2 →
    exec (.pmbusTransferDone false) s = .next { s with
      pwr := { s.pwr with pmbusFails := s.pwr.pmbusFails + 1 },
      out := s.out ++ [voutCommand (Config.railMv s.pwr.envTarget)] }) ∧
  (∀ s s1 : State, alive s = true → s.pwr.pmbusBusy = true → 2 ≤ s.pwr.pmbusFails →
    s1 = { s with pwr := { s.pwr with pmbusBusy := false, pmbusFails := 0 } } →
    exec (.pmbusTransferDone false) s = exec .supplyWarn s1) ∧
  (∀ s : State, alive s = true → s.pwr.pmbusBusy = false → ∀ ok, exec (.pmbusTransferDone ok) s = .next s)) ∧
  (
  (∀ s : State, alive s = true → s.pwr.sag = false →
    exec .supplyWarn s = .next (keepQueue s (
      let s1 := warnIrq (rput R.pwrStat 0 (rget s R.pwrStat 0 ||| 4) (addLog 0x0200 63 pwrEng 0 0 0 s))
      reformEnv { s1 with pwr := { s1.pwr with sag := true } }))) ∧
  (∀ s : State, alive s = true → s.pwr.sag = true → exec .supplyWarn s = .next s) ∧
  (∀ s : State, s.pwr.sag = true → effEnv s ≥ 3) ∧
  (∀ s : State, alive s = true → exec .supplyWarnEnd s = .next (keepQueue s (
    if s.pwr.sag then reformEnv { s with pwr := { s.pwr with sag := false } } else s))))

/-- Power measurements move the N-core duty by one sixteenth: down over the envelope's power, up under 95 percent of it, the
average being of the last ten. Temperature readings: at 105 °C and more the thermal step goes down by one envelope and
is logged, below 100 °C it goes up by one, each not sooner than its interval; at 120 °C the device enters safe state
with cause 0x08 and THERMTRIP_N follows in 2 ms. Where the specification leaves it open, this is the model's choice: log
entries 3, 64. (18_power_service_life.) -/
def Obligations.PowerAndTemperature : Prop :=
  (
  ∀ (s : State) (mw : Nat), alive s = true →
    ∃ t, exec (.powerMeasure mw) s = .next t ∧
      t = { s with pwr := { s.pwr with power := t.pwr.power, duty := t.pwr.duty } } ∧
      t.pwr.power = (s.pwr.power ++ [mw]).drop (s.pwr.power.length + 1 - 10) ∧
      t.pwr.power.length ≤ 10 ∧
      (envPower (effEnv s) < powerAvg t.pwr → t.pwr.duty = s.pwr.duty - 1) ∧
      (powerAvg t.pwr * 100 < envPower (effEnv s) * 95 → t.pwr.duty = min 16 (s.pwr.duty + 1)) ∧
      (powerAvg t.pwr ≤ envPower (effEnv s) → envPower (effEnv s) * 95 ≤ powerAvg t.pwr * 100 →
        t.pwr.duty = s.pwr.duty)) ∧
  (
  (∀ (s : State) (c : Int), alive s = true → exec (.thermalStepDown c) s = .next (keepQueue s (
    if 105 ≤ c ∧ s.pwr.thermal < 3 ∧ (s.pwr.lastDown = 0 ∨ s.pwr.lastDown - 1 + 10000000 ≤ s.now) then
      reformEnv (addLog 0x0202 63 pwrEng 0 0 0 (let s1 := reading c s
        { s1 with pwr := { s1.pwr with thermal := s.pwr.thermal + 1, lastDown := s.now + 1 } }))
    else reading c s))) ∧
  (∀ (s : State) (c : Int), alive s = true → exec (.thermalStepUp c) s = .next (keepQueue s (
    if c < 100 ∧ 0 < s.pwr.thermal ∧ max s.pwr.lastDown s.pwr.lastUp - 1 + 100000000 ≤ s.now then
      reformEnv (let s1 := reading c s
        { s1 with pwr := { s1.pwr with thermal := s.pwr.thermal - 1, lastUp := s.now + 1 } })
    else reading c s))) ∧
  (∀ (s : State) (c : Int), alive s = true → exec (.thermalTrip c) s = .next (keepQueue s (
    if 120 ≤ c ∧ s.pwr.tripAt = none then
      enterSafe 0x08 pwrEng (addLog 0x0203 63 pwrEng 0 0 0 (let s1 := reading c s
        { s1 with pwr := { s1.pwr with tripAt := some (s.now + 2000000) } }))
    else reading c s))))

/-- A corrected-error window of 86,400 s ends: units at the limit are fenced and every count restarts; before its end
nothing happens. A task that joins from a node-table entry with an uncorrectable error has its instance's abort asked
for, and the entry is failing. A spare takes a failing entry's place; with none left the entry is retired. Idle, nap and
wake: an engine without a task goes idle, a unit whose engines have been idle long enough, that holds no accumulators
that are not saved and that no pre-wake keeps naps where naps are on, a waking engine is awake; otherwise nothing
changes. Where the specification leaves it open, this is the model's choice: log entries 3, 68. (18_power_service_life.) -/
def Obligations.UnitsFenceIdleNapAndWake : Prop :=
  (
  (∀ s : State, alive s = true → s.now < (s.pwr.ceWindow + 1) * 86400000000000 → exec .ceWindowEnd s = .next s) ∧
  (∀ s : State, alive s = true → (s.pwr.ceWindow + 1) * 86400000000000 ≤ s.now →
    exec .ceWindowEnd s = .next (keepQueue s (settle (
      let lim := max 1 (bits (rget s R.pwrCeLimit 0) 15 0)
      let s1 := s.pwr.ceCount.foldl
        (fun s e => if lim ≤ e.2 ∧ ¬ (engSt s e.1).fenced then fence e.1 none 3 s else s) s
      { s1 with pwr := { s1.pwr with ceCount := [], ceWindow := s.now / 86400000000000 } }))))) ∧
  (
  (∀ (t k n stripe : Nat) (v : Tmpl) (i : Inst) (nd : Node) (s : State), tmplAt s t = some v → instAt s t k = some i →
    nodeAt v n = some nd → i.st = .running → unreadable s (v.nodeBase + n) = true →
    v.nodeBase + n ∈ (joinReady t k n stripe s).seq.nodeBad ∧
    (joinReady t k n stripe s).seq.toAbort = s.seq.toAbort ++ [(t, k, 2)] ∧
    (joinReady t k n stripe s).seq.ready = s.seq.ready) ∧
  (∀ (e : Nat) (s : State),
    (0 < s.nv.spareNode → (replaceEntry e s).nv.spareNode = s.nv.spareNode - 1 ∧
      (replaceEntry e s).nv.nodeRetired = s.nv.nodeRetired) ∧
    (s.nv.spareNode = 0 → (replaceEntry e s).nv.spareNode = 0 ∧
      (replaceEntry e s).nv.nodeRetired = s.nv.nodeRetired ++ [e]) ∧
    (replaceEntry e s).seq.nodeBad = s.seq.nodeBad.filter (· != e))) ∧
  (
  (∀ (s : State) (e : Nat), alive s = true → e < 65536 →
    exec (.engineIdle e) s = .next (
      if s.seq.runs.any (fun r => (runEngines r).contains e) = false ∧ (engSt s e).running = none ∧
          tget 0 s.pwr.idle e = 0 ∧ s.pwr.nap.contains (unitOf e) = false ∧ 
          tget 0 s.pwr.engIdle e + cdiv 16000 (envClock s.pwr.env) ≤ s.now then
        { s with pwr := { s.pwr with idle := tset 0 s.pwr.idle e (s.now + 1) } } else s)) ∧
  (∀ (s : State) (u : Nat), alive s = true → u < 65536 → bits (rget s R.pwrSleepCfg 0) 31 16 = 0 →
    exec (.coreNap u) s = .next s) ∧
  (∀ (s : State) (u : Nat), alive s = true → u < 65536 → 0 < bits (rget s R.pwrSleepCfg 0) 31 16 →
    (unitOf u < 0x4000 → ∀ k < 33, ∀ a, heldAcc s (bits (unitOf u) 13 6) k = some a → a.saved ≠ none) →
    exec (.coreNap u) s = .next (
      if tget 0 s.pwr.prewoken (unitOf u) = 0 ∧ s.pwr.nap.contains (unitOf u) = false ∧
          (unitEngines (unitOf u)).all (fun e => tget 0 s.pwr.idle e != 0 &&
            decide (tget 0 s.pwr.idle e - 1 + bits (rget s R.pwrSleepCfg 0) 31 16 * 1000 ≤ s.now)) = true then
        { s with pwr := { s.pwr with nap := s.pwr.nap ++ [unitOf u] } } else s)) ∧
  (∀ (s : State) (u k : Nat) (a : Acc), alive s = true → u < 65536 → unitOf u < 0x4000 → k < 33 →
    heldAcc s (bits (unitOf u) 13 6) k = some a → a.saved = none → exec (.coreNap u) s = .next s) ∧
  (∀ (s : State) (e : Nat), alive s = true → e < 65536 → s.pwr.waking.contains e = false →
    exec (.unitWakeDone e) s = .next s) ∧
  (∀ (s : State) (e : Nat), alive s = true → e < 65536 → s.pwr.waking.contains e = true →
    exec (.unitWakeDone e) s = .next { s with pwr := { s.pwr with
      waking := s.pwr.waking.filter (· != e), nap := s.pwr.nap.filter (· != unitOf e),
      idle := tset 0 s.pwr.idle e
        (if s.seq.runs.any (fun r => (runEngines r).contains e) || (engSt s e).running.isSome then 0
         else s.now + 1) } }))

/-- The device sleeps only after the conditions of SLEEP have held for 1 ms, and the wake ends with the accesses that waited
carried out in their order. A pre-wake wakes the units of an armed template ahead of its predicted firing, once for each
firing; it lapses 1 ms after the predicted time. Where the specification leaves it open, this is the model's choice: log
entries 3, 31. (18_power_service_life.) -/
def Obligations.SleepAndPrewake : Prop :=
  (
  (∀ s : State, alive s = true → exec .sleepEntry s = .next (match s.pwr.idleSince with
    | some t => if sleepReady s = true ∧ t + 1000000 ≤ s.now then { s with pwr := { s.pwr with st := .sleep } } else s
    | none => s)) ∧
  (∀ s : State, sleepReady s = true → bit (rget s R.pwrSleepCfg 0) 0 = true ∧ s.pwr.st = .run ∧ alive s = true ∧
    s.waits = [] ∧ (∀ e ∈ s.windows, e.2.st = .closed) ∧ (∀ e ∈ s.lanes, e.2.queue = []) ∧
    (∀ e ∈ s.sec.msessions, ∀ m, e.2 = some m → m.packets = []) ∧
    (∀ e ∈ s.cam.streams, ∀ v, e.2 = some v → v.started = false) ∧
    (∀ e ∈ s.seq.tmpls, ∀ v, e.2 = some v → tmplBusy v = false ∧ v.pending = [] ∧
      (v.armed = true → v.trigKind = 3 → s.now + 3000000 + v.prewakeLead < v.nextFire))) ∧
  (∀ s : State, alive s = true → s.pwr.st = .waking →
    exec .sleepWakeDone s = .next (keepQueue s (settle (runDeferred s.pwr.waiting
      (wakeGolden { s with pwr := { s.pwr with st := .run, waiting := [], idleSince := none } }))))) ∧
  (∀ s : State, alive s = true → s.pwr.st ≠ .waking → exec .sleepWakeDone s = .next s)) ∧
  (
  (∀ (s : State) (t : Nat) (v : Tmpl) (p : Nat), alive s = true → t < 256 → tmplAt s t = some v →
    predicted s v = some p →
    exec (.prewake t) s = .next (keepQueue s (
      if v.armed = true ∧ v.prewakeLead ≠ 0 ∧ v.prewoken ≠ p + 1 ∧
          p ≤ s.now + (v.prewakeLead + (if s.pwr.st = .sleep then 3000000 else 0)) then
        (prewakeUnits s t v).foldl (fun s u =>
          let s1 := if s.pwr.nap.contains u then (unitEngines u).foldl (fun s e => wakeEng e s) s else s
          { s1 with pwr := { s1.pwr with prewoken := tset 0 s1.pwr.prewoken u (p + 1) } })
          (wakeDevice (modTmpl t (fun v => { v with prewoken := p + 1 }) s))
      else s))) ∧
  (∀ (s : State) (t : Nat) (v : Tmpl), alive s = true → t < 256 → tmplAt s t = some v →
    exec (.prewakeExpire t) s = .next { s with pwr := { s.pwr with
      prewoken := (prewakeUnits s t v).foldl (fun m u =>
        if tget 0 m u ≠ 0 ∧ tget 0 m u - 1 + 1000000 ≤ s.now then tset 0 m u 0 else m) s.pwr.prewoken } }) ∧
  (∀ (s : State) (t : Nat), alive s = true → t < 256 → (∀ v, tmplAt s t = some v → predicted s v = none) →
    exec (.prewake t) s = .next s) ∧
  (∀ (s : State) (t : Nat), alive s = true → t < 256 → tmplAt s t = none → exec (.prewakeExpire t) s = .next s))

/-- A boot ends in the ROM, where the loader does not verify; in firmware, running an image whose SVN is at least the fuses'
value; or in recovery, with the update state ERROR. The run seconds of a trial are stored every 10 s of device time up
to 600, and at 600 the device resets itself; outside a trial, and before firmware runs, neither happens. The update
record keeps them: a change is written to the copy of the lower sequence number, which then is the newest, and the other
copy stays. Where the specification leaves it open, this is the model's choice: log entries 3, 54, 57, 177, 189, 193.
(19_boot_update.) -/
def Obligations.BootKeepsTheSvnFusesAndTrialsExpire : Prop :=
  (
  ∀ s : State, s.boot.phase = 0 →
    (s.nv.loaderOk = false → (bootChain s).boot.phase = 0) ∧
    (s.nv.loaderOk = true →
      ((bootChain s).boot.phase = 2 ∧ (bootChain s).nv.svnFuses ≤ (bootChain s).boot.runningSvn) ∨
      ((bootChain s).boot.phase = 4 ∧ (bootChain s).nv.updState = 5))) ∧
  (
  (∀ s : State, alive s = true → s.nv.updState = 3 → s.boot.phase = 2 ∨ s.boot.phase = 3 →
    exec .trialCountStore s = .next (if s.boot.trialStored + 10000000000 ≤ s.now then
      (let s1 := saveRecord 0 { s with nv := { s.nv with runSeconds := min 600 (s.nv.runSeconds + 10) } }
       { s1 with boot := { s1.boot with trialStored := s.boot.trialStored + 10000000000 } }) else s)) ∧
  (∀ s : State, alive s = true → s.nv.updState = 3 → s.boot.phase = 2 ∨ s.boot.phase = 3 →
    exec .trialRunExpiry s = .next (if 600 ≤ s.nv.runSeconds + (s.now - s.boot.trialStored) / 1000000000 then
      keepQueue s (reboot (saveRecord 0 { s with nv := { s.nv with runSeconds := 600 } })) else s)) ∧
  (∀ s : State, alive s = true → s.nv.updState ≠ 3 ∨ (s.boot.phase ≠ 2 ∧ s.boot.phase ≠ 3) →
    exec .trialCountStore s = .next s ∧ exec .trialRunExpiry s = .next s) ∧
  (∀ (phase : Nat) (s : State), let t := saveRecord phase s
    t = { s with nv := { s.nv with rec0 := t.nv.rec0, rec1 := t.nv.rec1 } } ∧
    (t.nv.rec0 = s.nv.rec0 ∨ t.nv.rec1 = s.nv.rec1) ∧
    (s.nv.rec0.seq < s.nv.rec1.seq → t.nv.rec1 = s.nv.rec1) ∧
    (updRec t).state = s.nv.updState ∧ (updRec t).phase = phase ∧ (updRec t).boots = s.nv.bootsLeft ∧
    (updRec t).seconds = s.nv.runSeconds))

/-- An offset of more than 1 ms ahead steps the clock forward when the step is permitted and no template is armed; any other
is slewed. The step is a whole number of 4 ns (the model's choice), what is left of the offset is slewed; the clock
never goes back, and LOCKED starts anew: after an offset beyond 1 µs it reads 0. The messages that discipline the clock:
a PTM request goes out of the selected port, where PTM is enabled and the link is up, at most every 10 ms; its answer
gives the offset while PTM stays enabled, and LOCKED reads 0 where it is not. An 802.1AS synchronization of the selected
MAC gives the offset once the link delay is known; the peer's delay requests are answered, and the peer's answer to the
device's own, which goes out while 802.1AS is on, measures the link delay. While 802.1AS is off its messages are counted
as dropped. Where the specification leaves it open, this is the model's choice: log entries 127, 134, 140, 152.
(01_architecture, 14_host_network_ports, 18_power_service_life.) -/
def Obligations.ClockDiscipline : Prop :=
  (
  ∀ (o : Int) (s : State), s.now ≤ (discipline o s).now ∧
    ((discipline o s).now ≠ s.now →
      bit (rget s R.pwrTimeCtrl 0) 9 = true ∧ 1000000 < o ∧ anyArmed s = false ∧
      ((discipline o s).now : Int) + (discipline o s).pwr.slewLeft = s.now + o ∧ (discipline o s).pwr.slewLeft < 4 ∧
      (discipline o s).pwr.lockSince = some (discipline o s).now) ∧
    ((discipline o s).now = s.now → o ≤ 1000000 → (discipline o s).pwr.slewLeft = o) ∧
    (registersOk s → withinLock o = false → bit (rget (discipline o s) R.pwrTimeCtrl 0) 8 = false) ∧
    (discipline o s).seq = s.seq ∧ (discipline o s).out = s.out ∧ (discipline o s).log = s.log) ∧
  (
  (∀ (s : State) (port : Nat) (en : Bool), alive s = true → port < 2 →
    exec (.ptmRequest port en) s = .next (
      let s1 := modPort port (fun p => { p with ptmEn := en }) s
      let s2 := lockBit (if en = false ∧ bits (rget s R.pwrTimeCtrl 0) 2 0 = 3 + port then
        { s1 with pwr := { s1.pwr with lockSince := none } } else s1)
      let p := portSt s2 port
      if bits (rget s2 R.pwrTimeCtrl 0) 2 0 = 3 + port ∧ p.ptmEn ∧ p.up ∧
          (p.ptmLast = 0 ∨ p.ptmLast - 1 + 10000000 ≤ s2.now) then
        emit (.ptmRequest port) (modPort port (fun p => { p with ptmLast := s2.now + 1, ptmOut := true }) s2)
      else s2)) ∧
  (∀ s : State, srcLive s = false →
    lockBit s = rput R.pwrTimeCtrl 0 (rget s R.pwrTimeCtrl 0 &&& 0x207) s) ∧
  (∀ (s : State) (port master : Nat), alive s = true → port < 2 →
    exec (.ptmResponse port master) s = .next (keepQueue s (
      if (portSt s port).ptmOut then
        let s1 := modPort port (fun p => { p with ptmOut := false }) s
        if bits (rget s R.pwrTimeCtrl 0) 2 0 = 3 + port ∧ (portSt s port).ptmEn = true then
          discipline ((master : Int) - (s.now : Int)) s1 else s1
      else s))) ∧
  (∀ (s : State) (mac : Nat) (rx : Int), alive s = true → mac < 2 →
    bit (rget s R.ethMacCfg mac) 4 = true → macUp s mac = true →
    rx = (s.now : Int) - bits (rget s R.ethPhyDly mac) 31 16 →
    (∀ origin : Nat, exec (.gptpMessage mac (.sync origin)) s = .next (keepQueue s (
      match (macSt s mac).linkDelay with
      | some d => if bits (rget s R.pwrTimeCtrl 0) 2 0 = 1 + mac then discipline (origin + d - rx) s else s
      | none => s))) ∧
    (∀ peer : List Byte, exec (.gptpMessage mac (.delayReq peer)) s =
      .next (keepQueue s (sendAhead mac (.delayResp peer rx) s))) ∧
    (∀ t2 t3 : Nat, exec (.gptpMessage mac (.delayResp t2 t3)) s = .next (
      match (macSt s mac).asSent with
      | some t1 => modMac mac (fun q => { q with
          asSent := none, asCapable := true, linkDelay := some ((rx - t1 - ((t3 : Int) - t2)) / 2) }) s
      | none => s))) ∧
  (∀ (s : State) (mac : Nat) (g : GptpMsg), alive s = true → mac < 2 →
    (macUp s mac = false → exec (.gptpMessage mac g) s = .next s ∧ exec (.peerDelayRequest mac) s = .next s) ∧
    (macUp s mac = true → bit (rget s R.ethMacCfg mac) 4 = false →
      exec (.gptpMessage mac g) s = .next (cnt R.ethRxDrop mac 1 s) ∧ exec (.peerDelayRequest mac) s = .next s)) ∧
  (∀ (s : State) (mac : Nat), alive s = true → mac < 2 → bit (rget s R.ethMacCfg mac) 4 = true → macUp s mac = true →
    exec (.peerDelayRequest mac) s = .next (keepQueue s (sendAhead mac .delayReq s))) ∧
  (∀ (s : State) (mac : Nat) (f : Ahead), macUp s mac = true → tkeys 0 s.macs = true →
    ((macSt s mac).sending ≠ none →
      sendAhead mac f s = modMac mac (fun q => { q with ahead := q.ahead ++ [f] }) s) ∧
    ((macSt s mac).sending = none → (macSt s mac).ahead = [] →
      ((sendAhead mac f s).out = s.out ++ [.frame mac (frameBytes s mac f)] ∧
       (macSt (sendAhead mac f s) mac).sending = some (frameBytes s mac f)))))

/-- Entering safe state: every cause is logged; the first is kept with its engine and time, SAFE_N goes low; a later one is
counted, and replaces the kept one only if it is lower and of the same instant. Once entered it stays.
(17_functional_safety.) -/
def Obligations.SafeStateKeepsItsFirstCause : Prop :=
  ∀ (cause eng : Nat) (s : State),
    (enterSafe cause eng s).saf.safe = true ∧
    (enterSafe cause eng s).logNext = w32 (s.logNext + 1) ∧
    (s.saf.safe = false ∨ s.saf.cause = 0x0A →
      (enterSafe cause eng s).saf.cause = cause ∧ (enterSafe cause eng s).saf.causeEng = eng ∧
      (enterSafe cause eng s).saf.causeTime = s.now ∧ (enterSafe cause eng s).saf.safeN = false ∧
      (enterSafe cause eng s).saf.later = 0) ∧
    (s.saf.safe = true → s.saf.cause ≠ 0x0A →
      (enterSafe cause eng s).saf.later = s.saf.later + 1 ∧
      (enterSafe cause eng s).saf.causeTime = s.saf.causeTime ∧
      (enterSafe cause eng s).saf.safeN = s.saf.safeN ∧ (enterSafe cause eng s).out = s.out ∧
      (enterSafe cause eng s).saf.cause =
        (if s.now = s.saf.causeTime ∧ cause < s.saf.cause then cause else s.saf.cause))

/-- The monitors that put the device in safe state: the sequencer's processors disagree (0x03, and all dispatch stops), the
Safety Island's processors disagree (0x04), a clock is off (0x07). SAFE_HB toggles at the multiples of 500 µs of device
time while the device is ready and out of safe state, and holds its level otherwise; in safe state the safety record is
sent again every 100 ms. The status word goes out as SSL_CS_N falls: its low byte is the CRC-8 of the other three, and
the frame counts. NOP, SELECT and ACK_TRANSIENT clear the error bit and do what they say, and no more. A frame that sets
ARG bits its command does not use is taken as a reserved one: the model's reading (log entry 61). Where the
specification leaves it open, this is the model's choice: log entries 3, 61, 62. (17_functional_safety.) -/
def Obligations.MonitorsAndHeartbeat : Prop :=
  (
  ∀ s : State, alive s = true →
    exec .scpLockstepMismatch s = .next (keepQueue s
      (enterSafe 0x03 0xC000 { s with seq := { s.seq with halted := true } })) ∧
    exec .siLockstepMismatch s = .next (keepQueue s (enterSafe 0x04 0xC2C0 s)) ∧
    exec .clockFault s = .next (keepQueue s (enterSafe 0x07 0xFFFF s))) ∧
  (
  (∀ s : State, alive s = true → exec .safeHbToggle s = .next (
    if s.saf.ready = true ∧ s.saf.safe = false ∧ s.now % 500000 = 0 then
      { s with saf := { s.saf with hb := !s.saf.hb } } else s)) ∧
  (∀ s : State, alive s = true → exec .safetyRecordRepeat s = .next (keepQueue s (
    if s.saf.safe = true ∧ 0 < s.saf.recSends ∧ s.saf.lastRec + 100000000 ≤ s.now then settle (sendSafety s) else s))) ∧
  (∀ s : State, (sendSafety s).saf = { s.saf with
    recSeq := w32 (s.saf.recSeq + 1), recSends := s.saf.recSends + 1, lastRec := s.now })) ∧
  (
  (∀ s : State, alive s = true → ∃ w : Word,
    exec .sslCsFall s = .next { s with
      saf := { s.saf with sslFrames := s.saf.sslFrames + 1 }, out := s.out ++ [.ssl w] } ∧
    w.toNat % 256 = crc8 (w.toNat / 256) ∧ w.toNat / 256 % 2 = b2n s.saf.sslErr) ∧
  (∀ s : State, alive s = true →
    exec .sslNop s = .next { s with saf := { s.saf with sslErr := false } } ∧
    exec .sslAckTransient s = .next { s with saf := { s.saf with sslTransient := false, sslErr := false } }) ∧
  (∀ (s : State) (i : Nat), alive s = true → i < 256 →
    exec (.sslSelect i) s = .next { s with saf := { s.saf with sslSel := i, sslErr := false } }) ∧
  (∀ (s : State) (l : List Bool), alive s = true → l.length = 32 → crc8 (frameVal l / 256) = frameVal l % 256 →
    (0 < frameVal l / 256 ∧ frameVal l / 256 < 0x010000) ∨ (0x010100 ≤ frameVal l / 256 ∧ frameVal l / 256 < 0x020000) ∨
      (0x020000 < frameVal l / 256 ∧ frameVal l / 256 < 0x030000) →
    exec (.sslBadFrame l) s = .next (cnt R.safSslErr 0 1 { s with saf := { s.saf with sslErr := true } })))

/-- A check interval begins when the one before has ended: engines that passed are noted, those that did not are counted
UNCHECKED and logged, a second interval running brings safe state, fenced and absent ones only release what is held, and
the next golden runs are placed; before the end, or before interval 0, nothing happens. An interval that lay wholly in
SLEEP judges no engine, and one that begins in SLEEP places no golden run. A golden run gives its verdict: with no run
under way, or while the engine wakes, nothing happens; a run that passes releases what the engine holds of its interval;
one that disagrees marks the interval's outputs INVALID and is repeated; a repeat that agrees is a transient, one that
disagrees fences the engine, and so does a third transient within 1,000 intervals. Then the device may become ready. A
verdict after its interval's end releases and marks nothing. Where the specification leaves it open, this is the model's
choice: log entries 3, 143. (17_functional_safety.) -/
def Obligations.ChecksOfTheEngines : Prop :=
  (
  (∀ s : State, alive s = true → s.saf.intervals = 0 ∨ s.now < s.saf.intEnd → exec .checkIntervalStart s = .next s) ∧
  (∀ s s1 s2 : State, alive s = true → s.saf.intervals ≠ 0 → s.saf.intEnd ≤ s.now →
    s1 = { s with saf := { s.saf with
      intervals := s.saf.intervals + 1, intStart := s.saf.intEnd, intLen := intervalNs s
      intEnd := s.saf.intEnd + intervalNs s, slept := decide (s.pwr.st = .sleep) } } →
    s2 = (if s.saf.slept then s1 else goldenEngines.foldl (endInterval (intervalNow s)) s1) →
    exec .checkIntervalStart s = .next (keepQueue s (settle (
      if s.pwr.st = .sleep then goldenEngines.foldl (fun s e => modEng e (fun x => { x with passed := false }) s) s2
      else goldenEngines.foldl placeGolden s2)))) ∧
  (∀ (iv e : Nat) (s : State), (engSt s e).fenced = true ∨ engAvail s e = false →
    endInterval iv s e = releaseHeld e iv fUnchecked s) ∧
  (∀ (iv e : Nat) (s : State), engAvail s e = true → (engSt s e).fenced = false → (engSt s e).passed = true →
    endInterval iv s e = modEng e (fun x => { x with
      last := if x.transients.contains iv then 1 else 0, streak := 0 }) s) ∧
  (∀ (iv e : Nat) (s s1 : State), engAvail s e = true → (engSt s e).fenced = false → (engSt s e).passed = false →
    s1 = releaseHeld e iv fUnchecked (addLog 0x0103 63 e iv (b2n ((engSt s e).streak != 0)) 0
      (cnt R.safEngUnchecked e 1 (modEng e (fun x => { x with last := 2, streak := (engSt s e).streak + 1 }) s))) →
    endInterval iv s e = if 1 ≤ (engSt s e).streak then enterSafe 0x02 e s1 else s1) ∧
  (∀ (e : Nat) (s : State), placeGolden s e =
    if engAvail s e = true ∧ (engSt s e).fenced = false then
      startGolden e (modEng e (fun x => { x with pending := true, passed := false }) s)
    else modEng e (fun x => { x with passed := false }) s) ∧
  (∀ s : State, 5000000 ≤ intervalNs s ∧ intervalNs s ≤ 100000000)) ∧
  (
  (∀ (s : State) (name n : Nat), alive s = true → goldenUnit name = true →
    (engSt s (goldenName name).1).running = none ∨ s.pwr.waking.contains (goldenName name).1 = true →
    exec (.goldenRunDone name n) s = .next s) ∧
  (∀ (s : State) (name n iv e : Nat), alive s = true → goldenUnit name = true → e = (goldenName name).1 →
    (engSt s e).running = some iv → s.pwr.waking.contains e = false →
    exec (.goldenRunDone name n) s = .next (keepQueue s (settle (cameraReady (startGolden e
      (let s1 := modEng e (fun x => { x with running := none }) s
       if (engSt s e).runKind ≠ 0 then
         repeatDone e (goldenName name).2 iv ((engSt s e).runKind == 2) n s1
       else if n = 0 then goldenPass e iv s1
       else modEng e (fun x => { x with again := 1, againInt := iv, elems := n }) (markBad e iv s1))))))) ∧
  (∀ (e iv : Nat) (s : State), goldenPass e iv s =
    (let s1 := modEng e (fun x => { x with firstDone := true }) s
     if iv = intervalAt s then releaseHeld e iv 0 (modEng e (fun x => { x with passed := true }) s1) else s1)) ∧
  (∀ (e iv : Nat) (s : State), iv ≠ intervalAt s → markBad e iv s = s) ∧
  (∀ (e iv : Nat) (s : State), iv = intervalAt s → (markBad e iv s).seq.held = s.seq.held.map (fun h =>
      if h.wait.contains e ∧ h.iv = iv then { h with run := { h.run with flags := h.run.flags ||| fInvalid } } else h) ∧
    (engSt (markBad e iv s) e).bad = some iv) ∧
  (∀ (e iv n : Nat) (te : Option Nat) (range : Bool) (s s1 : State),
    s1 = (if range then addLog 0x0104 63 e iv (b2n (n != 0)) 0 s else s) →
    (n ≠ 0 → repeatDone e te iv range n s = engFail e te iv n (if range then 2 else 1) s1) ∧
    (n = 0 → ∀ tr elems s2, tr = (engSt s e).transients.filter (fun i => decide (iv < i + 1000)) ++ [iv] →
      elems = (if range then 0 else (engSt s e).elems) →
      s2 = modEng e (fun x => { x with transients := tr }) (addLog 0x0102 63 e iv elems 0
        (rput R.safStat 0 (rget s1 R.safStat 0 ||| 8)
          (modSaf (fun x => { x with transientCount := x.transientCount + 1, sslTransient := true })
            (cnt R.safEngTransient e 1 s1)))) →
      repeatDone e te iv range n s =
        if 3 ≤ tr.length then engFail e te iv elems (if range then 2 else 1) s2
        else if range then s2 else goldenPass e iv s2)) ∧
  (∀ (e iv elems reason : Nat) (te : Option Nat) (s : State),
    engFail e te iv elems reason s = fence e te reason (addLog 0x0101 63 e iv elems 0 (cnt R.safEngFail e 1 s))))

/-- R446: A frame of another length than 32 bits, or with a wrong CRC, has no effect but the error bit of the next status
word and the error count, and one that is right is the command it spells. -/
def Obligations.BadSafetyLinkFramesOnlyCount : Prop :=
  (∀ s : State, alive s = true → ∃ (t : State) (w : Word), exec .sslCsFall s = .next t ∧
    t.out = s.out ++ [.ssl w] ∧ w.toNat / 256 % 2 = b2n s.saf.sslErr) ∧
  (∀ (s : State) (l : List Bool), alive s = true → l.length ≠ 32 ∨ crc8 (frameVal l / 256) ≠ frameVal l % 256 →
    exec (.sslBadFrame l) s = .next (cnt R.safSslErr 0 1 { s with saf := { s.saf with sslErr := true } })) ∧
  (∀ (s : State) (l : List Bool), alive s = true → l.length = 32 → crc8 (frameVal l / 256) = frameVal l % 256 →
    (frameVal l / 256 = 0 → exec (.sslBadFrame l) s = exec .sslNop s) ∧
    (frameVal l / 256 = 0x020000 → exec (.sslBadFrame l) s = exec .sslAckTransient s) ∧
    (∀ i, i < 256 → frameVal l / 256 = 0x010000 + i → exec (.sslBadFrame l) s = exec (.sslSelect i) s) ∧
    (0x030000 ≤ frameVal l / 256 →
      exec (.sslBadFrame l) s = .next (cnt R.safSslErr 0 1 { s with saf := { s.saf with sslErr := true } })))

/-- R30: Privileged are the management port, and PF0 of port 0 in host-owner mode. A write to PWR_TIME_CTRL, or to another
register that only privileged requesters may write, gives its RW bits the value's; its other bits are not written. From
another requester it is dropped and counted for it. -/
def Obligations.PrivilegedRegisterWrites : Prop :=
  (∀ (s : State) (rq : Nat), privileged s rq = true ↔ rq = 32 ∨ (rq = 0 ∧ s.sec.hostOwner = true)) ∧
  (∀ (s : State) (rq : Nat) (v : Word), alive s = true → seesRegs s rq = true → prompt s = true → registersOk s →
    ∃ t, exec (.registerWrite rq R.pwrTimeCtrl v) s = .next t ∧
      (privileged s rq = false → t = countDenied rq s) ∧
      (privileged s rq = true → t.now = s.now ∧ t.mem = s.mem ∧
        (∀ k ∈ [0, 1, 2, 9], bit (rget t R.pwrTimeCtrl 0) k = bit v.toNat k) ∧
        (∀ off idx, off < 0x1000000 → (off, idx) ≠ (R.pwrTimeCtrl, 0) → rget t off idx = rget s off idx))) ∧
  (∀ (s : State) (rq off n : Nat) (d : RegDef) (v : Word), alive s = true → reaches s rq = true → prompt s = true →
    off % 4 = 0 → off < 0x1000000 → placeOf rq off = .reg d n → privRegs.contains d.off = true →
    exec (.registerWrite rq off v) s = .next (
      if privileged s rq then
        rput d.off (objOf s rq d n) (mergeRw (rget s d.off (objOf s rq d n)) d.rw v.toNat) s
      else countDenied rq s)) ∧
  (∀ old rw v k : Nat, bit (mergeRw old rw v) k = if bit rw k then bit v k else bit old k)

/-- The register table reads back what was written, modulo 2^32, and every other register as before. A write of 1 clears a
write-one-to-clear bit, a write of 0 leaves it, of every register that has such bits; nothing else changes. SAF_STAT and
PWR_STAT are written by the privileged, a stream's CAM_STREAM_STAT also by its owner; from another requester the write
is dropped and counted. A read of a register with read-to-clear fields returns its value and leaves those fields 0, its
other fields and every other register as they were. SEQ_OBS_MAXDEPTH is left at the list's depth instead; a requester
that may not read the register gets 0 and clears nothing; a lane's status counts its packets without a ring from 0
again. (00_scope.) -/
def Obligations.RegistersReadBack : Prop :=
  (
  ∀ (s : State) (off idx v : Nat), registersOk s → off < 0x1000000 →
    registersOk (rput off idx v s) ∧
    rget (rput off idx v s) off idx = v % 2 ^ 32 ∧
    (∀ off' idx', off' < 0x1000000 → ¬ (off' = off ∧ idx' = idx) →
      rget (rput off idx v s) off' idx' = rget s off' idx') ∧
    (rput off idx v s).mem = s.mem ∧ (rput off idx v s).out = s.out ∧ (rput off idx v s).log = s.log ∧
    (rput off idx v s).sel = s.sel) ∧
  (
  (∀ (s : State) (rq off n : Nat) (d : RegDef) (v : Word), alive s = true → reaches s rq = true → prompt s = true →
    off % 4 = 0 → off < 0x1000000 → registersOk s → placeOf rq off = .reg d n → d.w1c ≠ 0 →
    (privileged s rq = true ∨ (d.off = R.camStreamStat ∧ streamGranted s rq (objOf s rq d n) = true)) →
    ∃ t, exec (.w1cRegisterWrite rq off v) s = .next t ∧
      (∀ k, bit (rget t d.off (objOf s rq d n)) k =
        (bit (rget s d.off (objOf s rq d n)) k && !(bit v.toNat k && bit d.w1c k))) ∧
      t = rput d.off (objOf s rq d n) (rget t d.off (objOf s rq d n)) s) ∧
  (∀ (s : State) (rq : Nat) (v : Word), alive s = true → seesRegs s rq = true → prompt s = true →
    exec (.w1cRegisterWrite rq R.safStat v) s = .next (
      if privileged s rq then rput R.safStat 0 (rget s R.safStat 0 - (rget s R.safStat 0 &&& v.toNat &&& 8)) s
      else countDenied rq s) ∧
    exec (.w1cRegisterWrite rq R.pwrStat v) s = .next (
      if privileged s rq then rput R.pwrStat 0 (rget s R.pwrStat 0 - (rget s R.pwrStat 0 &&& v.toNat &&& 4)) s
      else countDenied rq s)) ∧
  (∀ (s : State) (rq : Nat) (v : Word), alive s = true → seesRegs s rq = true → prompt s = true →
    privileged s rq = false → streamGranted s rq (selGet s rq R.camStreamSel) = false →
    exec (.w1cRegisterWrite rq R.camStreamStat v) s = .next (countDenied rq s))) ∧
  (
  (∀ (s : State) (rq off n : Nat) (d : RegDef), alive s = true → reaches s rq = true → prompt s = true →
    off % 4 = 0 → off < 0x1000000 → registersOk s → placeOf rq off = .reg d n → d.rc ≠ 0 → d.off ≠ R.seqObsMaxdepth →
    readable s rq d (objOf s rq d n) = true →
    let i := if R.safEngFail ≤ d.off ∧ d.off ≤ R.safEngUnchecked then safEng (objOf s rq d n) else objOf s rq d n
    ∃ t, exec (.rcRegisterRead rq off) s = .next (emit (.data rq (BitVec.ofNat 32 (rget s d.off i))) t) ∧
      (∀ k, bit (rget t d.off i) k = (bit (rget s d.off i) k && !bit d.rc k)) ∧
      t = rput d.off i (rget t d.off i) s) ∧
  (∀ (s : State) (rq off n : Nat) (d : RegDef), alive s = true → reaches s rq = true → prompt s = true →
    off % 4 = 0 → off < 0x1000000 → placeOf rq off = .reg d n → readable s rq d (objOf s rq d n) = false →
    exec (.rcRegisterRead rq off) s = .next (emit (.data rq 0) s)) ∧
  (∀ (s : State) (rq : Nat), alive s = true → seesRegs s rq = true → prompt s = true →
    let i := selGet s rq R.seqObsSel
    exec (.rcRegisterRead rq R.seqObsMaxdepth) s = .next (
      emit (.data rq (BitVec.ofNat 32 (rget s R.seqObsMaxdepth i)))
        (rput R.seqObsMaxdepth i (depthOf s (i % 16) (i / 16)) s))) ∧
  (∀ (s : State) (fn lane : Nat), alive s = true → fn < 32 → reaches s fn = true → prompt s = true → lane < 16 →
    let n := 16 * fn + lane
    exec (.rcRegisterRead fn (laneBase fn + 0x1000 * lane + 0x114)) s = .next (
      emit (.data fn (BitVec.ofNat 32 (laneStat s n))) (modLane n (fun l => { l with noring := 0 }) s))))

/-- R11: Accesses of registers that are not aligned 32-bit ones change nothing but a count, and a read of that kind returns
all ones, but 0 and uncounted in a lane's packet window, where R11 does not hold; an access where no register stands is
counted and reads 0; an access that finds the device waking waits, and one that finds it asleep waits too, and wakes it
if it is the management port's or writes a PWR_ register; one by a function that is not there changes nothing. Where the
specification leaves it open, this is the model's choice: log entry 13. -/
def Obligations.OddAccessesAreCounted : Prop :=
  (∀ (s : State) (rq off size : Nat), alive s = true → reaches s rq = true → off < 0x1000000 →
    size ≠ 4 ∨ off % 4 ≠ 0 →
    exec (.mmioMisshapedAccess rq off size true) s = .next (cnt R.hostFnMmioShape rq 1 s) ∧
    exec (.mmioMisshapedAccess rq off size false) s = .next (
      if inPacketWindow rq off = true then emit (.data rq 0) s
      else emit (.data rq 0xFFFFFFFF) (cnt R.hostFnMmioShape rq 1 s))) ∧
  (∀ rq off : Nat, inPacketWindow rq off = true ↔ ∃ l k, placeOf rq off = .lane l k ∧ k < 0x100) ∧
  (∀ (s : State) (rq off : Nat), alive s = true → reaches s rq = true → prompt s = true → off % 4 = 0 →
    off < 0x1000000 → placeOf rq off = .hole →
    exec (.mmioHoleAccess rq off true) s = .next (cnt R.hostFnMmioHole rq 1 s) ∧
    exec (.mmioHoleAccess rq off false) s = .next (emit (.data rq 0) (cnt R.hostFnMmioHole rq 1 s))) ∧
  (∀ (s : State) (rq off : Nat) (v : Word), alive s = true → reaches s rq = true → s.pwr.st = .waking →
    off % 4 = 0 → off < 0x1000000 →
    exec (.registerWrite rq off v) s = .next { s with pwr := { s.pwr with
      waiting := s.pwr.waiting ++ [{ rq := rq, off := off, wr := some v }] } } ∧
    exec (.rcRegisterRead rq off) s = .next { s with pwr := { s.pwr with
      waiting := s.pwr.waiting ++ [{ rq := rq, off := off, wr := none }] } }) ∧
  (∀ (s : State) (rq off : Nat) (v : Word), alive s = true → reaches s rq = true → s.pwr.st = .sleep →
    off % 4 = 0 → off < 0x1000000 →
    exec (.registerWrite rq off v) s = .next { s with pwr := { s.pwr with
      st := if rq = 32 ∨ wakingWrite rq off = true then .waking else .sleep,
      waiting := s.pwr.waiting ++ [{ rq := rq, off := off, wr := some v }] } } ∧
    exec (.rcRegisterRead rq off) s = .next { s with pwr := { s.pwr with
      st := if rq = 32 then .waking else .sleep,
      waiting := s.pwr.waiting ++ [{ rq := rq, off := off, wr := none }] } }) ∧
  (∀ (s : State) (rq off : Nat) (v : Word), alive s = true → rq < 33 → reaches s rq = false → off < 0x1000000 →
    exec (.registerWrite rq off v) s = .next s ∧ exec (.rcRegisterRead rq off) s = .next s)

/-- A read of the low word of a 64-bit time returns it and latches the upper word for its requester. The two words of device
time that a requester reads belong to one instant, however much time passes between the two reads. (00_scope,
01_architecture.) -/
def Obligations.TimeReads : Prop :=
  (
  (∀ (s : State) (rq : Nat), alive s = true → reaches s rq = true → prompt s = true →
    rq < 33 →
    exec (.pwrTimeLoRead rq) s = .next (emit (.data rq (BitVec.ofNat 32 (s.now % 2 ^ 32)))
      (selPut rq R.pwrTimeHi (s.now / 2 ^ 32 % 2 ^ 32) s))) ∧
  (∀ (s : State) (rq : Nat), alive s = true → seesRegs s rq = true → prompt s = true →
    exec (.seqSluiceLastLoRead rq) s = .next (
      let t := (sluiceSt s (selGet s rq R.seqSluiceSel)).lastTime
      emit (.data rq (BitVec.ofNat 32 (t % 2 ^ 32))) (selPut rq R.seqSluiceLastHi (t / 2 ^ 32 % 2 ^ 32) s)) ∧
    exec (.secIsoTimeLoRead rq) s = .next (
      emit (.data rq (BitVec.ofNat 32 (s.sec.epochTime % 2 ^ 32)))
        (selPut rq R.secIsoTimeHi (s.sec.epochTime / 2 ^ 32 % 2 ^ 32) s)) ∧
    exec (.safCauseTimeLoRead rq) s = .next (
      emit (.data rq (BitVec.ofNat 32 (s.saf.causeTime % 2 ^ 32)))
        (selPut rq R.safCauseTimeHi (s.saf.causeTime / 2 ^ 32 % 2 ^ 32) s))) ∧
  (∀ (s : State) (rq n : Nat), alive s = true → seesRegs s rq = true → prompt s = true → n < 4 →
    exec (.camFsiLastLoRead rq n) s = .next (
      emit (.data rq (BitVec.ofNat 32 (tget 0 s.cam.fsiLast n % 2 ^ 32)))
        (selPut rq (R.camFsiLastHi + 8 * n) (tget 0 s.cam.fsiLast n / 2 ^ 32 % 2 ^ 32) s)))) ∧
  (
  ∀ (s : State) (rq k : Nat), rq < 33 → tkeys 0 s.sel = true →
    (busRead rq (timeLoAt rq + 4) (tick^[k] (busRead rq (timeLoAt rq) s).2)).1 * 2 ^ 32 +
      (busRead rq (timeLoAt rq) s).1 = s.now % 2 ^ 64)

/-- R300: A write of SPD_ARR_VALUE sets the arrival counter the requester selects, if it holds a share of its core; one of
BANK_ON starts powering the banks that change, if the requester's grant covers them and none that loses power serves as
cache; the rows of the banks that gain it read as poisoned. Arrivals after the write are added to the written value. -/
def Obligations.ScratchpadArrivalAndPower : Prop :=
  (∀ (s : State) (rq : Nat) (v : Word), alive s = true → seesRegs s rq = true → prompt s = true →
    exec (.spdArrValueWrite rq v) s = .next (keepQueue s (
      let sel := selGet s rq R.spdArrSel
      if arrExists sel = true ∧ holdsShare s rq (bits sel 16 16) (bits sel 15 8) = true then
        settle (arrSet (arrKey sel) v.toNat s)
      else countDenied rq s))) ∧
  (∀ (s : State) (key v n : Nat), tkeys 0 s.spd.arr = true →
    tget 0 (arrSet key v s).spd.arr key = v % 2 ^ 32 ∧
    tget 0 (arrAdd key n (arrSet key v s)).spd.arr key = (v + n) % 2 ^ 32) ∧
  (∀ (s : State) (rq : Nat) (v : Word), alive s = true → seesRegs s rq = true → prompt s = true →
    let sl := selGet s rq R.spdSliceSel
    let old := rget s R.spdSlicePwr sl
    let new := bits v.toNat 15 0
    let ch := banksChanged old new
    let up := (ch.filter (fun b => !bit old b)).map (fun b => 16 * sl + b)
    let down := (ch.filter (fun b => bit old b)).map (fun b => 16 * sl + b)
    let may := ch.all (fun b => rowsRight s rq (bankRow sl b) 1024) &&
      !ch.any (fun b => bit old b && cacheBank s sl b)
    (may = true → exec (.spdSlicePwrWrite rq v) s = .next (
      rput R.spdSlicePwr sl new (up.foldl (fun s k => setPoison (k * 1024) ((k + 1) * 1024) 2 s)
        { s with spd := { s.spd with
          goingDown := s.spd.goingDown.filter (fun k => !up.contains k) ++ down,
          goingUp := s.spd.goingUp.filter (fun k => !down.contains k) ++ up,
          off := s.spd.off.filter (fun k => !up.contains k) } }))) ∧
    (may = false → exec (.spdSlicePwrWrite rq v) s = .next (countDenied rq s)))

/-- A write of SPD_SLICE_CACHE, or its INV bit, is taken where the requester's grant covers the banks concerned and at most
eight serve as cache; the change waits for the core's next task boundary. A write of SPD_WHEEL_CFG with EN = 1 starts a
wheel from zero counters; one with EN = 0 disables a wheel that no task uses. KPE_PART_CTRL.CLEAR empties a track
partition of the requester's stream that no task holds, and numbers its tracks from 1 again, the write of its other
fields being one the partition may take, else it is dropped and counted; MRQ_CFG is written freely while the millrace is
disabled, keeps its other fields while enabled, and disabling it empties it unless a template uses it; STR_CTX_OWNER is
written for a template of the requester while the context is idle, and clears its base ring. Where the specification
leaves it open, this is the model's choice: log entries 139, 170, 174. (08_keypoints_tracks, 11_scratchpad,
12_data_movement, 15_command_protocol.) -/
def Obligations.CachesWheelsAndOwners : Prop :=
  (
  (∀ (s : State) (rq : Nat) (v : Word), alive s = true → seesRegs s rq = true → prompt s = true →
    let sl := selGet s rq R.spdSliceSel
    let old := rget s R.spdSliceCache sl
    (∀ (c : Instr) (x : Nat), (c = .spdSliceCacheWrite rq v ∧ x = v.toNat) ∨ (c = .cacheInv rq v ∧ x = v.toNat ||| 32) →
      (bits x 3 0 ≤ 8 ∧ rowsRight s rq (bankRow sl (16 - max (bits x 3 0) (bits old 3 0)))
          ((max (bits x 3 0) (bits old 3 0) -
            (if bits x 5 4 = bits old 4 4 then min (bits x 3 0) (bits old 3 0) else 0)) * 1024) = true →
        exec c s = .next (keepQueue s (settle (
          if bits x 3 0 ≠ tget 0 s.spd.cacheBanks sl ∨ bit x 5 = true then
            { rput R.spdSliceCache sl (bits x 4 0) s with
              spd := { s.spd with cachePend := s.spd.cachePend.filter (· != sl) ++ [sl] } }
          else rput R.spdSliceCache sl (bits x 4 0) s)))) ∧
      (8 < bits x 3 0 → exec c s = .next (keepQueue s (settle (countDenied rq s)))))) ∧
  (∀ (s : State) (rq : Nat) (v : Word), alive s = true → seesRegs s rq = true → prompt s = true →
    let k := selGet s rq R.spdWheelSel
    let old := rget s R.spdWheelCfg k
    let rows := bits (rget s R.spdWheelSize k) 14 0
    let base := bits v.toNat 29 16
    (wheelRight s rq k (bits old 29 16) rows = false →
      exec (.spdWheelCfgWrite rq v) s = .next (countDenied rq s)) ∧
    (wheelRight s rq k (bits old 29 16) rows = true → bit old 0 = false → wheelRight s rq k base rows = true →
      (bit v.toNat 0 = false → exec (.spdWheelCfgWrite rq v) s = .next (rput R.spdWheelCfg k (base * 2 ^ 16) s)) ∧
      (bit v.toNat 0 = true → wheelSizes base rows (bits (rget s R.spdWheelSize k) 30 16) = true →
        exec (.spdWheelCfgWrite rq v) s = .next (
          putWheel k wheelZero (rput R.spdWheelCfg k (base * 2 ^ 16 + 1) s)))) ∧
    (wheelRight s rq k (bits old 29 16) rows = true → bit old 0 = true → base = bits old 29 16 →
      (bit v.toNat 0 = true → exec (.spdWheelCfgWrite rq v) s = .next (putWheel k wheelZero s)) ∧
      (bit v.toNat 0 = false → wheelBusy s k = true → exec (.spdWheelCfgWrite rq v) s = .next (countDenied rq s)) ∧
      (bit v.toNat 0 = false → wheelBusy s k = false →
        exec (.spdWheelCfgWrite rq v) s = .next (rput R.spdWheelCfg k (base * 2 ^ 16) s))))) ∧
  (
  (∀ (s : State) (rq : Nat) (v : Word), alive s = true → seesRegs s rq = true → prompt s = true →
    let p := selGet s rq R.kpePartSel
    let c := rget s R.kpePartCtrl p
    exec (.partitionClear rq v) s = .next (
      if streamGranted s rq (bits c 8 3) = true ∧ partBusy s p = false ∧
          (bits v.toNat 8 3 = bits c 8 3 ∨ bit c 0 = false ∧ streamGranted s rq (bits v.toNat 8 3) = true) ∧
          (bit v.toNat 0 = true → partClash s p = false) then
        partClear p (rput R.kpePartCtrl p (mergeRw c 0x1F9 (v.toNat ||| 2)) s)
      else countDenied rq s)) ∧
  (∀ (p : Nat) (s : State), (partClear p s).tracks = tdrop s.tracks (fun k =>
      decide ((partRange s p).1 ≤ k) && decide (k < (partRange s p).1 + (partRange s p).2)) ∧
    (partClear p s).mem = s.mem ∧ (partClear p s).seq = s.seq) ∧
  (∀ (s : State) (rq : Nat) (v : Word), alive s = true → seesRegs s rq = true → prompt s = true →
    let m := selGet s rq R.mrqSel
    let old := rget s R.mrqCfg m
    (mrqGranted s rq m = false → exec (.mrqCfgWrite rq v) s = .next (keepQueue s (settle (countDenied rq s)))) ∧
    (mrqGranted s rq m = true → bit old 0 = false →
      exec (.mrqCfgWrite rq v) s = .next (keepQueue s (settle (rput R.mrqCfg m (v.toNat &&& 0xFF0003) s)))) ∧
    (mrqGranted s rq m = true → bit old 0 = true → v.toNat &&& 0xFF0002 ≠ old &&& 0xFF0002 →
      exec (.mrqCfgWrite rq v) s = .next (keepQueue s (settle (countDenied rq s)))) ∧
    (mrqGranted s rq m = true → bit old 0 = true → v.toNat &&& 0xFF0002 = old &&& 0xFF0002 → bit v.toNat 0 = true →
      exec (.mrqCfgWrite rq v) s = .next (keepQueue s (settle s))) ∧
    (mrqGranted s rq m = true → bit old 0 = true → v.toNat &&& 0xFF0002 = old &&& 0xFF0002 → bit v.toNat 0 = false →
      exec (.mrqCfgWrite rq v) s = .next (keepQueue s (settle (
        if mrqInUse s m then countDenied rq s
        else acceptPush m (rput R.mrqCfg m (old &&& 0xFF0002) (mrqPut m [] s))))))) ∧
  (∀ (s : State) (rq : Nat) (v : Word), alive s = true → seesRegs s rq = true → prompt s = true →
    let c := selGet s rq R.strCtxSel
    exec (.strCtxOwnerWrite rq v) s = .next (
      if (privileged s rq = true ∨ ownsTmpl s rq (bits v.toNat 15 8) = true) ∧ engBusy s (engCtx c) = false then
        rput R.strCtxOwner c (v.toNat &&& 0xFF01) { s with ring := tdrop s.ring (fun k => k / 64 == c) }
      else countDenied rq s)))

/-- COMMIT of the isolation table: a table that fails a check leaves its error code, tenant and word; a sound one becomes
PENDING, and the epoch that follows puts the shadow table in force, counts the epoch up and stamps it. Only the
requesters that may write the table may commit it, and none while a commit is PENDING. COMMIT of a credential block: its
result is kept; a sound block burns a fuse, is in force and is stored. The service package's window: a write programs
bytes erased since the last ERASE, once; ERASE and COMMIT start only while neither is under way; an erase leaves the
slot empty; a commit leaves its verdict and, with a good one, makes the slot the next boot's. Where the specification
leaves it open, this is the model's choice: log entries 16, 17, 19, 58, 59, 137, 138, 192. (16_security_isolation,
19_boot_update.) -/
def Obligations.SecurityRegisters : Prop :=
  (
  (∀ (s s1 : State) (rq : Nat) (v : Word), alive s = true → seesRegs s rq = true → prompt s = true →
    privileged s rq = true →
    s1 = (if rq = 32 then { s with sec := { s.sec with hostOwner := bit v.toNat 2 } }
      else if bit v.toNat 2 = s.sec.hostOwner then s else countDenied rq s) →
    (s.sec.pending = false → isoCheck s1 = none → exec (.isoCommit rq v) s = .next { s1 with
      sec := { s1.sec with pending := true, errCode := 0, errTenant := 0, errWord := 0 } }) ∧
    (s.sec.pending = false → ∀ c t k, isoCheck s1 = some (c, t, k) → exec (.isoCommit rq v) s = .next { s1 with
      sec := { s1.sec with errCode := c, errTenant := t, errWord := k } }) ∧
    (s.sec.pending = true → exec (.isoCommit rq v) s = .next (countDenied rq s1))) ∧
  (∀ (s : State) (rq : Nat) (v : Word), alive s = true → seesRegs s rq = true → prompt s = true →
    privileged s rq = false → exec (.isoCommit rq v) s = .next (countDenied rq s)) ∧
  (∀ s : State, alive s = true → s.sec.pending = false → exec .isolationEpoch s = .next s) ∧
  (∀ s : State, alive s = true → s.sec.pending = true →
    exec .isolationEpoch s = .next (keepQueue s (
      applyRights ((List.range 33).filter (isoEn s)) { s with sec := { s.sec with
        pending := false, epoch := w32 (s.sec.epoch + 1), epochTime := s.now, table := s.sec.shadow } })))) ∧
  (
  ∀ (s : State) (rq : Nat) (v : Word), alive s = true → seesRegs s rq = true → prompt s = true →
    exec (.credCommit rq v) s = .next (keepQueue s (
      if privileged s rq then
        let b := (List.range credBytes).map (fun i => tget (0 : Byte) s.sec.staging i)
        let s1 := { s with sec := { s.sec with credResult := credCheck s b } }
        if credCheck s b ≠ 0 then s1
        else
          let s2 := dropKeyless b s1
          { s2 with
            sec := { s2.sec with cred := some b, locked := false }
            nv := { s2.nv with
              credFuses := s2.nv.credFuses + 1
              creds := (s2.nv.creds.filter (fun c => leAt c 4 4 % 2 != leAt b 4 4 % 2)) ++ [b] } }
      else countDenied rq s))) ∧
  (
  (∀ (s : State) (rq off : Nat) (v : Word), alive s = true → seesRegs s rq = true → prompt s = true →
    off < 0x10000 → off % 4 = 0 →
    exec (.pkgWindowWrite rq off v) s = .next (
      if privileged s rq then pkgProgram rq (rget s R.bootPkgAddr 0 + off) v.toNat s else countDenied rq s)) ∧
  (∀ (s : State) (rq a v : Nat), s.boot.pkgBusy = 0 → s.nv.pkgErased.contains (pkgTarget s) = true → a < 0x10000000 →
    tget false s.boot.pkgDirty (pkgTarget s * 0x10000000 + a) = false →
    let put (t : Tab Byte) := (leBytes 4 v).zipIdx.foldl (fun t e => tset (0xFF : Byte) t (a + e.2) e.1) t
    pkgProgram rq a v s = { s with
      boot := { s.boot with pkgDirty := tset false s.boot.pkgDirty (pkgTarget s * 0x10000000 + a) true }
      nv := if pkgTarget s = 0 then { s.nv with pkg0 := put s.nv.pkg0 } else { s.nv with pkg1 := put s.nv.pkg1 } }) ∧
  (∀ (s : State) (rq a v : Nat), s.boot.pkgBusy ≠ 0 ∨ s.nv.pkgErased.contains (pkgTarget s) = false ∨
    0x10000000 ≤ a ∨ tget false s.boot.pkgDirty (pkgTarget s * 0x10000000 + a) = true →
    pkgProgram rq a v s = countDenied rq s) ∧
  (∀ (s : State) (rq : Nat) (v : Word), alive s = true → seesRegs s rq = true → prompt s = true →
    privileged s rq = true → s.boot.pkgBusy = 0 →
    exec (.pkgErase rq v) s = .next { s with boot := { s.boot with pkgBusy := 1 } } ∧
    exec (.pkgCommit rq v) s = .next { s with boot := { s.boot with pkgBusy := 2 } }) ∧
  (∀ (s : State) (rq : Nat) (v : Word), alive s = true → seesRegs s rq = true → prompt s = true →
    privileged s rq = false ∨ s.boot.pkgBusy ≠ 0 →
    exec (.pkgErase rq v) s = .next (countDenied rq s) ∧ exec (.pkgCommit rq v) s = .next (countDenied rq s)) ∧
  (∀ s : State, alive s = true → s.boot.pkgBusy = 1 →
    exec .pkgEraseDone s = .next (
      let slot := pkgTarget s
      let n := { s.nv with pkgErased := slot :: s.nv.pkgErased.filter (· != slot) }
      { s with
        boot := { s.boot with pkgBusy := 0, pkgDirty := tdrop s.boot.pkgDirty (fun k => k / 0x10000000 == slot) }
        nv := if slot = 0 then { n with pkg0 := [] } else { n with pkg1 := [] } })) ∧
  (∀ s : State, alive s = true → s.boot.pkgBusy = 2 →
    exec .pkgCommitDone s = .next (
      let r := pkgCheck s (pkgTarget s)
      if r = 0 then { s with
        boot := { s.boot with pkgBusy := 0, pkgResult := 0 }, nv := { s.nv with pkgNext := pkgTarget s } }
      else { s with boot := { s.boot with pkgBusy := 0, pkgResult := r } })) ∧
  (∀ s : State, alive s = true → s.boot.pkgBusy ≠ 1 → exec .pkgEraseDone s = .next s) ∧
  (∀ s : State, alive s = true → s.boot.pkgBusy ≠ 2 → exec .pkgCommitDone s = .next s))

/-- A packet written in one piece to the window of a lane with a ring and a credit, whose opcode exists, joins the lane's
queue with exactly its words, costs one credit and leaves the window empty. A write of whole dwords inside a lane's
packet window, in SLEEP after waking the device, stores them one by one; the dword that completes the packet commits it
and the rest of the write is discarded and counted; any other write there is counted alone. A commit empties the window;
without a ring it is counted, without a credit it is the lane's pending violation, first tag and count, and else it
costs one credit and queues the packet, which is taken at once if nothing is before it. Where the specification leaves
it open, this is the model's choice: log entries 31, 136. (15_command_protocol.) -/
def Obligations.WholePacketJoinsItsLane : Prop :=
  (
  ∀ (s : State) (fn lane : Nat) (w : Word) (t : List Word), alive s = true → fn < 32 → lane < 16 →
    reaches s fn = true → s.pwr.st ≠ .sleep → (w :: t).length = packetWords w.toNat →
    laneEn (laneSt s (16 * fn + lane)) = true → 0 < (laneSt s (16 * fn + lane)).credits →
    opcodes.contains (bits w.toNat 7 0) = true → tkeys 0 s.lanes = true →
    tkeys 0 (laneSt s (16 * fn + lane)).staging = true →
    ∃ u, exec (.packetWindowWrite fn lane 0 (w :: t)) s = .next u ∧
      laneSt u (16 * fn + lane) = { laneSt s (16 * fn + lane) with
        staging := [], credits := (laneSt s (16 * fn + lane)).credits - 1,
        queue := (laneSt s (16 * fn + lane)).queue ++ [w :: t] } ∧
      (∀ n, n ≠ 16 * fn + lane → laneSt u n = laneSt s n) ∧
      u.mem = s.mem ∧ u.regs = s.regs ∧ u.out = s.out ∧ u.seq = s.seq ∧ u.log = s.log) ∧
  (
  (∀ (s : State) (fn lane off : Nat) (dws : List Word), alive s = true → fn < 32 → lane < 16 → off < 256 →
    (reaches s fn = false → exec (.packetWindowWrite fn lane off dws) s = .next s) ∧
    (reaches s fn = true → exec (.packetWindowWrite fn lane off dws) s = .next (keepQueue s (
      let s1 := if s.pwr.st = .sleep then { s with pwr := { s.pwr with st := .waking } } else s
      if off % 4 ≠ 0 ∨ dws = [] ∨ 256 < off + 4 * dws.length then cnt R.hostFnMmioShape fn 1 s1
      else laneWindow (16 * fn + lane) (off / 4) dws s1)))) ∧
  (∀ (n i : Nat) (w : Word) (t : List Word) (s : State), laneWindow n i [] s = s ∧
    laneWindow n i (w :: t) s = (
      let s1 := modLane n (fun l => { l with staging := tset (0 : Word) l.staging i w }) s
      let len := packetWords (tget (0 : Word) (laneSt s1 n).staging 0).toNat
      if i + 1 = len then laneCommit n len (if t = [] then s1 else cnt R.hostFnMmioShape (n / 16) 1 s1)
      else laneWindow n (i + 1) t s1)) ∧
  (∀ (n k : Nat) (s : State),
    let p := (List.range k).map (fun i => tget (0 : Word) (laneSt s n).staging i)
    let s1 := modLane n (fun l => { l with staging := [] }) s
    laneCommit n k s =
      if laneEn (laneSt s n) = false then modLane n (fun l => { l with noring := min 65535 (l.noring + 1) }) s1
      else if (laneSt s n).credits = 0 then modLane n (fun l => { l with viol := some (match l.viol with
        | some (t, c) => (t, sat32 (c + 1))
        | none => ((p.getD 1 0).toNat, 1)) }) s1
      else
        let s2 := modLane n (fun l => { l with credits := l.credits - 1, queue := l.queue ++ [p] }) s1
        if (waiterOf s2 n).isSome = true ∨ (laneSt s n).queue ≠ [] then s2 else pumpLane n s2))

/-- Lane registers: the consumer index returns as many credits as replies it passes, never more than there are, and a
violation that waits takes one of them for its reply; a lane's configuration is fixed while its ring is enabled, and a
vector the function lacks is never taken; any write of EN = 1 starts the ring's indices at 0; it is disabled only with
every credit free and no violation waiting. A moderation window that has run out announces the replies it gathered by
one message; unmasking a vector of a function that is there sends the message that waits for it, once; an event on a
masked vector, or of a masked function, waits in its pending bit; a function under reset or with MSI-X disabled sends
none. REG_READ and REG_WRITE of an open management session: the value of the register, all ones and a count where the
offset is not aligned, and the status of the write, which only the Owner may issue; a session that is not open gets no
answer. Where the specification leaves it open, this is the model's choice: log entries 14, 49, 50, 132, 135.
(14_host_network_ports, 15_command_protocol.) -/
def Obligations.LanesMessagesManagement : Prop :=
  (
  (∀ (s : State) (fn lane : Nat) (v : Word), alive s = true → fn < 32 → lane < 16 → reaches s fn = true →
    prompt s = true →
    let n := 16 * fn + lane
    let l := laneSt s n
    let d := (v.toNat + 2 ^ 32 - l.cons) % 2 ^ 32
    ((l.replies + 2 ^ 32 - l.cons) % 2 ^ 32 < d →
      exec (.hostLaneConsWrite fn lane v) s = .next (countDenied (n / 16) s)) ∧
    (d ≤ (l.replies + 2 ^ 32 - l.cons) % 2 ^ 32 → l.viol = none →
      exec (.hostLaneConsWrite fn lane v) s = .next
        (modLane n (fun l => { l with cons := v.toNat % 2 ^ 32, credits := l.credits + d }) s)) ∧
    (d ≤ (l.replies + 2 ^ 32 - l.cons) % 2 ^ 32 → ∀ tag c, l.viol = some (tag, c) →
      exec (.hostLaneConsWrite fn lane v) s = .next (keepQueue s (
        let s1 := modLane n (fun l => { l with cons := v.toNat % 2 ^ 32, credits := l.credits + d }) s
        if 0 < l.credits + d then
          signalReply n (ringReply n (replyRecord 0x09 0 lane tag s.now c 0 0 0)
            (modLane n (fun l => { l with viol := none, credits := l.credits - 1 }) s1))
        else s1)))) ∧
  (∀ (s : State) (fn lane : Nat) (v : Word), alive s = true → fn < 32 → lane < 16 → reaches s fn = true →
    prompt s = true → laneEn (laneSt s (16 * fn + lane)) = true → bit v.toNat 0 = true →
    exec (.hostLaneCfgWrite fn lane v) s = .next (keepQueue s (laneRestart (16 * fn + lane) (
      if v.toNat &&& 0x07FF001E = (laneSt s (16 * fn + lane)).cfg.toNat &&& 0x07FF001E then s
      else countDenied fn s)))) ∧
  (∀ (s : State) (n : Nat), laneRestart n s =
    hostPut (n / 16) (ringBase (laneSt s n) + 32 * ringSlots (laneSt s n)) (leBytes 4 0)
      (modLane n (fun l => { l with replies := 0, cons := 0 }) s)) ∧
  (∀ (s : State) (fn lane : Nat) (v : Word), alive s = true → fn < 32 → lane < 16 → reaches s fn = true →
    prompt s = true → laneEn (laneSt s (16 * fn + lane)) = false →
    let n := 16 * fn + lane
    let ok := bits v.toNat 26 16 < msixCount fn
    let vec := if ok then bits v.toNat 26 16 else bits (laneSt s n).cfg.toNat 26 16
    let s2 := modLane n (fun l => { l with cfg := BitVec.ofNat 32 ((v.toNat &&& 0x1F) + vec * 65536) })
      (if ok then s else countDenied fn s)
    (bit v.toNat 0 = false → exec (.hostLaneCfgWrite fn lane v) s = .next s2) ∧
    (bit v.toNat 0 = true → exec (.hostLaneCfgWrite fn lane v) s = .next (keepQueue s (
      laneRestart n (modLane n (fun l => { l with staging := [], unannounced := 0, modStart := none }) s2))))) ∧
  (∀ (s : State) (fn lane : Nat) (v : Word), alive s = true → fn < 32 → lane < 16 → reaches s fn = true →
    prompt s = true → laneEn (laneSt s (16 * fn + lane)) = true → bit v.toNat 0 = false →
    exec (.hostLaneCfgWrite fn lane v) s = .next (
      let same := v.toNat &&& 0x07FF001E = (laneSt s (16 * fn + lane)).cfg.toNat &&& 0x07FF001E
      if (laneSt s (16 * fn + lane)).credits = 32 ∧ (laneSt s (16 * fn + lane)).viol = none then
        modLane (16 * fn + lane) (fun l => { l with
          cfg := BitVec.ofNat 32 ((laneSt s (16 * fn + lane)).cfg.toNat - 1) }) (if same then s else countDenied fn s)
      else countDenied fn s))) ∧
  (
  (∀ (s : State) (fn lane : Nat), alive s = true → fn < 32 → lane < 16 →
    exec (.modWindowEnd fn lane) s = .next (keepQueue s (
      match (laneSt s (16 * fn + lane)).modStart with
      | some t =>
        if t + bits (laneSt s (16 * fn + lane)).moder.toNat 31 16 * 1000 ≤ s.now ∧
            0 < (laneSt s (16 * fn + lane)).unannounced then
          msixEvent fn (bits (laneSt s (16 * fn + lane)).cfg.toNat 26 16)
            (modLane (16 * fn + lane) (fun l => { l with unannounced := 0, modStart := none }) s)
        else s
      | none => s))) ∧
  (∀ (s : State) (fn vec : Nat), alive s = true → fn < 32 → vec < msixCount fn → reaches s fn = true →
    exec (.msixUnmask fn vec) s = .next (keepQueue s (
      let s1 := { s with
        msix := tset (0 : Word) s.msix (fn * 4096 + vec * 4 + 3)
          (tget (0 : Word) s.msix (fn * 4096 + vec * 4 + 3) ||| 1) }
      if s.msixPend.contains (fn * 4096 + vec) then
        msixEvent fn vec { s1 with msixPend := s.msixPend.filter (· != fn * 4096 + vec) }
      else s1))) ∧
  (∀ (s : State) (fn vec : Nat), alive s = true → fn < 32 → vec < 1024 → msixCount fn ≤ vec ∨ reaches s fn = false →
    exec (.msixUnmask fn vec) s = .next s) ∧
  (∀ (fn vec : Nat) (s : State), (fnSt s fn).resetting = true ∨ (fnSt s fn).msixEn = false →
    msixEvent fn vec s = s) ∧
  (∀ (fn vec : Nat) (s : State), (fnSt s fn).resetting = false → (fnSt s fn).msixEn = true → vec < msixCount fn →
    (fnSt s fn).msixMask = true ∨ bit (msixW s fn vec 3) 0 = false →
    (msixEvent fn vec s).msixPend.contains (fn * 4096 + vec) = true ∧ (msixEvent fn vec s).host0 = s.host0 ∧
    (msixEvent fn vec s).host1 = s.host1) ∧
  (∀ (fn vec : Nat) (s : State), (fnSt s fn).resetting = false → (fnSt s fn).msixEn = true → vec < msixCount fn →
    (fnSt s fn).msixMask = false → bit (msixW s fn vec 3) 0 = true → msixEvent fn vec s =
      hostPut fn (msixW s fn vec 0 + 2 ^ 32 * msixW s fn vec 1) (leBytes 4 (msixW s fn vec 2)) s)) ∧
  (
  (∀ (s : State) (sess off : Nat) (m : MSess), alive s = true → sess < 8 → msessAt s sess = some m → m.stage = 3 →
    exec (.regRead sess off) s = .next (keepQueue s (
      if off % 4 = 0 then emit (.mgmt sess (leBytes 4 (busRead 32 off (wakeDevice s)).1)) (busRead 32 off (wakeDevice s)).2
      else emit (.mgmt sess (leBytes 4 0xFFFFFFFF)) (cnt R.hostFnMmioShape 32 1 (wakeDevice s))))) ∧
  (∀ (s : State) (sess off : Nat) (v : Word) (m : MSess), alive s = true → sess < 8 → msessAt s sess = some m →
    m.stage = 3 → m.owner = true →
    exec (.regWrite sess off v) s = .next (keepQueue s (
      let r := mgmtWrite off v.toNat (wakeDevice s)
      emit (.mgmt sess [BitVec.ofNat 8 r.1]) r.2))) ∧
  (∀ (s : State) (sess off : Nat) (v : Word) (m : MSess), alive s = true → sess < 8 → msessAt s sess = some m →
    m.stage = 3 → m.owner = false →
    exec (.regWrite sess off v) s = .next (emit (.mgmt sess [0x04]) (cnt R.mgtCmdDenied 0 1 (wakeDevice s)))) ∧
  (∀ (s : State) (sess off : Nat) (v : Word), alive s = true → sess < 8 →
    (∀ m, msessAt s sess = some m → m.stage ≠ 3) →
    exec (.regRead sess off) s = .next s ∧ exec (.regWrite sess off v) s = .next s))

/-- The header checks come first, in their order: a packet that fails one is answered with its status and DETAIL, and
nothing else of it happens; a role that may not issue the opcode is counted for a management message. A source whose
packet waits, or that has none, applies nothing, and a packet of another opcode is left to its own command; a message of
an open management session that is not applied at once waits behind the session's earlier ones, and one of a reserved
opcode is refused. Where the specification leaves it open, this is the model's choice: log entries 30, 32, 33, 35.
(15_command_protocol.) -/
def Obligations.HeaderChecksComeFirst : Prop :=
  (∀ (s : State) (src : Src) (op : Nat) (c : Instr), alive s = true → src.wf = true → (op, c) ∈
     [(0x01, Instr.hello src), (0x02, .capsRead src), (0x03, .echo src), (0x10, .regionMap src), (0x11,
      .regionUnmap src), (0x12, .windowOpen src), (0x13, .windowClose src), (0x20, .graphLoad src), (0x21,
      .graphArm src), (0x22, .graphDisarm src), (0x23, .graphUnload src), (0x24, .jobSubmit src), (0x25,
      .jobCancel src), (0x30, .streamRearm src), (0x31, .queuePush src), (0x32, .queuePop src), (0x40,
      .sensorProfile src), (0x41, .sensorSettings src), (0x42, .streamStart src), (0x43, .streamStop src), (0x44,
      .txConfig src), (0x50, .sessionOpen src), (0x51, .sessionClose src), (0x52, .jobKey src), (0x60, .statsRead
      src), (0x61, .logRead src), (0x70, .fwBlock src), (0x72, .fwConfirm src), (0x73, .fwStatus src)] ∨
     (op = 0x71 ∧ c = .fwCommit src ∧ s.boot.phase ≠ 4) →
    (nextPkt s src = none → exec c s = .next (keepQueue s (arrives src s))) ∧
    (∀ p, nextPkt s src = some p →
      (∀ st det, pOpcode p = op → headCheck (servedState s p) p = some (st, det) →
        exec c s = .next (turnedAway s p st det (countRole p (st, det) (servedState s p)))) ∧
      (pOpcode p ≠ op → opcodes.contains (pOpcode p) = true → exec c s = .next (keepQueue s (arrives src s))) ∧
      (p.src < 512 → pOpcode p ≠ op → exec c s = .next s) ∧
      (512 ≤ p.src → opcodes.contains (pOpcode p) = false →
        exec c s = .next (turnedAway s p 0x01 0 (servedState s p))))) ∧
  (∀ (s : State) (src : Src), (∀ n q, src = .mgmt n q → (msessAt s n).all (fun m => m.stage != 3) = true ∨ q = []) →
    arrives src s = s) ∧
  (∀ (s : State) (n : Nat) (q : List Word) (m : MSess), msessAt s n = some m → m.stage = 3 → q ≠ [] →
    arrives (.mgmt n q) s = putMsess n (some { m with packets := m.packets ++ [q] }) (wakeDevice s)) ∧
  (∀ (s : State) (src : Src), (waiterOf s (srcNum src)).isSome = true → nextPkt s src = none) ∧
  (∀ (s : State) (p : Pkt), headCheck s p = none →
    opcodes.contains (pOpcode p) = true ∧ 1 ≤ pLength p ∧ pLength p ≤ 16 ∧ wd p.w 3 = 0 ∧
    (pOpcode p ≠ 0x01 → negotiated s p = some (pVersion p)) ∧ bits (wd p.w 2) 5 0 = p.fn ∧ roleMay s p = true ∧
    4 + needWords p ≤ 4 * pLength p) ∧
  (∀ (s : State) (p : Pkt) (e : Err),
    countRole p e s = if p.isMgmt = true ∧ e = (0x04, 0) then cnt R.mgtCmdDenied 0 1 s else s)

/-- HELLO negotiates the version its range covers, the negotiated one or CCP 1.0, and ECHO returns its three words.
CAPS_READ puts the first bytes of the capability block at a DEST that the source's tenant may write. Where the
specification leaves it open, this is the model's choice: log entries 35, 36, 37. (15_command_protocol.) -/
def Obligations.HelloEchoAndCapabilities : Prop :=
  (
  (∀ (s : State) (src : Src) (p : Pkt), serves s src 0x01 p → reservedIn p [0xFFFF] = none →
    exec (.hello src) s = .next (
      let t := servedState s p
      let v := (negotiated t p).getD 0x10
      if bits (wd p.w 4) 7 0 ≤ v ∧ v ≤ bits (wd p.w 4) 15 8 then applied s p v p.fn 0 (setNegotiated p v t)
      else turnedAway s p 0x07 4 t)) ∧
  (∀ (s : State) (src : Src) (p : Pkt), serves s src 0x03 p → reservedIn p [fullW, fullW, fullW] = none →
    exec (.echo src) s = .next (applied s p (wd p.w 4) (wd p.w 5) (wd p.w 6) (servedState s p))) ∧
  (∀ (s : State) (p : Pkt) (v : Nat), p.src < 512 → tkeys 0 s.fns = true →
    (fnSt (setNegotiated p v s) p.fn).negotiated = some v ∧
    (∀ f, f ≠ p.fn → fnSt (setNegotiated p v s) f = fnSt s f) ∧ (setNegotiated p v s).mem = s.mem)) ∧
  (
  ∀ (s : State) (src : Src) (p : Pkt), serves s src 0x02 p → reservedIn p [fullW, 0xFFFF, fullW] = none →
    addr48 p.w 4 ≠ 0 → 0 < wd p.w 6 → wd p.w 6 ≤ 8720 →
    rangePopulated (servedState s p) p.tn (addr48 p.w 4) 0 = true →
    rangePopulated (servedState s p) p.tn (addr48 p.w 4) (wd p.w 6) = true →
    rangeGranted (servedState s p) p.tn (addr48 p.w 4) (wd p.w 6) = true →
    exec (.capsRead src) s = .next (
      let t := servedState s p
      let r := outPut p (addr48 p.w 4) (capBytes t (wd p.w 6)) t
      if r.1 < wd p.w 6 then turnedAway s p 0x02 4 r.2 else applied s p (wd p.w 6) 0 0 r.2))

/-- REGION_MAP gives a function's page-aligned range of PCIe addresses the lowest free region, at a device address that
belongs to it alone; a range that meets a region of the function is refused with that region, and a 65th with the table
full. REGION_UNMAP takes a region back at once, and is answered when no read of a stream pass through it remains in
flight. The service-mode tenant may do neither. WINDOW_OPEN opens a window whose entry passes the checks: OPEN at the
apply point, nothing in flight; an entry that fails one is refused with that check's status. WINDOW_CLOSE holds its
source until the window is CLOSED, at once where nothing is in flight, and is then answered; a write accepted at the
close point is dropped; it refuses a window that is not OPEN, and a number the tenant may not use. Where the
specification leaves it open, this is the model's choice: log entries 28, 29, 35. (12_data_movement,
14_host_network_ports, 15_command_protocol.) -/
def Obligations.RegionsAndWindows : Prop :=
  (
  (∀ (s : State) (src : Src) (p : Pkt) (a n : Nat), serves s src 0x10 p → reservedIn p [fullW, fullW, 0xFFFFFF] = none →
    a = u64 p.w 4 → n = (bits (wd p.w 6) 23 0 + 1) * 4096 →
    (a % 4096 ≠ 0 ∨ 2 ^ 64 < a + n → exec (.regionMap src) s = .next (turnedAway s p 0x02 4 (servedState s p))) ∧
    (a % 4096 = 0 → a + n ≤ 2 ^ 64 →
      (p.tn = 32 → exec (.regionMap src) s = .next (turnedAway s p 0x04 2 (servedState s p))) ∧
      (p.tn ≠ 32 → ∀ k, regionMeets (servedState s p) p.fn a n = some k →
        exec (.regionMap src) s = .next (turnedAway s p 0x05 k (servedState s p))) ∧
      (p.tn ≠ 32 → regionMeets (servedState s p) p.fn a n = none →
        (∀ k, freeRegion (servedState s p) p.fn = some k →
          exec (.regionMap src) s = .next (applied s p k (regionDev p.fn k % 2 ^ 32) (regionDev p.fn k / 2 ^ 32)
            (putRegion p.fn k (some { pcie := a, size4k := bits (wd p.w 6) 23 0, dev := regionDev p.fn k })
              (servedState s p)))) ∧
        (freeRegion (servedState s p) p.fn = none →
          exec (.regionMap src) s = .next (turnedAway s p 0x10 0 (servedState s p)))))) ∧
  (∀ (s : State) (src : Src) (p : Pkt) (k : Nat), serves s src 0x11 p → reservedIn p [0x3F] = none →
    k = bits (wd p.w 4) 5 0 →
    (p.tn = 32 → exec (.regionUnmap src) s = .next (turnedAway s p 0x04 2 (servedState s p))) ∧
    (p.tn ≠ 32 → tget none (fnSt (servedState s p) p.fn).regions k = none →
      exec (.regionUnmap src) s = .next (turnedAway s p 0x06 4 (servedState s p))) ∧
    (p.tn ≠ 32 → ∀ r, tget none (fnSt (servedState s p) p.fn).regions k = some r →
      (waitMet (unmapRegion p.fn k r (servedState s p)) (.regionFree p.fn k) = true →
        exec (.regionUnmap src) s = .next (applied s p 0 0 0 (unmapRegion p.fn k r (servedState s p)))) ∧
      (waitMet (unmapRegion p.fn k r (servedState s p)) (.regionFree p.fn k) = false →
        exec (.regionUnmap src) s = .next (keepQueue s (settle (setWait p.src
          { what := .regionFree p.fn k, head := wd p.w 0, tag := wd p.w 1, applied := s.now, r0 := 0 }
          (unmapRegion p.fn k r (servedState s p))))))) ) ∧
  (∀ (s : State) (fn k : Nat) (r : Region), tkeys 0 s.fns = true → tkeys 0 (fnSt s fn).regions = true →
    tget none (fnSt (unmapRegion fn k r s) fn).regions k = none ∧
    (∀ j, j ≠ k → tget none (fnSt (unmapRegion fn k r s) fn).regions j = tget none (fnSt s fn).regions j) ∧
    (∀ f, f ≠ fn → fnSt (unmapRegion fn k r s) f = fnSt s f)) ∧
  (∀ (s : State) (fn k : Nat) (r : Region), (∀ x ∈ s.seq.runs, x.task.tenant ≠ fn) →
    waitMet (unmapRegion fn k r s) (.regionFree fn k) = true) ∧
  (∀ f g j k : Nat, f < 32 → g < 32 → j < 64 → k < 64 → regionDev f j + 2 ^ 36 ≤ regionDev g k ∨ (f = g ∧ j = k) ∨
    regionDev g k + 2 ^ 36 ≤ regionDev f j)) ∧
  (
  (∀ (s : State) (src : Src) (p : Pkt), serves s src 0x12 p →
    (∀ e, firstErr (winChecks (servedState s p) p (params p)) = some e →
      exec (.windowOpen src) s = .next (turnedAway s p e.1 e.2 (servedState s p))) ∧
    (firstErr (winChecks (servedState s p) p (params p)) = none →
      exec (.windowOpen src) s = .next (
        let t := servedState s p
        let w := params p
        applied s p 0 0 0 (modWin (64 * p.fn + bits (wd w 0) 5 0) (fun x => { x with
          st := .opened
          hbm := bit (wd w 0) 6
          readEn := bit (wd w 0) 7
          arrEn := bit (wd w 0) 8
          anyReq := bit (wd w 0) 9
          reqs := (winReqs w).take (bits (wd w 0) 11 10 + 1)
          aperture := wd w 1 + 2 ^ 32 * bits (wd w 2) 3 0
          size := (bits (wd w 3) 23 0 + 1) * 4096
          base := addr48 w 4
          counter := bits (wd w 6) 16 0
          flight := []
          openPoint := t.now
          ranged := true
          openSeq := winLastOpen t p.fn + 1
          late := []
          revoked := false }) t)))) ∧
  (∀ (s : State) (src : Src) (p : Pkt), serves s src 0x13 p → reservedIn p [0x3F] = none →
    p.tn = 32 ∨ winCount (servedState s p) p.tn ≤ bits (wd p.w 4) 5 0 →
    exec (.windowClose src) s = .next (turnedAway s p 0x04 4 (servedState s p))) ∧
  (∀ (s : State) (src : Src) (p : Pkt), serves s src 0x13 p → reservedIn p [0x3F] = none → p.tn ≠ 32 →
    bits (wd p.w 4) 5 0 < winCount (servedState s p) p.tn →
    ((winSt (servedState s p) (64 * p.fn + bits (wd p.w 4) 5 0)).st = .opened →
      exec (.windowClose src) s = .next (
        let t := servedState s p
        let k := 64 * p.fn + bits (wd p.w 4) 5 0
        keepQueue s (settle (winClose k false (setWait p.src
          { what := .windowClosed k, head := wd p.w 0, tag := wd p.w 1, applied := t.now, r0 := 0 } t))))) ∧
    ((winSt (servedState s p) (64 * p.fn + bits (wd p.w 4) 5 0)).st ≠ .opened →
      exec (.windowClose src) s = .next (turnedAway s p 0x06 4 (servedState s p)))) ∧
  (∀ (s : State) (k : Nat) (rev : Bool), tkeys 0 s.windows = true → (winSt s k).st = .opened →
    (winSt (winClose k rev s) k).st =
      (if (winSt s k).flight.filter (fun f => f.stamp != s.now) = [] then .closed else .draining) ∧
    (winSt (winClose k rev s) k).flight = (winSt s k).flight.filter (fun f => f.stamp != s.now) ∧
    (winSt (winClose k rev s) k).closePoint = s.now) ∧
  (∀ (s : State) (src : Nat) (w : Waiter) (k : Nat), s.waits = [(src, some w)] → w.what = .windowClosed k →
    settleWaits s = if (winSt s k).st = .closed then replyWait src w 0 0 w.r0 0 s else s))

/-- GRAPH_LOAD loads a sound image and answers with its template, node base and edge base; an unsound one is answered with
what is wrong with it. Either way the image was read: the scratchpad takes the read, and the host's answers were drawn.
GRAPH_ARM, GRAPH_DISARM and GRAPH_UNLOAD of a template of the source's tenant: arming starts its trigger unless a handle
queue it needs is not its own; disarming leaves its instances to run, or with ABORT waits for them to end; unloading
needs it disarmed and idle. Another tenant's template is denied, and a number without one is not found. Where the
specification leaves it open, this is the model's choice: log entries 34, 35, 153, 158, 159. (02_frame_graph,
15_command_protocol.) -/
def Obligations.GraphsAndTemplates : Prop :=
  (
  ∀ (s t : State) (src : Src) (p : Pkt), serves s src 0x20 p → reservedIn p [fullW, 0xFFFF, fullW] = none →
    t = servedState s p →
    (∀ k nb eb u, graphLoadImage t p.tn (addr48 p.w 4) (wd p.w 6) = .ok k nb eb u →
      exec (.graphLoad src) s = .next (applied s p k nb eb (readMark p.tn (addr48 p.w 4) (wd p.w 6) (draw (draw u))))) ∧
    (∀ st det, graphLoadImage t p.tn (addr48 p.w 4) (wd p.w 6) = .err st det →
      exec (.graphLoad src) s = .next (turnedAway s p st det
        (readMark p.tn (addr48 p.w 4) (imageReads t p.tn (addr48 p.w 4) (wd p.w 6)) (draw (draw t)))))) ∧
  (
  (∀ (s t : State) (src : Src) (p : Pkt) (v : Tmpl), t = servedState s p →
    tmplAt t (bits (wd p.w 4) 7 0) = some v → v.tenant = p.tn →
    (serves s src 0x21 p → reservedIn p [0xFF] = none →
      (t.boot.phase ≠ 3 → exec (.graphArm src) s = .next (turnedAway s p notReady 0 t)) ∧
      (t.boot.phase = 3 → v.armed = true → exec (.graphArm src) s = .next (applied s p 0 0 0 t)) ∧
      (t.boot.phase = 3 → v.armed = false → v.doomed = true →
        exec (.graphArm src) s = .next (turnedAway s p 0x12 (bits (wd p.w 4) 7 0) t)) ∧
      (t.boot.phase = 3 → v.armed = false → v.doomed = false →
        (∀ m, handleClash t v = some m → exec (.graphArm src) s = .next (turnedAway s p 0x02 m t)) ∧
        (handleClash t v = none →
          exec (.graphArm src) s = .next (applied s p 0 0 0 (armTmpl (bits (wd p.w 4) 7 0) v t))))) ∧
    (serves s src 0x22 p → reservedIn p [0x1FF] = none →
      (bit (wd p.w 4) 8 = true → exec (.graphDisarm src) s = .next (
        keepQueue s (settle (disarmAbort (bits (wd p.w 4) 7 0) (setWait p.src
          { what := .slotsFree (bits (wd p.w 4) 7 0), head := wd p.w 0, tag := wd p.w 1, applied := t.now
            r0 := (v.slots.filter (fun i => i.st == .running)).length } t))))) ∧
      (bit (wd p.w 4) 8 = false → exec (.graphDisarm src) s = .next (
        applied s p 0 0 0 (modTmpl (bits (wd p.w 4) 7 0) (fun v => { v with armed := false }) t)))) ∧
    (serves s src 0x23 p → reservedIn p [0xFF] = none →
      (v.armed = false → tmplBusy v = false →
        exec (.graphUnload src) s = .next (applied s p 0 0 0 (unloadTmpl (bits (wd p.w 4) 7 0) t))) ∧
      (v.armed = true ∨ tmplBusy v = true →
        exec (.graphUnload src) s = .next (turnedAway s p 0x12 (bits (wd p.w 4) 7 0) t)))) ∧
  (∀ (s : State) (src : Src) (p : Pkt) (op mask : Nat) (c : Instr),
    (op, mask, c) ∈ [(0x21, 0xFF, Instr.graphArm src), (0x22, 0x1FF, .graphDisarm src), (0x23, 0xFF, .graphUnload src)] →
    serves s src op p → reservedIn p [mask] = none →
    (tmplAt (servedState s p) (bits (wd p.w 4) 7 0) = none →
      exec c s = .next (turnedAway s p 0x06 4 (servedState s p))) ∧
    (∀ v, tmplAt (servedState s p) (bits (wd p.w 4) 7 0) = some v → v.tenant ≠ p.tn →
      exec c s = .next (turnedAway s p 0x04 4 (servedState s p)))) ∧
  notReady ∈ statusCodes)

/-- JOB_SUBMIT fires an armed template of HOST trigger and holds its source until the outcome is known; a JOB_ID needs the
job's key in the packet's session. JOB_CANCEL takes a pending job back or aborts a running instance, and waits for its
slot. STREAM_REARM writes consecutive entries of the base ring of a context that a template of the tenant owns;
QUEUE_PUSH appends a handle to a millrace and answers its new length, or waits for its turn while other pushes wait;
QUEUE_POP takes the oldest and answers it and what is left. First in, first out: a handle pushed to an empty queue is
the one a pop gives. Where the specification leaves it open, this is the model's choice: log entries 35, 38, 39, 42.
(02_frame_graph, 12_data_movement, 15_command_protocol.) -/
def Obligations.JobsRingsAndQueues : Prop :=
  (
  ∀ (s t : State) (src : Src) (p : Pkt) (v : Tmpl), t = servedState s p →
    tmplAt t (bits (wd p.w 4) 7 0) = some v → v.tenant = p.tn →
    (serves s src 0x24 p → reservedIn p [0xFF, fullW] = none →
      (v.trigKind ≠ 6 → exec (.jobSubmit src) s = .next (turnedAway s p 0x02 4 t)) ∧
      (∀ key : Option Nat, key = (if wd p.w 5 = 0 then none else jobSlot t p.tn (pSession p) (wd p.w 5)) → v.trigKind = 6 →
        (wd p.w 5 ≠ 0 → pSession p = 0 ∨ key = none → exec (.jobSubmit src) s = .next (turnedAway s p 0x06 5 t)) ∧
        (wd p.w 5 = 0 ∨ (pSession p ≠ 0 ∧ key.isSome = true) →
          (v.armed = true → exec (.jobSubmit src) s = .next (
            keepQueue s (settle (fireTrigger (bits (wd p.w 4) 7 0)
              { time := t.now, stream := 255, serial := 0, frameNo := 0, handle := none,
                job := some { src := p.src, fn := p.fn, tag := wd p.w 1, jobId := wd p.w 5, key := key } }
              (setWait p.src
                { what := .job (bits (wd p.w 4) 7 0), head := wd p.w 0, tag := wd p.w 1, applied := t.now, r0 := 0 } t))))) ∧
          (v.armed = false → exec (.jobSubmit src) s = .next (turnedAway s p 0x13 4 t))))) ∧
    (serves s src 0x25 p → reservedIn p [0x1FF, fullW] = none → bit (wd p.w 4) 8 = true →
      (∀ g, pendingJob v p.fn (wd p.w 5) = some g →
        exec (.jobCancel src) s = .next (applied s p 0 0 0 (dropJob (bits (wd p.w 4) 7 0) g.1 3
          (modTmpl (bits (wd p.w 4) 7 0) (fun v => { v with pending := v.pending.eraseIdx g.2 }) t)))) ∧
      (pendingJob v p.fn (wd p.w 5) = none → exec (.jobCancel src) s = .next (turnedAway s p 0x06 5 t))) ∧
    (serves s src 0x25 p → reservedIn p [0x1FF, fullW] = none → bit (wd p.w 4) 8 = false →
      (∀ k, runningSlot v (wd p.w 5) = some k →
        exec (.jobCancel src) s = .next (keepQueue s (settle (wantAbort (bits (wd p.w 4) 7 0) k 2 (setWait p.src
          { what := .slotFree (bits (wd p.w 4) 7 0) k (wd p.w 5), head := wd p.w 0, tag := wd p.w 1
            applied := t.now, r0 := 0 } t))))) ∧
      (runningSlot v (wd p.w 5) = none → exec (.jobCancel src) s = .next (turnedAway s p 0x06 5 t)))) ∧
  (
  (∀ (s : State) (src : Src) (p : Pkt), serves s src 0x30 p →
    reservedIn p (0x7FFFF :: (rearmEntries p).flatMap (fun _ => [fullW, 0x1FFFF])) = none →
    (rearmEntries p).length ≤ 28 → bits (wd p.w 4) 13 8 + (rearmEntries p).length ≤ 64 →
    exec (.streamRearm src) s = .next (
      let t := servedState s p
      if ownsCtx t p.tn (bits (wd p.w 4) 7 0) then
        applied s p 0 0 0 ((rearmEntries p).zipIdx.foldl (fun s (e : (Nat × Nat) × Nat) =>
          rearmEntry (bits (wd p.w 4) 7 0) (bits (wd p.w 4) 13 8 + e.2) e.1.1 e.1.2 s) t)
      else turnedAway s p 0x04 4 t)) ∧
  (∀ (s : State) (src : Src) (p : Pkt), serves s src 0x31 p → reservedIn p [0x3FF, fullW] = none →
    exec (.queuePush src) s = .next (
      let t := servedState s p
      let m := bits (wd p.w 4) 9 0
      if mrqGranted t p.tn m = true ∧ mrqEn t m = true ∧ pushContended t m = true then
        keepQueue s (settle (setWait p.src
          { what := .pushTurn m (wd p.w 5) p.tn, head := wd p.w 0, tag := wd p.w 1, applied := t.now, r0 := 0 } t))
      else match pushCheck t p.tn m with
        | some e => turnedAway s p e.1 e.2
            (pushRejected p.tn m (if e.1 = 0x18 then pushGrant m (engU 0x00 0) t else t))
        | none => applied s p (mrqQ t m ++ [wd p.w 5]).length 0 0
            (mrqPut m (mrqQ t m ++ [wd p.w 5]) (pushGrant m (engU 0x00 0) t)))) ∧
  (∀ (s : State) (src : Src) (p : Pkt), serves s src 0x32 p → reservedIn p [0x3FF] = none →
    exec (.queuePop src) s = .next (
      let t := servedState s p
      let m := bits (wd p.w 4) 9 0
      match popCheck t p.tn m with
      | some e => turnedAway s p e.1 e.2 t
      | none => applied s p ((mrqQ t m).headD 0) (mrqQ t m).tail.length 0 (mrqPut m (mrqQ t m).tail t))) ∧
  (∀ (s : State) (m : Nat) (q : List Nat), tkeys 0 s.mrq = true → mrqQ (mrqPut m q s) m = q ∧
    (∀ k, k ≠ m → mrqQ (mrqPut m q s) k = mrqQ s k)))

/-- FW_BLOCK stages bytes of an image outside a trial; FW_COMMIT verifies what is staged, leaves a firmware image PENDING
and copies a configuration image to its area; in recovery a firmware image is the active one and boots; FW_CONFIRM ends
a trial within its 600 s; FW_STATUS reads the update state. Where the specification leaves it open, this is the model's
choice: log entries 51, 52, 53, 56. (15_command_protocol, 19_boot_update.) -/
def Obligations.FirmwareIsStagedCommittedConfirmed : Prop :=
  (∀ (s t : State) (src : Src) (p : Pkt), serves s src 0x70 p → reservedIn p [fullW, fullW, fullW, 0xFFFF] = none →
    wd p.w 4 % 4096 = 0 → wd p.w 4 < 0x2000000 → 0 < wd p.w 5 → wd p.w 5 ≤ 4096 → t = servedState s p →
    rangePopulated t p.tn (addr48 p.w 6) (wd p.w 5) = true → rangeGranted t p.tn (addr48 p.w 6) (wd p.w 5) = true →
    (t.nv.updState = 3 → exec (.fwBlock src) s = .next (turnedAway s p 0x30 0 t)) ∧
    (t.nv.updState ≠ 3 → ∀ u, u = inDone p (addr48 p.w 6) (wd p.w 5) t →
      (∀ l, inGet t p (addr48 p.w 6) (wd p.w 5) = some l →
        exec (.fwBlock src) s = .next (applied s p (stagedBytes (storeBlock (wd p.w 4) l u)) 0 0 (storeBlock (wd p.w 4) l u))) ∧
      (inGet t p (addr48 p.w 6) (wd p.w 5) = none →
        exec (.fwBlock src) s = .next (turnedAway s p 0x02 6 u)))) ∧
  (∀ (s t : State) (src : Src) (p : Pkt) (b : List Byte), serves s src 0x71 p → reservedIn p [fullW] = none →
    0 < wd p.w 4 → wd p.w 4 ≤ 33554432 → s.boot.phase ≠ 4 → t = servedState s p →
    (t.nv.updState = 1 ∨ t.nv.updState = 5) → allStaged t (wd p.w 4) = true → b = stagingBytes t (wd p.w 4) →
    (imageCheck t b (wd p.w 4) ≠ 0 → exec (.fwCommit src) s = .next (turnedAway s p (imageCheck t b (wd p.w 4)) 4 t)) ∧
    (imageCheck t b (wd p.w 4) = 0 → bits (leAt b 0 4) 7 0 ≠ 2 →
      exec (.fwCommit src) s = .next (applied s p (leAt b 4 4) 0 0 (saveRecord 0 { t with nv := { t.nv with
        staged := some { svn := leAt b 4 4, cfgFmt := bits (leAt b 16 4) 15 0, bytes := b }, updState := 2 } }))) ∧
    (imageCheck t b (wd p.w 4) = 0 → bits (leAt b 0 4) 7 0 = 2 →
      (cfgPairKept t = true → exec (.fwCommit src) s = .next (turnedAway s p 0x05 0 t)) ∧
      (cfgPairKept t = false →
        exec (.fwCommit src) s = .next (applied s p (leAt b 4 4) 0 0 (commitCfg b t))))) ∧
  (∀ (s t : State) (src : Src) (p : Pkt) (b : List Byte), serves s src 0x71 p → reservedIn p [fullW] = none →
    0 < wd p.w 4 → wd p.w 4 ≤ 33554432 → s.boot.phase = 4 → t = servedState s p →
    (t.nv.updState = 1 ∨ t.nv.updState = 5) → allStaged t (wd p.w 4) = true → b = stagingBytes t (wd p.w 4) →
    imageCheck t b (wd p.w 4) = 0 → bits (leAt b 0 4) 7 0 ≠ 2 →
    exec (.fwCommit src) s = .next (keepQueue s (
      let u := settle (answerPkt p 0 0 (leAt b 4 4) 0 0 [] (recoverImage b t))
      if u.nv.updState = 3 then reboot u else u))) ∧
  (∀ (s : State) (src : Src) (p : Pkt), serves s src 0x71 p → reservedIn p [fullW] = none →
    0 < wd p.w 4 → wd p.w 4 ≤ 33554432 → s.boot.phase ≠ 4 →
    (s.nv.updState ≠ 1 ∧ s.nv.updState ≠ 5) ∨ allStaged (servedState s p) (wd p.w 4) = false →
    exec (.fwCommit src) s = .next (turnedAway s p 0x30 0 (servedState s p))) ∧
  (∀ (s t : State) (src : Src) (p : Pkt), serves s src 0x72 p → reservedIn p [] = none → t = servedState s p →
    (t.nv.updState = 3 → runSecs t < 600 → exec (.fwConfirm src) s = .next (applied s p 0 0 0 (confirmImage t))) ∧
    (t.nv.updState ≠ 3 ∨ 600 ≤ runSecs t → exec (.fwConfirm src) s = .next (turnedAway s p 0x30 0 t))) ∧
  (∀ (s : State) (src : Src) (p : Pkt), serves s src 0x73 p → reservedIn p [] = none →
    exec (.fwStatus src) s = .next (applied s p s.boot.runningSvn
      (s.nv.updState + 256 * bootsLeftNow (servedState s p)) (secondsLeft (servedState s p)) (servedState s p)))

/-- SENSOR_PROFILE stores a profile whose fields are in range and which no other tenant's stream uses; SENSOR_SETTINGS takes
a set that passes its checks. STREAM_START puts a descriptor that passes its checks into its slot, started; the slot's
frame numbers go on. STREAM_STOP of a started stream holds its source until the stop takes effect; it is denied another
tenant's slot, and one without a started stream is refused. TX_CONFIG turns a port that no stream uses into a
transmitter, of publications or of a stream that its tenant holds and whose rate it carries, or back, and its
configuration register shows it; a reserved mode, a rate out of range or too slow, a stream of another and a port in use
are refused, in this order. Where the specification leaves it open, this is the model's choice: log entries 35, 42, 43,
44, 45, 46, 87, 93, 163. (03_camera_ports, 15_command_protocol.) -/
def Obligations.CameraCommands : Prop :=
  (
  (∀ (s : State) (src : Src) (p : Pkt), serves s src 0x40 p →
    reservedIn p [0x3F, 0x1FFFFF, fullW, fullW, 0x7FFF7FFF, 0x7FFF, 0, 0, 0] = none →
    exec (.sensorProfile src) s = .next (
      let t := servedState s p
      let slot := bits (wd p.w 4) 5 0
      let w := (List.range 8).map (fun i => wd p.w (5 + i))
      match firstErr (profileChecks w) with
      | some e => turnedAway s p e.1 e.2 t
      | none => match profileUser t p.tn slot with
        | some st => turnedAway s p 0x05 st t
        | none => applied s p 0 0 0 { t with cam := { t.cam with
            profiles := tset none t.cam.profiles slot (some (p.tn, w)) } })) ∧
  (∀ (s : State) (src : Src) (p : Pkt), serves s src 0x41 p →
    exec (.sensorSettings src) s = .next (
      let t := servedState s p
      match settingsCheck t p.tn (params p) with
      | some e => turnedAway s p e.1 e.2 t
      | none => applied s p 0 0 0 (settingsApply (params p) t)))) ∧
  (
  (∀ (s : State) (src : Src) (p : Pkt), serves s src 0x42 p →
    exec (.streamStart src) s = .next (
      let t := servedState s p
      let v := { streamZero with desc := (List.range 16).map (fun i => wd p.w (4 + i)) }
      match firstErr (startChecks t p v) with
      | some e => turnedAway s p e.1 e.2 t
      | none => applied s p 0 0 0 { t with cam := { t.cam with
          streams := tset none t.cam.streams (bits (wd v.desc 0) 21 16) (some (startSlot t p v)) } })) ∧
  (∀ (s : State) (p : Pkt) (v o : Stream), streamAt s (bits (wd v.desc 0) 21 16) = some o →
    (startSlot s p v).started = true ∧ (startSlot s p v).opened = false ∧ (startSlot s p v).tenant = p.tn ∧
    (startSlot s p v).serial = o.serial ∧ (startSlot s p v).index = o.index ∧ (startSlot s p v).stops = o.stops) ∧
  (∀ (s : State) (src : Src) (p : Pkt), serves s src 0x43 p → reservedIn p [0x3F] = none →
    (streamGranted (servedState s p) p.tn (bits (wd p.w 4) 5 0) = false →
      exec (.streamStop src) s = .next (turnedAway s p 0x04 4 (servedState s p))) ∧
    (streamGranted (servedState s p) p.tn (bits (wd p.w 4) 5 0) = true →
      streamAt (servedState s p) (bits (wd p.w 4) 5 0) = none →
      exec (.streamStop src) s = .next (turnedAway s p 0x06 4 (servedState s p)))) ∧
  (∀ (s : State) (src : Src) (p : Pkt) (v : Stream), serves s src 0x43 p → reservedIn p [0x3F] = none →
    streamGranted (servedState s p) p.tn (bits (wd p.w 4) 5 0) = true →
    streamAt (servedState s p) (bits (wd p.w 4) 5 0) = some v →
    exec (.streamStop src) s = .next (
      let t := servedState s p
      if v.started then keepQueue s (settle (endStream (bits (wd p.w 4) 5 0) (setWait p.src
        { what := .streamStopped (bits (wd p.w 4) 5 0), head := wd p.w 0, tag := wd p.w 1, applied := t.now
          r0 := v.index } t)))
      else turnedAway s p 0x06 4 t))) ∧
  (
  ∀ (s : State) (src : Src) (p : Pkt), serves s src 0x44 p → reservedIn p [0x3FFF, 0xFFFF] = none →
    exec (.txConfig src) s = .next (
      let t := servedState s p
      let k := bits (wd p.w 4) 0 0
      let mode := bits (wd p.w 4) 2 1
      let rate := bits (wd p.w 5) 15 0
      if mode = 3 then turnedAway s p 0x01 4 t
      else if rate < 80 ∨ 4500 < rate then turnedAway s p 0x02 5 t
      else if mode = 2 ∧ forwardSlow t (bits (wd p.w 4) 9 4) rate = true then turnedAway s p 0x02 5 t
      else if mode = 2 ∧ streamGranted t p.tn (bits (wd p.w 4) 9 4) = false then turnedAway s p 0x04 4 t
      else if portInUse t (14 + k) then turnedAway s p 0x05 (14 + k) t
      else applied s p 0 0 0 (rput R.camPortCfg (14 + k)
        (bits (rget t R.camPortCfg (14 + k)) 2 0 + 8 * b2n (mode != 0) + 16 * bits (wd p.w 4) 3 3 + 65536 * rate)
        { t with cam := { t.cam with
          tx := tset txReset t.cam.tx k
            { mode := mode, contClk := bit (wd p.w 4) 3, source := bits (wd p.w 4) 9 4
              vc := bits (wd p.w 4) 13 10, rate := rate } } })))

/-- SESSION_OPEN, first step: with places for it in the function and the device and a free key slot, an attempt under the
next unused handle is entered and its response written, where it fits; the second step, within 1 s, opens it where its
message verifies, and otherwise ends it. SESSION_CLOSE cancels the jobs of a function's session and destroys it and its
keys, which another's or no session's handle does not; JOB_KEY gives the slot of a session's job, a new one whose key is
derived from the session's secret, the function and the job, or the one it has. Where the specification leaves it open,
this is the model's choice: log entries 21, 26, 27, 28, 190. (15_command_protocol, 16_security_isolation.) -/
def Obligations.SessionsOpenCloseAndGiveJobKeys : Prop :=
  (∀ (s t u : State) (src : Src) (p : Pkt) (l msg : List Byte), serves s src 0x50 p →
    reservedIn p [fullW, 0xFFFF, fullW, fullW, 0xFFFF, fullW] = none → p.tn ≠ 32 → 16 ≤ wd p.w 6 → t = servedState s p →
    rangePopulated t p.tn (addr48 p.w 4) (wd p.w 6) = true → rangeGranted t p.tn (addr48 p.w 4) (wd p.w 6) = true →
    rangePopulated t p.tn (addr48 p.w 7) (wd p.w 9) = true → rangeGranted t p.tn (addr48 p.w 7) (wd p.w 9) = true →
    inGet t p (addr48 p.w 4) (wd p.w 6) = some l → leAt l 4 4 = 0 → leAt l 8 4 = 0 → leAt l 12 4 = 0 →
    u = inDone p (addr48 p.w 4) (wd p.w 6) t → msg = l.drop 16 →
    (leAt l 0 4 = 1 → exchangeOk msg = false → exec (.sessionOpen src) s = .next (turnedAway s p 0x02 0x80000004 u)) ∧
    (leAt l 0 4 = 1 → exchangeOk msg = true → 4 ≤ (sessionsOf u p.fn).length ∨ 64 ≤ u.sec.sessions.length →
      exec (.sessionOpen src) s = .next (turnedAway s p 0x05 0 u)) ∧
    (leAt l 0 4 = 1 → exchangeOk msg = true → (sessionsOf u p.fn).length < 4 → u.sec.sessions.length < 64 →
      (allocSlot u p.tn = none → exec (.sessionOpen src) s = .next (turnedAway s p 0x29 0 u)) ∧
      (∀ k, allocSlot u p.tn = some k → exec (.sessionOpen src) s = .next (
        let h := nextHandle u
        let rsp := exchangeRsp u h false [] msg
        let st := putSlot k (some { kind := 1, tenant := p.tn, sess := h, jobId := 0, nonce := 0, key := (sessionKeys u).2 })
          (modSec (fun x => { x with
            sessions := tset none x.sessions h
              (some { fn := p.fn, open_ := false, since := u.now, slot := k, said := exchangeSaid u [] msg rsp })
            nextSess := h % 65535 + 1 }) (draw u))
        let r := outPut p (addr48 p.w 7) (spdmMsg 0x64 rsp) st
        if wd p.w 9 < (spdmMsg 0x64 rsp).length then turnedAway s p 0x02 9 (draw u)
        else if r.1 < (spdmMsg 0x64 rsp).length then turnedAway s p 0x02 7 (writtenIn r.2 (draw u))
        else applied s p h (spdmMsg 0x64 rsp).length 0 r.2))) ∧
    (∀ h, leAt l 0 4 = 2 + 0x10000 * h → h < 0x10000 → (∀ x, sessAt u h = some x → x.fn ≠ p.fn ∨ x.open_ = true) →
      exec (.sessionOpen src) s = .next (turnedAway s p 0x06 0x80000000 u)) ∧
    (∀ h x, leAt l 0 4 = 2 + 0x10000 * h → h < 0x10000 → sessAt u h = some x → x.fn = p.fn → x.open_ = false →
      (x.since + 1000000000 ≤ u.now → exec (.sessionOpen src) s = .next (turnedAway s p 0x06 0x80000000 (destroySession h u))) ∧
      (u.now < x.since + 1000000000 → exec (.sessionOpen src) s = .next (
        let shared := kemSecret (slotKey u x.slot) msg
        if finishOk shared x.said [] msg = false then
          turnedAway s p 0x28 0 (cnt R.secAuthFail 0 1 (destroySession h u))
        else match giveMemKey p.tn u with
          | none => turnedAway s p 0x29 0 (destroySession h u)
          | some v =>
            let st := putSlot x.slot
              ((slotAt v x.slot).map (fun k => { k with key := sessionSecret shared x.said [] msg }))
              (modSec (fun c => { c with
                sessions := tset none c.sessions h (some { x with open_ := true, said := x.said ++ msg }) }) v)
            let rsp := spdmMsg 0x65 (finishRsp shared x.said [] msg)
            let r := outPut p (addr48 p.w 7) rsp st
            if wd p.w 9 < rsp.length then turnedAway s p 0x02 9 (destroySession h u)
            else if r.1 < rsp.length then turnedAway s p 0x02 7 (writtenIn r.2 (destroySession h u))
            else applied s p h rsp.length 0 r.2)))) ∧
  (∀ (s t : State) (src : Src) (p : Pkt) (x : Sess), serves s src 0x51 p → reservedIn p [0xFFFF] = none →
    t = servedState s p → sessAt t (bits (wd p.w 4) 15 0) = some x →
    (x.fn = p.fn → exec (.sessionClose src) s = .next (applied s p 0 0 0 (destroySession (bits (wd p.w 4) 15 0)
      (doAborts (64 + (cancelSession (bits (wd p.w 4) 15 0) t).seq.toAbort.length)
        (cancelSession (bits (wd p.w 4) 15 0) t))))) ∧
    (x.fn ≠ p.fn → exec (.sessionClose src) s = .next (turnedAway s p 0x06 4 t))) ∧
  (∀ (s : State) (src : Src) (p : Pkt), sessAt (servedState s p) (bits (wd p.w 4) 15 0) = none →
    (serves s src 0x51 p → reservedIn p [0xFFFF] = none →
      exec (.sessionClose src) s = .next (turnedAway s p 0x06 4 (servedState s p))) ∧
    (serves s src 0x52 p → reservedIn p [0xFFFF, fullW] = none → wd p.w 5 ≠ 0 →
      exec (.jobKey src) s = .next (turnedAway s p 0x06 4 (servedState s p)))) ∧
  (∀ (s : State) (src : Src) (p : Pkt), serves s src 0x52 p → reservedIn p [0xFFFF, fullW] = none → wd p.w 5 = 0 →
    exec (.jobKey src) s = .next (turnedAway s p 0x02 5 (servedState s p))) ∧
  (∀ (s t : State) (src : Src) (p : Pkt) (x : Sess), serves s src 0x52 p → reservedIn p [0xFFFF, fullW] = none →
    wd p.w 5 ≠ 0 → t = servedState s p → sessAt t (bits (wd p.w 4) 15 0) = some x →
    (x.fn ≠ p.fn ∨ x.open_ = false → exec (.jobKey src) s = .next (turnedAway s p 0x06 4 t)) ∧
    (x.fn = p.fn → x.open_ = true →
      (∀ k, jobSlot t p.tn (bits (wd p.w 4) 15 0) (wd p.w 5) = some k → exec (.jobKey src) s = .next (applied s p k 0 0 t)) ∧
      (jobSlot t p.tn (bits (wd p.w 4) 15 0) (wd p.w 5) = none →
        (allocSlot t p.tn = none → exec (.jobKey src) s = .next (turnedAway s p 0x29 0 t)) ∧
        (∀ k, allocSlot t p.tn = some k → exec (.jobKey src) s = .next (applied s p k 0 0 (putSlot k (some
          { kind := 2, tenant := p.tn, sess := bits (wd p.w 4) 15 0, jobId := wd p.w 5, nonce := 0
            key := hkdfExpand (slotKey t x.slot) (ascii "APK-JOB" ++ [BitVec.ofNat 8 p.fn] ++ leBytes 4 (wd p.w 5))
              32 }) t))))))

/-- STATS_READ writes the values of a group's registers of one object to DEST, or returns them where a management message
gives none, and clears what a read clears only where it is asked to, of the registers it has written; LOG_READ writes
the entries the source may see from a sequence number on, oldest first, as many as it asks for, and answers how many,
which comes next, and how many before the first were lost; a management message without DEST gets up to 128 of them in
its reply. The log keeps its 4,096 newest entries, each with its sequence number and time; numbers count up modulo 2^32.
Where the specification leaves it open, this is the model's choice: log entries 35, 47, 48. (15_command_protocol,
17_functional_safety.) -/
def Obligations.StatisticsAndLog : Prop :=
  (
  (∀ (s t : State) (src : Src) (p : Pkt) (g i : Nat) (l : List (RegDef × Nat)) (clear : Nat → State → State),
    serves s src 0x60 p → reservedIn p [0x1F, fullW, fullW, 0xFFFF] = none → t = servedState s p →
    g = bits (wd p.w 4) 3 0 → i = wd p.w 5 → statErr t g i = none → l = groupRegs t g i →
    clear = (fun k x => if bit (wd p.w 4) 4 = true then
      setGroupSel p.fn g (selGet t p.fn (groupSel.getD g 0)) (clearList p.fn (l.take k) (setGroupSel p.fn g i x)) else x) →
    (addr48 p.w 6 ≠ 0 → rangePopulated t p.tn (addr48 p.w 6) (4 * l.length) = true →
      rangeGranted t p.tn (addr48 p.w 6) (4 * l.length) = true →
      exec (.statsRead src) s = .next (
        let r := outPut p (addr48 p.w 6) (wordsBytes (readList p.fn l (setGroupSel p.fn g i t))) t
        if r.1 < 4 * l.length then turnedAway s p 0x02 6 (clear (r.1 / 4) r.2)
        else applied s p l.length 0 0 (clear l.length r.2))) ∧
    (addr48 p.w 6 = 0 → p.isMgmt = true → exec (.statsRead src) s = .next (keepQueue s (settle
      (answerPkt p 0 0 l.length 0 0 (wordsBytes (readList p.fn l (setGroupSel p.fn g i t))) (clear l.length t)))))) ∧
  (∀ (s t : State) (src : Src) (p : Pkt) (l es : List LogEntry), serves s src 0x61 p →
    reservedIn p [fullW, fullW, 0xFFFF, fullW] = none → t = servedState s p →
    0 < wd p.w 7 → wd p.w 7 ≤ 4096 →
    l = t.log.filter (fun e => !serLt e.seq (wd p.w 4) && logSees t p e.tenant) →
    es = l.take (if addr48 p.w 5 = 0 then min (wd p.w 7) 128 else wd p.w 7) →
    ∀ next : Nat, next = (if es.length < l.length then (match es.getLast? with | some e => w32 (e.seq + 1) | none => wd p.w 4)
      else if serLt t.logNext (wd p.w 4) = true then wd p.w 4 else t.logNext) →
    (addr48 p.w 5 ≠ 0 →
      rangePopulated t p.tn (addr48 p.w 5) 0 = true → rangePopulated t p.tn (addr48 p.w 5) (32 * wd p.w 7) = true →
      rangeGranted t p.tn (addr48 p.w 5) (32 * wd p.w 7) = true →
      exec (.logRead src) s = .next (
        let r := outPut p (addr48 p.w 5) (wordsBytes (es.flatMap logWords)) t
        if r.1 < (wordsBytes (es.flatMap logWords)).length then turnedAway s p 0x02 5 r.2
        else applied s p es.length next (logLost t p (wd p.w 4)) r.2)) ∧
    (addr48 p.w 5 = 0 → p.isMgmt = true → exec (.logRead src) s = .next (keepQueue s (settle
      (answerPkt p 0 0 es.length next (logLost t p (wd p.w 4)) (wordsBytes (es.flatMap logWords)) t))))) ∧
  (∀ (s : State) (p : Pkt) (t : Nat), p.isMgmt = false → s.sec.hostOwner = false →
    logSees s p t = decide (t = p.tn)) ∧
  (∀ (s : State) (p : Pkt) (t : Nat), p.isMgmt = true ∨ (p.fn = 0 ∧ s.sec.hostOwner = true) → logSees s p t = true)) ∧
  (
  ∀ (code tenant engine d0 d1 d2 : Nat) (s : State), s.log.length ≤ 4096 →
    (addLog code tenant engine d0 d1 d2 s).log.length ≤ 4096 ∧
    (addLog code tenant engine d0 d1 d2 s).log.getLast? = some
      { code := code, tenant := tenant, seq := s.logNext, time := s.now, engine := engine,
        d0 := w32 d0, d1 := w32 d1, d2 := w32 d2, retry := 0 } ∧
    (addLog code tenant engine d0 d1 d2 s).logNext = (s.logNext + 1) % 2 ^ 32 ∧
    (∀ e ∈ s.log.tail, e ∈ (addLog code tenant engine d0 d1 d2 s).log) ∧
    (s.log.length < 4096 → ∀ e ∈ s.log, e ∈ (addLog code tenant engine d0 d1 d2 s).log))

/-- Device memory: a byte reads back as written, every other byte as before, and the canonical form is kept; a write of
several bytes puts each in its place. Where the specification leaves it open, this is the model's choice: log entry 9.
(11_scratchpad, 12_data_movement.) -/
def Obligations.MemoryReadsBackItsWrites : Prop :=
  ∀ (m : List Host.Cell) (a : Nat) (l : List Byte), Memory.wf m = true →
    Memory.wf (mputs m a l) = true ∧
    (∀ i, ∀ h : i < l.length, mget (mputs m a l) (a + i) = l[i]) ∧
    (∀ x, x < a ∨ a + l.length ≤ x → mget (mputs m a l) x = mget m x)

/-- A write to HBM stores its bytes, under the memory key in an encrypted range, ends the check patterns of the lines it
writes whole, and changes nothing else; one to the scratchpad stores nothing in a row whose bank has no power, or that
is retired; another row written whole is no longer poisoned, and holds no stored error. A posted write toward a port
whose link is up reaches the memory behind that port; device memory stays. Poison marks: clearing a range of rows leaves
none in it and every mark outside it; setting one marks its rows. A retired row, and a row of a bank without power,
reads as poisoned whatever mark it carries. Where the specification leaves it open, this is the model's choice: log
entry 12. (11_scratchpad, 12_data_movement, 14_host_network_ports.) -/
def Obligations.DeviceWritesAndPoison : Prop :=
  (
  (∀ (s : State) (a : Nat) (l : List Byte), a + l.length ≤ hbmBytes → l ≠ [] →
    devPut a l s = { s with
      mem := hbmPuts s a l
      spd := { s.spd with
        hbmBad := s.spd.hbmBad.filter (fun n => !(decide (a ≤ n * 512) && decide (n * 512 + 512 ≤ a + l.length))) } }) ∧
  (∀ (s : State) (a : Nat) (l : List Byte), encKey s a l.length = none → hbmPuts s a l = mputs s.mem a l) ∧
  (∀ (s : State) (u : Nat) (l k : List Byte), l.length = 64 → encKey s (64 * u) 64 = some k →
    hbmPuts s (64 * u) l = mputs s.mem (64 * u) (xtsSeal k u l) ∧
    hbmGets s (64 * u) 64 = xtsOpen k u (mgets s.mem (64 * u) 64)) ∧
  (∀ (s : State) (r : Nat) (l : List Byte), r < 0x100000 → l.length = 512 →
    bankDead s r = true ∨ rowPoison s r = 3 → (devPut (rowAddr r) l s).mem = s.mem) ∧
  (∀ (s : State) (r : Nat) (l : List Byte), r < 0x100000 → l.length = 512 → bankDead s r = false → rowPoison s r ≠ 3 →
    (devPut (rowAddr r) l s).mem = mputs s.mem (rowAddr r) l ∧
    (devPut (rowAddr r) l s).regs = s.regs ∧ rowPoison (devPut (rowAddr r) l s) r = 0 ∧
    hiddenUe (devPut (rowAddr r) l s) r = false ∧ r ∉ (devPut (rowAddr r) l s).spd.writeback)) ∧
  (
  ∀ (s : State) (fn a : Nat) (l : List Byte), fn < 32 →
    ((portSt s (portOf fn)).up = true →
      hostPut fn a l s = (if fn < 16 then { s with host0 := mputs s.host0 a l }
        else { s with host1 := mputs s.host1 a l })) ∧
    (hostPut fn a l s).mem = s.mem) ∧
  (
  (∀ (s : State) (lo hi : Nat),
    (∀ e ∈ (clearPoison lo hi s).spd.poison, e.2.1 ≤ lo ∨ hi ≤ e.1) ∧
    (∀ e ∈ s.spd.poison, ∀ r, e.1 ≤ r → r < e.2.1 → r < lo ∨ hi ≤ r →
      ∃ x ∈ (clearPoison lo hi s).spd.poison, x.1 ≤ r ∧ r < x.2.1 ∧ x.2.2 = e.2.2)) ∧
  (∀ (s : State) (lo hi why r : Nat), lo ≤ r → r < hi →
    rowPoison (setPoison lo hi why s) r =
      if r ∈ s.nv.rowRetired then 3 else if bankDead s r = true then 2 else why) ∧
  (∀ (s : State) (lo hi why r : Nat), r < lo ∨ hi ≤ r → (∀ e ∈ s.spd.poison, e.2.1 ≤ r ∨ r < e.1) →
    rowPoison (setPoison lo hi why s) r = rowPoison s r) ∧
  (∀ (s : State) (lo hi why : Nat), (setPoison lo hi why s).mem = s.mem ∧ (clearPoison lo hi s).mem = s.mem ∧
    (setPoison lo hi why s).regs = s.regs ∧ (clearPoison lo hi s).regs = s.regs))

/-- A bank whose power-down is under way loses its power, and with it every error stored in its rows; one whose power-up is
under way is up (its rows have read as poisoned since its bit was set); otherwise the events mean nothing. A scrub
visits the next row of its bank group once a period, spares in use after the group's own rows, banks without power left
out: a single error, found now or struck before, is corrected, counted and queued for write-back, and the same word
again queues the row for repair; an error that cannot be corrected poisons the row and queues it, and in a row that
serves as cache ends the line. Repair of a slice: the oldest corrected row is written back, which ends its stored error;
at slice idle the first queued row starts its copy to a spare, one at a time; when the copy is done, which finds the
error it reads, the row leaves the queue and a spare of its group stands for it. Memory keeps its contents where the row
is no cache. The rest of a wheel's frame that was never written is poisoned place by place, reason 4, as the wheel has
room; of several frames the one that ended first. Where the specification leaves it open, this is the model's choice:
log entries 3, 168, 169, 172, 174, 176. (11_scratchpad, 18_power_service_life.) -/
def Obligations.ScratchpadUpkeep : Prop :=
  (
  ∀ (s : State) (slice bank : Nat), alive s = true → slice < 64 → bank < 16 →
    exec (.bankPowerDownDone slice bank) s = .next (
      if s.spd.goingDown.contains (16 * slice + bank) then { s with spd := { s.spd with
        goingDown := s.spd.goingDown.filter (· != 16 * slice + bank)
        off := s.spd.off ++ [16 * slice + bank]
        upsets := s.spd.upsets.filter (fun e => e.1 / 1024 != 16 * slice + bank)
        writeback := s.spd.writeback.filter (fun r => r / 1024 != 16 * slice + bank) } } else s) ∧
    exec (.bankPowerUpDone slice bank) s = .next (
      if s.spd.goingUp.contains (16 * slice + bank) then { s with spd := { s.spd with
        goingUp := s.spd.goingUp.filter (· != 16 * slice + bank) } }
      else s)) ∧
  (
  (∀ (s : State) (slice grp : Nat) (e : RowError), alive s = true → slice < 64 → grp < 4 →
    s.now < tget 0 s.spd.scrubTime (4 * slice + grp) + scrubPeriod s →
    exec (.scrubRow slice grp e) s = .next (keepQueue s (settle s))) ∧
  (∀ (s : State) (slice grp p : Nat) (e : RowError), alive s = true → slice < 64 → grp < 4 →
    tget 0 s.spd.scrubTime (4 * slice + grp) + scrubPeriod s ≤ s.now →
    scrubNext s (4 * slice + grp) (tget 0 s.spd.scrubAt (4 * slice + grp)) (scrubRows s (4 * slice + grp)) = some p →
    exec (.scrubRow slice grp e) s = .next (keepQueue s (settle (
      let g := 4 * slice + grp
      let n := scrubRows s g
      let s1 := touchRows (16384 * slice) 1 { s with spd := { s.spd with
        scrubTime := tset 0 s.spd.scrubTime g s.now
        scrubAt := tset 0 s.spd.scrubAt g ((p + 1) % n)
        scrubPasses := tset 0 s.spd.scrubPasses g (sat32 (tget 0 s.spd.scrubPasses g + (p + 1) / n)) } }
      match scrubRowAt s g (p % n) with
      | none => s1
      | some row => match (if e = .none then tget RowError.none s.spd.upsets row else e) with
        | .none => { s1 with spd := { s1.spd with ceWord := tset 0 s.spd.ceWord row 0 } }
        | .single w =>
          let s2 := cnt R.spdSliceCe (row / 16384) 1 { s1 with spd := { s1.spd with
            ceWord := tset 0 s.spd.ceWord row (w % 128 + 1)
            writeback := if s.spd.writeback.contains row then s.spd.writeback else s.spd.writeback ++ [row] } }
          if tget 0 s.spd.ceWord row = w % 128 + 1 then queueRow row 5 s2 else s2
        | .double =>
          let s2 := { s1 with spd := { s1.spd with ceWord := tset 0 s.spd.ceWord row 0 } }
          if inCache s2 row = true then cacheRowBad row s2 else rowUe row s2)))) ∧
  (∀ (s : State) (slice grp : Nat) (e : RowError), alive s = true → slice < 64 → grp < 4 →
    tget 0 s.spd.scrubTime (4 * slice + grp) + scrubPeriod s ≤ s.now →
    scrubNext s (4 * slice + grp) (tget 0 s.spd.scrubAt (4 * slice + grp)) (scrubRows s (4 * slice + grp)) = none →
    exec (.scrubRow slice grp e) s = .next (keepQueue s (settle { s with spd := { s.spd with
      scrubTime := tset 0 s.spd.scrubTime (4 * slice + grp) s.now } }))) ∧
  (∀ s : State, 1000 ≤ scrubPeriod s ∧ scrubPeriod s ≤ 20000000000)) ∧
  (
  ∀ (s : State) (slice : Nat), alive s = true → slice < 64 →
    exec (.eccWriteback slice) s = .next (match s.spd.writeback.find? (fun r => r / 16384 == slice) with
      | some r => { s with spd := { s.spd with
          upsets := s.spd.upsets.filter (fun e => e.1 != r)
          writeback := s.spd.writeback.filter (· != r)
          lastUse := tset 0 s.spd.lastUse slice s.now } }
      | none => s) ∧
    exec (.sliceIdleRepair slice) s = .next (
      if tget 0 s.spd.lastUse slice + 100000 ≤ s.now ∧ tget none s.spd.copying slice = none then
        match s.nv.rowQueue.find? (fun r => r.1 / 16384 == slice) with
        | some r => { s with spd := { s.spd with copying := tset none s.spd.copying slice (some r.1) } }
        | none => s
      else s) ∧
    exec (.repairCopyDone slice) s = .next (keepQueue s (settle (match tget none s.spd.copying slice with
      | some r =>
        let u := touchRows r 1 (if hiddenUe s r = true then (if inCache s r = true then cacheRowBad r s else rowUe r s)
          else findCe r 1 s)
        { u with
          spd := { u.spd with copying := tset none u.spd.copying slice none }
          nv := { u.nv with
            rowQueue := u.nv.rowQueue.filter (fun e => e.1 != r)
            rowSubs := tset none u.nv.rowSubs (128 * groupOf r + tget 0 u.nv.rowSpares (groupOf r)) (some r)
            rowSpares := tset 0 u.nv.rowSpares (groupOf r) (tget 0 u.nv.rowSpares (groupOf r) + 1) } }
      | none => s))) ∧
    (∀ r, (rowUe r s).mem = s.mem ∧ (findCe r 1 s).mem = s.mem)) ∧
  (
  (∀ (s : State) (core wheel : Nat), alive s = true → core < 64 → wheel < 64 →
    (wheelSt s (wheelKey core wheel)).fill = [] → exec (.wheelPoisonFill core wheel) s = .next s) ∧
  (∀ (s : State) (core wheel v e : Nat) (rest : List (Nat × Nat)), alive s = true → core < 64 → wheel < 64 →
    (wheelSt s (wheelKey core wheel)).fill = (v, e) :: rest → v < e →
    (wheelSt s (wheelKey core wheel)).written.contains v = false →
    isGap (places s (wheelKey core wheel)) (wheelSt s (wheelKey core wheel)) v = false →
    (wheelSt s (wheelKey core wheel)).tail ≤ v →
    exec (.wheelPoisonFill core wheel) s = .next (
      let k := wheelKey core wheel
      let w := wheelSt s k
      if wheelRoom (places s k) w v then
        let r := wheelBase s k + (v % max 1 (places s k)) * placeRows s k
        putWheel k { markWritten (places s k) v w with fill := if e ≤ v + 1 then rest else (v + 1, e) :: rest }
          (setPoison r (r + placeRows s k) 4 (touchRows r (placeRows s k) s))
      else s)))

/-- A posted write at an aperture: no window there counts as unclaimed; a window that is not OPEN takes nothing; a requester
that is not permitted is logged and counted; a scratchpad window takes whole rows only; otherwise the write is in
flight. Nothing lands yet. A read at an aperture: Unsupported Request where no window is, Completer Abort from a window
that is not OPEN or for a requester it does not permit, Unsupported Request for an atomic, and the bytes of an HBM
window with reads enabled, but in an encrypted range without its key, where the read faults. The oldest write in flight
lands, later than it was accepted: its bytes go to the target, an arrival is counted where the window counts them and
the row took the write, and a draining window with nothing left in flight closes. In an encrypted range without its key
it faults. Where the specification leaves it open, this is the model's choice: log entry 18. (12_data_movement.) -/
def Obligations.WindowAccesses : Prop :=
  (
  ∀ (s : State) (fn req off : Nat) (data : List Byte), alive s = true → fn < 32 → fn < nFns s →
    exec (.windowWrite fn req off data) s = .next (keepQueue s (
      match winFor s fn off data.length with
      | none => cnt R.winFnUnclaimed fn 1 s
      | some k =>
        if (winSt s k).st ≠ .opened then winLateWrite k req s
        else if winPermits (winSt s k) req = false then
          addLog 0x0014 (k / 64) (engU 0x07 (portOf (k / 64))) req k 0 (cnt R.winDenied k 1 s)
        else if (winSt s k).hbm = false ∧ (data.length ≠ 512 ∨ off % 512 ≠ 0) then cnt R.winDropShape k 1 s
        else modWin k (fun w => { w with
            flight := w.flight ++ [{ req := req, stamp := s.now, dev := w.base + (off - w.aperture), data := data }] })
          (cnt R.winAccepted k 1 s))) ∧
    (∀ k, winFor s fn off data.length = some k →
      winHolds (winSt s k) off data.length = true ∧ 64 * fn ≤ k ∧ k < 64 * fn + 64)) ∧
  (
  ∀ (s : State) (fn req off len : Nat) (atomic : Bool), alive s = true → fn < 32 → fn < nFns s →
    exec (.windowRead fn req off len atomic) s = .next (keepQueue s (
      match winFor s fn off len with
      | none => emit (.completion fn 1 []) s
      | some k =>
        if (winSt s k).st ≠ .opened then emit (.completion fn 4 []) s
        else if winPermits (winSt s k) req = false then emit (.completion fn 4 []) (winDeny k req s)
        else if atomic then emit (.completion fn 1 []) (cnt R.winDropShape k 1 s)
        else if (winSt s k).hbm = true ∧ (winSt s k).readEn = true then
          let a := (winSt s k).base + (off - (winSt s k).aperture)
          if keyless s fn a len = true then
            emit (.completion fn 4 []) (logAddr 0x0001 fn (engU 0x07 (portOf fn)) a s)
          else emit (.completion fn 0 (hbmGets s a len)) s
        else emit (.completion fn 4 []) (cnt R.winDropShape k 1 s)))) ∧
  (
  (∀ (s : State) (win : Nat), alive s = true → win < 2048 →
    (winSt s win).flight = [] ∨ (∃ f r, (winSt s win).flight = f :: r ∧ s.now ≤ f.stamp) →
    exec (.windowWriteLanded win) s = .next s) ∧
  (∀ (s s0 : State) (win : Nat) (f : WinWrite) (r : List WinWrite), alive s = true → win < 2048 →
    (winSt s win).flight = f :: r → f.stamp < s.now → s0 = modWin win (fun w => { w with flight := r }) s →
    (keyless s (win / 64) f.dev f.data.length = false →
      exec (.windowWriteLanded win) s = .next (keepQueue s (
        let s1 := devPut f.dev f.data s0
        let counts := (winSt s win).arrEn &&
          ((winSt s win).hbm || !(bankDead s (rowOf f.dev) || rowPoison s (rowOf f.dev) == 3))
        settle (winDrain win (if counts then arrAdd (arrKey (winSt s win).counter) 1 s1 else s1))))) ∧
    (keyless s (win / 64) f.dev f.data.length = true →
      exec (.windowWriteLanded win) s = .next (keepQueue s (settle (winDrain win
        (logAddr 0x0001 (win / 64) (engU 0x07 (portOf (win / 64))) f.dev s0)))))) ∧
  (∀ (s : State) (k : Nat), (winSt s k).st = .draining → (winSt s k).flight = [] → tkeys 0 s.windows = true →
    (winSt (winDrain k s) k).st = .closed))

/-- Packets on a camera port. One whose header cannot be corrected is counted and flags the frames open on the port; one
that no started stream takes is counted as unclaimed; any other is served by each stream of its channel (and data type)
in order, a frame start opening a frame, a line start numbering the next line, a line placed, a frame end closing. Where
the specification leaves it open, this is the model's choice: log entries 81, 87, 157, 160. (03_camera_ports.) -/
def Obligations.CameraPacketsAreServed : Prop :=
  (∀ (s : State) (port vc n : Nat) (data : List Byte) (ok : Bool), alive s = true → port < 16 → vc < 16 →
    exec (.csi2FrameStart port vc n .bad) s =
      .next (keepQueue s (settle (headerDrop port (catchUp port (traffic port (wakeDevice s)))))) ∧
    ∀ c ∈ [Instr.csi2LineStart port vc n .bad, .csi2LongPacket port vc n data .bad ok, .embeddedData port vc data .bad ok,
        .csi2FrameEnd port vc n .bad],
      exec c s = .next (keepQueue s (settle (headerDrop port (catchUp port (traffic port s)))))) ∧
  (∀ (s s0 : State) (port vc n : Nat), alive s = true → port < 16 → vc < 16 →
    s0 = catchUp port (traffic port s) → streamsWith s0 (fun v => sdPort v == port && sdVc v == vc) = [] →
    ∀ c ∈ [Instr.csi2LineStart port vc n .good, .csi2FrameEnd port vc n .good],
      exec c s = .next (keepQueue s (settle (cnt R.camPortUnclaimed port 1 s0)))) ∧
  (∀ (s s0 : State) (port vc st n : Nat) (ecc : Ecc), alive s = true → port < 16 → vc < 16 → ecc ≠ .bad →
    s0 = (let t := catchUp port (traffic port (wakeDevice s))
      if ecc = .corrected then cnt R.camPortEccCorr port 1 t else t) →
    streamsWith s0 (fun v => sdPort v == port && sdVc v == vc) = [st] →
    streamsWith (settle (takeFs st n ecc s0)) (fun v => sdPort v == port && sdVc v == vc) = [st] →
    exec (.csi2FrameStart port vc n ecc) s = .next (keepQueue s (settle (takeFs st n ecc s0)))) ∧
  (∀ (s s0 : State) (port vc dt st n : Nat) (v : Stream) (data : List Byte) (ecc : Ecc) (ok : Bool),
    alive s = true → port < 16 → vc < 16 → ecc ≠ .bad →
    s0 = (let t := catchUp port (traffic port s)
      if ecc = .corrected then cnt R.camPortEccCorr port 1 t else t) →
    streamAt s0 st = some v → v.opened = true → (openFrame v).isSome = true →
    (streamsWith s0 (fun v => sdPort v == port && sdVc v == vc) = [st] →
      exec (.csi2LineStart port vc n ecc) s = .next (keepQueue s (settle
        (modFrame st (fun f => { f with nextNum := some n }) (corrected st ecc (touchStream st s0))))) ∧
      exec (.csi2FrameEnd port vc n ecc) s = .next (keepQueue s (settle
        (let t := corrected st ecc (touchStream st s0)
        closeFrame st false t.now t)))) ∧
    (streamsWith s0 (fun v => sdPort v == port && (sdVc v == vc && sdDt v == dt)) = [st] →
      (dt ≠ 0x12 → exec (.csi2LongPacket port vc dt data ecc ok) s = .next (keepQueue s (settle
        (takeLine st data ok (corrected st ecc (touchStream st s0)))))) ∧
      (dt = 0x12 → exec (.embeddedData port vc data ecc ok) s = .next (keepQueue s (settle
        (takeEmbLine st data ok (corrected st ecc (touchStream st s0))))))))

/-- What time alone does to a stream: an open frame whose last packet is older than the line timeout is closed as of that
instant with its timeout flag; a stream two periods without a frame start is lost, which is logged once and, for a
safety-critical stream, enters safe state with cause 0x06; the oldest buffered line drains into its landing wheel. Where
the specification leaves it open, this is the model's choice: log entries 3, 69, 75, 81, 157, 162. (03_camera_ports,
04_image_cores, 17_functional_safety.) -/
def Obligations.StreamsTimeOutAndLand : Prop :=
  (∀ (s : State) (st : Nat) (v : Stream), alive s = true → st < 64 → streamAt s st = some v →
    exec (.lineTimeout st) s = .next (keepQueue s (settle (
      if v.started = true ∧ (openFrame v).isSome = true ∧ v.lastPkt + sdTimeout v ≤ s.now then
        closeFrame st true (v.lastPkt + sdTimeout v) s else s)))) ∧
  (∀ (s : State) (st t : Nat) (v : Stream), alive s = true → st < 64 → streamAt s st = some v → v.prevFs = some t →
    exec (.streamLoss st) s = .next (keepQueue s (settle (
      if v.started = true ∧ v.opened = true ∧ sdPeriod v ≠ 0 ∧ v.lossRaised = false ∧ t + 2 * sdPeriod v ≤ s.now then
        let s1 := rput R.camStreamStat st (rget s R.camStreamStat st ||| 2)
          (addLog 0x0006 v.tenant (camEng (sdPort v)) st 0 0 (modStream st (fun v => { v with lossRaised := true }) s))
        if bit (rget s (if st < 32 then R.safStreamCritLo else R.safStreamCritHi) 0) (st % 32) then
          enterSafe 0x06 (camEng (sdPort v)) s1 else s1
      else s)))) ∧
  (∀ (s : State) (st o : Nat) (v : Stream) (b : BufLine) (rest : List BufLine) (l k : Nat) (w : Wheel),
    alive s = true → st < 64 → streamAt s st = some v → v.buf = b :: rest →
    l = rget s R.ispLand st → k = wheelKey (bits l 15 8) (bits l 21 16) → bit l 0 = true → wheelEn s k = true →
    w = pStep (places s k) { wheelSt s k with pNode := some (nodeName (256 + st) 0) } b.serial (sdHeight v) →
    pOrigin w b.serial = some o → wheelRoom (places s k) w (o + b.line) = false →
    exec (.lineLanded st) s = .next (keepQueue s (wheelStall k (putWheel k w s)))) ∧
  (∀ (s s1 : State) (st o : Nat) (v : Stream) (b : BufLine) (rest : List BufLine) (l k : Nat) (w : Wheel)
      (data : List Byte),
    alive s = true → st < 64 → streamAt s st = some v → v.buf = b :: rest →
    l = rget s R.ispLand st → k = wheelKey (bits l 15 8) (bits l 21 16) → bit l 0 = true → wheelEn s k = true →
    w = pStep (places s k) { wheelSt s k with pNode := some (nodeName (256 + st) 0) } b.serial (sdHeight v) →
    pOrigin w b.serial = some o → wheelRoom (places s k) w (o + b.line) = true →
    data = b.data ++ List.replicate (placeRows s k * 512 - b.data.length) 0 →
    s1 = putWheel k (markWritten (places s k) (o + b.line) w) (modStream st (fun v => { v with buf := rest }) s) →
    chkAccess s1 v.tenant (lineAddr s k b.line) data.length true = .ok →
    exec (.lineLanded st) s = .next (keepQueue s (devPut (lineAddr s k b.line) data s1))) ∧
  (∀ (s : State) (st : Nat), alive s = true → st < 64 → streamAt s st = none →
    exec (.lineLanded st) s = .next s)

/-- Settings reach a sensor: the write window opens and takes up the waiting set and a reloaded profile, under which it is
written from then on, closes with an unfinished set failed and its transfer cut short; an acknowledged entry leads to
the next or ends the set; a refused or stretched transfer fails; the end of a transfer cut short makes its window
partial if data got through; an in-band interrupt is logged; without a stream nothing happens. Frame-sync lines: a
free-running output asserts at PHASE plus multiples of PERIOD, a slaved one PHASE after an active edge of its input, the
earliest due first; a pulse ends after WIDTH units of 4 ns; an edge on an input wakes the device and the active one is
stamped. Where the specification leaves it open, this is the model's choice: log entries 3, 92, 94, 95, 96, 160, 161,
164, 178. (03_camera_ports, 20_package_electrical.) -/
def Obligations.SettingsAndFrameSync : Prop :=
  (
  (∀ (s : State) (st o c : Nat) (v : Stream) (r : List (Nat × Nat)), alive s = true → st < 64 →
    streamAt s st = some v → v.windows = (o, c) :: r → v.window = none → v.started = true → o ≤ s.now →
    exec (.settingsWindowOpen st) s = .next (keepQueue s (
      kickBus (sdPort v) (loadSet st (modStream st (fun x => { x with
        window := some (o, c), wprofile := streamProfile s v })
        (modStream st (fun v => { v with windows := r }) s)))))) ∧
  (∀ (s : State) (st o c : Nat) (v : Stream), alive s = true → st < 64 → streamAt s st = some v →
    v.window = some (o, c) → c ≤ s.now →
    exec (.settingsWindowClose st) s = .next (keepQueue s (
      modStream st (fun v => { v with window := none })
        (if v.active then failSet st (modStream st (fun v => { v with
            ending := v.busy.map (fun t => (s.now, t)), busy := none }) s) else s)))) ∧
  (∀ (s : State) (st t n : Nat) (v : Stream) (w : SetRec), alive s = true → st < 64 → streamAt s st = some v →
    v.ending = none → v.busy = some t → v.writing = some w →
    exec (.sensorTransferDone st true n) s = .next (keepQueue s (
      let s1 := modStream st (fun v => { v with busy := none, acked := true, attempts := 0, entry := v.entry + 1 }) s
      if windowPast s v = true then failSet st s1
      else if w.entries.length ≤ v.entry + 1 then doneSet st s1 else startTransfer st s1)) ∧
    exec (.sensorTransferDone st false n) s = .next (keepQueue s (
      let s1 := modStream st (fun v => { v with
        busy := none, acked := v.acked || decide (0 < n), attempts := v.attempts + 1 }) s
      if windowPast s v = true ∨ 3 ≤ v.attempts then failSet st s1 else startTransfer st s1)) ∧
    (bits (wd v.sprofile 0) 1 0 = 2 → t + 1000000 ≤ s.now → exec (.i2cStretchTimeout st n) s = .next (keepQueue s (
      transferFailed st n s))) ∧
    (bits (wd v.sprofile 0) 1 0 ≠ 2 ∨ s.now < t + 1000000 → exec (.i2cStretchTimeout st n) s = .next s)) ∧
  (∀ (s : State) (st : Nat), loadSet st s = modStream st (fun v =>
    let x := if v.writing = none then { v with writing := v.pend, pend := none, entry := 0, attempts := 0, acked := false }
      else v
    { x with active := v.active || x.writing.isSome, sprofile := if v.active then v.sprofile else v.wprofile }) s) ∧
  (∀ (s : State) (st n at_ t : Nat) (v : Stream) (ack : Bool), alive s = true → st < 64 → streamAt s st = some v →
    v.ending = some (at_, t) →
    exec (.sensorTransferDone st ack n) s = .next (keepQueue s (kickBus (sdPort v) (modStream st (fun v => { v with
      ending := none,
      partialAt := if ack || decide (0 < n) then v.partialAt.or (v.ending.map Prod.fst) else v.partialAt }) s)))) ∧
  (∀ (s : State) (port addr data : Nat), alive s = true → port < 16 →
    exec (.sensorIbi port addr data) s = .next (keepQueue s (addLog 0x0007 63 (camEng port) data 0 0 s))) ∧
  (∀ (s : State) (st n : Nat) (ack : Bool), alive s = true → st < 64 → streamAt s st = none →
    ∀ c ∈ [Instr.settingsWindowOpen st, .settingsWindowClose st, .sensorTransferDone st ack n, .i2cStretchTimeout st n],
      exec c s = .next s)) ∧
  (
  (∀ (s : State) (k d : Nat) (f : Fso), alive s = true → k < 8 → f = fsoSt s k → bits f.ctrl 1 0 = 1 →
    f.period ≠ 0 → f.phase ≤ s.now / 4 → d = s.now / 4 - (s.now / 4 - f.phase) % f.period → f.lastDue ≤ d →
    exec (.fsyncOutAssert k) s = .next (keepQueue s (fsoDue k { f with lastDue := d + 1 } s))) ∧
  (∀ (s : State) (k t : Nat) (f : Fso) (r : List Nat), alive s = true → k < 8 → f = fsoSt s k → bits f.ctrl 1 0 = 2 →
    f.due = t :: r → t ≤ s.now →
    exec (.fsyncOutAssert k) s = .next (keepQueue s (fsoDue k { f with due := r } s))) ∧
  (∀ (s : State) (k : Nat), alive s = true → k < 8 → bits (fsoSt s k).ctrl 1 0 = 0 →
    exec (.fsyncOutAssert k) s = .next s) ∧
  (∀ (t : Nat) (l : List Nat), l.Pairwise (· ≤ ·) → (insertDue t l).Perm (t :: l) ∧ (insertDue t l).Pairwise (· ≤ ·)) ∧
  (∀ (s : State) (k : Nat) (f : Fso), f.asserted = false →
    fsoDue k f s = putFso k { f with asserted := true, since := s.now } (emit (.fsync k (!bit f.ctrl 2)) s)) ∧
  (∀ (s : State) (k : Nat), alive s = true → k < 8 → (fsoSt s k).asserted = true →
    exec (.fsyncOutDeassert k) s = .next (keepQueue s (
      if (fsoSt s k).since + max 1 (bits (fsoSt s k).ctrl 31 16) * 4 ≤ s.now then
        fsoApply k (putFso k { fsoSt s k with asserted := false } (emit (.fsync k (bit (fsoSt s k).ctrl 2)) s))
      else s))) ∧
  (∀ (s : State) (n : Nat) (rising : Bool), alive s = true → n < 4 → rising = bit (rget (wakeDevice s) R.camFsiCtrl 0) n →
    exec (.fsyncInEdge n rising) s = .next (keepQueue s (wakeDevice s))) ∧
  (∀ (s : State) (n : Nat) (rising : Bool), alive s = true → n < 4 → s.pwr.st = .run →
    rising ≠ bit (rget s R.camFsiCtrl 0) n → tget none s.cam.fsiEdge n = none →
    exec (.fsyncInEdge n rising) s = .next (keepQueue s (
      (List.range 8).foldl (fun s k =>
        if bits (fsoSt s k).ctrl 1 0 = 2 ∧ bits (fsoSt s k).ctrl 4 3 = n then
          putFso k { fsoSt s k with due := insertDue (s.now + (fsoSt s k).phase * 4) (fsoSt s k).due } s else s)
        { s with cam := { s.cam with fsiEdge := tset none s.cam.fsiEdge n (some s.now),
                                     fsiLast := tset 0 s.cam.fsiLast n s.now } }))))

/-- A timer fires at its exact times; a TIME wait is looked at for each stripe; a starved head of the NCORE list gets its
guard; a share window of 1 ms ends with the busy shares shown and counted anew. A task completes once its work is done,
none of its pushes is stalled and no engine of its gang is still waking (a stream pass that has moved its data ends
first): the caches of its gang are written back, which aborts it where a line is lost; its releases and its partition
take effect, its node is stamped (a cancelled one only stops), and its engines are free; before that nothing happens. A
sluice whose window has passed with its node incomplete is tripped, and a draining instance gives up its slot with its
cancelled tasks. Where the specification leaves it open, this is the model's choice: log entries 3, 76, 144, 154, 155,
166. (02_frame_graph.) -/
def Obligations.SequencerEvents : Prop :=
  (
  (∀ (s : State) (t : Nat) (v : Tmpl), alive s = true → t < 256 → tmplAt s t = some v → v.armed = true → v.trigKind = 3 →
    exec (.timerTrigger t) s = .next (keepQueue s (if v.nextFire ≤ s.now then
      settle (fireTrigger t { time := v.nextFire, stream := 255, serial := 0, frameNo := 0, handle := none, job := none }
        (modTmpl t (fun v => { v with nextFire := v.nextFire + max 1 v.param0 }) s)) else s))) ∧
  (∀ (s : State) (t : Nat), alive s = true → t < 256 →
    (tmplAt s t = none ∨ ∃ v, tmplAt s t = some v ∧ (v.armed = false ∨ v.trigKind ≠ 3)) →
    exec (.timerTrigger t) s = .next s) ∧
  (∀ (s : State) (t k n : Nat) (second : Bool) (v : Tmpl) (nd : Node), alive s = true → t < 256 → k < 8 → n < 4096 →
    tmplAt s t = some v → nodeAt v n = some nd → (if second then nd.w1Kind else nd.w0Kind) = 4 →
    exec (.timeWaitExpiry t k n second) s = .next (keepQueue s (settle
      ((List.range nd.stripes).foldl (fun s i => pollWait t k n i second s) s)))) ∧
  (∀ (s : State) (p : Nat), alive s = true → p < 8 →
    exec (.gangStarveGuard p) s = .next (
      if starved s p = true ∧ p ∉ s.seq.guard then { s with seq := { s.seq with guard := s.seq.guard ++ [p] } } else s)) ∧
  (∀ s : State, alive s = true → s.now < s.seq.windowStart + 1000000 → exec .shareWindowEnd s = .next s) ∧
  (∀ s : State, alive s = true → s.seq.windowStart + 1000000 ≤ s.now →
    ∃ t, exec .shareWindowEnd s = .next t ∧ t.seq.share = [] ∧ t.seq.busy = [] ∧
      t.seq.windowStart = s.now / 1000000 * 1000000 ∧ t.seq.tmpls = s.seq.tmpls ∧ t.seq.ready = s.seq.ready ∧
      t.mem = s.mem ∧ t.log = s.log ∧
      t.regs = ((s.seq.runs.foldl (fun s r => accountRun r s) s).seq.busy.foldl (fun s e => rput R.seqBusy e.1 (min 1000 (e.2 / 1000)) s)
        { s with regs := s.regs.filter (fun e => e.1 % 0x1000000 != R.seqBusy) }).regs)) ∧
  (
  (∀ (s0 s : State) (e : Nat) (r0 r : Run), alive s0 = true → e < 0x10100 → runOn s0 e = some r0 →
    s = (if passMoved r0 = true then settle (endPass e r0 s0) else s0) → runOn s e = some r →
    exec (.taskComplete e) s0 = .next (keepQueue s0 (
      if r.worked = true ∧ r.stalled = false ∧ pushStalled s e = false ∧
          (runEngines r).all (fun e => !s.pwr.waking.contains e) = true then
        let sf := r.gang.foldl (fun s c => cacheFlush c s) s
        if abortAsked sf r.task.tmpl r.task.slot = true then settle sf else
        let s1 := leaveRun r (dropRun e (accountRun r sf))
        let s2 := if r.cancelled then releaseRun r s1 else stampRun (frameLate s r) s1
        let s3 := (runEngines r).foldl (fun s e => startGolden e s) (r.gang.foldl (fun s c => teBoundary c s) (settle s2))
        { s3 with pwr := { s3.pwr with
          engIdle := (runEngines r).foldl (fun t e => tset 0 t e (s.now + 1)) s3.pwr.engIdle } }
      else s))) ∧
  (∀ (s : State) (e : Nat), alive s = true → e < 0x10100 → runOn s e = none → exec (.taskComplete e) s = .next s) ∧
  (∀ (s : State) (num t n : Nat) (v : Tmpl) (nd : Node), alive s = true → num < 512 →
    (sluiceSt s num).bound = some (t, n) → tmplAt s t = some v → nodeAt v n = some nd →
    exec (.sluiceWindowEnd num) s = .next (keepQueue s (settle (v.slots.zipIdx.foldl (fun s i =>
      match i.1.nodes[n]? with
      | some m =>
        if i.1.st = .running ∧ m.verdict = false ∧ m.stamped < nd.stripes ∧ i.1.trig + nd.late ≤ s.now then
          sluiceFault t i.2 n i.1.seq num (windowEndEngine s t i.2 n i.1.seq) false (i.1.trig + nd.late) v.tenant s
        else s
      | none => s) s)))) ∧
  (∀ (s : State) (num : Nat), alive s = true → num < 512 → (sluiceSt s num).bound = none →
    exec (.sluiceWindowEnd num) s = .next s) ∧
  (∀ (s : State) (t k : Nat) (i : Inst), alive s = true → t < 256 → k < 8 → instAt s t k = some i →
    exec (.instanceDrained t k) s = .next (keepQueue s (if i.st = .draining then
      let gone := s.seq.runs.filter
        (fun r => r.cancelled && r.task.tmpl == t && r.task.slot == k && r.task.seq == i.seq)
      (gone.flatMap runEngines).foldl (fun s e => startGolden e s)
        (settle (releaseSlot t k (gone.foldl (fun s r => dropRun r.eng (accountRun r s)) s)))
      else s))))

/-- A millrace is first in, first out and never holds more than its depth: a live push to an enabled millrace with room
joins its end, or waits for its turn behind others, one to a full millrace waits, a stale one and one to a disabled
millrace are dropped and counted. The commands of the millraces: a waiting push is accepted, the highest class first and
of one class the first requester from the arbiter's pointer on; of the claims the instance that started first, of those
started together the lower template, comes first and takes its full count once the millrace holds it; and a HANDLE
trigger takes one handle where no wait claims from the millrace. (02_frame_graph, 12_data_movement.) -/
def Obligations.MillracesServeInOrder : Prop :=
  (
  (∀ (s : State) (p : Push), pushLive s p = false → presentPush p s = cnt R.mrqStale p.mrq 1 s) ∧
  (∀ (s : State) (p : Push), pushLive s p = true → mrqEn s p.mrq = false → presentPush p s = cnt R.mrqDrop p.mrq 1 s) ∧
  (∀ (s : State) (p : Push), tkeys 0 s.mrq = true → pushLive s p = true → mrqEn s p.mrq = true →
    ((mrqQ s p.mrq).length < mrqDepth s p.mrq → pushContended s p.mrq = false →
      mrqQ (presentPush p s) p.mrq = mrqQ s p.mrq ++ [p.handle] ∧
      (presentPush p s).seq.pushes = s.seq.pushes) ∧
    ((mrqQ s p.mrq).length < mrqDepth s p.mrq → pushContended s p.mrq = true →
      mrqQ (presentPush p s) p.mrq = mrqQ s p.mrq ∧ (presentPush p s).seq.pushes = s.seq.pushes ++ [p]) ∧
    (mrqDepth s p.mrq ≤ (mrqQ s p.mrq).length →
      mrqQ (presentPush p s) p.mrq = mrqQ s p.mrq ∧ (presentPush p s).seq.pushes = s.seq.pushes ++ [p])) ∧
  (∀ (s : State) (p : Push) (m : Nat), tkeys 0 s.mrq = true → (mrqQ s m).length ≤ mrqDepth s m →
    (mrqQ (presentPush p s) m).length ≤ mrqDepth s m ∧ (mrqQ (acceptPush p.mrq s) m).length ≤ mrqDepth s m)) ∧
  (
  (∀ (s : State) (m : Nat), alive s = true → m < 1024 →
    exec (.millracePushAccept m) s = .next (keepQueue s (settle (acceptPush m s)))) ∧
  (∀ (s : State) (m : Nat) (p : Push), s.seq.pushes.filter (fun p => p.mrq == m) = [p] → pushLive s p = true →
    mrqEn s m = true → tkeys 0 s.mrq = true → (mrqQ s m).length < mrqDepth s m → hostPushes s m = [] →
    mrqQ (acceptPush m s) m = mrqQ s m ++ [p.handle] ∧ (acceptPush m s).seq.pushes.length + 1 = s.seq.pushes.length) ∧
  (∀ (s : State) (m src handle tn : Nat) (w : Waiter), taskPushes s m = [] → hostPushes s m = [.host src w handle tn] →
    tkeys 0 s.mrq = true → pushCheck s tn m = none → mrqQ (acceptPush m s) m = mrqQ s m ++ [handle]) ∧
  (∀ (ptr : Nat) (l : List PushBy) (b : PushBy), pushWinner ptr l = some b →
    b ∈ l ∧ (∀ x ∈ l, x.cls ≤ b.cls) ∧
    (∀ x ∈ l, x.cls = b.cls → ptr ≤ x.requester → ptr ≤ b.requester ∧ b.requester ≤ x.requester)) ∧
  (∀ (s : State) (m : Nat) (q : Claim), alive s = true → m < 1024 →
    firstClaim (claimants s m) = some q → mrqEn s m = true → q.count ≤ (mrqQ s m).length →
    exec (.handleClaim m) s = .next (keepQueue s (settle (decNode q.tmpl q.slot q.node
      (modInst q.tmpl q.slot (fun i => { i with nodes := i.nodes.modify q.node (fun x => { x with
        handles := x.handles ++ (mrqQ s m).take q.count,
        cells := x.cells.map (fun c => if q.second then { c with w1 := true } else { c with w0 := true }) }) })
        (mrqPut m ((mrqQ s m).drop q.count) s)))))) ∧
  (∀ (l : List Claim) (q : Claim), firstClaim l = some q → q ∈ l ∧
    ∀ x ∈ l, q.started ≤ x.started ∧ (x.started = q.started → q.tmpl ≤ x.tmpl)) ∧
  (∀ (s : State) (m h t : Nat) (r : List Nat), alive s = true → m < 1024 → mrqQ s m = h :: r → mrqEn s m = true →
    claimants s m = [] →
    rotFind 256 (tget 0 s.seq.ptrs (ptrTrig m)) (fun t => match tmplAt s t with
      | some v => v.armed && v.trigKind == 4 && v.trigObj == m && (freeSlot v).isSome
      | none => false) = some t →
    exec (.handleTrigger m) s = .next (keepQueue s (settle (fireTrigger t
      { time := s.now, stream := 255, serial := 0, frameNo := 0, handle := some h, job := none }
      (modSeq (fun q => { q with ptrs := tset 0 q.ptrs (ptrTrig m) ((t + 1) % 256) }) (mrqPut m r s)))))) ∧
  (∀ (s : State) (m : Nat), alive s = true → m < 1024 → mrqQ s m = [] →
    exec (.handleTrigger m) s = .next (keepQueue s (settle s))))

/-- A free vision engine takes the task that its core's list gives it, where the task is of the command's kind, reads its
descriptor (readMark) and runs it; with nothing to take it stays as it is. A task that stalled is looked at again; one
whose work is done, one that is cancelled and one of another kind are left alone. Where the specification leaves it
open, this is the model's choice: log entry 71. (02_frame_graph, 05_warp_pyramid, 06_stereo, 07_optical_flow,
08_keypoints_tracks.) -/
def Obligations.VisionEnginesTakeTheirTasks : Prop :=
  ∀ (s : State) (core e : Nat), alive s = true → core < 4 → e < 2 →
    ∀ x ∈ ([(.steTask core, 1, engV core 0, fun _ => true, stGo core), (.ofeTask core, 2, engV core 1, fun _ => true, ofGo core),
        (.kpeDetect core, 3, engV core 2, kpTakes s 0, kpGo core (dtRun core)),
        (.kpeTrack core, 3, engV core 2, kpTakes s 1, kpGo core (tkRun core)),
        (.kpeMatch core, 3, engV core 2, kpTakes s 2, kpGo core (mtRun core)),
        (.wpeResample core e, 4, engV core (3 + e), fun k => asksInvert s k == false, warpGo (2 * core + e)),
        (.wpeMeshInvert core e, 4, engV core (3 + e), fun k => asksInvert s k == true, warpGo (2 * core + e)),
        (.pyeTask core, 5, engV core 5, fun _ => true, pyGo core)] :
        List (Instr × Nat × Nat × (Task → Bool) × (Run → State → State))),
      (∀ k s1, runOn s x.2.2.1 = none → pickCore s x.2.1 core x.2.2.1 = some k → x.2.2.2.1 k = true →
        s1 = readMark k.tenant (descAddr s k) (descBytes x.2.1) (dispatch k x.2.2.1 [] s) →
        runOn (dispatch k x.2.2.1 [] s) x.2.2.1 = some (newRun s k x.2.2.1 []) ∧
        exec x.1 s = .next (keepQueue s (match runOn s1 x.2.2.1 with
          | some r => settle (x.2.2.2.2 r s1)
          | none => s1))) ∧
      ((pickCore s x.2.1 core x.2.2.1).all (fun k => !x.2.2.2.1 k) = true → runOn s x.2.2.1 = none → exec x.1 s = .next s) ∧
      (∀ r, runOn s x.2.2.1 = some r → r.worked = true ∨ r.cancelled = true ∨ r.task.cls ≠ x.2.1 ∨ x.2.2.2.1 r.task = false →
        exec x.1 s = .next s) ∧
      (∀ r, runOn s x.2.2.1 = some r → r.worked = false → r.cancelled = false → r.task.cls = x.2.1 →
        x.2.2.2.1 r.task = true → exec x.1 s = .next (keepQueue s (settle (x.2.2.2.2 r s))))

/-- A vision task's descriptor, and the map a warp task names, are read first: an access of them that faults ends the run
with that fault. Then the task is checked: one that passes its checks is carried out by its engine, one that fails them
is failed with the check's status; a DETECT task that passes and cannot read its pattern ends with that fault. Where the
specification leaves it open, this is the model's choice: log entries 71, 77, 103, 105, 106, 107, 109, 145, 182, 183,
184. (05_warp_pyramid, 06_stereo, 07_optical_flow, 08_keypoints_tracks.) -/
def Obligations.VisionTasksAreCheckedThenRun : Prop :=
  ∀ (s : State) (core e tn : Nat) (r : Run) (v : Tmpl) (nd : Node) (i : Inst), alive s = true → core < 4 → e < 2 →
    taskCtx s r.task = some (v, nd, i) → r.worked = false → r.cancelled = false → tn = r.task.tenant →
    (∀ d x, d = descWords s r.task 64 → runOn s (engV core 0) = some r → r.task.cls = 1 →
      chkAccess s tn nd.work 256 false = x →
      exec (.steTask core) s = .next (keepQueue s (settle (
        let s1 := rput R.steEngStat core (2 * stCost d + 8 * b2n (stPaths8 d) + 16 * b2n (stHalves d == 2)) s
        if x ≠ .ok then faultRun (engV core 0) x s
        else if stCheck s nd r d = 0 then stRun core r nd d s1 else stFail core r nd d (stCheck s nd r d) s1)))) ∧
    (∀ d x, d = descWords s r.task 96 → runOn s (engV core 1) = some r → r.task.cls = 2 →
      chkAccess s tn nd.work 384 false = x →
      exec (.ofeTask core) s = .next (keepQueue s (settle (
        let s1 := rput R.ofeEngStat core (2 * ofCost d + 8 * ofLevels d + 64 * b2n (ofRefine d)) s
        if x ≠ .ok then faultRun (engV core 1) x s
        else if ofCheck s nd r d = 0 then ofRun core r nd d s1 else ofFail core r nd d (ofCheck s nd r d) s1)))) ∧
    (∀ d x y, d = descWords s r.task 96 → runOn s (engV core 2) = some r → r.task.cls = 3 →
      chkAccess s tn nd.work 384 false = x →
      chkAll s tn (if kpOp d = 0 ∧ dtKind d = 1 then [(dtPattern d, 32768)] else []) [] = y →
      ∀ o ∈ [(0, Instr.kpeDetect core, dtRun core), (1, .kpeTrack core, tkRun core), (2, .kpeMatch core, mtRun core)],
      kpTakes s o.1 r.task = true →
      exec o.2.1 s = .next (keepQueue s (settle (
          let s1 := rput R.kpeEngStat core (2 * kpOp d) s
          if x ≠ .ok then faultRun (engV core 2) x s
          else if kpCheck s nd r d ≠ 0 then kpFail core r nd d (kpCheck s nd r d) s1
          else if y ≠ .ok then faultRun (engV core 2) y s
          else o.2.2 r nd d s1)))) ∧
    (∀ d w u x y, d = descWords s r.task 32 → w = warpOf s r nd → u = 2 * core + e →
      chkAccess s tn nd.work 128 false = x →
      (if wpKind d = 1 then chkAccess s tn (wpMap d) 128 false else .ok) = y →
      runOn s (engV core (3 + e)) = some r → r.task.cls = 4 →
      ∀ o ∈ [(true, Instr.wpeMeshInvert core e), (false, .wpeResample core e)], asksInvert s r.task = o.1 →
      exec o.2 s =
        .next (keepQueue s (settle (
          let s1 := rput R.wpeEngStat u (2 * wpKind d + 8 * b2n (wpInvert d)) s
          if x ≠ .ok then faultRun (engV core (3 + e)) x s
          else if y ≠ .ok then faultRun (engV core (3 + e)) y s
          else if warpCheck s nd w = 0 then (if wpInvert d then invertRun u r nd w s1 else resampleRun u r nd w s1)
          else warpFail u r nd w (warpCheck s nd w) s1)))) ∧
    (∀ d x, d = descWords s r.task 48 → runOn s (engV core 5) = some r → r.task.cls = 5 →
      chkAccess s tn nd.work 192 false = x →
      exec (.pyeTask core) s = .next (keepQueue s (settle (
        let s1 := rput R.pyeEngStat core (2 * pyMode d) s
        if x ≠ .ok then faultRun (engV core 5) x s
        else if pyCheck s nd r d = 0 then pyRun core r nd d s1 else pyFail core r nd d (pyCheck s nd r d) s1))))

/-- An image core takes the task its list gives, counting one that runs at raised priority, and reads its descriptor. A task
of a camera stream its tenant is not granted asks for its instance's abort; one that fails its check is failed with the
check's status, one whose stream or frame is absent stalls. A task whose frame has begun, on whichever core, goes on
with the parameter block the frame bound; one that begins a frame binds the block its slot selects, and fails where no
slot is selected or the slot is in error; a read of ring or block that faults ends the run. The frame's record is
written once its last metadata exist, and until then the core waits. Where the specification leaves it open, this is the
model's choice: log entries 97, 98, 99, 100, 101, 102, 180, 181. (04_image_cores.) -/
def Obligations.ImageCoresWorkThroughFrames : Prop :=
  (∀ (s s1 s2 : State) (c : Nat) (k : Task), alive s = true → c < 4 → runOn s (engI c 0) = none → ispPick s c = some k →
    s1 = (if ispPressed s k = true ∧ k.prio < prioCap s k.tenant then cnt R.ispCorePress c 1 s else s) →
    s2 = readMark k.tenant (descAddr s1 k) (descBytes 0) (dispatch k (engI c 0) [] s1) →
    runOn (dispatch k (engI c 0) [] s1) (engI c 0) = some (newRun s1 k (engI c 0) []) ∧
    exec (.icoreTask c) s = .next (keepQueue s (match runOn s2 (engI c 0) with
      | some r => settle (ispGo c r s2)
      | none => s2))) ∧
  (∀ (s : State) (c : Nat), alive s = true → c < 4 → runOn s (engI c 0) = none → ispPick s c = none →
    exec (.icoreTask c) s = .next s) ∧
  (∀ (s : State) (c : Nat) (r : Run), alive s = true → c < 4 → runOn s (engI c 0) = some r → 
    r.task.cls ≠ 0 ∨ r.worked = true ∨ r.cancelled = true → exec (.icoreTask c) s = .next s) ∧
  (∀ (s : State) (c st tn : Nat) (r : Run) (d : List Nat), alive s = true → c < 4 →
    runOn s (engI c 0) = some r → r.task.cls = 0 → r.worked = false → r.cancelled = false → r.aux ≠ 1 →
    tn = r.task.tenant → d = descWords s r.task 48 → st = bits (wd d 0) 5 0 →
    (∀ x, chkAccess s tn (descAddr s r.task) 192 false = x → x ≠ .ok →
      exec (.icoreTask c) s = .next (keepQueue s (settle (faultRun (engI c 0) x s)))) ∧
    (chkAccess s tn (descAddr s r.task) 192 false = .ok → r.stalled = false → streamGranted s tn st = false →
      exec (.icoreTask c) s = .next (keepQueue s (settle (wantAbort r.task.tmpl r.task.slot 2 s)))) ∧
    (∀ e, chkAccess s tn (descAddr s r.task) 192 false = .ok → (r.stalled = true ∨ streamGranted s tn st = true) →
      ispCheck s c r.task d (ispPeek s c r d) false = e →
      (e ≠ 0 → exec (.icoreTask c) s = .next (keepQueue s (settle (ispFail c r d e s)))) ∧
      (e = 0 → streamAt s st = none ∨ taskFrame s r.task = none →
        exec (.icoreTask c) s = .next (keepQueue s (settle (modRun (engI c 0) (fun r => { r with stalled := true }) s)))) ∧
      (∀ (v : Stream) (f : Frame) (x : IspCtx), e = 0 → streamAt s st = some v → taskFrame s r.task = some f →
        x = ispFind s st f.serial →
        (∀ y, x.serial = f.serial → ispBlock s c tn st x.slot x.pseq x.block = y →
          exec (.icoreTask c) s = .next (keepQueue s (settle (
            if y.1 = .ok then ispStripe c r d v f x y.2 s else faultRun (engI c 0) y.1 s)))) ∧
        (∀ y, x.serial ≠ f.serial → chkAccess s tn (addr48 d 1) 128 false = y → y ≠ .ok →
          exec (.icoreTask c) s = .next (keepQueue s (settle (faultRun (engI c 0) y s)))) ∧
        (x.serial ≠ f.serial → chkAccess s tn (addr48 d 1) 128 false = .ok →
          selectSlot (rdWords s tn (addr48 d 1) 32) (bindingEpoch v f) = none →
          exec (.icoreTask c) s = .next (keepQueue s (settle (ispFail c r d (ispCheck s c r.task d none true) s)))) ∧
        (∀ slot w early, x.serial ≠ f.serial → chkAccess s tn (addr48 d 1) 128 false = .ok →
          selectSlot (rdWords s tn (addr48 d 1) 32) (bindingEpoch v f) = some (slot, w, early) →
          (slotStatus w ≠ 0 → exec (.icoreTask c) s = .next (keepQueue s (settle (ispFail c r d (slotStatus w) s)))) ∧
          (∀ y, slotStatus w = 0 → ispBlock s c tn st slot (bits (wd w 0) 23 16) (addr48 w 1) = y →
            exec (.icoreTask c) s = .next (keepQueue s (settle (
              if y.1 = .ok then ispFirst c r d v f x slot w early y.2 s else faultRun (engI c 0) y.1 s)))))))) ∧
  (∀ (s : State) (c : Nat), alive s = true → c < 4 →
    (runOn s (engI c 0) = none → exec (.ispFrameRecord c) s = .next s) ∧
    (∀ r st, runOn s (engI c 0) = some r → st = wd r.info 0 →
      (streamAt s st = none → exec (.ispFrameRecord c) s = .next s) ∧
      (∀ v, streamAt s st = some v →
        (v.frames.find? (fun f => f.serial == wd r.info 1) = none → exec (.ispFrameRecord c) s = .next s) ∧
        (∀ f, v.frames.find? (fun f => f.serial == wd r.info 1) = some f →
          (f.close = none ∨ r.task.cls ≠ 0 ∨ r.aux ≠ 1 ∨ r.worked = true ∨ r.cancelled = true →
            exec (.ispFrameRecord c) s = .next s) ∧
          (f.close.isSome = true → r.task.cls = 0 → r.aux = 1 → r.worked = false → r.cancelled = false →
            ∀ x d words, x = ispFrameCtx s st f.serial → d = descWords s r.task 48 →
            words = (if x.serial = 0 then [] else (ispBlock s c r.task.tenant st x.slot x.pseq x.block).2) →
            exec (.ispFrameRecord c) s = .next (keepQueue s (
              let i : IspIn := { b := words, cfa := bits (wd d 0) 11 8, phase := bits (wd d 0) 13 12, w := sdWidth v,
                                 h := sdHeight v, dt := sdDt v, lines := x.lines, five := x.five, ran := x.ran }
              let fl := ispFlags s r f v x.flow
              let x1 := { x with valid := (List.range 4).map (fun o => if ispEn d o then wd x.valid o ||| fl else wd x.valid o) }
              settle (modRun (engI c 0) (fun r => { r with aux := 0 }) (doWork (engI c 0)
                { workNone with writes := [(addr48 d 4 + f.index % 8 * 14336, ispRecord st v f x1 (bit (wd d 0) 7) i)],
                                flags := fl }
                (if (ispAt s c st).map (fun x => x.serial) = some f.serial
                  then ispPut c st { x1 with lines := [], five := [] } s else s))))))))))

/-- The work of a task is all or nothing: a failing access leaves every memory as it was; otherwise its writes take effect
in their order and nothing else in memory changes. Where the specification leaves it open, this is the model's choice:
log entry 72. (02_frame_graph.) -/
def Obligations.TaskWorkIsAllOrNothing : Prop :=
  ∀ (eng : Nat) (w : Work) (s : State) (r : Run), runOn s eng = some r →
    (chkAll s r.task.tenant w.reads (w.writes.map (fun x => (x.1, x.2.length))) ≠ .ok →
      (doWork eng w s).mem = s.mem ∧ (doWork eng w s).host0 = s.host0 ∧ (doWork eng w s).host1 = s.host1) ∧
    (chkAll s r.task.tenant w.reads (w.writes.map (fun x => (x.1, x.2.length))) = .ok →
      let t := w.writes.foldl (fun s x => wrBytes r.task.tenant x.1 x.2 s) (w.reads.foldl (fun s x => touchRead x.1 x.2 s) s)
      (doWork eng w s).mem = t.mem ∧ (doWork eng w s).host0 = t.host0 ∧ (doWork eng w s).host1 = t.host1)

/-- The next NCORE task whose whole gang is free is dispatched: its guard ends, the cores are the first free ones from the
arbiter's pointer, each member's cache starts the task (cacheStart) and each member switches to its tenant, and the
first descriptor starts 64 cycles after the longest switch; a member whose restore faults ends the task with that fault.
A core that stays with its tenant switches nothing; otherwise the outgoing tenant's accumulators are saved, the incoming
tenant's restored, the switch is counted and its longest time kept, NC_CORE_STAT names the new tenant, and it takes 256
cycles and 1,024 of SPCLK for each save and restore. Tensor operation descriptors: the gang whose rank 0 is the core
takes its next descriptor when that has the command's opcode or a reserved one; a core with no such gang, a gang at
another operation, and one that is done or cancelled do nothing. The descriptor and what it names are read through the
members' caches; a read that faults ends the run with that fault, and a dirty line with an error among those read is
lost. After a SYNC where it asks for one, a descriptor that fails its checks ends the list; one that passes is carried
out: its operands are read, what the operation computes is written, through the caches of the members that make it where
they have one, the run goes on to the next descriptor or its work is done, the members count it, and they hold their
accumulators where it asks for that. An operation that fails while it computes ends the list as a failed check does, and
an access that faults ends the run with that fault. Where the specification leaves it open, this is the model's choice:
log entries 113, 114, 116, 117, 121, 173, 185, 186. (02_frame_graph, 10_neural_cores.) -/
def Obligations.NeuralCoresRunTheirGangs : Prop :=
  (
  (∀ s : State, alive s = true → pickTask s 6 (fun k => decide (gangOf s k ≤ (freeCores s k).length)) = none →
    exec .ncoreTaskDispatch s = .next s) ∧
  (∀ (s s1 : State) (k : Task) (taken gang : List Nat) (eng : Nat), alive s = true →
    pickTask s 6 (fun k => decide (gangOf s k ≤ (freeCores s k).length)) = some k →
    taken = (freeCores s k).take (gangOf s k) → gang = (List.range 64).filter (fun c => taken.contains c) →
    eng = engN ((gang.head?).getD 0) 32 →
    s1 = dispatch k eng gang (modSeq (fun q => { q with
      guard := q.guard.filter (fun p => ncoreHead s p != some k),
      ptrs := tset 0 q.ptrs ptrNcore (((taken.getLast?).getD 0 + 1) % 64) }) s) →
    ∀ x, x = switchGang gang k.tenant (gang.foldl (fun s c => cacheStart c (coreTenant s c != k.tenant) s) s1) →
    (x.2.2 = .ok → exec .ncoreTaskDispatch s =
      .next (keepQueue s (settle (modRun eng (fun r => { r with cycles := 64 + x.2.1 }) x.1)))) ∧
    (x.2.2 ≠ .ok → exec .ncoreTaskDispatch s =
      .next (keepQueue s (settle (faultRun eng x.2.2 (modRun eng (fun r => { r with cycles := 64 + x.2.1 }) x.1)))))) ∧
  (∀ (gang : List Nat) (c tn : Nat) (s : State), switchGang [] tn s = (s, 0, .ok) ∧
    switchGang (gang ++ [c]) tn s =
      (let x := switchGang gang tn s
       let y := switchCore c tn x.1
       (y.1, max x.2.1 y.2.1, if x.2.2 = .ok then y.2.2 else x.2.2))) ∧
  (∀ (s : State) (c : Nat), switchCore c (coreTenant s c) s = (s, 0, .ok)) ∧
  (∀ (s : State) (c tn : Nat), coreTenant s c ≠ tn →
    ∀ a b n, a = saveOut c (coreTenant s c) s → b = restoreIn c tn a.1 → n = b2n a.2 + b2n b.2.1 →
    (switchCore c tn s).2 = (256 + cdiv (1024 * n * envClock s.pwr.env) 700, b.2.2) ∧
    ∃ ns, (switchCore c tn s).1 = rput R.ncCoreStat c (tn * 256) (rmax R.ncCoreSwmax c ns (cnt R.ncCoreSwitch c 1 b.1))) ∧
  (∀ (s : State) (k : Task), (freeCores s k).Nodup ∧ ∀ c ∈ freeCores s k, c < 64 ∧ ncoreFree s c = true)) ∧
  (
  ∀ (s : State) (core op : Nat) (c : Instr), alive s = true → core < 64 →
    (op, c) ∈ [(0x01, Instr.todConv2d core), (0x02, .todMatmul core), (0x03, .todAttention core), (0x04, .todEltwise core),
      (0x05, .todAct core), (0x06, .todNorm core), (0x07, .todPool core), (0x08, .todResize core), (0x09, .todReduce core),
      (0x0A, .todSoftmax core), (0x0B, .todGather core), (0x0C, .todScatter core), (0x0D, .todTransform core),
      (0x0E, .todQuant core), (0x0F, .todTopk core), (0x10, .todNms core), (0x11, .todArgmax core)] →
    (runOn s (engN core 32) = none → exec c s = .next s) ∧
    (∀ r, runOn s (engN core 32) = some r →
      (r.task.cls ≠ 6 ∨ r.worked = true ∨ r.cancelled = true ∨ todAddr s r = none → exec c s = .next s) ∧
      (∀ a count tn, r.task.cls = 6 → r.worked = false → r.cancelled = false → todAddr s r = some (a, count) →
        tn = r.task.tenant →
        (rdN s tn a 1 ≠ op → 1 ≤ rdN s tn a 1 → rdN s tn a 1 ≤ 0x11 → exec c s = .next s) ∧
        (rdN s tn a 1 = op ∨ rdN s tn a 1 = 0 ∨ 0x11 < rdN s tn a 1 →
          -- the descriptor as rank 0 reads it, and what is read with it
          ∀ lead d reads, lead = (r.gang.head?).getD 0 → d = todAt (cacheView s lead) tn a →
          reads = todReads (cacheView s lead) tn a d →
          (∀ x, chkAll s tn reads [] = x → x ≠ .ok → exec c s = .next (keepQueue s (settle (faultRun r.eng x s)))) ∧
          (∀ b, chkAll s tn reads [] = .ok → gangBad s r.gang reads = some b →
            exec c s = .next (keepQueue s (settle (dropBad b.1 b.2 s)))) ∧
          (∀ s0 s1 r1, chkAll s tn reads [] = .ok → gangBad s r.gang reads = none →
            s0 = reads.foldl (fun s x => touchRead x.1 x.2 s) (r.gang.foldl (fun s c => cacheReads c reads s) s) →
            s1 = (if d.sync then cacheSync r.gang (modRun r.eng (fun r => { r with unsynced := [] }) s0) else s0) →
            r1 = (if d.sync then { r with unsynced := [] } else r) →
            (∀ st, todCheck (cacheView s1 lead) r d = st → st ≠ 0 →
              exec c s = .next (keepQueue s (settle (todFail r d st s1)))) ∧
            (∀ from_, todCheck (cacheView s1 lead) r d = 0 → from_ = operandReads d (envOf s1 r1) →
              (∀ b, gangBad s1 r1.gang from_ = some b → exec c s = .next (keepQueue s (settle (dropBad b.1 b.2 s1)))) ∧
              (∀ x, gangBad s1 r1.gang from_ = none → chkAll s1 tn from_ [] = x → x ≠ .ok →
                exec c s = .next (keepQueue s (settle (faultRun r1.eng x s1)))) ∧
              (gangBad s1 r1.gang from_ = none → chkAll s1 tn from_ [] = .ok →
                ∀ s2 o held, s2 = gangReads d r1.gang from_ s1 → held = r1.gang.map (fun c => heldAcc s2 c tn) →
                o = todCompute d (envOf s2 r1) (fun rank flat => ((held.getD rank none).map (fun a => tget 0 a.vals flat))) →
                (o.status ≠ 0 → exec c s = .next (keepQueue s (settle (todFail r1 d o.status
                  (if o.status = 2 then cnt R.ncWcompErr 0 1 s2 else s2))))) ∧
                (o.status = 0 →
                  -- members with nothing to carry, flags, saturations, times, outputs and the status record
                  ∀ missing fl sats times outs stat,
                  missing = (if d.carry then (r1.gang.zip held).filterMap (fun c => if c.2.isNone then some c.1 else none)
                    else []) →
                  fl = outFlags s2 r1 (r1.flags ||| (if missing.isEmpty then 0 else fInvalid)) →
                  sats = (List.range r1.gang.length).map (fun q =>
                    (d.patch (envOf s2 r1) 4 (o.els.filter (fun x => x.rank == q))).2 +
                    (if d.has 5 then (d.patch (envOf s2 r1) 5 (o.els.filter (fun x => x.rank == q))).2 else 0)) →
                  times = chainTimes r1.gang.length o.rows o.slivers →
                  outs = (d.patch (envOf s2 r1) 4 o.els).1.runs ++
                    (if d.has 5 then (d.patch (envOf s2 r1) 5 o.els).1.runs else []) →
                  stat = todStat r1 d (todRecord r1 fl 0 (!missing.isEmpty) o.oob (sumN sats) o.result) →
                  ∀ writes x, writes = stageWrites s2 d ++ outs ++ stat →
                  chkAll s1 tn from_ (writes.map (fun x => (x.1, x.2.length))) = x →
                  (x ≠ .ok → exec c s = .next (keepQueue s (settle (faultRun r1.eng x s2)))) ∧
                  (∀ b, x = .ok → gangBad s2 r1.gang (((outs ++ stat).filter (throughCache s2 r1.gang)).map
                      (fun x => (x.1, x.2.length))) = some b →
                    exec c s = .next (keepQueue s (settle (dropBad b.1 b.2 s2)))) ∧
                  (x = .ok → gangBad s2 r1.gang (((outs ++ stat).filter (throughCache s2 r1.gang)).map
                      (fun x => (x.1, x.2.length))) = none →
                    -- writes through a cache, each by the member that makes it
                    ∀ cached own, cached = (outs ++ stat).any (throughCache s2 r1.gang) →
                    own = (if cached then (List.range r1.gang.length).flatMap (fun q =>
                        ((d.patch (envOf s2 r1) 4 (o.els.filter (fun x => x.rank == q))).1.runs ++
                          (if d.has 5 then (d.patch (envOf s2 r1) 5 (o.els.filter (fun x => x.rank == q))).1.runs else []) ++
                          (if q = 0 then stat else [])).map (fun x => (q, x)))
                      else []) →
                    exec c s = .next (keepQueue s (settle (
                      let s3 := gangWrites tn r1.gang (own.filter (fun x => throughCache s2 r1.gang x.2))
                        (doWork r1.eng
                          { reads := from_
                            writes := writes.filter (fun x =>
                              !(cached && (outs ++ stat).contains x && throughCache s2 r1.gang x))
                            flags := fl, cycles := times.1 + (if d.sync then 16 else 0), pushes := [] } (draw s2))
                      let s4 := modRun r1.eng (fun x => { x with
                        pos := x.pos + 1, worked := decide (count ≤ r1.pos + 1)
                        unsynced := if r1.gang.length ≤ 1 then [] else writtenBy d o.els x.unsynced }) s3
                      let s5 := r1.gang.zipIdx.foldl (fun s c => cnt R.ncCoreChain c.1 (times.2.getD c.2 0)
                        (cnt R.ncCoreSat c.1 (sats.getD c.2 0) (cnt R.ncCoreTods c.1 1 s))) s4
                      holdAccs r1 d (decide (count ≤ r1.pos + 1)) o.accs (missing.foldl (fun s c => cnt R.ncCoreFault c 1 s)
                        (cnt R.ncMcastRows 0 o.rows.flatten.eraseDups.length s5))))))))))))))

/-- A division rounds to nearest, ties to even; a clamp stays in its range and keeps what is in it; a VALIDITY byte has
VALID exactly where no other flag is set; an output carries the flags of its inputs, its producer and its engine; a
counter saturates. (00_scope, 02_frame_graph, 09_arithmetic, 17_functional_safety.) -/
def Obligations.RoundingFlagsAndCounters : Prop :=
  (∀ (a : Int) (b : Nat), 0 < b → 2 * (a - rneDiv a b * b) ≤ b ∧ -(b : Int) ≤ 2 * (a - rneDiv a b * b) ∧
    (2 * (a - rneDiv a b * b) = b ∨ 2 * (a - rneDiv a b * b) = -(b : Int) → rneDiv a b % 2 = 0)) ∧
  (∀ lo hi x : Int, lo ≤ hi → lo ≤ clampI lo hi x ∧ clampI lo hi x ≤ hi ∧ (lo ≤ x → x ≤ hi → clampI lo hi x = x)) ∧
  (∀ f : Nat, (bit (validity f) 0 = true ↔ flagBits f = 0) ∧ (∀ n, 1 ≤ n → n ≤ 4 → bit (validity f) n = bit f n) ∧
    (∀ n, 5 ≤ n → bit (validity f) n = false)) ∧
  (∀ (s : State) (r : Run) (own n : Nat), bit (outFlags s r own) n = true ↔ 1 ≤ n ∧ n ≤ 4 ∧
    (bit (inputFlags s r.task) n = true ∨ bit own n = true ∨ bit (goldenFlags s r) n = true)) ∧
  (∀ (s : State) (off idx n : Nat), registersOk s → off < 0x1000000 →
    rget (cnt off idx n s) off idx = min (rget s off idx + n) (2 ^ 32 - 1) ∧
    (∀ off' idx', off' < 0x1000000 → (off', idx') ≠ (off, idx) → rget (cnt off idx n s) off' idx' = rget s off' idx'))

/-- A stream context takes its pass of the mode, reads its descriptor (readMark) and runs it; a pass at work is looked at
again. A pass whose context or millrace its tenant is not granted asks for its instance's abort, one that fails its
checks ends with the status, one whose descriptor or tensors cannot be read with that fault, and one that passes opens
its wheels and asks for slots; the last slot of a piece reads its bytes and writes them. A read that comes back is
accounted to the pass under whose tag it was issued, and is stale and counted where none runs under it: corrected, it is
fetched once more; failed, it is retried 4 times at most within 2 µs of the first failure; an uncorrectable,
unsupported, aborted, poisoned or unauthentic one, or one without retries left, ends the pass with the fault of its
cause, and so does a completion timeout of a host read. Where the specification leaves it open, this is the model's
choice: log entries 67, 73, 78, 79, 167, 175, 187. (12_data_movement, 14_host_network_ports.) -/
def Obligations.StreamPassesMoveAndFault : Prop :=
  (∀ (s s1 : State) (ctx : Nat) (k : Task), alive s = true → ctx < 256 → runOn s (engCtx ctx) = none →
    pickObj s 7 (engCtx ctx) = some k →
    s1 = readMark k.tenant (descAddr s k) (descBytes 7) (dispatch k (engCtx ctx) [] s) →
    runOn (dispatch k (engCtx ctx) [] s) (engCtx ctx) = some (newRun s k (engCtx ctx) []) ∧
    exec (if bit (wd (descWords s k 1) 0) 8 then .streamTensor ctx else .streamCopy ctx) s =
      .next (keepQueue s (match runOn s1 (engCtx ctx) with
        | some r => settle (passGo (engCtx ctx) r s1)
        | none => s1)) ∧
    exec (if bit (wd (descWords s k 1) 0) 8 then .streamCopy ctx else .streamTensor ctx) s = .next s) ∧
  (∀ (s : State) (ctx : Nat), alive s = true → ctx < 256 →
    ((runOn s (engCtx ctx) = none ∧ pickObj s 7 (engCtx ctx) = none) ∨
      (∃ r, runOn s (engCtx ctx) = some r ∧ (r.task.cls ≠ 7 ∨ r.worked = true ∨ r.cancelled = true)) →
    exec (.streamCopy ctx) s = .next s ∧ exec (.streamTensor ctx) s = .next s)) ∧
  (∀ (s : State) (ctx : Nat) (r : Run), alive s = true → ctx < 256 → runOn s (engCtx ctx) = some r → r.task.cls = 7 →
    r.worked = false → r.cancelled = false →
    exec (if bit (wd (descWords s r.task 1) 0) 8 then .streamTensor ctx else .streamCopy ctx) s =
      .next (keepQueue s (settle (passGo (engCtx ctx) r s)))) ∧
  (∀ (eng : Nat) (r : Run) (s : State) (w : List Nat), r.info = [] → w = descWords s r.task 32 →
    (∀ x, chkAccess s r.task.tenant (descAddr s r.task) 128 false = x → x ≠ .ok →
      passGo eng r s = streamFault eng r (chkCause x) (chkAddr x) (passLog x r.task.tenant (engRef eng) s)) ∧
    (∀ x, chkAccess s r.task.tenant (descAddr s r.task) 128 false = .ok → chkAll s r.task.tenant (passReads s r w) [] = x →
      (x ≠ .ok → passGo eng r s = faultPass eng (chkCause x) (chkAddr x)
        (passLog x r.task.tenant (engRef eng) (takePass eng (passD s eng r) 1 s))) ∧
      (∀ granted d, x = .ok → d = passD s eng r →
        granted = (ctxGranted s r.task.tenant (ctxOf eng) &&
          (!bit (wd w 0) 16 || mrqGranted s r.task.tenant (bits (wd w 0) 26 17))) →
        (granted = false → passGo eng r s = wantAbort r.task.tmpl r.task.slot 2 s) ∧
        (∀ st, granted = true → passCheck s eng r d = st → st ≠ 0 → passGo eng r s = failPass eng d st s) ∧
        (granted = true → passCheck s eng r d = 0 → passGo eng r s =
          (let s1 := if d.src.wheel && !d.tensor then openCons d.src.key r (d.src.lines s d.length) s else s
           let s2 := if d.dst.wheel && !d.tensor then openProd d.dst.key r (d.dst.lines s d.length) s1 else s1
           takeSlots eng (takePass eng d (if passWhole s r d then 1 else (copyPieces d).length) s2)))))) ∧
  (∀ (eng : Nat) (r : Run) (s : State), r.info ≠ [] →
    passGo eng r s = if passMoved r = true then endPass eng r s else takeSlots eng s) ∧
  (∀ (eng off n : Nat) (r : Run) (d : PassD) (s : State), d.src.wheel = false → d.dst.wheel = false →
    ∀ x, passChk s r [(d.src.addr + off, n)] [(d.dst.addr + off, n)] = x →
    copyPiece eng r d off n s =
      if x = .ok then (true, modRun eng (fun r => { r with pos := r.pos + 1, aux := 0, lent := none })
        (passWrite eng r d (d.dst.addr + off) (rdBytes (withLent r s) r.task.tenant (d.src.addr + off) n)
          (touchRead (d.src.addr + off) n s)))
      else (false, faultPass eng (chkCause x) (chkAddr x) (passLog x r.task.tenant (engRef eng) s))) ∧
  (∀ (s : State) (ctx addr : Nat) (r : Run), alive s = true → ctx < 256 → runOn s (engCtx ctx) = some r →
    r.task.cls = 7 → r.worked = false → r.cancelled = false → r.info ≠ [] → r.task.tag < 256 →
    exec (.streamReadReturn ctx .good ⟨addr, r.task.tag⟩) s = .next (keepQueue s (settle (readDone (engCtx ctx) addr s))) ∧
    (r.refetched.contains addr = false → exec (.streamReadReturn ctx .flitCorrected ⟨addr, r.task.tag⟩) s =
      .next (keepQueue s (settle (cnt R.strCtxRefetch ctx 1 (modRun (engCtx ctx)
        (fun r => { r with refetch := r.refetch + 1, refetched := addr :: r.refetched })
        (readDone (engCtx ctx) addr (countCe (engRef (engCtx ctx)) 1 s))))))) ∧
    (r.refetched.contains addr = true → exec (.streamReadReturn ctx .flitCorrected ⟨addr, r.task.tag⟩) s =
      .next (keepQueue s (settle (addLog 0x0011 r.task.tenant (engRef (engCtx ctx)) ctx addr (addr / 2 ^ 32)
        (readDone (engCtx ctx) addr (countCe (engRef (engCtx ctx)) 1 s)))))) ∧
    (r.retries.find? (fun x => x.1 == addr) = none → exec (.streamReadReturn ctx .hbmRetry ⟨addr, r.task.tag⟩) s =
      .next (keepQueue s (settle (modRun (engCtx ctx)
        (fun r => { r with hbmRetry := r.hbmRetry + 1, retries := (addr, 1, s.now) :: r.retries }) s)))) ∧
    (∀ n t, r.retries.find? (fun x => x.1 == addr) = some (addr, n, t) →
      exec (.streamReadReturn ctx .hbmRetry ⟨addr, r.task.tag⟩) s = .next (keepQueue s (settle (
        if n < 4 ∧ s.now < t + 2000 then modRun (engCtx ctx) (fun r => { r with
          hbmRetry := r.hbmRetry + 1
          retries := (addr, n + 1, t) :: r.retries.filter (fun x => x.1 != addr) }) s
        else faultPass (engCtx ctx) 2 addr (queueHbm addr s))))) ∧
    exec (.streamReadReturn ctx .hbmExhausted ⟨addr, r.task.tag⟩) s =
      .next (keepQueue s (settle (faultPass (engCtx ctx) 2 addr (queueHbm addr s)))) ∧
    (∀ x ∈ [(ReadOutcome.flitBad, 1), (.unsupported, 3), (.aborted, 4), (.poisoned, 5)],
      exec (.streamReadReturn ctx x.1 ⟨addr, r.task.tag⟩) s =
        .next (keepQueue s (settle (faultPass (engCtx ctx) x.2 addr s)))) ∧
    exec (.streamReadReturn ctx .envelopeBad ⟨addr, r.task.tag⟩) s =
      .next (keepQueue s (settle (faultPass (engCtx ctx) 10 addr (cnt R.secEnvFail 0 1 s)))) ∧
    (hostBase ≤ addr → exec (.pcieCompletionTimeout ctx ⟨addr, r.task.tag⟩) s =
      .next (keepQueue s (settle (faultPass (engCtx ctx) 6 addr s)))) ∧
    (addr < hostBase → exec (.pcieCompletionTimeout ctx ⟨addr, r.task.tag⟩) s = .next s)) ∧
  (∀ (s : State) (ctx addr : Nat) (r : Run) (o : ReadOutcome), alive s = true → ctx < 256 →
    runOn s (engCtx ctx) = some r → r.task.cls = 7 → r.cancelled = false → r.task.tag < 256 → r.worked = true ∨ r.info = [] →
    exec (.streamReadReturn ctx o ⟨addr, r.task.tag⟩) s = .next s ∧
    exec (.pcieCompletionTimeout ctx ⟨addr, r.task.tag⟩) s = .next s) ∧
  (∀ (s : State) (ctx addr tag : Nat) (o : ReadOutcome), alive s = true → ctx < 256 → tag < 256 →
    (∀ r, runOn s (engCtx ctx) = some r → r.task.cls ≠ 7 ∨ r.cancelled = true ∨ r.task.tag ≠ tag) →
    exec (.streamReadReturn ctx o ⟨addr, tag⟩) s = .next (cnt R.seqStaleCnt 0 1 s) ∧
    exec (.pcieCompletionTimeout ctx ⟨addr, tag⟩) s = .next (cnt R.seqStaleCnt 0 1 s))

/-- Publications. Each destination takes its task, reads its descriptor (readMark) and checks it: one that fails its check
fails, one whose descriptor or payload cannot be read faults, one that passes waits for its commit; a task of another
destination is left alone. A record of the host ring is written and its producer index and message follow in the same
command; an Ethernet record is committed when the transmit buffer has room for all its datagrams (or the link is down),
and the frame in transmission makes room for the next; a CSI-2 record commits with its frame start on a port in publish
mode, and the frame's lines wait for the task's completion. A payload that cannot be read at the commit faults. Where
the specification leaves it open, this is the model's choice: log entries 123, 124, 125, 179, 194.
(14_host_network_ports.) -/
def Obligations.PublicationsReachTheirDestination : Prop :=
  (∀ (s : State) (n eng kind : Nat) (c : Instr) (go : Run → State → State), alive s = true → n < 2 →
    ((kind = 0 ∧ eng = engU 0x08 n ∧ c = .publishEthernet n ∧ go = pubStart eng) ∨
      (kind = 1 ∧ eng = engU 0x07 n ∧ c = .publishHostRing n ∧ go = fun r s => ringCommit eng (pubStart eng r s)) ∨
      (kind = 2 ∧ eng = engU 0x06 (14 + n) ∧ c = .publishCsi2Tx n ∧ go = pubStart eng)) →
    (∀ k s1, runOn s eng = none → pickObj s 8 eng = some k → pubDest s kind k = true →
      s1 = readMark k.tenant (descAddr s k) (descBytes 8) (dispatch k eng [] s) →
      runOn (dispatch k eng [] s) eng = some (newRun s k eng []) ∧
      exec c s = .next (keepQueue s (match runOn s1 eng with
        | some r => settle (go r s1)
        | none => s1))) ∧
    (runOn s eng = none → (pickObj s 8 eng).all (fun k => !pubDest s kind k) = true → exec c s = .next s) ∧
    (∀ r, runOn s eng = some r →
      (r.task.cls = 8 → r.worked = false → r.cancelled = false → pubDest s kind r.task = true →
        exec c s = .next (keepQueue s (settle (go r s)))) ∧
      (r.task.cls ≠ 8 ∨ r.worked = true ∨ r.cancelled = true ∨ pubDest s kind r.task = false → exec c s = .next s))) ∧
  (∀ (eng : Nat) (r : Run) (s : State) (w : List Nat), w = descWords s r.task 32 →
    (r.info ≠ [] → pubStart eng r s = s) ∧
    (∀ x, r.info = [] → chkAll s r.task.tenant [(descAddr s r.task, 128)] [] = x →
      (x ≠ .ok → pubStart eng r s = pubFault eng x s) ∧
      (x = .ok → pubCheck s r w ≠ 0 → pubStart eng r s = pubFail eng (pubCheck s r w) s) ∧
      (∀ y, x = .ok → pubCheck s r w = 0 → chkAll s r.task.tenant (pubReads r w) [] = y →
        pubStart eng r s = if y = .ok then modRun eng (fun r => { r with info := w }) (touchRead (descAddr s r.task) 128 s)
          else pubFault eng y s))) ∧
  (∀ (eng : Nat) (s : State), pubWaiting s eng = none → ringCommit eng s = s) ∧
  (∀ (eng : Nat) (s : State) (r : Run) (slot : Nat), pubWaiting s eng = some r →
    slot = addr48 r.info 12 + pubSeqOf s r.task % max 1 (bits (wd r.info 14) 15 0) * pubSlotBytes r.info →
    ∀ x, chkAll s r.task.tenant (pubReads r r.info) [(slot, 64 + pubLen s r r.info), (addr48 r.info 15, 4)] = x →
    ringCommit eng s = (
      let p := pubPayload s r r.info
      let s1 := wrBytes r.task.tenant slot (segBytes s (pubHdr s r r.info) 0 1 0 p.1) p.2
      let s2 := wrBytes r.task.tenant (addr48 r.info 15) (leBytes 4 (w32 (pubSeqOf s r.task + 1))) s1
      if x = .ok then pubDone eng (pubFlags s r) (pubCount r.task
        (if bit (wd r.info 1) 22 then msixEvent r.task.tenant (bits (wd r.info 17) 10 0) s2 else s2))
      else pubFault eng x s)) ∧
  (∀ (s : State) (m used : Nat) (r : Run) (fr : List (List Byte)) (x : Chk), alive s = true → m < 2 →
    pubWaiting s (engU 0x08 m) = some r → chkAll s r.task.tenant (pubReads r r.info) [] = x →
    fr = pubFrames s m (pubHdr s r r.info) r.info (pubPayload s r r.info).1 →
    used = macUsed (macSt s m) + (match (macSt s m).sending with | some f => f.length | none => 0) →
    exec (.ethRecordCommit m) s = .next (keepQueue s (
      if x ≠ .ok then settle (pubFault (engU 0x08 m) x s)
      else if macUp s m = true ∧ 2097152 < used + sumN (fr.map List.length) then s
      else queueFrames m (pubPcp r.info) fr (pubDone (engU 0x08 m) (pubFlags s r) (pubCount r.task (cnt R.ethTxRec m 1
        { (pubPayload s r r.info).2 with free := (pubPayload s r r.info).2.free + fr.length })))))) ∧
  (∀ (s : State) (m : Nat), alive s = true → m < 3 →
    exec (.ethFrameSent m) s = .next (keepQueue s (if (macSt s m).sending.isSome = true then
      macKick m (modMac m (fun q => { q with sending := none }) s) else s))) ∧
  (∀ (s : State) (tx : Nat) (r : Run), alive s = true → tx < 2 → pubWaiting s (engU 0x06 (14 + tx)) = some r →
    (tget txReset s.cam.tx tx).mode ≠ 1 → exec (.csi2TxCommit tx) s = .next s) ∧
  (∀ (s : State) (tx vc : Nat) (r : Run) (x : Chk), alive s = true → tx < 2 → pubWaiting s (engU 0x06 (14 + tx)) = some r →
    (tget txReset s.cam.tx tx).mode = 1 → chkAll s r.task.tenant (pubReads r r.info) [] = x →
    vc = bits (wd r.info 0) 7 4 →
    exec (.csi2TxCommit tx) s = .next (keepQueue s (
      let p := pubPayload s r r.info
      let pay := p.1
      let head := fun (h : RecHdr) (l : List Byte) => (segBytes s h 0 1 0 l).take 64
      let f : TxFrame := {
        vc := vc, dt := bits (wd r.info 18) 21 16, line := bits (wd r.info 18) 15 0, pay := pay
        head := head (pubHdr s r r.info) pay
        cut := head { pubHdr s r r.info with validity := validity (pubFlags s r ||| fInvalid) }
          (List.replicate pay.length 0) }
      if x = .ok then pubDone (engU 0x06 (14 + tx)) (pubFlags s r) (pubCount r.task (emit (.csi2 (14 + tx) vc 0 [])
        { p.2 with cam := { p.2.cam with txFrame := tset none p.2.cam.txFrame tx (some f) } }))
      else settle (pubFault (engU 0x06 (14 + tx)) x s)))) ∧
  (∀ (s : State) (n : Nat), alive s = true → n < 2 →
    (pubWaiting s (engU 0x08 n) = none → exec (.ethRecordCommit n) s = .next s) ∧
    (pubWaiting s (engU 0x06 (14 + n)) = none → exec (.csi2TxCommit n) s = .next s))

/-- Firmware nodes. The Sequencer Control Processor takes the next task of the action, or one whose action is reserved, and
reads its descriptor (readMark); a task of another action, and one that is done, is left alone. A task flagged INVALID
by its inputs does nothing; a descriptor that cannot be read or breaks its rules fails. An accepted one submits a
settings set, rearms a base ring, pushes a handle, sets a shared counter or sends a message; an argument that cannot be
read, and an action refused with a status, fails with every object unchanged but the drop count of a millrace that is
not enabled. Where the specification leaves it open, this is the model's choice: log entries 130, 156, 166.
(02_frame_graph.) -/
def Obligations.FirmwareNodesAct : Prop :=
  (∀ (s : State) (c : Instr) (a : Nat) (go : Run → List Nat → Nat → State → State), alive s = true →
    ((c = .fwSettings ∧ a = 1 ∧ go = fwSettings) ∨ (c = .fwRearm ∧ a = 2 ∧ go = fwRearm) ∨
      (c = .fwPush ∧ a = 3 ∧ go = fwPush) ∨ (c = .fwCounterSet ∧ a = 4 ∧ go = fwCounterSet) ∨
      (c = .fwNotify ∧ a = 5 ∧ go = fwNotify)) →
    (∀ k s1, runOn s fwEng = none → pickObj s 9 fwEng = some k → fwIs s a k = true →
      s1 = readMark k.tenant (descAddr s k) (descBytes 9) (dispatch k fwEng [] s) →
      runOn (dispatch k fwEng [] s) fwEng = some (newRun s k fwEng []) ∧
      exec c s = .next (keepQueue s (match runOn s1 fwEng with
        | some r => settle (fwGo go r s1)
        | none => s1))) ∧
    (runOn s fwEng = none → (pickObj s 9 fwEng).all (fun k => !fwIs s a k) = true → exec c s = .next s) ∧
    (∀ r, runOn s fwEng = some r →
      (r.task.cls ≠ 9 ∨ r.worked = true ∨ r.cancelled = true ∨ fwIs s a r.task = false → exec c s = .next s) ∧
      (∀ fl s0 w x, r.task.cls = 9 → r.worked = false → r.cancelled = false → fwIs s a r.task = true →
        fl = outFlags s r 0 → s0 = modRun fwEng (fun x => { x with flags := fl }) s → w = descWords s r.task 16 →
        chkAccess s r.task.tenant (descAddr s r.task) 64 false = x →
        exec c s = .next (keepQueue s (settle (
          if bit fl 1 = true then fwDone fl s
          else if x ≠ .ok then fwFault (fwAction (descWords s r.task 1)) x s0
          else if fwCheck w ≠ 0 then fwFail (fwAction w) (fwCheck w) s0
          else go r w fl s0)))))) ∧
  (∀ (r : Run) (s : State) (go : Run → List Nat → Nat → State → State) (fl : Nat) (s0 : State) (w : List Nat) (x : Chk),
    fl = outFlags s r 0 → s0 = modRun fwEng (fun x => { x with flags := fl }) s → w = descWords s r.task 16 →
    chkAccess s r.task.tenant (descAddr s r.task) 64 false = x →
    fwGo go r s =
      if bit fl 1 = true then fwDone fl s
      else if x ≠ .ok then fwFault (fwAction (descWords s r.task 1)) x s0
      else if fwCheck w ≠ 0 then fwFail (fwAction w) (fwCheck w) s0
      else go r w fl s0) ∧
  (∀ (r : Run) (w set : List Nat) (fl a n : Nat) (s : State) (x y : Chk), a = addr48 w 1 →
    n = 1 + 2 * setCount (rdWords s r.task.tenant a 1) → set = rdWords s r.task.tenant a n →
    chkAccess s r.task.tenant a 4 false = x → chkAccess s r.task.tenant a (4 * n) false = y →
    fwSettings r w fl s =
      if x ≠ .ok then fwFault 1 x s
      else if y ≠ .ok then fwFault 1 y s
      else match settingsCheck s r.task.tenant set with
        | some e => fwFail 1 e.1 s
        | none => fwDone fl (settingsApply set (touchRead a (4 * n) s))) ∧
  (∀ (r : Run) (w e : List Nat) (fl ctx : Nat) (s : State) (x : Chk),
    chkAccess s r.task.tenant (addr48 w 1) 8 false = x →
    e = rdWords s r.task.tenant (addr48 w 1) 2 → ctx = bits (wd w 3) 7 0 →
    fwRearm r w fl s =
      if x ≠ .ok then fwFault 2 x s
      else if rearmReserved (wd e 1) = true then fwFail 2 0x01 s
      else if ownsCtx s r.task.tenant ctx = false then fwFail 2 0x04 s
      else fwDone fl (rearmEntry ctx (bits (wd w 3) 13 8) (wd e 0) (wd e 1) (touchRead (addr48 w 1) 8 s))) ∧
  (∀ (r : Run) (w : List Nat) (fl m : Nat) (s : State) (x : Chk), chkAccess s r.task.tenant (addr48 w 1) 4 false = x →
    m = bits (wd w 3) 9 0 →
    fwPush r w fl s =
      if x ≠ .ok then fwFault 3 x s
      else if mrqGranted s r.task.tenant m = false then fwFail 3 0x04 s
      else if mrqEn s m = false then fwFail 3 0x02 (cnt R.mrqDrop m 1 s)
      else presentPush { pushOf r m 0 with handle := rdN s r.task.tenant (addr48 w 1) 4 }
        (fwDone fl (touchRead (addr48 w 1) 4 s))) ∧
  (∀ (r : Run) (w : List Nat) (fl : Nat) (s : State),
    fwCounterSet r w fl s = if arrExists (wd w 3) = false then fwFail 4 0x03 s
      else if holdsShare s r.task.tenant (bits (wd w 3) 16 16) (bits (wd w 3) 15 8) = false then fwFail 4 0x04 s
      else fwDone fl (arrSet (arrKey (wd w 3)) (wd w 4) s)) ∧
  (∀ (r : Run) (w : List Nat) (fl : Nat) (s : State),
    fwNotify r w fl s = if r.task.tenant < nFns s ∧ bits (wd w 3) 10 0 < msixCount r.task.tenant then
      fwDone fl (msixEvent r.task.tenant (bits (wd w 3) 10 0) s) else fwFail 5 0x02 s) ∧
  (∀ (r : Run) (a st : Nat) (s : State), runOn s fwEng = some r →
    fwFail a st s = modRun fwEng (fun r => { r with worked := true, flags := r.flags ||| fInvalid })
      (addLog 0x0019 r.task.tenant fwEng a st 0 s))

/-- A function-level reset, one of PF0 also of every VF of its port; PERST# and a hot reset of a port; a clear of VF Enable:
each resets the functions, and a function that is reset refuses requests until its reset is done, while its tenant's
templates are disarmed and doomed, its windows closed, the tenant destroyed (destroyTenant) and its messages forgotten.
The DOE mailbox answers a Discovery object written while it is not busy and discards any other; an abort discards what
is left of a response and ends the busy time. Where the specification leaves it open, this is the model's choice: log
entries 131, 132, 133. (14_host_network_ports.) -/
def Obligations.FunctionsResetTheirTenants : Prop :=
  (∀ (s : State) (fn : Nat), alive s = true → fn < 32 →
    exec (.flr fn) s = .next (keepQueue s (settle (if isPf fn then
      (List.range 16).foldl (fun s i => resetFn (16 * portOf fn + i) s) s else resetFn fn s)))) ∧
  (∀ (s : State) (port : Nat), alive s = true → port < 2 →
    exec (.perstAssert port) s = .next (keepQueue s (settle
      ((List.range 16).foldl (fun s i => resetFn (16 * port + i) s) s))) ∧
    exec (.hotReset port) s = .next (keepQueue s (settle
      ((List.range 16).foldl (fun s i => resetFn (16 * port + i) s) s))) ∧
    exec (.vfEnableClear port) s = .next (keepQueue s (settle
      ((List.range 15).foldl (fun s i => resetFn (16 * port + 1 + i) s) s)))) ∧
  (∀ (s : State) (f : Nat), nFns s ≤ f → resetFn f s = s) ∧
  (∀ (s : State) (f : Nat), f < nFns s → resetFn f s = (
    let s1 := modFn f (fun x => { x with resetting := true, negotiated := none }) s
    let s2 := s1.seq.tmpls.foldl (fun s e => match e.2 with
      | some v => if v.tenant = f then disarmAbort e.1 (modTmpl e.1 (fun v => { v with doomed := true }) s) else s
      | none => s) s1
    let s3 := (List.range 64).foldl (fun s i => winClose (64 * f + i) false s) s2
    let s4 := destroyTenant f (dropLanes f s3)
    { s4 with msix := s4.msix.filter (fun e => e.1 / 4096 != f), msixPend := s4.msixPend.filter (fun k => k / 4096 != f) })) ∧
  (∀ (s : State) (f l : Nat), (fnSt s f).resetting = true → nextPkt s (.lane f l) = none) ∧
  (∀ (s : State) (fn : Nat), alive s = true → fn < 32 →
    exec (.functionResetDone fn) s = .next (keepQueue s (if (fnSt s fn).resetting then
      modFn fn (fun x => { x with resetting := false }) s else s))) ∧
  (∀ (s : State) (port index : Nat) (body : List Byte), alive s = true → port < 2 →
    body = wordsBytes [0x00000001, 3] ++ discoveryWord index →
    exec (.doeDiscovery port index) s = .next (keepQueue s (
      if portExists s port = true ∧ (fnSt s (16 * port)).resetting = false ∧ (portSt s port).doeFree ≤ s.now then
        emit (.doe port body) (draw (modPort port
          (fun q => { q with doeResp := body, doeFree := s.now + Config.doeTime s.free }) s))
      else s))) ∧
  (discoveryWord 0 = wordsBytes [0x01000001] ∧ discoveryWord 1 = wordsBytes [0x00010001]) ∧
  (∀ (s : State) (port : Nat), alive s = true → port < 2 →
    exec (.doeAbort port) s = .next (keepQueue s (if portExists s port then
      modPort port (fun q => { q with doeResp := [], doeFree := s.now }) s else s)))

/-- R354: Links. A host link that goes down is counted, forgets its speed and any PTM request under way, and ends the passes
of its functions that read through it with a completion timeout; one that comes up, on a port that is there and at a
width it has, takes its speed and width and wakes the device. A posted write toward a port is discarded and counted
while its link is down. -/
def Obligations.LinksGoDownAndUp : Prop :=
  (
  (∀ (s : State) (p : Nat), alive s = true → p < 2 → (portSt s p).up = false → exec (.linkDown p) s = .next s) ∧
  (∀ (s : State) (p : Nat), alive s = true → p < 2 → (portSt s p).up = true →
    exec (.linkDown p) s = .next (keepQueue s (settle (s.seq.runs.foldl (fun s r =>
      if r.task.tenant < 32 && portOf r.task.tenant == p then
        (match passReading s r with | some a => faultPass r.eng 6 a s | none => s)
      else s)
      (cnt R.hostPortDldown p 1 (modPort p (fun q => { q with up := false, speed := 0, width := 0, ptmOut := false }) s)))))) ∧
  (∀ (s : State) (p speed width : Nat), alive s = true → p < 2 → 1 ≤ speed → speed ≤ 5 → width ∈ [1, 2, 4, 8] →
    exec (.linkUp p speed width) s = .next (keepQueue s (
      if portExists s p = true ∧ ¬(s.bifurcated = true ∧ width = 8) then
        wakeDevice (modPort p (fun q => { q with up := true, speed := speed, width := width }) s) else s))) ∧
  (∀ s : State, wakeDevice s = if s.pwr.st = .sleep then { s with pwr := { s.pwr with st := .waking } } else s)) ∧
  (
  ∀ (s : State) (fn a : Nat) (l : List Byte), fn < 32 → (portSt s (portOf fn)).up = false →
    hostPut fn a l s = cnt R.hostPortDiscard (portOf fn) 1 s)

/-- Network links. An Ethernet link that comes up sends what waits; one that goes down discards and counts what was queued,
is no longer 802.1AS capable and forgets the delay it measured. The management link shows its state and speed, and
discards what was queued when it goes down. Received frames. A request for the port's own address is answered, on a MAC
at most 100 times a second of each kind and no echo whose packet is longer than the MTU; any other request and every
other frame is dropped, and counted on a MAC; on a link that is down, or a MAC that is not enabled, nothing is received.
Where the specification leaves it open, this is the model's choice: log entries 126, 127, 128, 129.
(14_host_network_ports.) -/
def Obligations.NetworkLinksAndFrames : Prop :=
  (
  (∀ (s : State) (m : Nat), alive s = true → m < 2 →
    exec (.ethLinkChange m true) s = .next (keepQueue s (macKick m (modMac m (fun q => { q with link := true }) s))) ∧
    exec (.ethLinkChange m false) s = .next (keepQueue s (cnt R.ethTxLinkdrop m
      (sumN ((macSt s m).queues.map (fun e => e.2.length)) + (macSt s m).ahead.length)
      (modMac m (fun q => { q with link := false, queues := [], ahead := [], asCapable := false, asSent := none,
                                   linkDelay := none }) s)))) ∧
  (∀ (s : State) (speed : Nat), alive s = true → speed < 3 →
    exec (.mgtLinkChange true speed) s = .next (keepQueue s (modMac 2 (fun q => { q with link := true })
      (rput R.mgtStat 0 (1 + 2 * speed) s))) ∧
    exec (.mgtLinkChange false speed) s = .next (keepQueue s (modMac 2
      (fun q => { q with link := false, ahead := [], queues := [] }) (rput R.mgtStat 0 (2 * speed) s))))) ∧
  (
  (∀ (s : State) (m : Nat) (sha spa tpa : List Byte), alive s = true → m < 2 → sha.length = 6 → spa.length = 4 →
    tpa.length = 4 →
    exec (.ethArpRequest m sha spa tpa) s = .next (keepQueue s (
      if macUp s m = false then s
      else if rget s R.ethIp4 m ≠ 0 ∧ tpa = ownIp4 s m ∧ (recentTimes s.now (macSt s m).arpTimes).length < 100 then
        queueFrames m 0 [etherFrame sha (ownMac s m) none 0x0806
          ([0x00, 0x01, 0x08, 0x00, 0x06, 0x04, 0x00, 0x02] ++ ownMac s m ++ ownIp4 s m ++ sha ++ spa)]
          (modMac m (fun q => { q with arpTimes := s.now :: recentTimes s.now q.arpTimes }) s)
      else cnt R.ethRxDrop m 1 s))) ∧
  (∀ (s : State) (m : Nat) (src target sll dst dmac : List Byte), alive s = true → m < 3 → src.length = 16 →
    target.length = 16 → sll.length = 6 →
    dst = (if src = List.replicate 16 0 then [0xFF, 0x02] ++ List.replicate 13 0 ++ [0x01] else src) →
    dmac = (if src = List.replicate 16 0 then [0x33, 0x33, 0x00, 0x00, 0x00, 0x01] else sll) →
    exec (.ethNeighborSolicitation m src target sll) s = .next (keepQueue s (
      if rxUp s m = false then s
      else if target = portIp6 s m ∧
          (m ≠ 2 → ownIp6 s m ≠ List.replicate 16 0 ∧ (recentTimes s.now (macSt s m).ndTimes).length < 100) then
        answer m (etherFrame dmac (portMac s m) none 0x86DD (ip6 target dst 58 0 255 (icmp6 target dst 136
          (beBytes 4 (if src = List.replicate 16 0 then 0x20000000 else 0x60000000) ++ target ++ [0x02, 0x01] ++
            portMac s m))))
          (modMac m (fun q => { q with ndTimes := s.now :: recentTimes s.now q.ndTimes }) s)
      else if m = 2 then s else cnt R.ethRxDrop m 1 s))) ∧
  (∀ (s : State) (m : Nat) (mac src dst body : List Byte), alive s = true → m < 3 → mac.length = 6 → src.length = 16 →
    dst.length = 16 →
    exec (.ethIcmpEcho m true mac src dst body) s = .next (keepQueue s (
      if rxUp s m = false then s
      else if dst = portIp6 s m ∧ (m ≠ 2 → ownIp6 s m ≠ List.replicate 16 0 ∧ 44 + body.length ≤ macMtu s m ∧
          (recentTimes s.now (macSt s m).echoTimes).length < 100) then
        answer m (etherFrame mac (portMac s m) none 0x86DD
          (ip6 dst src 58 0 (Config.ipTtl % 256) (icmp6 dst src 129 body)))
          (draw (modMac m (fun q => { q with echoTimes := s.now :: recentTimes s.now q.echoTimes }) s))
      else if m = 2 then s else cnt R.ethRxDrop m 1 s))) ∧
  (∀ (s : State) (m : Nat) (mac src dst body : List Byte) (e : Nat → List Byte), alive s = true → m < 2 → mac.length = 6 →
    src.length = 4 → dst.length = 4 → e = (fun c => [0x00, 0x00] ++ beBytes 2 c ++ body) →
    exec (.ethIcmpEcho m false mac src dst body) s = .next (keepQueue s (
      if macUp s m = false then s
      else if dst = ownIp4 s m ∧ rget s R.ethIp4 m ≠ 0 ∧ 24 + body.length ≤ macMtu s m ∧
          (recentTimes s.now (macSt s m).echoTimes).length < 100 then
        queueFrames m 0 [etherFrame mac (ownMac s m) none 0x0800 (ip4 dst src 1 0 s.free (e (inetSum (e 0))))]
          (draw (modMac m (fun q => { q with echoTimes := s.now :: recentTimes s.now q.echoTimes }) s))
      else cnt R.ethRxDrop m 1 s))) ∧
  (∀ (s : State) (mac src dst body : List Byte), alive s = true → mac.length = 6 → src.length = 4 → dst.length = 4 →
    exec (.ethIcmpEcho 2 false mac src dst body) s = .next s) ∧
  (∀ (s : State) (m : Nat) (frame : List Byte), alive s = true → m < 2 →
    exec (.ethRxDrop m frame) s = .next (keepQueue s (if macUp s m then cnt R.ethRxDrop m 1 s else s))))

/-- A link takes a request while its responder runs and the link carries it; nothing else has an effect. A management
message wakes the device and ends handshakes older than 1 s, and the link keeps how the request came; one longer than
8,192 bytes is refused. A connection is built in the order of its requests: GET_VERSION begins it, GET_CAPABILITIES
needs that, NEGOTIATE_ALGORITHMS needs both and a common algorithm; out of order each is an unexpected request. What is
asked and answered enters the transcript. A request that is not supported is answered as such. Digests, certificate,
challenge and measurements are answered on a negotiated connection and are unexpected before it; only slot 0 holds a
chain, of four certificates, and its portions fit; a signed answer ends with a signature of the alias key over the
transcript; there are 8 measurements. Where the specification leaves it open, this is the model's choice: log entries
22, 23, 24, 25, 190, 191. (14_host_network_ports, 16_security_isolation.) -/
def Obligations.SpdmConnections : Prop :=
  (
  (∀ (s : State) (l : SpdmLink) (q : SpdmReq) (n : Nat), alive s = true → l.wf = true →
    ∀ c ∈ [Instr.getVersion l q, .getCapabilities l q, .negotiateAlgorithms l q, .getDigests l q, .getCertificate l q,
        .challenge l q, .getMeasurements l q, .keyExchange l q, .finish l q, .endSession l q, .heartbeat l q,
        .keyUpdate l q, .getEncapsulatedRequest l q, .deliverEncapsulatedResponse l q, .spdmUnsupportedRequest l n q],
      (linkLive s l = false ∨ linkTakes s l q = false → exec c s = .next s) ∧
      (linkLive s l = true → linkTakes s l q = true → 8192 < q.body.length + 2 → exec c s = .next (keepQueue s (
        spdmError l 0x0E (modConn (linkNo l) (fun c => { c with via := q.via })
          (expireMsess (if isDoe l then s else wakeDevice s))))))) ∧
  (∀ (s w : State) (l : SpdmLink) (q : SpdmReq), alive s = true → l.wf = true → linkLive s l = true →
    linkTakes s l q = true → q.body.length + 2 ≤ 8192 →
    w = modConn (linkNo l) (fun c => { c with via := q.via }) (expireMsess (if isDoe l then s else wakeDevice s)) →
    exec (.getVersion l q) s = .next (keepQueue s (spdmSend l 0x04 versionBody (modConn (linkNo l) (fun c =>
      { connReset with via := c.via, version := true
                       said := [0x10, 0x84] ++ q.body ++ [0x10, 0x04] ++ versionBody }) w))) ∧
    exec (.getCapabilities l q) s = .next (keepQueue s (
      if (connSt w (linkNo l)).version then spdmSend l 0x61 (capsBody (isDoe l)) (modConn (linkNo l) (fun c => { c with
        caps := true, algs := false, said := c.said ++ spdmMsg 0xE1 q.body ++ spdmMsg 0x61 (capsBody (isDoe l)) }) w)
      else spdmError l 0x04 w)) ∧
    exec (.negotiateAlgorithms l q) s = .next (keepQueue s (
      if (connSt w (linkNo l)).caps = false then spdmError l 0x04 w
      else if q.param % 64 = 0 then spdmError l 0x01 w
      else spdmSend l 0x63 (algsBody (q.param % 64)) (modConn (linkNo l) (fun c => { c with
        algs := true, said := c.said ++ spdmMsg 0xE3 q.body ++ spdmMsg 0x63 (algsBody (q.param % 64)) }) w))) ∧
    (∀ n, exec (.spdmUnsupportedRequest l n q) s = .next (keepQueue s (spdmError l 0x07 w))))) ∧
  (
  (∀ (s w : State) (l : SpdmLink) (q : SpdmReq), alive s = true → l.wf = true → linkLive s l = true →
    linkTakes s l q = true → q.body.length + 2 ≤ 8192 →
    w = modConn (linkNo l) (fun c => { c with via := q.via }) (expireMsess (if isDoe l then s else wakeDevice s)) →
    ((connSt w (linkNo l)).algs = false →
      ∀ c ∈ [Instr.getDigests l q, .getCertificate l q, .challenge l q, .getMeasurements l q],
      exec c s = .next (keepQueue s (spdmError l 0x04 w))) ∧
    ((connSt w (linkNo l)).algs = true →
      ∀ chain, chain = chainOf [Config.interCert, w.nv.identity.getD Config.deviceIdCert, w.dice.cert1, w.dice.cert2] →
      exec (.getDigests l q) s = .next (keepQueue s (spdmSend l 0x01 (digestsBody chain) (modConn (linkNo l) (fun c => { c with
        certs := c.certs ++ spdmMsg 0x81 q.body ++ spdmMsg 0x01 (digestsBody chain), meas := [] }) w))) ∧
      (q.param = 0 → q.offset < chain.length → ∀ b, b = certBody chain q.offset q.length →
        exec (.getCertificate l q) s = .next (keepQueue s (spdmSend l 0x02 b (modConn (linkNo l) (fun c => { c with
          certs := c.certs ++ spdmMsg 0x82 q.body ++ spdmMsg 0x02 b, meas := [] }) w)))) ∧
      (q.param ≠ 0 ∨ chain.length ≤ q.offset →
        exec (.getCertificate l q) s = .next (keepQueue s (spdmError l 0x01 w))) ∧
      (q.param = 0 → ∀ b said, b = authBody chain (nonceOf w) (summaryHash (leNat ((q.body.drop 1).take 1)) (measurement w))
          ((q.body.drop 34).take 8) →
        said = (connSt w (linkNo l)).said ++ (connSt w (linkNo l)).certs ++ spdmMsg 0x83 q.body ++ spdmMsg 0x03 b →
        exec (.challenge l q) s = .next (keepQueue s (draw (spdmSend l 0x03
          (b ++ dsaSign (w.dice.slot0.getD []) (rndOf w) (spdmSigned "responder-challenge_auth signing" said))
          (modConn (linkNo l) (fun c => { c with certs := [], meas := [] }) w))))) ∧
      (q.param ≠ 0 → exec (.challenge l q) s = .next (keepQueue s (spdmError l 0x01 w))) ∧
      (8 < q.param → q.param ≠ 0xFF → exec (.getMeasurements l q) s = .next (keepQueue s (spdmError l 0x01 w))) ∧
      (q.param ≤ 8 ∨ q.param = 0xFF → ∀ blocks b said,
        blocks = (if q.param = 0 then [] else if q.param = 0xFF then [1, 2, 3, 4, 5, 6, 7, 8] else [q.param]) →
        b = measBody (if q.param = 0 then 8 else 0) (blocks.map (fun n => measBlock n (measurement w n))) (nonceOf w)
          ((q.body.drop (if q.sign then 35 else 2)).take 8) →
        said = (connSt w (linkNo l)).meas ++ spdmMsg 0xE0 q.body ++ spdmMsg 0x60 b →
        exec (.getMeasurements l q) s = .next (keepQueue s (draw (if q.sign then
          spdmSend l 0x60 (b ++ dsaSign (w.dice.slot0.getD []) (rndOf w) (spdmSigned "responder-measurements signing"
            ((connSt w (linkNo l)).said ++ said))) (modConn (linkNo l) (fun c => { c with meas := [] }) w)
          else spdmSend l 0x60 b (modConn (linkNo l) (fun c => { c with meas := said }) w))))))) ∧
  (∀ certs : List (List Byte), (chainOf certs).drop 4 = sha3 Config.rootCert ++ certs.flatten) ∧
  (∀ (chain : List Byte) (off len : Nat), certBody chain off len =
    [0, 0] ++ leBytes 2 ((chain.drop off).take (min len 8184)).length ++
      leBytes 2 (chain.length - off - ((chain.drop off).take (min len 8184)).length) ++ (chain.drop off).take (min len 8184)))

/-- Management sessions: over the DOE mailboxes they are not supported; over MCTP, on a negotiated connection, a key of the
credential set begins one in the lowest free of 8 places with a fresh key, which the answer signs; a key the set lacks,
or no set, is a failed authentication. The encapsulated signature by that key over the connection and the challenge, and
a FINISH whose verify data is right, open the session; a failed one is counted and ends it. END_SESSION, HEARTBEAT and
KEY_UPDATE serve an open one of their own link. A tenant's session that is still in its handshake after 1 s is
discarded. Where the specification leaves it open, this is the model's choice: log entries 21, 22, 23, 190.
(14_host_network_ports, 16_security_isolation.) -/
def Obligations.ManagementSessionsAuthenticate : Prop :=
  (∀ (s w : State) (l : SpdmLink) (q : SpdmReq), alive s = true → l.wf = true → linkLive s l = true →
    linkTakes s l q = true → q.body.length + 2 ≤ 8192 → 
    w = modConn (linkNo l) (fun c => { c with via := q.via }) (expireMsess (if isDoe l then s else wakeDevice s)) →
    (isDoe l = true → ∀ c ∈ [Instr.keyExchange l q, .finish l q, .endSession l q, .heartbeat l q, .keyUpdate l q,
        .getEncapsulatedRequest l q, .deliverEncapsulatedResponse l q],
      exec c s = .next (keepQueue s (spdmError l 0x07 w))) ∧
    (isDoe l = false →
      ((connSt w (linkNo l)).algs = false → exec (.keyExchange l q) s = .next (keepQueue s (spdmError l 0x04 w)) ∧
        exec (.finish l q) s = .next (keepQueue s (spdmError l 0x04 w))) ∧
      ((connSt w (linkNo l)).algs = true →
        (w.sec.cred = none → exec (.keyExchange l q) s =
          .next (keepQueue s (spdmError l 0x01 (cnt R.mgtAuthFail 0 1 w)))) ∧
        (∀ cred, w.sec.cred = some cred → freeMsess w = none →
          exec (.keyExchange l q) s = .next (keepQueue s (spdmError l 0x0A w))) ∧
        (∀ cred n vca msg rsp, w.sec.cred = some cred → freeMsess w = some n → vca = (connSt w (linkNo l)).said →
          msg = spdmMsg 0xE4 q.body → rsp = exchangeRsp w n true vca msg →
          exec (.keyExchange l q) s = .next (keepQueue s (
            if exchangeOk msg = false then spdmError l 0x01 w
            else if q.param < 12 ∧ credHas cred q.param = true then
              draw (spdmSend l 0x64 rsp (putMsess n (some {
                link := linkNo l, stage := 1, owner := decide (q.param < 4), key := q.param, negotiated := none
                since := w.now, secret := (sessionKeys w).2
                said := vca ++ sha3 (certChain w) ++ msg ++ spdmMsg 0x64 rsp
                owned := credKey cred q.param, asked := [], packets := [] }) w))
            else spdmError l 0x01 (cnt R.mgtAuthFail 0 1 w))))) ∧
      (msessAt w q.param = none → 
        (∀ c ∈ [Instr.endSession l q, .heartbeat l q, .keyUpdate l q, .getEncapsulatedRequest l q,
            .deliverEncapsulatedResponse l q], exec c s = .next (keepQueue s (spdmError l 0x02 w))) ∧
        ((connSt w (linkNo l)).algs = true → exec (.finish l q) s = .next (keepQueue s (spdmError l 0x02 w)))) ∧
      (∀ m, msessAt w q.param = some m →
        (m.link ≠ linkNo l ∨ m.stage ≠ 3 → ∀ c ∈ [Instr.endSession l q, .heartbeat l q, .keyUpdate l q],
          exec c s = .next (keepQueue s (spdmError l 0x04 w))) ∧
        (m.link ≠ linkNo l ∨ m.stage ≠ 1 → ∀ c ∈ [Instr.getEncapsulatedRequest l q, .deliverEncapsulatedResponse l q],
          exec c s = .next (keepQueue s (spdmError l 0x04 w))) ∧
        (m.link ≠ linkNo l ∨ m.stage ≠ 2 → exec (.finish l q) s = .next (keepQueue s (spdmError l 0x04 w))) ∧
        (m.link = linkNo l → m.stage = 1 →
          exec (.getEncapsulatedRequest l q) s = .next (keepQueue s (draw (spdmSend l 0x6A ([1, 0] ++ encChallenge w)
            (putMsess q.param (some { m with asked := encChallenge w }) w)))) ∧
          (∀ msg said, msg = q.body.drop 2 →
            said = (connSt w (linkNo l)).said ++ m.asked ++ msg.take (msg.length - 2420) →
            exec (.deliverEncapsulatedResponse l q) s = .next (keepQueue s (
              if m.asked = [] then spdmError l 0x04 w
              else if msg.take 2 = [0x13, 0x03] ∧ dsaVerify m.owned
                  (spdmSigned "requester-challenge_auth signing" said) (msg.drop (msg.length - 2420)) = true then
                spdmSend l 0x6B ([1, 0] ++ q.body.take 1 ++ [0, 0, 0]) (putMsess q.param (some { m with stage := 2 }) w)
              else authFail l q.param 0x01 w)))) ∧
        (m.link = linkNo l → m.stage = 2 → (connSt w (linkNo l)).algs = true →
          ∀ msg shared cm, msg = spdmMsg 0xE5 q.body → shared = kemShared m.secret (finishCipher msg) → cm = sha3 m.owned →
          exec (.finish l q) s = .next (keepQueue s (
            if finishOk shared m.said cm msg then
              spdmSend l 0x65 (finishRsp shared m.said cm msg) (putMsess q.param (some { m with
                stage := 3, secret := sessionSecret shared m.said cm msg, said := m.said ++ msg, asked := [] }) w)
            else authFail l q.param 0x06 w))) ∧
        (m.link = linkNo l → m.stage = 3 →
          exec (.endSession l q) s = .next (keepQueue s (spdmSend l 0x6C [0, 0] (endMsess q.param w))) ∧
          exec (.heartbeat l q) s = .next (keepQueue s (spdmSend l 0x68 [0, 0] w)) ∧
          exec (.keyUpdate l q) s = .next (keepQueue s (spdmSend l 0x69 (q.body.take 2) w)))))) ∧
  (∀ (l : SpdmLink) (n code : Nat) (w : State),
    authFail l n code w = spdmError l code (cnt R.mgtAuthFail 0 1 (endMsess n w))) ∧
  (∀ (s : State) (n : Nat), alive s = true → n < 65536 →
    (sessAt s n = none → exec (.sessionHandshakeTimeout n) s = .next s) ∧
    (∀ x, sessAt s n = some x → exec (.sessionHandshakeTimeout n) s = .next (keepQueue s (
      if x.open_ = false ∧ x.since + 1000000000 ≤ s.now then destroySession n s else s))))
end

