-- ==== Sys2Proof/Laws/State.lean ====
section
/-! SUPPORT. What each update of the state leaves unchanged: one lemma per field and update. -/

namespace Sys2Proof.Machine

variable (s : State)

@[simp] theorem rput_pending (off idx v : Nat) : (rput off idx v s).pending = s.pending := rfl
@[simp] theorem rput_now (off idx v : Nat) : (rput off idx v s).now = s.now := rfl
@[simp] theorem rput_powered (off idx v : Nat) : (rput off idx v s).powered = s.powered := rfl
@[simp] theorem rput_held (off idx v : Nat) : (rput off idx v s).held = s.held := rfl
@[simp] theorem rput_bifurcated (off idx v : Nat) : (rput off idx v s).bifurcated = s.bifurcated := rfl
@[simp] theorem rput_mem (off idx v : Nat) : (rput off idx v s).mem = s.mem := rfl
@[simp] theorem rput_host0 (off idx v : Nat) : (rput off idx v s).host0 = s.host0 := rfl
@[simp] theorem rput_host1 (off idx v : Nat) : (rput off idx v s).host1 = s.host1 := rfl
@[simp] theorem rput_sel (off idx v : Nat) : (rput off idx v s).sel = s.sel := rfl
@[simp] theorem rput_msix (off idx v : Nat) : (rput off idx v s).msix = s.msix := rfl
@[simp] theorem rput_msixPend (off idx v : Nat) : (rput off idx v s).msixPend = s.msixPend := rfl
@[simp] theorem rput_seq (off idx v : Nat) : (rput off idx v s).seq = s.seq := rfl
@[simp] theorem rput_mrq (off idx v : Nat) : (rput off idx v s).mrq = s.mrq := rfl
@[simp] theorem rput_ring (off idx v : Nat) : (rput off idx v s).ring = s.ring := rfl
@[simp] theorem rput_windows (off idx v : Nat) : (rput off idx v s).windows = s.windows := rfl
@[simp] theorem rput_lanes (off idx v : Nat) : (rput off idx v s).lanes = s.lanes := rfl
@[simp] theorem rput_fns (off idx v : Nat) : (rput off idx v s).fns = s.fns := rfl
@[simp] theorem rput_ports (off idx v : Nat) : (rput off idx v s).ports = s.ports := rfl
@[simp] theorem rput_waits (off idx v : Nat) : (rput off idx v s).waits = s.waits := rfl
@[simp] theorem rput_log (off idx v : Nat) : (rput off idx v s).log = s.log := rfl
@[simp] theorem rput_logNext (off idx v : Nat) : (rput off idx v s).logNext = s.logNext := rfl
@[simp] theorem rput_logGone (off idx v : Nat) : (rput off idx v s).logGone = s.logGone := rfl
@[simp] theorem rput_spd (off idx v : Nat) : (rput off idx v s).spd = s.spd := rfl
@[simp] theorem rput_cam (off idx v : Nat) : (rput off idx v s).cam = s.cam := rfl
@[simp] theorem rput_isp (off idx v : Nat) : (rput off idx v s).isp = s.isp := rfl
@[simp] theorem rput_ispBanks (off idx v : Nat) : (rput off idx v s).ispBanks = s.ispBanks := rfl
@[simp] theorem rput_ispLock (off idx v : Nat) : (rput off idx v s).ispLock = s.ispLock := rfl
@[simp] theorem rput_ispLost (off idx v : Nat) : (rput off idx v s).ispLost = s.ispLost := rfl
@[simp] theorem rput_ispKept (off idx v : Nat) : (rput off idx v s).ispKept = s.ispKept := rfl
@[simp] theorem rput_ctxs (off idx v : Nat) : (rput off idx v s).ctxs = s.ctxs := rfl
@[simp] theorem rput_tracks (off idx v : Nat) : (rput off idx v s).tracks = s.tracks := rfl
@[simp] theorem rput_accs (off idx v : Nat) : (rput off idx v s).accs = s.accs := rfl
@[simp] theorem rput_macs (off idx v : Nat) : (rput off idx v s).macs = s.macs := rfl
@[simp] theorem rput_saf (off idx v : Nat) : (rput off idx v s).saf = s.saf := rfl
@[simp] theorem rput_sec (off idx v : Nat) : (rput off idx v s).sec = s.sec := rfl
@[simp] theorem rput_pwr (off idx v : Nat) : (rput off idx v s).pwr = s.pwr := rfl
@[simp] theorem rput_nv (off idx v : Nat) : (rput off idx v s).nv = s.nv := rfl
@[simp] theorem rput_boot (off idx v : Nat) : (rput off idx v s).boot = s.boot := rfl
@[simp] theorem rput_dice (off idx v : Nat) : (rput off idx v s).dice = s.dice := rfl
@[simp] theorem rput_availN (off idx v : Nat) : (rput off idx v s).availN = s.availN := rfl
@[simp] theorem rput_availV (off idx v : Nat) : (rput off idx v s).availV = s.availV := rfl
@[simp] theorem rput_availI (off idx v : Nat) : (rput off idx v s).availI = s.availI := rfl
@[simp] theorem rput_capGen (off idx v : Nat) : (rput off idx v s).capGen = s.capGen := rfl
@[simp] theorem rput_out (off idx v : Nat) : (rput off idx v s).out = s.out := rfl
@[simp] theorem rput_free (off idx v : Nat) : (rput off idx v s).free = s.free := rfl

@[simp] theorem cnt_pending (off idx n : Nat) : (cnt off idx n s).pending = s.pending := rfl
@[simp] theorem cnt_now (off idx n : Nat) : (cnt off idx n s).now = s.now := rfl
@[simp] theorem cnt_powered (off idx n : Nat) : (cnt off idx n s).powered = s.powered := rfl
@[simp] theorem cnt_held (off idx n : Nat) : (cnt off idx n s).held = s.held := rfl
@[simp] theorem cnt_bifurcated (off idx n : Nat) : (cnt off idx n s).bifurcated = s.bifurcated := rfl
@[simp] theorem cnt_mem (off idx n : Nat) : (cnt off idx n s).mem = s.mem := rfl
@[simp] theorem cnt_host0 (off idx n : Nat) : (cnt off idx n s).host0 = s.host0 := rfl
@[simp] theorem cnt_host1 (off idx n : Nat) : (cnt off idx n s).host1 = s.host1 := rfl
@[simp] theorem cnt_sel (off idx n : Nat) : (cnt off idx n s).sel = s.sel := rfl
@[simp] theorem cnt_msix (off idx n : Nat) : (cnt off idx n s).msix = s.msix := rfl
@[simp] theorem cnt_msixPend (off idx n : Nat) : (cnt off idx n s).msixPend = s.msixPend := rfl
@[simp] theorem cnt_seq (off idx n : Nat) : (cnt off idx n s).seq = s.seq := rfl
@[simp] theorem cnt_mrq (off idx n : Nat) : (cnt off idx n s).mrq = s.mrq := rfl
@[simp] theorem cnt_ring (off idx n : Nat) : (cnt off idx n s).ring = s.ring := rfl
@[simp] theorem cnt_windows (off idx n : Nat) : (cnt off idx n s).windows = s.windows := rfl
@[simp] theorem cnt_lanes (off idx n : Nat) : (cnt off idx n s).lanes = s.lanes := rfl
@[simp] theorem cnt_fns (off idx n : Nat) : (cnt off idx n s).fns = s.fns := rfl
@[simp] theorem cnt_ports (off idx n : Nat) : (cnt off idx n s).ports = s.ports := rfl
@[simp] theorem cnt_waits (off idx n : Nat) : (cnt off idx n s).waits = s.waits := rfl
@[simp] theorem cnt_log (off idx n : Nat) : (cnt off idx n s).log = s.log := rfl
@[simp] theorem cnt_logNext (off idx n : Nat) : (cnt off idx n s).logNext = s.logNext := rfl
@[simp] theorem cnt_logGone (off idx n : Nat) : (cnt off idx n s).logGone = s.logGone := rfl
@[simp] theorem cnt_spd (off idx n : Nat) : (cnt off idx n s).spd = s.spd := rfl
@[simp] theorem cnt_cam (off idx n : Nat) : (cnt off idx n s).cam = s.cam := rfl
@[simp] theorem cnt_isp (off idx n : Nat) : (cnt off idx n s).isp = s.isp := rfl
@[simp] theorem cnt_ispBanks (off idx n : Nat) : (cnt off idx n s).ispBanks = s.ispBanks := rfl
@[simp] theorem cnt_ispLock (off idx n : Nat) : (cnt off idx n s).ispLock = s.ispLock := rfl
@[simp] theorem cnt_ispLost (off idx n : Nat) : (cnt off idx n s).ispLost = s.ispLost := rfl
@[simp] theorem cnt_ispKept (off idx n : Nat) : (cnt off idx n s).ispKept = s.ispKept := rfl
@[simp] theorem cnt_ctxs (off idx n : Nat) : (cnt off idx n s).ctxs = s.ctxs := rfl
@[simp] theorem cnt_tracks (off idx n : Nat) : (cnt off idx n s).tracks = s.tracks := rfl
@[simp] theorem cnt_accs (off idx n : Nat) : (cnt off idx n s).accs = s.accs := rfl
@[simp] theorem cnt_macs (off idx n : Nat) : (cnt off idx n s).macs = s.macs := rfl
@[simp] theorem cnt_saf (off idx n : Nat) : (cnt off idx n s).saf = s.saf := rfl
@[simp] theorem cnt_sec (off idx n : Nat) : (cnt off idx n s).sec = s.sec := rfl
@[simp] theorem cnt_pwr (off idx n : Nat) : (cnt off idx n s).pwr = s.pwr := rfl
@[simp] theorem cnt_nv (off idx n : Nat) : (cnt off idx n s).nv = s.nv := rfl
@[simp] theorem cnt_boot (off idx n : Nat) : (cnt off idx n s).boot = s.boot := rfl
@[simp] theorem cnt_dice (off idx n : Nat) : (cnt off idx n s).dice = s.dice := rfl
@[simp] theorem cnt_availN (off idx n : Nat) : (cnt off idx n s).availN = s.availN := rfl
@[simp] theorem cnt_availV (off idx n : Nat) : (cnt off idx n s).availV = s.availV := rfl
@[simp] theorem cnt_availI (off idx n : Nat) : (cnt off idx n s).availI = s.availI := rfl
@[simp] theorem cnt_capGen (off idx n : Nat) : (cnt off idx n s).capGen = s.capGen := rfl
@[simp] theorem cnt_out (off idx n : Nat) : (cnt off idx n s).out = s.out := rfl
@[simp] theorem cnt_free (off idx n : Nat) : (cnt off idx n s).free = s.free := rfl

@[simp] theorem rmax_pending (off idx v : Nat) : (rmax off idx v s).pending = s.pending := rfl
@[simp] theorem rmax_now (off idx v : Nat) : (rmax off idx v s).now = s.now := rfl
@[simp] theorem rmax_powered (off idx v : Nat) : (rmax off idx v s).powered = s.powered := rfl
@[simp] theorem rmax_held (off idx v : Nat) : (rmax off idx v s).held = s.held := rfl
@[simp] theorem rmax_bifurcated (off idx v : Nat) : (rmax off idx v s).bifurcated = s.bifurcated := rfl
@[simp] theorem rmax_mem (off idx v : Nat) : (rmax off idx v s).mem = s.mem := rfl
@[simp] theorem rmax_host0 (off idx v : Nat) : (rmax off idx v s).host0 = s.host0 := rfl
@[simp] theorem rmax_host1 (off idx v : Nat) : (rmax off idx v s).host1 = s.host1 := rfl
@[simp] theorem rmax_sel (off idx v : Nat) : (rmax off idx v s).sel = s.sel := rfl
@[simp] theorem rmax_msix (off idx v : Nat) : (rmax off idx v s).msix = s.msix := rfl
@[simp] theorem rmax_msixPend (off idx v : Nat) : (rmax off idx v s).msixPend = s.msixPend := rfl
@[simp] theorem rmax_seq (off idx v : Nat) : (rmax off idx v s).seq = s.seq := rfl
@[simp] theorem rmax_mrq (off idx v : Nat) : (rmax off idx v s).mrq = s.mrq := rfl
@[simp] theorem rmax_ring (off idx v : Nat) : (rmax off idx v s).ring = s.ring := rfl
@[simp] theorem rmax_windows (off idx v : Nat) : (rmax off idx v s).windows = s.windows := rfl
@[simp] theorem rmax_lanes (off idx v : Nat) : (rmax off idx v s).lanes = s.lanes := rfl
@[simp] theorem rmax_fns (off idx v : Nat) : (rmax off idx v s).fns = s.fns := rfl
@[simp] theorem rmax_ports (off idx v : Nat) : (rmax off idx v s).ports = s.ports := rfl
@[simp] theorem rmax_waits (off idx v : Nat) : (rmax off idx v s).waits = s.waits := rfl
@[simp] theorem rmax_log (off idx v : Nat) : (rmax off idx v s).log = s.log := rfl
@[simp] theorem rmax_logNext (off idx v : Nat) : (rmax off idx v s).logNext = s.logNext := rfl
@[simp] theorem rmax_logGone (off idx v : Nat) : (rmax off idx v s).logGone = s.logGone := rfl
@[simp] theorem rmax_spd (off idx v : Nat) : (rmax off idx v s).spd = s.spd := rfl
@[simp] theorem rmax_cam (off idx v : Nat) : (rmax off idx v s).cam = s.cam := rfl
@[simp] theorem rmax_isp (off idx v : Nat) : (rmax off idx v s).isp = s.isp := rfl
@[simp] theorem rmax_ispBanks (off idx v : Nat) : (rmax off idx v s).ispBanks = s.ispBanks := rfl
@[simp] theorem rmax_ispLock (off idx v : Nat) : (rmax off idx v s).ispLock = s.ispLock := rfl
@[simp] theorem rmax_ispLost (off idx v : Nat) : (rmax off idx v s).ispLost = s.ispLost := rfl
@[simp] theorem rmax_ispKept (off idx v : Nat) : (rmax off idx v s).ispKept = s.ispKept := rfl
@[simp] theorem rmax_ctxs (off idx v : Nat) : (rmax off idx v s).ctxs = s.ctxs := rfl
@[simp] theorem rmax_tracks (off idx v : Nat) : (rmax off idx v s).tracks = s.tracks := rfl
@[simp] theorem rmax_accs (off idx v : Nat) : (rmax off idx v s).accs = s.accs := rfl
@[simp] theorem rmax_macs (off idx v : Nat) : (rmax off idx v s).macs = s.macs := rfl
@[simp] theorem rmax_saf (off idx v : Nat) : (rmax off idx v s).saf = s.saf := rfl
@[simp] theorem rmax_sec (off idx v : Nat) : (rmax off idx v s).sec = s.sec := rfl
@[simp] theorem rmax_pwr (off idx v : Nat) : (rmax off idx v s).pwr = s.pwr := rfl
@[simp] theorem rmax_nv (off idx v : Nat) : (rmax off idx v s).nv = s.nv := rfl
@[simp] theorem rmax_boot (off idx v : Nat) : (rmax off idx v s).boot = s.boot := rfl
@[simp] theorem rmax_dice (off idx v : Nat) : (rmax off idx v s).dice = s.dice := rfl
@[simp] theorem rmax_availN (off idx v : Nat) : (rmax off idx v s).availN = s.availN := rfl
@[simp] theorem rmax_availV (off idx v : Nat) : (rmax off idx v s).availV = s.availV := rfl
@[simp] theorem rmax_availI (off idx v : Nat) : (rmax off idx v s).availI = s.availI := rfl
@[simp] theorem rmax_capGen (off idx v : Nat) : (rmax off idx v s).capGen = s.capGen := rfl
@[simp] theorem rmax_out (off idx v : Nat) : (rmax off idx v s).out = s.out := rfl
@[simp] theorem rmax_free (off idx v : Nat) : (rmax off idx v s).free = s.free := rfl

@[simp] theorem selPut_pending (rq off v : Nat) : (selPut rq off v s).pending = s.pending := rfl
@[simp] theorem selPut_now (rq off v : Nat) : (selPut rq off v s).now = s.now := rfl
@[simp] theorem selPut_powered (rq off v : Nat) : (selPut rq off v s).powered = s.powered := rfl
@[simp] theorem selPut_held (rq off v : Nat) : (selPut rq off v s).held = s.held := rfl
@[simp] theorem selPut_bifurcated (rq off v : Nat) : (selPut rq off v s).bifurcated = s.bifurcated := rfl
@[simp] theorem selPut_mem (rq off v : Nat) : (selPut rq off v s).mem = s.mem := rfl
@[simp] theorem selPut_host0 (rq off v : Nat) : (selPut rq off v s).host0 = s.host0 := rfl
@[simp] theorem selPut_host1 (rq off v : Nat) : (selPut rq off v s).host1 = s.host1 := rfl
@[simp] theorem selPut_regs (rq off v : Nat) : (selPut rq off v s).regs = s.regs := rfl
@[simp] theorem selPut_msix (rq off v : Nat) : (selPut rq off v s).msix = s.msix := rfl
@[simp] theorem selPut_msixPend (rq off v : Nat) : (selPut rq off v s).msixPend = s.msixPend := rfl
@[simp] theorem selPut_seq (rq off v : Nat) : (selPut rq off v s).seq = s.seq := rfl
@[simp] theorem selPut_mrq (rq off v : Nat) : (selPut rq off v s).mrq = s.mrq := rfl
@[simp] theorem selPut_ring (rq off v : Nat) : (selPut rq off v s).ring = s.ring := rfl
@[simp] theorem selPut_windows (rq off v : Nat) : (selPut rq off v s).windows = s.windows := rfl
@[simp] theorem selPut_lanes (rq off v : Nat) : (selPut rq off v s).lanes = s.lanes := rfl
@[simp] theorem selPut_fns (rq off v : Nat) : (selPut rq off v s).fns = s.fns := rfl
@[simp] theorem selPut_ports (rq off v : Nat) : (selPut rq off v s).ports = s.ports := rfl
@[simp] theorem selPut_waits (rq off v : Nat) : (selPut rq off v s).waits = s.waits := rfl
@[simp] theorem selPut_log (rq off v : Nat) : (selPut rq off v s).log = s.log := rfl
@[simp] theorem selPut_logNext (rq off v : Nat) : (selPut rq off v s).logNext = s.logNext := rfl
@[simp] theorem selPut_logGone (rq off v : Nat) : (selPut rq off v s).logGone = s.logGone := rfl
@[simp] theorem selPut_spd (rq off v : Nat) : (selPut rq off v s).spd = s.spd := rfl
@[simp] theorem selPut_cam (rq off v : Nat) : (selPut rq off v s).cam = s.cam := rfl
@[simp] theorem selPut_isp (rq off v : Nat) : (selPut rq off v s).isp = s.isp := rfl
@[simp] theorem selPut_ispBanks (rq off v : Nat) : (selPut rq off v s).ispBanks = s.ispBanks := rfl
@[simp] theorem selPut_ispLock (rq off v : Nat) : (selPut rq off v s).ispLock = s.ispLock := rfl
@[simp] theorem selPut_ispLost (rq off v : Nat) : (selPut rq off v s).ispLost = s.ispLost := rfl
@[simp] theorem selPut_ispKept (rq off v : Nat) : (selPut rq off v s).ispKept = s.ispKept := rfl
@[simp] theorem selPut_ctxs (rq off v : Nat) : (selPut rq off v s).ctxs = s.ctxs := rfl
@[simp] theorem selPut_tracks (rq off v : Nat) : (selPut rq off v s).tracks = s.tracks := rfl
@[simp] theorem selPut_accs (rq off v : Nat) : (selPut rq off v s).accs = s.accs := rfl
@[simp] theorem selPut_macs (rq off v : Nat) : (selPut rq off v s).macs = s.macs := rfl
@[simp] theorem selPut_saf (rq off v : Nat) : (selPut rq off v s).saf = s.saf := rfl
@[simp] theorem selPut_sec (rq off v : Nat) : (selPut rq off v s).sec = s.sec := rfl
@[simp] theorem selPut_pwr (rq off v : Nat) : (selPut rq off v s).pwr = s.pwr := rfl
@[simp] theorem selPut_nv (rq off v : Nat) : (selPut rq off v s).nv = s.nv := rfl
@[simp] theorem selPut_boot (rq off v : Nat) : (selPut rq off v s).boot = s.boot := rfl
@[simp] theorem selPut_dice (rq off v : Nat) : (selPut rq off v s).dice = s.dice := rfl
@[simp] theorem selPut_availN (rq off v : Nat) : (selPut rq off v s).availN = s.availN := rfl
@[simp] theorem selPut_availV (rq off v : Nat) : (selPut rq off v s).availV = s.availV := rfl
@[simp] theorem selPut_availI (rq off v : Nat) : (selPut rq off v s).availI = s.availI := rfl
@[simp] theorem selPut_capGen (rq off v : Nat) : (selPut rq off v s).capGen = s.capGen := rfl
@[simp] theorem selPut_out (rq off v : Nat) : (selPut rq off v s).out = s.out := rfl
@[simp] theorem selPut_free (rq off v : Nat) : (selPut rq off v s).free = s.free := rfl

@[simp] theorem addLog_pending (code tenant engine d0 d1 d2 : Nat) : (addLog code tenant engine d0 d1 d2 s).pending = s.pending := by simp only [addLog, addLogR]; split <;> rfl
@[simp] theorem addLog_now (code tenant engine d0 d1 d2 : Nat) : (addLog code tenant engine d0 d1 d2 s).now = s.now := by simp only [addLog, addLogR]; split <;> rfl
@[simp] theorem addLog_powered (code tenant engine d0 d1 d2 : Nat) : (addLog code tenant engine d0 d1 d2 s).powered = s.powered := by simp only [addLog, addLogR]; split <;> rfl
@[simp] theorem addLog_held (code tenant engine d0 d1 d2 : Nat) : (addLog code tenant engine d0 d1 d2 s).held = s.held := by simp only [addLog, addLogR]; split <;> rfl
@[simp] theorem addLog_bifurcated (code tenant engine d0 d1 d2 : Nat) : (addLog code tenant engine d0 d1 d2 s).bifurcated = s.bifurcated := by simp only [addLog, addLogR]; split <;> rfl
@[simp] theorem addLog_mem (code tenant engine d0 d1 d2 : Nat) : (addLog code tenant engine d0 d1 d2 s).mem = s.mem := by simp only [addLog, addLogR]; split <;> rfl
@[simp] theorem addLog_host0 (code tenant engine d0 d1 d2 : Nat) : (addLog code tenant engine d0 d1 d2 s).host0 = s.host0 := by simp only [addLog, addLogR]; split <;> rfl
@[simp] theorem addLog_host1 (code tenant engine d0 d1 d2 : Nat) : (addLog code tenant engine d0 d1 d2 s).host1 = s.host1 := by simp only [addLog, addLogR]; split <;> rfl
@[simp] theorem addLog_regs (code tenant engine d0 d1 d2 : Nat) : (addLog code tenant engine d0 d1 d2 s).regs = s.regs := by simp only [addLog, addLogR]; split <;> rfl
@[simp] theorem addLog_sel (code tenant engine d0 d1 d2 : Nat) : (addLog code tenant engine d0 d1 d2 s).sel = s.sel := by simp only [addLog, addLogR]; split <;> rfl
@[simp] theorem addLog_msix (code tenant engine d0 d1 d2 : Nat) : (addLog code tenant engine d0 d1 d2 s).msix = s.msix := by simp only [addLog, addLogR]; split <;> rfl
@[simp] theorem addLog_msixPend (code tenant engine d0 d1 d2 : Nat) : (addLog code tenant engine d0 d1 d2 s).msixPend = s.msixPend := by simp only [addLog, addLogR]; split <;> rfl
@[simp] theorem addLog_seq (code tenant engine d0 d1 d2 : Nat) : (addLog code tenant engine d0 d1 d2 s).seq = s.seq := by simp only [addLog, addLogR]; split <;> rfl
@[simp] theorem addLog_mrq (code tenant engine d0 d1 d2 : Nat) : (addLog code tenant engine d0 d1 d2 s).mrq = s.mrq := by simp only [addLog, addLogR]; split <;> rfl
@[simp] theorem addLog_ring (code tenant engine d0 d1 d2 : Nat) : (addLog code tenant engine d0 d1 d2 s).ring = s.ring := by simp only [addLog, addLogR]; split <;> rfl
@[simp] theorem addLog_windows (code tenant engine d0 d1 d2 : Nat) : (addLog code tenant engine d0 d1 d2 s).windows = s.windows := by simp only [addLog, addLogR]; split <;> rfl
@[simp] theorem addLog_lanes (code tenant engine d0 d1 d2 : Nat) : (addLog code tenant engine d0 d1 d2 s).lanes = s.lanes := by simp only [addLog, addLogR]; split <;> rfl
@[simp] theorem addLog_fns (code tenant engine d0 d1 d2 : Nat) : (addLog code tenant engine d0 d1 d2 s).fns = s.fns := by simp only [addLog, addLogR]; split <;> rfl
@[simp] theorem addLog_ports (code tenant engine d0 d1 d2 : Nat) : (addLog code tenant engine d0 d1 d2 s).ports = s.ports := by simp only [addLog, addLogR]; split <;> rfl
@[simp] theorem addLog_waits (code tenant engine d0 d1 d2 : Nat) : (addLog code tenant engine d0 d1 d2 s).waits = s.waits := by simp only [addLog, addLogR]; split <;> rfl
@[simp] theorem addLog_spd (code tenant engine d0 d1 d2 : Nat) : (addLog code tenant engine d0 d1 d2 s).spd = s.spd := by simp only [addLog, addLogR]; split <;> rfl
@[simp] theorem addLog_cam (code tenant engine d0 d1 d2 : Nat) : (addLog code tenant engine d0 d1 d2 s).cam = s.cam := by simp only [addLog, addLogR]; split <;> rfl
@[simp] theorem addLog_isp (code tenant engine d0 d1 d2 : Nat) : (addLog code tenant engine d0 d1 d2 s).isp = s.isp := by simp only [addLog, addLogR]; split <;> rfl
@[simp] theorem addLog_ispBanks (code tenant engine d0 d1 d2 : Nat) : (addLog code tenant engine d0 d1 d2 s).ispBanks = s.ispBanks := by simp only [addLog, addLogR]; split <;> rfl
@[simp] theorem addLog_ispLock (code tenant engine d0 d1 d2 : Nat) : (addLog code tenant engine d0 d1 d2 s).ispLock = s.ispLock := by simp only [addLog, addLogR]; split <;> rfl
@[simp] theorem addLog_ispLost (code tenant engine d0 d1 d2 : Nat) : (addLog code tenant engine d0 d1 d2 s).ispLost = s.ispLost := by simp only [addLog, addLogR]; split <;> rfl
@[simp] theorem addLog_ispKept (code tenant engine d0 d1 d2 : Nat) : (addLog code tenant engine d0 d1 d2 s).ispKept = s.ispKept := by simp only [addLog, addLogR]; split <;> rfl
@[simp] theorem addLog_ctxs (code tenant engine d0 d1 d2 : Nat) : (addLog code tenant engine d0 d1 d2 s).ctxs = s.ctxs := by simp only [addLog, addLogR]; split <;> rfl
@[simp] theorem addLog_tracks (code tenant engine d0 d1 d2 : Nat) : (addLog code tenant engine d0 d1 d2 s).tracks = s.tracks := by simp only [addLog, addLogR]; split <;> rfl
@[simp] theorem addLog_accs (code tenant engine d0 d1 d2 : Nat) : (addLog code tenant engine d0 d1 d2 s).accs = s.accs := by simp only [addLog, addLogR]; split <;> rfl
@[simp] theorem addLog_macs (code tenant engine d0 d1 d2 : Nat) : (addLog code tenant engine d0 d1 d2 s).macs = s.macs := by simp only [addLog, addLogR]; split <;> rfl
@[simp] theorem addLog_saf (code tenant engine d0 d1 d2 : Nat) : (addLog code tenant engine d0 d1 d2 s).saf = s.saf := by simp only [addLog, addLogR]; split <;> rfl
@[simp] theorem addLog_sec (code tenant engine d0 d1 d2 : Nat) : (addLog code tenant engine d0 d1 d2 s).sec = s.sec := by simp only [addLog, addLogR]; split <;> rfl
@[simp] theorem addLog_pwr (code tenant engine d0 d1 d2 : Nat) : (addLog code tenant engine d0 d1 d2 s).pwr = s.pwr := by simp only [addLog, addLogR]; split <;> rfl
@[simp] theorem addLog_nv (code tenant engine d0 d1 d2 : Nat) : (addLog code tenant engine d0 d1 d2 s).nv = s.nv := by simp only [addLog, addLogR]; split <;> rfl
@[simp] theorem addLog_boot (code tenant engine d0 d1 d2 : Nat) : (addLog code tenant engine d0 d1 d2 s).boot = s.boot := by simp only [addLog, addLogR]; split <;> rfl
@[simp] theorem addLog_dice (code tenant engine d0 d1 d2 : Nat) : (addLog code tenant engine d0 d1 d2 s).dice = s.dice := by simp only [addLog, addLogR]; split <;> rfl
@[simp] theorem addLog_availN (code tenant engine d0 d1 d2 : Nat) : (addLog code tenant engine d0 d1 d2 s).availN = s.availN := by simp only [addLog, addLogR]; split <;> rfl
@[simp] theorem addLog_availV (code tenant engine d0 d1 d2 : Nat) : (addLog code tenant engine d0 d1 d2 s).availV = s.availV := by simp only [addLog, addLogR]; split <;> rfl
@[simp] theorem addLog_availI (code tenant engine d0 d1 d2 : Nat) : (addLog code tenant engine d0 d1 d2 s).availI = s.availI := by simp only [addLog, addLogR]; split <;> rfl
@[simp] theorem addLog_capGen (code tenant engine d0 d1 d2 : Nat) : (addLog code tenant engine d0 d1 d2 s).capGen = s.capGen := by simp only [addLog, addLogR]; split <;> rfl
@[simp] theorem addLog_out (code tenant engine d0 d1 d2 : Nat) : (addLog code tenant engine d0 d1 d2 s).out = s.out := by simp only [addLog, addLogR]; split <;> rfl
@[simp] theorem addLog_free (code tenant engine d0 d1 d2 : Nat) : (addLog code tenant engine d0 d1 d2 s).free = s.free := by simp only [addLog, addLogR]; split <;> rfl

@[simp] theorem emit_pending (o : Out) : (emit o s).pending = s.pending := rfl
@[simp] theorem emit_now (o : Out) : (emit o s).now = s.now := rfl
@[simp] theorem emit_powered (o : Out) : (emit o s).powered = s.powered := rfl
@[simp] theorem emit_held (o : Out) : (emit o s).held = s.held := rfl
@[simp] theorem emit_bifurcated (o : Out) : (emit o s).bifurcated = s.bifurcated := rfl
@[simp] theorem emit_mem (o : Out) : (emit o s).mem = s.mem := rfl
@[simp] theorem emit_host0 (o : Out) : (emit o s).host0 = s.host0 := rfl
@[simp] theorem emit_host1 (o : Out) : (emit o s).host1 = s.host1 := rfl
@[simp] theorem emit_regs (o : Out) : (emit o s).regs = s.regs := rfl
@[simp] theorem emit_sel (o : Out) : (emit o s).sel = s.sel := rfl
@[simp] theorem emit_msix (o : Out) : (emit o s).msix = s.msix := rfl
@[simp] theorem emit_msixPend (o : Out) : (emit o s).msixPend = s.msixPend := rfl
@[simp] theorem emit_seq (o : Out) : (emit o s).seq = s.seq := rfl
@[simp] theorem emit_mrq (o : Out) : (emit o s).mrq = s.mrq := rfl
@[simp] theorem emit_ring (o : Out) : (emit o s).ring = s.ring := rfl
@[simp] theorem emit_windows (o : Out) : (emit o s).windows = s.windows := rfl
@[simp] theorem emit_lanes (o : Out) : (emit o s).lanes = s.lanes := rfl
@[simp] theorem emit_fns (o : Out) : (emit o s).fns = s.fns := rfl
@[simp] theorem emit_ports (o : Out) : (emit o s).ports = s.ports := rfl
@[simp] theorem emit_waits (o : Out) : (emit o s).waits = s.waits := rfl
@[simp] theorem emit_log (o : Out) : (emit o s).log = s.log := rfl
@[simp] theorem emit_logNext (o : Out) : (emit o s).logNext = s.logNext := rfl
@[simp] theorem emit_logGone (o : Out) : (emit o s).logGone = s.logGone := rfl
@[simp] theorem emit_spd (o : Out) : (emit o s).spd = s.spd := rfl
@[simp] theorem emit_cam (o : Out) : (emit o s).cam = s.cam := rfl
@[simp] theorem emit_isp (o : Out) : (emit o s).isp = s.isp := rfl
@[simp] theorem emit_ispBanks (o : Out) : (emit o s).ispBanks = s.ispBanks := rfl
@[simp] theorem emit_ispLock (o : Out) : (emit o s).ispLock = s.ispLock := rfl
@[simp] theorem emit_ispLost (o : Out) : (emit o s).ispLost = s.ispLost := rfl
@[simp] theorem emit_ispKept (o : Out) : (emit o s).ispKept = s.ispKept := rfl
@[simp] theorem emit_ctxs (o : Out) : (emit o s).ctxs = s.ctxs := rfl
@[simp] theorem emit_tracks (o : Out) : (emit o s).tracks = s.tracks := rfl
@[simp] theorem emit_accs (o : Out) : (emit o s).accs = s.accs := rfl
@[simp] theorem emit_macs (o : Out) : (emit o s).macs = s.macs := rfl
@[simp] theorem emit_saf (o : Out) : (emit o s).saf = s.saf := rfl
@[simp] theorem emit_sec (o : Out) : (emit o s).sec = s.sec := rfl
@[simp] theorem emit_pwr (o : Out) : (emit o s).pwr = s.pwr := rfl
@[simp] theorem emit_nv (o : Out) : (emit o s).nv = s.nv := rfl
@[simp] theorem emit_boot (o : Out) : (emit o s).boot = s.boot := rfl
@[simp] theorem emit_dice (o : Out) : (emit o s).dice = s.dice := rfl
@[simp] theorem emit_availN (o : Out) : (emit o s).availN = s.availN := rfl
@[simp] theorem emit_availV (o : Out) : (emit o s).availV = s.availV := rfl
@[simp] theorem emit_availI (o : Out) : (emit o s).availI = s.availI := rfl
@[simp] theorem emit_capGen (o : Out) : (emit o s).capGen = s.capGen := rfl
@[simp] theorem emit_free (o : Out) : (emit o s).free = s.free := rfl

@[simp] theorem draw_pending : (draw s).pending = s.pending := rfl
@[simp] theorem draw_now : (draw s).now = s.now := rfl
@[simp] theorem draw_powered : (draw s).powered = s.powered := rfl
@[simp] theorem draw_held : (draw s).held = s.held := rfl
@[simp] theorem draw_bifurcated : (draw s).bifurcated = s.bifurcated := rfl
@[simp] theorem draw_mem : (draw s).mem = s.mem := rfl
@[simp] theorem draw_host0 : (draw s).host0 = s.host0 := rfl
@[simp] theorem draw_host1 : (draw s).host1 = s.host1 := rfl
@[simp] theorem draw_regs : (draw s).regs = s.regs := rfl
@[simp] theorem draw_sel : (draw s).sel = s.sel := rfl
@[simp] theorem draw_msix : (draw s).msix = s.msix := rfl
@[simp] theorem draw_msixPend : (draw s).msixPend = s.msixPend := rfl
@[simp] theorem draw_seq : (draw s).seq = s.seq := rfl
@[simp] theorem draw_mrq : (draw s).mrq = s.mrq := rfl
@[simp] theorem draw_ring : (draw s).ring = s.ring := rfl
@[simp] theorem draw_windows : (draw s).windows = s.windows := rfl
@[simp] theorem draw_lanes : (draw s).lanes = s.lanes := rfl
@[simp] theorem draw_fns : (draw s).fns = s.fns := rfl
@[simp] theorem draw_ports : (draw s).ports = s.ports := rfl
@[simp] theorem draw_waits : (draw s).waits = s.waits := rfl
@[simp] theorem draw_log : (draw s).log = s.log := rfl
@[simp] theorem draw_logNext : (draw s).logNext = s.logNext := rfl
@[simp] theorem draw_logGone : (draw s).logGone = s.logGone := rfl
@[simp] theorem draw_spd : (draw s).spd = s.spd := rfl
@[simp] theorem draw_cam : (draw s).cam = s.cam := rfl
@[simp] theorem draw_isp : (draw s).isp = s.isp := rfl
@[simp] theorem draw_ispBanks : (draw s).ispBanks = s.ispBanks := rfl
@[simp] theorem draw_ispLock : (draw s).ispLock = s.ispLock := rfl
@[simp] theorem draw_ispLost : (draw s).ispLost = s.ispLost := rfl
@[simp] theorem draw_ispKept : (draw s).ispKept = s.ispKept := rfl
@[simp] theorem draw_ctxs : (draw s).ctxs = s.ctxs := rfl
@[simp] theorem draw_tracks : (draw s).tracks = s.tracks := rfl
@[simp] theorem draw_accs : (draw s).accs = s.accs := rfl
@[simp] theorem draw_macs : (draw s).macs = s.macs := rfl
@[simp] theorem draw_saf : (draw s).saf = s.saf := rfl
@[simp] theorem draw_sec : (draw s).sec = s.sec := rfl
@[simp] theorem draw_pwr : (draw s).pwr = s.pwr := rfl
@[simp] theorem draw_nv : (draw s).nv = s.nv := rfl
@[simp] theorem draw_boot : (draw s).boot = s.boot := rfl
@[simp] theorem draw_dice : (draw s).dice = s.dice := rfl
@[simp] theorem draw_availN : (draw s).availN = s.availN := rfl
@[simp] theorem draw_availV : (draw s).availV = s.availV := rfl
@[simp] theorem draw_availI : (draw s).availI = s.availI := rfl
@[simp] theorem draw_capGen : (draw s).capGen = s.capGen := rfl
@[simp] theorem draw_out : (draw s).out = s.out := rfl

@[simp] theorem setPoison_pending (lo hi r : Nat) : (setPoison lo hi r s).pending = s.pending := rfl
@[simp] theorem setPoison_now (lo hi r : Nat) : (setPoison lo hi r s).now = s.now := rfl
@[simp] theorem setPoison_powered (lo hi r : Nat) : (setPoison lo hi r s).powered = s.powered := rfl
@[simp] theorem setPoison_held (lo hi r : Nat) : (setPoison lo hi r s).held = s.held := rfl
@[simp] theorem setPoison_bifurcated (lo hi r : Nat) : (setPoison lo hi r s).bifurcated = s.bifurcated := rfl
@[simp] theorem setPoison_mem (lo hi r : Nat) : (setPoison lo hi r s).mem = s.mem := rfl
@[simp] theorem setPoison_host0 (lo hi r : Nat) : (setPoison lo hi r s).host0 = s.host0 := rfl
@[simp] theorem setPoison_host1 (lo hi r : Nat) : (setPoison lo hi r s).host1 = s.host1 := rfl
@[simp] theorem setPoison_regs (lo hi r : Nat) : (setPoison lo hi r s).regs = s.regs := rfl
@[simp] theorem setPoison_sel (lo hi r : Nat) : (setPoison lo hi r s).sel = s.sel := rfl
@[simp] theorem setPoison_msix (lo hi r : Nat) : (setPoison lo hi r s).msix = s.msix := rfl
@[simp] theorem setPoison_msixPend (lo hi r : Nat) : (setPoison lo hi r s).msixPend = s.msixPend := rfl
@[simp] theorem setPoison_seq (lo hi r : Nat) : (setPoison lo hi r s).seq = s.seq := rfl
@[simp] theorem setPoison_mrq (lo hi r : Nat) : (setPoison lo hi r s).mrq = s.mrq := rfl
@[simp] theorem setPoison_ring (lo hi r : Nat) : (setPoison lo hi r s).ring = s.ring := rfl
@[simp] theorem setPoison_windows (lo hi r : Nat) : (setPoison lo hi r s).windows = s.windows := rfl
@[simp] theorem setPoison_lanes (lo hi r : Nat) : (setPoison lo hi r s).lanes = s.lanes := rfl
@[simp] theorem setPoison_fns (lo hi r : Nat) : (setPoison lo hi r s).fns = s.fns := rfl
@[simp] theorem setPoison_ports (lo hi r : Nat) : (setPoison lo hi r s).ports = s.ports := rfl
@[simp] theorem setPoison_waits (lo hi r : Nat) : (setPoison lo hi r s).waits = s.waits := rfl
@[simp] theorem setPoison_log (lo hi r : Nat) : (setPoison lo hi r s).log = s.log := rfl
@[simp] theorem setPoison_logNext (lo hi r : Nat) : (setPoison lo hi r s).logNext = s.logNext := rfl
@[simp] theorem setPoison_logGone (lo hi r : Nat) : (setPoison lo hi r s).logGone = s.logGone := rfl
@[simp] theorem setPoison_cam (lo hi r : Nat) : (setPoison lo hi r s).cam = s.cam := rfl
@[simp] theorem setPoison_isp (lo hi r : Nat) : (setPoison lo hi r s).isp = s.isp := rfl
@[simp] theorem setPoison_ispBanks (lo hi r : Nat) : (setPoison lo hi r s).ispBanks = s.ispBanks := rfl
@[simp] theorem setPoison_ispLock (lo hi r : Nat) : (setPoison lo hi r s).ispLock = s.ispLock := rfl
@[simp] theorem setPoison_ispLost (lo hi r : Nat) : (setPoison lo hi r s).ispLost = s.ispLost := rfl
@[simp] theorem setPoison_ispKept (lo hi r : Nat) : (setPoison lo hi r s).ispKept = s.ispKept := rfl
@[simp] theorem setPoison_ctxs (lo hi r : Nat) : (setPoison lo hi r s).ctxs = s.ctxs := rfl
@[simp] theorem setPoison_tracks (lo hi r : Nat) : (setPoison lo hi r s).tracks = s.tracks := rfl
@[simp] theorem setPoison_accs (lo hi r : Nat) : (setPoison lo hi r s).accs = s.accs := rfl
@[simp] theorem setPoison_macs (lo hi r : Nat) : (setPoison lo hi r s).macs = s.macs := rfl
@[simp] theorem setPoison_saf (lo hi r : Nat) : (setPoison lo hi r s).saf = s.saf := rfl
@[simp] theorem setPoison_sec (lo hi r : Nat) : (setPoison lo hi r s).sec = s.sec := rfl
@[simp] theorem setPoison_pwr (lo hi r : Nat) : (setPoison lo hi r s).pwr = s.pwr := rfl
@[simp] theorem setPoison_nv (lo hi r : Nat) : (setPoison lo hi r s).nv = s.nv := rfl
@[simp] theorem setPoison_boot (lo hi r : Nat) : (setPoison lo hi r s).boot = s.boot := rfl
@[simp] theorem setPoison_dice (lo hi r : Nat) : (setPoison lo hi r s).dice = s.dice := rfl
@[simp] theorem setPoison_availN (lo hi r : Nat) : (setPoison lo hi r s).availN = s.availN := rfl
@[simp] theorem setPoison_availV (lo hi r : Nat) : (setPoison lo hi r s).availV = s.availV := rfl
@[simp] theorem setPoison_availI (lo hi r : Nat) : (setPoison lo hi r s).availI = s.availI := rfl
@[simp] theorem setPoison_capGen (lo hi r : Nat) : (setPoison lo hi r s).capGen = s.capGen := rfl
@[simp] theorem setPoison_out (lo hi r : Nat) : (setPoison lo hi r s).out = s.out := rfl
@[simp] theorem setPoison_free (lo hi r : Nat) : (setPoison lo hi r s).free = s.free := rfl

@[simp] theorem clearPoison_pending (lo hi : Nat) : (clearPoison lo hi s).pending = s.pending := rfl
@[simp] theorem clearPoison_now (lo hi : Nat) : (clearPoison lo hi s).now = s.now := rfl
@[simp] theorem clearPoison_powered (lo hi : Nat) : (clearPoison lo hi s).powered = s.powered := rfl
@[simp] theorem clearPoison_held (lo hi : Nat) : (clearPoison lo hi s).held = s.held := rfl
@[simp] theorem clearPoison_bifurcated (lo hi : Nat) : (clearPoison lo hi s).bifurcated = s.bifurcated := rfl
@[simp] theorem clearPoison_mem (lo hi : Nat) : (clearPoison lo hi s).mem = s.mem := rfl
@[simp] theorem clearPoison_host0 (lo hi : Nat) : (clearPoison lo hi s).host0 = s.host0 := rfl
@[simp] theorem clearPoison_host1 (lo hi : Nat) : (clearPoison lo hi s).host1 = s.host1 := rfl
@[simp] theorem clearPoison_regs (lo hi : Nat) : (clearPoison lo hi s).regs = s.regs := rfl
@[simp] theorem clearPoison_sel (lo hi : Nat) : (clearPoison lo hi s).sel = s.sel := rfl
@[simp] theorem clearPoison_msix (lo hi : Nat) : (clearPoison lo hi s).msix = s.msix := rfl
@[simp] theorem clearPoison_msixPend (lo hi : Nat) : (clearPoison lo hi s).msixPend = s.msixPend := rfl
@[simp] theorem clearPoison_seq (lo hi : Nat) : (clearPoison lo hi s).seq = s.seq := rfl
@[simp] theorem clearPoison_mrq (lo hi : Nat) : (clearPoison lo hi s).mrq = s.mrq := rfl
@[simp] theorem clearPoison_ring (lo hi : Nat) : (clearPoison lo hi s).ring = s.ring := rfl
@[simp] theorem clearPoison_windows (lo hi : Nat) : (clearPoison lo hi s).windows = s.windows := rfl
@[simp] theorem clearPoison_lanes (lo hi : Nat) : (clearPoison lo hi s).lanes = s.lanes := rfl
@[simp] theorem clearPoison_fns (lo hi : Nat) : (clearPoison lo hi s).fns = s.fns := rfl
@[simp] theorem clearPoison_ports (lo hi : Nat) : (clearPoison lo hi s).ports = s.ports := rfl
@[simp] theorem clearPoison_waits (lo hi : Nat) : (clearPoison lo hi s).waits = s.waits := rfl
@[simp] theorem clearPoison_log (lo hi : Nat) : (clearPoison lo hi s).log = s.log := rfl
@[simp] theorem clearPoison_logNext (lo hi : Nat) : (clearPoison lo hi s).logNext = s.logNext := rfl
@[simp] theorem clearPoison_logGone (lo hi : Nat) : (clearPoison lo hi s).logGone = s.logGone := rfl
@[simp] theorem clearPoison_cam (lo hi : Nat) : (clearPoison lo hi s).cam = s.cam := rfl
@[simp] theorem clearPoison_isp (lo hi : Nat) : (clearPoison lo hi s).isp = s.isp := rfl
@[simp] theorem clearPoison_ispBanks (lo hi : Nat) : (clearPoison lo hi s).ispBanks = s.ispBanks := rfl
@[simp] theorem clearPoison_ispLock (lo hi : Nat) : (clearPoison lo hi s).ispLock = s.ispLock := rfl
@[simp] theorem clearPoison_ispLost (lo hi : Nat) : (clearPoison lo hi s).ispLost = s.ispLost := rfl
@[simp] theorem clearPoison_ispKept (lo hi : Nat) : (clearPoison lo hi s).ispKept = s.ispKept := rfl
@[simp] theorem clearPoison_ctxs (lo hi : Nat) : (clearPoison lo hi s).ctxs = s.ctxs := rfl
@[simp] theorem clearPoison_tracks (lo hi : Nat) : (clearPoison lo hi s).tracks = s.tracks := rfl
@[simp] theorem clearPoison_accs (lo hi : Nat) : (clearPoison lo hi s).accs = s.accs := rfl
@[simp] theorem clearPoison_macs (lo hi : Nat) : (clearPoison lo hi s).macs = s.macs := rfl
@[simp] theorem clearPoison_saf (lo hi : Nat) : (clearPoison lo hi s).saf = s.saf := rfl
@[simp] theorem clearPoison_sec (lo hi : Nat) : (clearPoison lo hi s).sec = s.sec := rfl
@[simp] theorem clearPoison_pwr (lo hi : Nat) : (clearPoison lo hi s).pwr = s.pwr := rfl
@[simp] theorem clearPoison_nv (lo hi : Nat) : (clearPoison lo hi s).nv = s.nv := rfl
@[simp] theorem clearPoison_boot (lo hi : Nat) : (clearPoison lo hi s).boot = s.boot := rfl
@[simp] theorem clearPoison_dice (lo hi : Nat) : (clearPoison lo hi s).dice = s.dice := rfl
@[simp] theorem clearPoison_availN (lo hi : Nat) : (clearPoison lo hi s).availN = s.availN := rfl
@[simp] theorem clearPoison_availV (lo hi : Nat) : (clearPoison lo hi s).availV = s.availV := rfl
@[simp] theorem clearPoison_availI (lo hi : Nat) : (clearPoison lo hi s).availI = s.availI := rfl
@[simp] theorem clearPoison_capGen (lo hi : Nat) : (clearPoison lo hi s).capGen = s.capGen := rfl
@[simp] theorem clearPoison_out (lo hi : Nat) : (clearPoison lo hi s).out = s.out := rfl
@[simp] theorem clearPoison_free (lo hi : Nat) : (clearPoison lo hi s).free = s.free := rfl

@[simp] theorem modPort_pending (p : Nat) (f : Port → Port) : (modPort p f s).pending = s.pending := rfl
@[simp] theorem modPort_now (p : Nat) (f : Port → Port) : (modPort p f s).now = s.now := rfl
@[simp] theorem modPort_powered (p : Nat) (f : Port → Port) : (modPort p f s).powered = s.powered := rfl
@[simp] theorem modPort_held (p : Nat) (f : Port → Port) : (modPort p f s).held = s.held := rfl
@[simp] theorem modPort_bifurcated (p : Nat) (f : Port → Port) : (modPort p f s).bifurcated = s.bifurcated := rfl
@[simp] theorem modPort_mem (p : Nat) (f : Port → Port) : (modPort p f s).mem = s.mem := rfl
@[simp] theorem modPort_host0 (p : Nat) (f : Port → Port) : (modPort p f s).host0 = s.host0 := rfl
@[simp] theorem modPort_host1 (p : Nat) (f : Port → Port) : (modPort p f s).host1 = s.host1 := rfl
@[simp] theorem modPort_regs (p : Nat) (f : Port → Port) : (modPort p f s).regs = s.regs := rfl
@[simp] theorem modPort_sel (p : Nat) (f : Port → Port) : (modPort p f s).sel = s.sel := rfl
@[simp] theorem modPort_msix (p : Nat) (f : Port → Port) : (modPort p f s).msix = s.msix := rfl
@[simp] theorem modPort_msixPend (p : Nat) (f : Port → Port) : (modPort p f s).msixPend = s.msixPend := rfl
@[simp] theorem modPort_seq (p : Nat) (f : Port → Port) : (modPort p f s).seq = s.seq := rfl
@[simp] theorem modPort_mrq (p : Nat) (f : Port → Port) : (modPort p f s).mrq = s.mrq := rfl
@[simp] theorem modPort_ring (p : Nat) (f : Port → Port) : (modPort p f s).ring = s.ring := rfl
@[simp] theorem modPort_windows (p : Nat) (f : Port → Port) : (modPort p f s).windows = s.windows := rfl
@[simp] theorem modPort_lanes (p : Nat) (f : Port → Port) : (modPort p f s).lanes = s.lanes := rfl
@[simp] theorem modPort_fns (p : Nat) (f : Port → Port) : (modPort p f s).fns = s.fns := rfl
@[simp] theorem modPort_waits (p : Nat) (f : Port → Port) : (modPort p f s).waits = s.waits := rfl
@[simp] theorem modPort_log (p : Nat) (f : Port → Port) : (modPort p f s).log = s.log := rfl
@[simp] theorem modPort_logNext (p : Nat) (f : Port → Port) : (modPort p f s).logNext = s.logNext := rfl
@[simp] theorem modPort_logGone (p : Nat) (f : Port → Port) : (modPort p f s).logGone = s.logGone := rfl
@[simp] theorem modPort_spd (p : Nat) (f : Port → Port) : (modPort p f s).spd = s.spd := rfl
@[simp] theorem modPort_cam (p : Nat) (f : Port → Port) : (modPort p f s).cam = s.cam := rfl
@[simp] theorem modPort_isp (p : Nat) (f : Port → Port) : (modPort p f s).isp = s.isp := rfl
@[simp] theorem modPort_ispBanks (p : Nat) (f : Port → Port) : (modPort p f s).ispBanks = s.ispBanks := rfl
@[simp] theorem modPort_ispLock (p : Nat) (f : Port → Port) : (modPort p f s).ispLock = s.ispLock := rfl
@[simp] theorem modPort_ispLost (p : Nat) (f : Port → Port) : (modPort p f s).ispLost = s.ispLost := rfl
@[simp] theorem modPort_ispKept (p : Nat) (f : Port → Port) : (modPort p f s).ispKept = s.ispKept := rfl
@[simp] theorem modPort_ctxs (p : Nat) (f : Port → Port) : (modPort p f s).ctxs = s.ctxs := rfl
@[simp] theorem modPort_tracks (p : Nat) (f : Port → Port) : (modPort p f s).tracks = s.tracks := rfl
@[simp] theorem modPort_accs (p : Nat) (f : Port → Port) : (modPort p f s).accs = s.accs := rfl
@[simp] theorem modPort_macs (p : Nat) (f : Port → Port) : (modPort p f s).macs = s.macs := rfl
@[simp] theorem modPort_saf (p : Nat) (f : Port → Port) : (modPort p f s).saf = s.saf := rfl
@[simp] theorem modPort_sec (p : Nat) (f : Port → Port) : (modPort p f s).sec = s.sec := rfl
@[simp] theorem modPort_pwr (p : Nat) (f : Port → Port) : (modPort p f s).pwr = s.pwr := rfl
@[simp] theorem modPort_nv (p : Nat) (f : Port → Port) : (modPort p f s).nv = s.nv := rfl
@[simp] theorem modPort_boot (p : Nat) (f : Port → Port) : (modPort p f s).boot = s.boot := rfl
@[simp] theorem modPort_dice (p : Nat) (f : Port → Port) : (modPort p f s).dice = s.dice := rfl
@[simp] theorem modPort_availN (p : Nat) (f : Port → Port) : (modPort p f s).availN = s.availN := rfl
@[simp] theorem modPort_availV (p : Nat) (f : Port → Port) : (modPort p f s).availV = s.availV := rfl
@[simp] theorem modPort_availI (p : Nat) (f : Port → Port) : (modPort p f s).availI = s.availI := rfl
@[simp] theorem modPort_capGen (p : Nat) (f : Port → Port) : (modPort p f s).capGen = s.capGen := rfl
@[simp] theorem modPort_out (p : Nat) (f : Port → Port) : (modPort p f s).out = s.out := rfl
@[simp] theorem modPort_free (p : Nat) (f : Port → Port) : (modPort p f s).free = s.free := rfl

@[simp] theorem modFn_pending (n : Nat) (f : Fn → Fn) : (modFn n f s).pending = s.pending := rfl
@[simp] theorem modFn_now (n : Nat) (f : Fn → Fn) : (modFn n f s).now = s.now := rfl
@[simp] theorem modFn_powered (n : Nat) (f : Fn → Fn) : (modFn n f s).powered = s.powered := rfl
@[simp] theorem modFn_held (n : Nat) (f : Fn → Fn) : (modFn n f s).held = s.held := rfl
@[simp] theorem modFn_bifurcated (n : Nat) (f : Fn → Fn) : (modFn n f s).bifurcated = s.bifurcated := rfl
@[simp] theorem modFn_mem (n : Nat) (f : Fn → Fn) : (modFn n f s).mem = s.mem := rfl
@[simp] theorem modFn_host0 (n : Nat) (f : Fn → Fn) : (modFn n f s).host0 = s.host0 := rfl
@[simp] theorem modFn_host1 (n : Nat) (f : Fn → Fn) : (modFn n f s).host1 = s.host1 := rfl
@[simp] theorem modFn_regs (n : Nat) (f : Fn → Fn) : (modFn n f s).regs = s.regs := rfl
@[simp] theorem modFn_sel (n : Nat) (f : Fn → Fn) : (modFn n f s).sel = s.sel := rfl
@[simp] theorem modFn_msix (n : Nat) (f : Fn → Fn) : (modFn n f s).msix = s.msix := rfl
@[simp] theorem modFn_msixPend (n : Nat) (f : Fn → Fn) : (modFn n f s).msixPend = s.msixPend := rfl
@[simp] theorem modFn_seq (n : Nat) (f : Fn → Fn) : (modFn n f s).seq = s.seq := rfl
@[simp] theorem modFn_mrq (n : Nat) (f : Fn → Fn) : (modFn n f s).mrq = s.mrq := rfl
@[simp] theorem modFn_ring (n : Nat) (f : Fn → Fn) : (modFn n f s).ring = s.ring := rfl
@[simp] theorem modFn_windows (n : Nat) (f : Fn → Fn) : (modFn n f s).windows = s.windows := rfl
@[simp] theorem modFn_lanes (n : Nat) (f : Fn → Fn) : (modFn n f s).lanes = s.lanes := rfl
@[simp] theorem modFn_ports (n : Nat) (f : Fn → Fn) : (modFn n f s).ports = s.ports := rfl
@[simp] theorem modFn_waits (n : Nat) (f : Fn → Fn) : (modFn n f s).waits = s.waits := rfl
@[simp] theorem modFn_log (n : Nat) (f : Fn → Fn) : (modFn n f s).log = s.log := rfl
@[simp] theorem modFn_logNext (n : Nat) (f : Fn → Fn) : (modFn n f s).logNext = s.logNext := rfl
@[simp] theorem modFn_logGone (n : Nat) (f : Fn → Fn) : (modFn n f s).logGone = s.logGone := rfl
@[simp] theorem modFn_spd (n : Nat) (f : Fn → Fn) : (modFn n f s).spd = s.spd := rfl
@[simp] theorem modFn_cam (n : Nat) (f : Fn → Fn) : (modFn n f s).cam = s.cam := rfl
@[simp] theorem modFn_isp (n : Nat) (f : Fn → Fn) : (modFn n f s).isp = s.isp := rfl
@[simp] theorem modFn_ispBanks (n : Nat) (f : Fn → Fn) : (modFn n f s).ispBanks = s.ispBanks := rfl
@[simp] theorem modFn_ispLock (n : Nat) (f : Fn → Fn) : (modFn n f s).ispLock = s.ispLock := rfl
@[simp] theorem modFn_ispLost (n : Nat) (f : Fn → Fn) : (modFn n f s).ispLost = s.ispLost := rfl
@[simp] theorem modFn_ispKept (n : Nat) (f : Fn → Fn) : (modFn n f s).ispKept = s.ispKept := rfl
@[simp] theorem modFn_ctxs (n : Nat) (f : Fn → Fn) : (modFn n f s).ctxs = s.ctxs := rfl
@[simp] theorem modFn_tracks (n : Nat) (f : Fn → Fn) : (modFn n f s).tracks = s.tracks := rfl
@[simp] theorem modFn_accs (n : Nat) (f : Fn → Fn) : (modFn n f s).accs = s.accs := rfl
@[simp] theorem modFn_macs (n : Nat) (f : Fn → Fn) : (modFn n f s).macs = s.macs := rfl
@[simp] theorem modFn_saf (n : Nat) (f : Fn → Fn) : (modFn n f s).saf = s.saf := rfl
@[simp] theorem modFn_sec (n : Nat) (f : Fn → Fn) : (modFn n f s).sec = s.sec := rfl
@[simp] theorem modFn_pwr (n : Nat) (f : Fn → Fn) : (modFn n f s).pwr = s.pwr := rfl
@[simp] theorem modFn_nv (n : Nat) (f : Fn → Fn) : (modFn n f s).nv = s.nv := rfl
@[simp] theorem modFn_boot (n : Nat) (f : Fn → Fn) : (modFn n f s).boot = s.boot := rfl
@[simp] theorem modFn_dice (n : Nat) (f : Fn → Fn) : (modFn n f s).dice = s.dice := rfl
@[simp] theorem modFn_availN (n : Nat) (f : Fn → Fn) : (modFn n f s).availN = s.availN := rfl
@[simp] theorem modFn_availV (n : Nat) (f : Fn → Fn) : (modFn n f s).availV = s.availV := rfl
@[simp] theorem modFn_availI (n : Nat) (f : Fn → Fn) : (modFn n f s).availI = s.availI := rfl
@[simp] theorem modFn_capGen (n : Nat) (f : Fn → Fn) : (modFn n f s).capGen = s.capGen := rfl
@[simp] theorem modFn_out (n : Nat) (f : Fn → Fn) : (modFn n f s).out = s.out := rfl
@[simp] theorem modFn_free (n : Nat) (f : Fn → Fn) : (modFn n f s).free = s.free := rfl

@[simp] theorem modLane_pending (n : Nat) (f : Lane → Lane) : (modLane n f s).pending = s.pending := rfl
@[simp] theorem modLane_now (n : Nat) (f : Lane → Lane) : (modLane n f s).now = s.now := rfl
@[simp] theorem modLane_powered (n : Nat) (f : Lane → Lane) : (modLane n f s).powered = s.powered := rfl
@[simp] theorem modLane_held (n : Nat) (f : Lane → Lane) : (modLane n f s).held = s.held := rfl
@[simp] theorem modLane_bifurcated (n : Nat) (f : Lane → Lane) : (modLane n f s).bifurcated = s.bifurcated := rfl
@[simp] theorem modLane_mem (n : Nat) (f : Lane → Lane) : (modLane n f s).mem = s.mem := rfl
@[simp] theorem modLane_host0 (n : Nat) (f : Lane → Lane) : (modLane n f s).host0 = s.host0 := rfl
@[simp] theorem modLane_host1 (n : Nat) (f : Lane → Lane) : (modLane n f s).host1 = s.host1 := rfl
@[simp] theorem modLane_regs (n : Nat) (f : Lane → Lane) : (modLane n f s).regs = s.regs := rfl
@[simp] theorem modLane_sel (n : Nat) (f : Lane → Lane) : (modLane n f s).sel = s.sel := rfl
@[simp] theorem modLane_msix (n : Nat) (f : Lane → Lane) : (modLane n f s).msix = s.msix := rfl
@[simp] theorem modLane_msixPend (n : Nat) (f : Lane → Lane) : (modLane n f s).msixPend = s.msixPend := rfl
@[simp] theorem modLane_seq (n : Nat) (f : Lane → Lane) : (modLane n f s).seq = s.seq := rfl
@[simp] theorem modLane_mrq (n : Nat) (f : Lane → Lane) : (modLane n f s).mrq = s.mrq := rfl
@[simp] theorem modLane_ring (n : Nat) (f : Lane → Lane) : (modLane n f s).ring = s.ring := rfl
@[simp] theorem modLane_windows (n : Nat) (f : Lane → Lane) : (modLane n f s).windows = s.windows := rfl
@[simp] theorem modLane_fns (n : Nat) (f : Lane → Lane) : (modLane n f s).fns = s.fns := rfl
@[simp] theorem modLane_ports (n : Nat) (f : Lane → Lane) : (modLane n f s).ports = s.ports := rfl
@[simp] theorem modLane_waits (n : Nat) (f : Lane → Lane) : (modLane n f s).waits = s.waits := rfl
@[simp] theorem modLane_log (n : Nat) (f : Lane → Lane) : (modLane n f s).log = s.log := rfl
@[simp] theorem modLane_logNext (n : Nat) (f : Lane → Lane) : (modLane n f s).logNext = s.logNext := rfl
@[simp] theorem modLane_logGone (n : Nat) (f : Lane → Lane) : (modLane n f s).logGone = s.logGone := rfl
@[simp] theorem modLane_spd (n : Nat) (f : Lane → Lane) : (modLane n f s).spd = s.spd := rfl
@[simp] theorem modLane_cam (n : Nat) (f : Lane → Lane) : (modLane n f s).cam = s.cam := rfl
@[simp] theorem modLane_isp (n : Nat) (f : Lane → Lane) : (modLane n f s).isp = s.isp := rfl
@[simp] theorem modLane_ispBanks (n : Nat) (f : Lane → Lane) : (modLane n f s).ispBanks = s.ispBanks := rfl
@[simp] theorem modLane_ispLock (n : Nat) (f : Lane → Lane) : (modLane n f s).ispLock = s.ispLock := rfl
@[simp] theorem modLane_ispLost (n : Nat) (f : Lane → Lane) : (modLane n f s).ispLost = s.ispLost := rfl
@[simp] theorem modLane_ispKept (n : Nat) (f : Lane → Lane) : (modLane n f s).ispKept = s.ispKept := rfl
@[simp] theorem modLane_ctxs (n : Nat) (f : Lane → Lane) : (modLane n f s).ctxs = s.ctxs := rfl
@[simp] theorem modLane_tracks (n : Nat) (f : Lane → Lane) : (modLane n f s).tracks = s.tracks := rfl
@[simp] theorem modLane_accs (n : Nat) (f : Lane → Lane) : (modLane n f s).accs = s.accs := rfl
@[simp] theorem modLane_macs (n : Nat) (f : Lane → Lane) : (modLane n f s).macs = s.macs := rfl
@[simp] theorem modLane_saf (n : Nat) (f : Lane → Lane) : (modLane n f s).saf = s.saf := rfl
@[simp] theorem modLane_sec (n : Nat) (f : Lane → Lane) : (modLane n f s).sec = s.sec := rfl
@[simp] theorem modLane_pwr (n : Nat) (f : Lane → Lane) : (modLane n f s).pwr = s.pwr := rfl
@[simp] theorem modLane_nv (n : Nat) (f : Lane → Lane) : (modLane n f s).nv = s.nv := rfl
@[simp] theorem modLane_boot (n : Nat) (f : Lane → Lane) : (modLane n f s).boot = s.boot := rfl
@[simp] theorem modLane_dice (n : Nat) (f : Lane → Lane) : (modLane n f s).dice = s.dice := rfl
@[simp] theorem modLane_availN (n : Nat) (f : Lane → Lane) : (modLane n f s).availN = s.availN := rfl
@[simp] theorem modLane_availV (n : Nat) (f : Lane → Lane) : (modLane n f s).availV = s.availV := rfl
@[simp] theorem modLane_availI (n : Nat) (f : Lane → Lane) : (modLane n f s).availI = s.availI := rfl
@[simp] theorem modLane_capGen (n : Nat) (f : Lane → Lane) : (modLane n f s).capGen = s.capGen := rfl
@[simp] theorem modLane_out (n : Nat) (f : Lane → Lane) : (modLane n f s).out = s.out := rfl
@[simp] theorem modLane_free (n : Nat) (f : Lane → Lane) : (modLane n f s).free = s.free := rfl

@[simp] theorem modSeq_pending (f : Seq → Seq) : (modSeq f s).pending = s.pending := rfl
@[simp] theorem modSeq_now (f : Seq → Seq) : (modSeq f s).now = s.now := rfl
@[simp] theorem modSeq_powered (f : Seq → Seq) : (modSeq f s).powered = s.powered := rfl
@[simp] theorem modSeq_held (f : Seq → Seq) : (modSeq f s).held = s.held := rfl
@[simp] theorem modSeq_bifurcated (f : Seq → Seq) : (modSeq f s).bifurcated = s.bifurcated := rfl
@[simp] theorem modSeq_mem (f : Seq → Seq) : (modSeq f s).mem = s.mem := rfl
@[simp] theorem modSeq_host0 (f : Seq → Seq) : (modSeq f s).host0 = s.host0 := rfl
@[simp] theorem modSeq_host1 (f : Seq → Seq) : (modSeq f s).host1 = s.host1 := rfl
@[simp] theorem modSeq_regs (f : Seq → Seq) : (modSeq f s).regs = s.regs := rfl
@[simp] theorem modSeq_sel (f : Seq → Seq) : (modSeq f s).sel = s.sel := rfl
@[simp] theorem modSeq_msix (f : Seq → Seq) : (modSeq f s).msix = s.msix := rfl
@[simp] theorem modSeq_msixPend (f : Seq → Seq) : (modSeq f s).msixPend = s.msixPend := rfl
@[simp] theorem modSeq_mrq (f : Seq → Seq) : (modSeq f s).mrq = s.mrq := rfl
@[simp] theorem modSeq_ring (f : Seq → Seq) : (modSeq f s).ring = s.ring := rfl
@[simp] theorem modSeq_windows (f : Seq → Seq) : (modSeq f s).windows = s.windows := rfl
@[simp] theorem modSeq_lanes (f : Seq → Seq) : (modSeq f s).lanes = s.lanes := rfl
@[simp] theorem modSeq_fns (f : Seq → Seq) : (modSeq f s).fns = s.fns := rfl
@[simp] theorem modSeq_ports (f : Seq → Seq) : (modSeq f s).ports = s.ports := rfl
@[simp] theorem modSeq_waits (f : Seq → Seq) : (modSeq f s).waits = s.waits := rfl
@[simp] theorem modSeq_log (f : Seq → Seq) : (modSeq f s).log = s.log := rfl
@[simp] theorem modSeq_logNext (f : Seq → Seq) : (modSeq f s).logNext = s.logNext := rfl
@[simp] theorem modSeq_logGone (f : Seq → Seq) : (modSeq f s).logGone = s.logGone := rfl
@[simp] theorem modSeq_spd (f : Seq → Seq) : (modSeq f s).spd = s.spd := rfl
@[simp] theorem modSeq_cam (f : Seq → Seq) : (modSeq f s).cam = s.cam := rfl
@[simp] theorem modSeq_isp (f : Seq → Seq) : (modSeq f s).isp = s.isp := rfl
@[simp] theorem modSeq_ispBanks (f : Seq → Seq) : (modSeq f s).ispBanks = s.ispBanks := rfl
@[simp] theorem modSeq_ispLock (f : Seq → Seq) : (modSeq f s).ispLock = s.ispLock := rfl
@[simp] theorem modSeq_ispLost (f : Seq → Seq) : (modSeq f s).ispLost = s.ispLost := rfl
@[simp] theorem modSeq_ispKept (f : Seq → Seq) : (modSeq f s).ispKept = s.ispKept := rfl
@[simp] theorem modSeq_ctxs (f : Seq → Seq) : (modSeq f s).ctxs = s.ctxs := rfl
@[simp] theorem modSeq_tracks (f : Seq → Seq) : (modSeq f s).tracks = s.tracks := rfl
@[simp] theorem modSeq_accs (f : Seq → Seq) : (modSeq f s).accs = s.accs := rfl
@[simp] theorem modSeq_macs (f : Seq → Seq) : (modSeq f s).macs = s.macs := rfl
@[simp] theorem modSeq_saf (f : Seq → Seq) : (modSeq f s).saf = s.saf := rfl
@[simp] theorem modSeq_sec (f : Seq → Seq) : (modSeq f s).sec = s.sec := rfl
@[simp] theorem modSeq_pwr (f : Seq → Seq) : (modSeq f s).pwr = s.pwr := rfl
@[simp] theorem modSeq_nv (f : Seq → Seq) : (modSeq f s).nv = s.nv := rfl
@[simp] theorem modSeq_boot (f : Seq → Seq) : (modSeq f s).boot = s.boot := rfl
@[simp] theorem modSeq_dice (f : Seq → Seq) : (modSeq f s).dice = s.dice := rfl
@[simp] theorem modSeq_availN (f : Seq → Seq) : (modSeq f s).availN = s.availN := rfl
@[simp] theorem modSeq_availV (f : Seq → Seq) : (modSeq f s).availV = s.availV := rfl
@[simp] theorem modSeq_availI (f : Seq → Seq) : (modSeq f s).availI = s.availI := rfl
@[simp] theorem modSeq_capGen (f : Seq → Seq) : (modSeq f s).capGen = s.capGen := rfl
@[simp] theorem modSeq_out (f : Seq → Seq) : (modSeq f s).out = s.out := rfl
@[simp] theorem modSeq_free (f : Seq → Seq) : (modSeq f s).free = s.free := rfl

@[simp] theorem modWin_pending (n : Nat) (f : Window → Window) : (modWin n f s).pending = s.pending := rfl
@[simp] theorem modWin_now (n : Nat) (f : Window → Window) : (modWin n f s).now = s.now := rfl
@[simp] theorem modWin_powered (n : Nat) (f : Window → Window) : (modWin n f s).powered = s.powered := rfl
@[simp] theorem modWin_held (n : Nat) (f : Window → Window) : (modWin n f s).held = s.held := rfl
@[simp] theorem modWin_bifurcated (n : Nat) (f : Window → Window) : (modWin n f s).bifurcated = s.bifurcated := rfl
@[simp] theorem modWin_mem (n : Nat) (f : Window → Window) : (modWin n f s).mem = s.mem := rfl
@[simp] theorem modWin_host0 (n : Nat) (f : Window → Window) : (modWin n f s).host0 = s.host0 := rfl
@[simp] theorem modWin_host1 (n : Nat) (f : Window → Window) : (modWin n f s).host1 = s.host1 := rfl
@[simp] theorem modWin_regs (n : Nat) (f : Window → Window) : (modWin n f s).regs = s.regs := rfl
@[simp] theorem modWin_sel (n : Nat) (f : Window → Window) : (modWin n f s).sel = s.sel := rfl
@[simp] theorem modWin_msix (n : Nat) (f : Window → Window) : (modWin n f s).msix = s.msix := rfl
@[simp] theorem modWin_msixPend (n : Nat) (f : Window → Window) : (modWin n f s).msixPend = s.msixPend := rfl
@[simp] theorem modWin_seq (n : Nat) (f : Window → Window) : (modWin n f s).seq = s.seq := rfl
@[simp] theorem modWin_mrq (n : Nat) (f : Window → Window) : (modWin n f s).mrq = s.mrq := rfl
@[simp] theorem modWin_ring (n : Nat) (f : Window → Window) : (modWin n f s).ring = s.ring := rfl
@[simp] theorem modWin_lanes (n : Nat) (f : Window → Window) : (modWin n f s).lanes = s.lanes := rfl
@[simp] theorem modWin_fns (n : Nat) (f : Window → Window) : (modWin n f s).fns = s.fns := rfl
@[simp] theorem modWin_ports (n : Nat) (f : Window → Window) : (modWin n f s).ports = s.ports := rfl
@[simp] theorem modWin_waits (n : Nat) (f : Window → Window) : (modWin n f s).waits = s.waits := rfl
@[simp] theorem modWin_log (n : Nat) (f : Window → Window) : (modWin n f s).log = s.log := rfl
@[simp] theorem modWin_logNext (n : Nat) (f : Window → Window) : (modWin n f s).logNext = s.logNext := rfl
@[simp] theorem modWin_logGone (n : Nat) (f : Window → Window) : (modWin n f s).logGone = s.logGone := rfl
@[simp] theorem modWin_spd (n : Nat) (f : Window → Window) : (modWin n f s).spd = s.spd := rfl
@[simp] theorem modWin_cam (n : Nat) (f : Window → Window) : (modWin n f s).cam = s.cam := rfl
@[simp] theorem modWin_isp (n : Nat) (f : Window → Window) : (modWin n f s).isp = s.isp := rfl
@[simp] theorem modWin_ispBanks (n : Nat) (f : Window → Window) : (modWin n f s).ispBanks = s.ispBanks := rfl
@[simp] theorem modWin_ispLock (n : Nat) (f : Window → Window) : (modWin n f s).ispLock = s.ispLock := rfl
@[simp] theorem modWin_ispLost (n : Nat) (f : Window → Window) : (modWin n f s).ispLost = s.ispLost := rfl
@[simp] theorem modWin_ispKept (n : Nat) (f : Window → Window) : (modWin n f s).ispKept = s.ispKept := rfl
@[simp] theorem modWin_ctxs (n : Nat) (f : Window → Window) : (modWin n f s).ctxs = s.ctxs := rfl
@[simp] theorem modWin_tracks (n : Nat) (f : Window → Window) : (modWin n f s).tracks = s.tracks := rfl
@[simp] theorem modWin_accs (n : Nat) (f : Window → Window) : (modWin n f s).accs = s.accs := rfl
@[simp] theorem modWin_macs (n : Nat) (f : Window → Window) : (modWin n f s).macs = s.macs := rfl
@[simp] theorem modWin_saf (n : Nat) (f : Window → Window) : (modWin n f s).saf = s.saf := rfl
@[simp] theorem modWin_sec (n : Nat) (f : Window → Window) : (modWin n f s).sec = s.sec := rfl
@[simp] theorem modWin_pwr (n : Nat) (f : Window → Window) : (modWin n f s).pwr = s.pwr := rfl
@[simp] theorem modWin_nv (n : Nat) (f : Window → Window) : (modWin n f s).nv = s.nv := rfl
@[simp] theorem modWin_boot (n : Nat) (f : Window → Window) : (modWin n f s).boot = s.boot := rfl
@[simp] theorem modWin_dice (n : Nat) (f : Window → Window) : (modWin n f s).dice = s.dice := rfl
@[simp] theorem modWin_availN (n : Nat) (f : Window → Window) : (modWin n f s).availN = s.availN := rfl
@[simp] theorem modWin_availV (n : Nat) (f : Window → Window) : (modWin n f s).availV = s.availV := rfl
@[simp] theorem modWin_availI (n : Nat) (f : Window → Window) : (modWin n f s).availI = s.availI := rfl
@[simp] theorem modWin_capGen (n : Nat) (f : Window → Window) : (modWin n f s).capGen = s.capGen := rfl
@[simp] theorem modWin_out (n : Nat) (f : Window → Window) : (modWin n f s).out = s.out := rfl
@[simp] theorem modWin_free (n : Nat) (f : Window → Window) : (modWin n f s).free = s.free := rfl

@[simp] theorem modMac_pending (n : Nat) (f : Mac → Mac) : (modMac n f s).pending = s.pending := rfl
@[simp] theorem modMac_now (n : Nat) (f : Mac → Mac) : (modMac n f s).now = s.now := rfl
@[simp] theorem modMac_powered (n : Nat) (f : Mac → Mac) : (modMac n f s).powered = s.powered := rfl
@[simp] theorem modMac_held (n : Nat) (f : Mac → Mac) : (modMac n f s).held = s.held := rfl
@[simp] theorem modMac_bifurcated (n : Nat) (f : Mac → Mac) : (modMac n f s).bifurcated = s.bifurcated := rfl
@[simp] theorem modMac_mem (n : Nat) (f : Mac → Mac) : (modMac n f s).mem = s.mem := rfl
@[simp] theorem modMac_host0 (n : Nat) (f : Mac → Mac) : (modMac n f s).host0 = s.host0 := rfl
@[simp] theorem modMac_host1 (n : Nat) (f : Mac → Mac) : (modMac n f s).host1 = s.host1 := rfl
@[simp] theorem modMac_regs (n : Nat) (f : Mac → Mac) : (modMac n f s).regs = s.regs := rfl
@[simp] theorem modMac_sel (n : Nat) (f : Mac → Mac) : (modMac n f s).sel = s.sel := rfl
@[simp] theorem modMac_msix (n : Nat) (f : Mac → Mac) : (modMac n f s).msix = s.msix := rfl
@[simp] theorem modMac_msixPend (n : Nat) (f : Mac → Mac) : (modMac n f s).msixPend = s.msixPend := rfl
@[simp] theorem modMac_seq (n : Nat) (f : Mac → Mac) : (modMac n f s).seq = s.seq := rfl
@[simp] theorem modMac_mrq (n : Nat) (f : Mac → Mac) : (modMac n f s).mrq = s.mrq := rfl
@[simp] theorem modMac_ring (n : Nat) (f : Mac → Mac) : (modMac n f s).ring = s.ring := rfl
@[simp] theorem modMac_windows (n : Nat) (f : Mac → Mac) : (modMac n f s).windows = s.windows := rfl
@[simp] theorem modMac_lanes (n : Nat) (f : Mac → Mac) : (modMac n f s).lanes = s.lanes := rfl
@[simp] theorem modMac_fns (n : Nat) (f : Mac → Mac) : (modMac n f s).fns = s.fns := rfl
@[simp] theorem modMac_ports (n : Nat) (f : Mac → Mac) : (modMac n f s).ports = s.ports := rfl
@[simp] theorem modMac_waits (n : Nat) (f : Mac → Mac) : (modMac n f s).waits = s.waits := rfl
@[simp] theorem modMac_log (n : Nat) (f : Mac → Mac) : (modMac n f s).log = s.log := rfl
@[simp] theorem modMac_logNext (n : Nat) (f : Mac → Mac) : (modMac n f s).logNext = s.logNext := rfl
@[simp] theorem modMac_logGone (n : Nat) (f : Mac → Mac) : (modMac n f s).logGone = s.logGone := rfl
@[simp] theorem modMac_spd (n : Nat) (f : Mac → Mac) : (modMac n f s).spd = s.spd := rfl
@[simp] theorem modMac_cam (n : Nat) (f : Mac → Mac) : (modMac n f s).cam = s.cam := rfl
@[simp] theorem modMac_isp (n : Nat) (f : Mac → Mac) : (modMac n f s).isp = s.isp := rfl
@[simp] theorem modMac_ispBanks (n : Nat) (f : Mac → Mac) : (modMac n f s).ispBanks = s.ispBanks := rfl
@[simp] theorem modMac_ispLock (n : Nat) (f : Mac → Mac) : (modMac n f s).ispLock = s.ispLock := rfl
@[simp] theorem modMac_ispLost (n : Nat) (f : Mac → Mac) : (modMac n f s).ispLost = s.ispLost := rfl
@[simp] theorem modMac_ispKept (n : Nat) (f : Mac → Mac) : (modMac n f s).ispKept = s.ispKept := rfl
@[simp] theorem modMac_ctxs (n : Nat) (f : Mac → Mac) : (modMac n f s).ctxs = s.ctxs := rfl
@[simp] theorem modMac_tracks (n : Nat) (f : Mac → Mac) : (modMac n f s).tracks = s.tracks := rfl
@[simp] theorem modMac_accs (n : Nat) (f : Mac → Mac) : (modMac n f s).accs = s.accs := rfl
@[simp] theorem modMac_saf (n : Nat) (f : Mac → Mac) : (modMac n f s).saf = s.saf := rfl
@[simp] theorem modMac_sec (n : Nat) (f : Mac → Mac) : (modMac n f s).sec = s.sec := rfl
@[simp] theorem modMac_pwr (n : Nat) (f : Mac → Mac) : (modMac n f s).pwr = s.pwr := rfl
@[simp] theorem modMac_nv (n : Nat) (f : Mac → Mac) : (modMac n f s).nv = s.nv := rfl
@[simp] theorem modMac_boot (n : Nat) (f : Mac → Mac) : (modMac n f s).boot = s.boot := rfl
@[simp] theorem modMac_dice (n : Nat) (f : Mac → Mac) : (modMac n f s).dice = s.dice := rfl
@[simp] theorem modMac_availN (n : Nat) (f : Mac → Mac) : (modMac n f s).availN = s.availN := rfl
@[simp] theorem modMac_availV (n : Nat) (f : Mac → Mac) : (modMac n f s).availV = s.availV := rfl
@[simp] theorem modMac_availI (n : Nat) (f : Mac → Mac) : (modMac n f s).availI = s.availI := rfl
@[simp] theorem modMac_capGen (n : Nat) (f : Mac → Mac) : (modMac n f s).capGen = s.capGen := rfl
@[simp] theorem modMac_out (n : Nat) (f : Mac → Mac) : (modMac n f s).out = s.out := rfl
@[simp] theorem modMac_free (n : Nat) (f : Mac → Mac) : (modMac n f s).free = s.free := rfl

@[simp] theorem mrqPut_pending (m : Nat) (l : List Nat) : (mrqPut m l s).pending = s.pending := rfl
@[simp] theorem mrqPut_now (m : Nat) (l : List Nat) : (mrqPut m l s).now = s.now := rfl
@[simp] theorem mrqPut_powered (m : Nat) (l : List Nat) : (mrqPut m l s).powered = s.powered := rfl
@[simp] theorem mrqPut_held (m : Nat) (l : List Nat) : (mrqPut m l s).held = s.held := rfl
@[simp] theorem mrqPut_bifurcated (m : Nat) (l : List Nat) : (mrqPut m l s).bifurcated = s.bifurcated := rfl
@[simp] theorem mrqPut_mem (m : Nat) (l : List Nat) : (mrqPut m l s).mem = s.mem := rfl
@[simp] theorem mrqPut_host0 (m : Nat) (l : List Nat) : (mrqPut m l s).host0 = s.host0 := rfl
@[simp] theorem mrqPut_host1 (m : Nat) (l : List Nat) : (mrqPut m l s).host1 = s.host1 := rfl
@[simp] theorem mrqPut_regs (m : Nat) (l : List Nat) : (mrqPut m l s).regs = s.regs := rfl
@[simp] theorem mrqPut_sel (m : Nat) (l : List Nat) : (mrqPut m l s).sel = s.sel := rfl
@[simp] theorem mrqPut_msix (m : Nat) (l : List Nat) : (mrqPut m l s).msix = s.msix := rfl
@[simp] theorem mrqPut_msixPend (m : Nat) (l : List Nat) : (mrqPut m l s).msixPend = s.msixPend := rfl
@[simp] theorem mrqPut_seq (m : Nat) (l : List Nat) : (mrqPut m l s).seq = s.seq := rfl
@[simp] theorem mrqPut_ring (m : Nat) (l : List Nat) : (mrqPut m l s).ring = s.ring := rfl
@[simp] theorem mrqPut_windows (m : Nat) (l : List Nat) : (mrqPut m l s).windows = s.windows := rfl
@[simp] theorem mrqPut_lanes (m : Nat) (l : List Nat) : (mrqPut m l s).lanes = s.lanes := rfl
@[simp] theorem mrqPut_fns (m : Nat) (l : List Nat) : (mrqPut m l s).fns = s.fns := rfl
@[simp] theorem mrqPut_ports (m : Nat) (l : List Nat) : (mrqPut m l s).ports = s.ports := rfl
@[simp] theorem mrqPut_waits (m : Nat) (l : List Nat) : (mrqPut m l s).waits = s.waits := rfl
@[simp] theorem mrqPut_log (m : Nat) (l : List Nat) : (mrqPut m l s).log = s.log := rfl
@[simp] theorem mrqPut_logNext (m : Nat) (l : List Nat) : (mrqPut m l s).logNext = s.logNext := rfl
@[simp] theorem mrqPut_logGone (m : Nat) (l : List Nat) : (mrqPut m l s).logGone = s.logGone := rfl
@[simp] theorem mrqPut_spd (m : Nat) (l : List Nat) : (mrqPut m l s).spd = s.spd := rfl
@[simp] theorem mrqPut_cam (m : Nat) (l : List Nat) : (mrqPut m l s).cam = s.cam := rfl
@[simp] theorem mrqPut_isp (m : Nat) (l : List Nat) : (mrqPut m l s).isp = s.isp := rfl
@[simp] theorem mrqPut_ispBanks (m : Nat) (l : List Nat) : (mrqPut m l s).ispBanks = s.ispBanks := rfl
@[simp] theorem mrqPut_ispLock (m : Nat) (l : List Nat) : (mrqPut m l s).ispLock = s.ispLock := rfl
@[simp] theorem mrqPut_ispLost (m : Nat) (l : List Nat) : (mrqPut m l s).ispLost = s.ispLost := rfl
@[simp] theorem mrqPut_ispKept (m : Nat) (l : List Nat) : (mrqPut m l s).ispKept = s.ispKept := rfl
@[simp] theorem mrqPut_ctxs (m : Nat) (l : List Nat) : (mrqPut m l s).ctxs = s.ctxs := rfl
@[simp] theorem mrqPut_tracks (m : Nat) (l : List Nat) : (mrqPut m l s).tracks = s.tracks := rfl
@[simp] theorem mrqPut_accs (m : Nat) (l : List Nat) : (mrqPut m l s).accs = s.accs := rfl
@[simp] theorem mrqPut_macs (m : Nat) (l : List Nat) : (mrqPut m l s).macs = s.macs := rfl
@[simp] theorem mrqPut_saf (m : Nat) (l : List Nat) : (mrqPut m l s).saf = s.saf := rfl
@[simp] theorem mrqPut_sec (m : Nat) (l : List Nat) : (mrqPut m l s).sec = s.sec := rfl
@[simp] theorem mrqPut_pwr (m : Nat) (l : List Nat) : (mrqPut m l s).pwr = s.pwr := rfl
@[simp] theorem mrqPut_nv (m : Nat) (l : List Nat) : (mrqPut m l s).nv = s.nv := rfl
@[simp] theorem mrqPut_boot (m : Nat) (l : List Nat) : (mrqPut m l s).boot = s.boot := rfl
@[simp] theorem mrqPut_dice (m : Nat) (l : List Nat) : (mrqPut m l s).dice = s.dice := rfl
@[simp] theorem mrqPut_availN (m : Nat) (l : List Nat) : (mrqPut m l s).availN = s.availN := rfl
@[simp] theorem mrqPut_availV (m : Nat) (l : List Nat) : (mrqPut m l s).availV = s.availV := rfl
@[simp] theorem mrqPut_availI (m : Nat) (l : List Nat) : (mrqPut m l s).availI = s.availI := rfl
@[simp] theorem mrqPut_capGen (m : Nat) (l : List Nat) : (mrqPut m l s).capGen = s.capGen := rfl
@[simp] theorem mrqPut_out (m : Nat) (l : List Nat) : (mrqPut m l s).out = s.out := rfl
@[simp] theorem mrqPut_free (m : Nat) (l : List Nat) : (mrqPut m l s).free = s.free := rfl

@[simp] theorem modPwr_pending (f : Pwr → Pwr) : (modPwr f s).pending = s.pending := rfl
@[simp] theorem modPwr_now (f : Pwr → Pwr) : (modPwr f s).now = s.now := rfl
@[simp] theorem modPwr_powered (f : Pwr → Pwr) : (modPwr f s).powered = s.powered := rfl
@[simp] theorem modPwr_held (f : Pwr → Pwr) : (modPwr f s).held = s.held := rfl
@[simp] theorem modPwr_bifurcated (f : Pwr → Pwr) : (modPwr f s).bifurcated = s.bifurcated := rfl
@[simp] theorem modPwr_mem (f : Pwr → Pwr) : (modPwr f s).mem = s.mem := rfl
@[simp] theorem modPwr_host0 (f : Pwr → Pwr) : (modPwr f s).host0 = s.host0 := rfl
@[simp] theorem modPwr_host1 (f : Pwr → Pwr) : (modPwr f s).host1 = s.host1 := rfl
@[simp] theorem modPwr_regs (f : Pwr → Pwr) : (modPwr f s).regs = s.regs := rfl
@[simp] theorem modPwr_sel (f : Pwr → Pwr) : (modPwr f s).sel = s.sel := rfl
@[simp] theorem modPwr_msix (f : Pwr → Pwr) : (modPwr f s).msix = s.msix := rfl
@[simp] theorem modPwr_msixPend (f : Pwr → Pwr) : (modPwr f s).msixPend = s.msixPend := rfl
@[simp] theorem modPwr_seq (f : Pwr → Pwr) : (modPwr f s).seq = s.seq := rfl
@[simp] theorem modPwr_mrq (f : Pwr → Pwr) : (modPwr f s).mrq = s.mrq := rfl
@[simp] theorem modPwr_ring (f : Pwr → Pwr) : (modPwr f s).ring = s.ring := rfl
@[simp] theorem modPwr_windows (f : Pwr → Pwr) : (modPwr f s).windows = s.windows := rfl
@[simp] theorem modPwr_lanes (f : Pwr → Pwr) : (modPwr f s).lanes = s.lanes := rfl
@[simp] theorem modPwr_fns (f : Pwr → Pwr) : (modPwr f s).fns = s.fns := rfl
@[simp] theorem modPwr_ports (f : Pwr → Pwr) : (modPwr f s).ports = s.ports := rfl
@[simp] theorem modPwr_waits (f : Pwr → Pwr) : (modPwr f s).waits = s.waits := rfl
@[simp] theorem modPwr_log (f : Pwr → Pwr) : (modPwr f s).log = s.log := rfl
@[simp] theorem modPwr_logNext (f : Pwr → Pwr) : (modPwr f s).logNext = s.logNext := rfl
@[simp] theorem modPwr_logGone (f : Pwr → Pwr) : (modPwr f s).logGone = s.logGone := rfl
@[simp] theorem modPwr_spd (f : Pwr → Pwr) : (modPwr f s).spd = s.spd := rfl
@[simp] theorem modPwr_cam (f : Pwr → Pwr) : (modPwr f s).cam = s.cam := rfl
@[simp] theorem modPwr_isp (f : Pwr → Pwr) : (modPwr f s).isp = s.isp := rfl
@[simp] theorem modPwr_ispBanks (f : Pwr → Pwr) : (modPwr f s).ispBanks = s.ispBanks := rfl
@[simp] theorem modPwr_ispLock (f : Pwr → Pwr) : (modPwr f s).ispLock = s.ispLock := rfl
@[simp] theorem modPwr_ispLost (f : Pwr → Pwr) : (modPwr f s).ispLost = s.ispLost := rfl
@[simp] theorem modPwr_ispKept (f : Pwr → Pwr) : (modPwr f s).ispKept = s.ispKept := rfl
@[simp] theorem modPwr_ctxs (f : Pwr → Pwr) : (modPwr f s).ctxs = s.ctxs := rfl
@[simp] theorem modPwr_tracks (f : Pwr → Pwr) : (modPwr f s).tracks = s.tracks := rfl
@[simp] theorem modPwr_accs (f : Pwr → Pwr) : (modPwr f s).accs = s.accs := rfl
@[simp] theorem modPwr_macs (f : Pwr → Pwr) : (modPwr f s).macs = s.macs := rfl
@[simp] theorem modPwr_saf (f : Pwr → Pwr) : (modPwr f s).saf = s.saf := rfl
@[simp] theorem modPwr_sec (f : Pwr → Pwr) : (modPwr f s).sec = s.sec := rfl
@[simp] theorem modPwr_nv (f : Pwr → Pwr) : (modPwr f s).nv = s.nv := rfl
@[simp] theorem modPwr_boot (f : Pwr → Pwr) : (modPwr f s).boot = s.boot := rfl
@[simp] theorem modPwr_dice (f : Pwr → Pwr) : (modPwr f s).dice = s.dice := rfl
@[simp] theorem modPwr_availN (f : Pwr → Pwr) : (modPwr f s).availN = s.availN := rfl
@[simp] theorem modPwr_availV (f : Pwr → Pwr) : (modPwr f s).availV = s.availV := rfl
@[simp] theorem modPwr_availI (f : Pwr → Pwr) : (modPwr f s).availI = s.availI := rfl
@[simp] theorem modPwr_capGen (f : Pwr → Pwr) : (modPwr f s).capGen = s.capGen := rfl
@[simp] theorem modPwr_out (f : Pwr → Pwr) : (modPwr f s).out = s.out := rfl
@[simp] theorem modPwr_free (f : Pwr → Pwr) : (modPwr f s).free = s.free := rfl

@[simp] theorem modSaf_pending (f : Saf → Saf) : (modSaf f s).pending = s.pending := rfl
@[simp] theorem modSaf_now (f : Saf → Saf) : (modSaf f s).now = s.now := rfl
@[simp] theorem modSaf_powered (f : Saf → Saf) : (modSaf f s).powered = s.powered := rfl
@[simp] theorem modSaf_held (f : Saf → Saf) : (modSaf f s).held = s.held := rfl
@[simp] theorem modSaf_bifurcated (f : Saf → Saf) : (modSaf f s).bifurcated = s.bifurcated := rfl
@[simp] theorem modSaf_mem (f : Saf → Saf) : (modSaf f s).mem = s.mem := rfl
@[simp] theorem modSaf_host0 (f : Saf → Saf) : (modSaf f s).host0 = s.host0 := rfl
@[simp] theorem modSaf_host1 (f : Saf → Saf) : (modSaf f s).host1 = s.host1 := rfl
@[simp] theorem modSaf_regs (f : Saf → Saf) : (modSaf f s).regs = s.regs := rfl
@[simp] theorem modSaf_sel (f : Saf → Saf) : (modSaf f s).sel = s.sel := rfl
@[simp] theorem modSaf_msix (f : Saf → Saf) : (modSaf f s).msix = s.msix := rfl
@[simp] theorem modSaf_msixPend (f : Saf → Saf) : (modSaf f s).msixPend = s.msixPend := rfl
@[simp] theorem modSaf_seq (f : Saf → Saf) : (modSaf f s).seq = s.seq := rfl
@[simp] theorem modSaf_mrq (f : Saf → Saf) : (modSaf f s).mrq = s.mrq := rfl
@[simp] theorem modSaf_ring (f : Saf → Saf) : (modSaf f s).ring = s.ring := rfl
@[simp] theorem modSaf_windows (f : Saf → Saf) : (modSaf f s).windows = s.windows := rfl
@[simp] theorem modSaf_lanes (f : Saf → Saf) : (modSaf f s).lanes = s.lanes := rfl
@[simp] theorem modSaf_fns (f : Saf → Saf) : (modSaf f s).fns = s.fns := rfl
@[simp] theorem modSaf_ports (f : Saf → Saf) : (modSaf f s).ports = s.ports := rfl
@[simp] theorem modSaf_waits (f : Saf → Saf) : (modSaf f s).waits = s.waits := rfl
@[simp] theorem modSaf_log (f : Saf → Saf) : (modSaf f s).log = s.log := rfl
@[simp] theorem modSaf_logNext (f : Saf → Saf) : (modSaf f s).logNext = s.logNext := rfl
@[simp] theorem modSaf_logGone (f : Saf → Saf) : (modSaf f s).logGone = s.logGone := rfl
@[simp] theorem modSaf_spd (f : Saf → Saf) : (modSaf f s).spd = s.spd := rfl
@[simp] theorem modSaf_cam (f : Saf → Saf) : (modSaf f s).cam = s.cam := rfl
@[simp] theorem modSaf_isp (f : Saf → Saf) : (modSaf f s).isp = s.isp := rfl
@[simp] theorem modSaf_ispBanks (f : Saf → Saf) : (modSaf f s).ispBanks = s.ispBanks := rfl
@[simp] theorem modSaf_ispLock (f : Saf → Saf) : (modSaf f s).ispLock = s.ispLock := rfl
@[simp] theorem modSaf_ispLost (f : Saf → Saf) : (modSaf f s).ispLost = s.ispLost := rfl
@[simp] theorem modSaf_ispKept (f : Saf → Saf) : (modSaf f s).ispKept = s.ispKept := rfl
@[simp] theorem modSaf_ctxs (f : Saf → Saf) : (modSaf f s).ctxs = s.ctxs := rfl
@[simp] theorem modSaf_tracks (f : Saf → Saf) : (modSaf f s).tracks = s.tracks := rfl
@[simp] theorem modSaf_accs (f : Saf → Saf) : (modSaf f s).accs = s.accs := rfl
@[simp] theorem modSaf_macs (f : Saf → Saf) : (modSaf f s).macs = s.macs := rfl
@[simp] theorem modSaf_sec (f : Saf → Saf) : (modSaf f s).sec = s.sec := rfl
@[simp] theorem modSaf_pwr (f : Saf → Saf) : (modSaf f s).pwr = s.pwr := rfl
@[simp] theorem modSaf_nv (f : Saf → Saf) : (modSaf f s).nv = s.nv := rfl
@[simp] theorem modSaf_boot (f : Saf → Saf) : (modSaf f s).boot = s.boot := rfl
@[simp] theorem modSaf_dice (f : Saf → Saf) : (modSaf f s).dice = s.dice := rfl
@[simp] theorem modSaf_availN (f : Saf → Saf) : (modSaf f s).availN = s.availN := rfl
@[simp] theorem modSaf_availV (f : Saf → Saf) : (modSaf f s).availV = s.availV := rfl
@[simp] theorem modSaf_availI (f : Saf → Saf) : (modSaf f s).availI = s.availI := rfl
@[simp] theorem modSaf_capGen (f : Saf → Saf) : (modSaf f s).capGen = s.capGen := rfl
@[simp] theorem modSaf_out (f : Saf → Saf) : (modSaf f s).out = s.out := rfl
@[simp] theorem modSaf_free (f : Saf → Saf) : (modSaf f s).free = s.free := rfl

@[simp] theorem modSec_pending (f : Sec → Sec) : (modSec f s).pending = s.pending := rfl
@[simp] theorem modSec_now (f : Sec → Sec) : (modSec f s).now = s.now := rfl
@[simp] theorem modSec_powered (f : Sec → Sec) : (modSec f s).powered = s.powered := rfl
@[simp] theorem modSec_held (f : Sec → Sec) : (modSec f s).held = s.held := rfl
@[simp] theorem modSec_bifurcated (f : Sec → Sec) : (modSec f s).bifurcated = s.bifurcated := rfl
@[simp] theorem modSec_mem (f : Sec → Sec) : (modSec f s).mem = s.mem := rfl
@[simp] theorem modSec_host0 (f : Sec → Sec) : (modSec f s).host0 = s.host0 := rfl
@[simp] theorem modSec_host1 (f : Sec → Sec) : (modSec f s).host1 = s.host1 := rfl
@[simp] theorem modSec_regs (f : Sec → Sec) : (modSec f s).regs = s.regs := rfl
@[simp] theorem modSec_sel (f : Sec → Sec) : (modSec f s).sel = s.sel := rfl
@[simp] theorem modSec_msix (f : Sec → Sec) : (modSec f s).msix = s.msix := rfl
@[simp] theorem modSec_msixPend (f : Sec → Sec) : (modSec f s).msixPend = s.msixPend := rfl
@[simp] theorem modSec_seq (f : Sec → Sec) : (modSec f s).seq = s.seq := rfl
@[simp] theorem modSec_mrq (f : Sec → Sec) : (modSec f s).mrq = s.mrq := rfl
@[simp] theorem modSec_ring (f : Sec → Sec) : (modSec f s).ring = s.ring := rfl
@[simp] theorem modSec_windows (f : Sec → Sec) : (modSec f s).windows = s.windows := rfl
@[simp] theorem modSec_lanes (f : Sec → Sec) : (modSec f s).lanes = s.lanes := rfl
@[simp] theorem modSec_fns (f : Sec → Sec) : (modSec f s).fns = s.fns := rfl
@[simp] theorem modSec_ports (f : Sec → Sec) : (modSec f s).ports = s.ports := rfl
@[simp] theorem modSec_waits (f : Sec → Sec) : (modSec f s).waits = s.waits := rfl
@[simp] theorem modSec_log (f : Sec → Sec) : (modSec f s).log = s.log := rfl
@[simp] theorem modSec_logNext (f : Sec → Sec) : (modSec f s).logNext = s.logNext := rfl
@[simp] theorem modSec_logGone (f : Sec → Sec) : (modSec f s).logGone = s.logGone := rfl
@[simp] theorem modSec_spd (f : Sec → Sec) : (modSec f s).spd = s.spd := rfl
@[simp] theorem modSec_cam (f : Sec → Sec) : (modSec f s).cam = s.cam := rfl
@[simp] theorem modSec_isp (f : Sec → Sec) : (modSec f s).isp = s.isp := rfl
@[simp] theorem modSec_ispBanks (f : Sec → Sec) : (modSec f s).ispBanks = s.ispBanks := rfl
@[simp] theorem modSec_ispLock (f : Sec → Sec) : (modSec f s).ispLock = s.ispLock := rfl
@[simp] theorem modSec_ispLost (f : Sec → Sec) : (modSec f s).ispLost = s.ispLost := rfl
@[simp] theorem modSec_ispKept (f : Sec → Sec) : (modSec f s).ispKept = s.ispKept := rfl
@[simp] theorem modSec_ctxs (f : Sec → Sec) : (modSec f s).ctxs = s.ctxs := rfl
@[simp] theorem modSec_tracks (f : Sec → Sec) : (modSec f s).tracks = s.tracks := rfl
@[simp] theorem modSec_accs (f : Sec → Sec) : (modSec f s).accs = s.accs := rfl
@[simp] theorem modSec_macs (f : Sec → Sec) : (modSec f s).macs = s.macs := rfl
@[simp] theorem modSec_saf (f : Sec → Sec) : (modSec f s).saf = s.saf := rfl
@[simp] theorem modSec_pwr (f : Sec → Sec) : (modSec f s).pwr = s.pwr := rfl
@[simp] theorem modSec_nv (f : Sec → Sec) : (modSec f s).nv = s.nv := rfl
@[simp] theorem modSec_boot (f : Sec → Sec) : (modSec f s).boot = s.boot := rfl
@[simp] theorem modSec_dice (f : Sec → Sec) : (modSec f s).dice = s.dice := rfl
@[simp] theorem modSec_availN (f : Sec → Sec) : (modSec f s).availN = s.availN := rfl
@[simp] theorem modSec_availV (f : Sec → Sec) : (modSec f s).availV = s.availV := rfl
@[simp] theorem modSec_availI (f : Sec → Sec) : (modSec f s).availI = s.availI := rfl
@[simp] theorem modSec_capGen (f : Sec → Sec) : (modSec f s).capGen = s.capGen := rfl
@[simp] theorem modSec_out (f : Sec → Sec) : (modSec f s).out = s.out := rfl
@[simp] theorem modSec_free (f : Sec → Sec) : (modSec f s).free = s.free := rfl

@[simp] theorem modNv_pending (f : Nv → Nv) : (modNv f s).pending = s.pending := rfl
@[simp] theorem modNv_now (f : Nv → Nv) : (modNv f s).now = s.now := rfl
@[simp] theorem modNv_powered (f : Nv → Nv) : (modNv f s).powered = s.powered := rfl
@[simp] theorem modNv_held (f : Nv → Nv) : (modNv f s).held = s.held := rfl
@[simp] theorem modNv_bifurcated (f : Nv → Nv) : (modNv f s).bifurcated = s.bifurcated := rfl
@[simp] theorem modNv_mem (f : Nv → Nv) : (modNv f s).mem = s.mem := rfl
@[simp] theorem modNv_host0 (f : Nv → Nv) : (modNv f s).host0 = s.host0 := rfl
@[simp] theorem modNv_host1 (f : Nv → Nv) : (modNv f s).host1 = s.host1 := rfl
@[simp] theorem modNv_regs (f : Nv → Nv) : (modNv f s).regs = s.regs := rfl
@[simp] theorem modNv_sel (f : Nv → Nv) : (modNv f s).sel = s.sel := rfl
@[simp] theorem modNv_msix (f : Nv → Nv) : (modNv f s).msix = s.msix := rfl
@[simp] theorem modNv_msixPend (f : Nv → Nv) : (modNv f s).msixPend = s.msixPend := rfl
@[simp] theorem modNv_seq (f : Nv → Nv) : (modNv f s).seq = s.seq := rfl
@[simp] theorem modNv_mrq (f : Nv → Nv) : (modNv f s).mrq = s.mrq := rfl
@[simp] theorem modNv_ring (f : Nv → Nv) : (modNv f s).ring = s.ring := rfl
@[simp] theorem modNv_windows (f : Nv → Nv) : (modNv f s).windows = s.windows := rfl
@[simp] theorem modNv_lanes (f : Nv → Nv) : (modNv f s).lanes = s.lanes := rfl
@[simp] theorem modNv_fns (f : Nv → Nv) : (modNv f s).fns = s.fns := rfl
@[simp] theorem modNv_ports (f : Nv → Nv) : (modNv f s).ports = s.ports := rfl
@[simp] theorem modNv_waits (f : Nv → Nv) : (modNv f s).waits = s.waits := rfl
@[simp] theorem modNv_log (f : Nv → Nv) : (modNv f s).log = s.log := rfl
@[simp] theorem modNv_logNext (f : Nv → Nv) : (modNv f s).logNext = s.logNext := rfl
@[simp] theorem modNv_logGone (f : Nv → Nv) : (modNv f s).logGone = s.logGone := rfl
@[simp] theorem modNv_spd (f : Nv → Nv) : (modNv f s).spd = s.spd := rfl
@[simp] theorem modNv_cam (f : Nv → Nv) : (modNv f s).cam = s.cam := rfl
@[simp] theorem modNv_isp (f : Nv → Nv) : (modNv f s).isp = s.isp := rfl
@[simp] theorem modNv_ispBanks (f : Nv → Nv) : (modNv f s).ispBanks = s.ispBanks := rfl
@[simp] theorem modNv_ispLock (f : Nv → Nv) : (modNv f s).ispLock = s.ispLock := rfl
@[simp] theorem modNv_ispLost (f : Nv → Nv) : (modNv f s).ispLost = s.ispLost := rfl
@[simp] theorem modNv_ispKept (f : Nv → Nv) : (modNv f s).ispKept = s.ispKept := rfl
@[simp] theorem modNv_ctxs (f : Nv → Nv) : (modNv f s).ctxs = s.ctxs := rfl
@[simp] theorem modNv_tracks (f : Nv → Nv) : (modNv f s).tracks = s.tracks := rfl
@[simp] theorem modNv_accs (f : Nv → Nv) : (modNv f s).accs = s.accs := rfl
@[simp] theorem modNv_macs (f : Nv → Nv) : (modNv f s).macs = s.macs := rfl
@[simp] theorem modNv_saf (f : Nv → Nv) : (modNv f s).saf = s.saf := rfl
@[simp] theorem modNv_sec (f : Nv → Nv) : (modNv f s).sec = s.sec := rfl
@[simp] theorem modNv_pwr (f : Nv → Nv) : (modNv f s).pwr = s.pwr := rfl
@[simp] theorem modNv_boot (f : Nv → Nv) : (modNv f s).boot = s.boot := rfl
@[simp] theorem modNv_dice (f : Nv → Nv) : (modNv f s).dice = s.dice := rfl
@[simp] theorem modNv_availN (f : Nv → Nv) : (modNv f s).availN = s.availN := rfl
@[simp] theorem modNv_availV (f : Nv → Nv) : (modNv f s).availV = s.availV := rfl
@[simp] theorem modNv_availI (f : Nv → Nv) : (modNv f s).availI = s.availI := rfl
@[simp] theorem modNv_capGen (f : Nv → Nv) : (modNv f s).capGen = s.capGen := rfl
@[simp] theorem modNv_out (f : Nv → Nv) : (modNv f s).out = s.out := rfl
@[simp] theorem modNv_free (f : Nv → Nv) : (modNv f s).free = s.free := rfl

@[simp] theorem modBoot_pending (f : Boot → Boot) : (modBoot f s).pending = s.pending := rfl
@[simp] theorem modBoot_now (f : Boot → Boot) : (modBoot f s).now = s.now := rfl
@[simp] theorem modBoot_powered (f : Boot → Boot) : (modBoot f s).powered = s.powered := rfl
@[simp] theorem modBoot_held (f : Boot → Boot) : (modBoot f s).held = s.held := rfl
@[simp] theorem modBoot_bifurcated (f : Boot → Boot) : (modBoot f s).bifurcated = s.bifurcated := rfl
@[simp] theorem modBoot_mem (f : Boot → Boot) : (modBoot f s).mem = s.mem := rfl
@[simp] theorem modBoot_host0 (f : Boot → Boot) : (modBoot f s).host0 = s.host0 := rfl
@[simp] theorem modBoot_host1 (f : Boot → Boot) : (modBoot f s).host1 = s.host1 := rfl
@[simp] theorem modBoot_regs (f : Boot → Boot) : (modBoot f s).regs = s.regs := rfl
@[simp] theorem modBoot_sel (f : Boot → Boot) : (modBoot f s).sel = s.sel := rfl
@[simp] theorem modBoot_msix (f : Boot → Boot) : (modBoot f s).msix = s.msix := rfl
@[simp] theorem modBoot_msixPend (f : Boot → Boot) : (modBoot f s).msixPend = s.msixPend := rfl
@[simp] theorem modBoot_seq (f : Boot → Boot) : (modBoot f s).seq = s.seq := rfl
@[simp] theorem modBoot_mrq (f : Boot → Boot) : (modBoot f s).mrq = s.mrq := rfl
@[simp] theorem modBoot_ring (f : Boot → Boot) : (modBoot f s).ring = s.ring := rfl
@[simp] theorem modBoot_windows (f : Boot → Boot) : (modBoot f s).windows = s.windows := rfl
@[simp] theorem modBoot_lanes (f : Boot → Boot) : (modBoot f s).lanes = s.lanes := rfl
@[simp] theorem modBoot_fns (f : Boot → Boot) : (modBoot f s).fns = s.fns := rfl
@[simp] theorem modBoot_ports (f : Boot → Boot) : (modBoot f s).ports = s.ports := rfl
@[simp] theorem modBoot_waits (f : Boot → Boot) : (modBoot f s).waits = s.waits := rfl
@[simp] theorem modBoot_log (f : Boot → Boot) : (modBoot f s).log = s.log := rfl
@[simp] theorem modBoot_logNext (f : Boot → Boot) : (modBoot f s).logNext = s.logNext := rfl
@[simp] theorem modBoot_logGone (f : Boot → Boot) : (modBoot f s).logGone = s.logGone := rfl
@[simp] theorem modBoot_spd (f : Boot → Boot) : (modBoot f s).spd = s.spd := rfl
@[simp] theorem modBoot_cam (f : Boot → Boot) : (modBoot f s).cam = s.cam := rfl
@[simp] theorem modBoot_isp (f : Boot → Boot) : (modBoot f s).isp = s.isp := rfl
@[simp] theorem modBoot_ispBanks (f : Boot → Boot) : (modBoot f s).ispBanks = s.ispBanks := rfl
@[simp] theorem modBoot_ispLock (f : Boot → Boot) : (modBoot f s).ispLock = s.ispLock := rfl
@[simp] theorem modBoot_ispLost (f : Boot → Boot) : (modBoot f s).ispLost = s.ispLost := rfl
@[simp] theorem modBoot_ispKept (f : Boot → Boot) : (modBoot f s).ispKept = s.ispKept := rfl
@[simp] theorem modBoot_ctxs (f : Boot → Boot) : (modBoot f s).ctxs = s.ctxs := rfl
@[simp] theorem modBoot_tracks (f : Boot → Boot) : (modBoot f s).tracks = s.tracks := rfl
@[simp] theorem modBoot_accs (f : Boot → Boot) : (modBoot f s).accs = s.accs := rfl
@[simp] theorem modBoot_macs (f : Boot → Boot) : (modBoot f s).macs = s.macs := rfl
@[simp] theorem modBoot_saf (f : Boot → Boot) : (modBoot f s).saf = s.saf := rfl
@[simp] theorem modBoot_sec (f : Boot → Boot) : (modBoot f s).sec = s.sec := rfl
@[simp] theorem modBoot_pwr (f : Boot → Boot) : (modBoot f s).pwr = s.pwr := rfl
@[simp] theorem modBoot_nv (f : Boot → Boot) : (modBoot f s).nv = s.nv := rfl
@[simp] theorem modBoot_dice (f : Boot → Boot) : (modBoot f s).dice = s.dice := rfl
@[simp] theorem modBoot_availN (f : Boot → Boot) : (modBoot f s).availN = s.availN := rfl
@[simp] theorem modBoot_availV (f : Boot → Boot) : (modBoot f s).availV = s.availV := rfl
@[simp] theorem modBoot_availI (f : Boot → Boot) : (modBoot f s).availI = s.availI := rfl
@[simp] theorem modBoot_capGen (f : Boot → Boot) : (modBoot f s).capGen = s.capGen := rfl
@[simp] theorem modBoot_out (f : Boot → Boot) : (modBoot f s).out = s.out := rfl
@[simp] theorem modBoot_free (f : Boot → Boot) : (modBoot f s).free = s.free := rfl

@[simp] theorem setWait_pending (n : Nat) (w : Waiter) : (setWait n w s).pending = s.pending := rfl
@[simp] theorem setWait_now (n : Nat) (w : Waiter) : (setWait n w s).now = s.now := rfl
@[simp] theorem setWait_powered (n : Nat) (w : Waiter) : (setWait n w s).powered = s.powered := rfl
@[simp] theorem setWait_held (n : Nat) (w : Waiter) : (setWait n w s).held = s.held := rfl
@[simp] theorem setWait_bifurcated (n : Nat) (w : Waiter) : (setWait n w s).bifurcated = s.bifurcated := rfl
@[simp] theorem setWait_mem (n : Nat) (w : Waiter) : (setWait n w s).mem = s.mem := rfl
@[simp] theorem setWait_host0 (n : Nat) (w : Waiter) : (setWait n w s).host0 = s.host0 := rfl
@[simp] theorem setWait_host1 (n : Nat) (w : Waiter) : (setWait n w s).host1 = s.host1 := rfl
@[simp] theorem setWait_regs (n : Nat) (w : Waiter) : (setWait n w s).regs = s.regs := rfl
@[simp] theorem setWait_sel (n : Nat) (w : Waiter) : (setWait n w s).sel = s.sel := rfl
@[simp] theorem setWait_msix (n : Nat) (w : Waiter) : (setWait n w s).msix = s.msix := rfl
@[simp] theorem setWait_msixPend (n : Nat) (w : Waiter) : (setWait n w s).msixPend = s.msixPend := rfl
@[simp] theorem setWait_seq (n : Nat) (w : Waiter) : (setWait n w s).seq = s.seq := rfl
@[simp] theorem setWait_mrq (n : Nat) (w : Waiter) : (setWait n w s).mrq = s.mrq := rfl
@[simp] theorem setWait_ring (n : Nat) (w : Waiter) : (setWait n w s).ring = s.ring := rfl
@[simp] theorem setWait_windows (n : Nat) (w : Waiter) : (setWait n w s).windows = s.windows := rfl
@[simp] theorem setWait_lanes (n : Nat) (w : Waiter) : (setWait n w s).lanes = s.lanes := rfl
@[simp] theorem setWait_fns (n : Nat) (w : Waiter) : (setWait n w s).fns = s.fns := rfl
@[simp] theorem setWait_ports (n : Nat) (w : Waiter) : (setWait n w s).ports = s.ports := rfl
@[simp] theorem setWait_log (n : Nat) (w : Waiter) : (setWait n w s).log = s.log := rfl
@[simp] theorem setWait_logNext (n : Nat) (w : Waiter) : (setWait n w s).logNext = s.logNext := rfl
@[simp] theorem setWait_logGone (n : Nat) (w : Waiter) : (setWait n w s).logGone = s.logGone := rfl
@[simp] theorem setWait_spd (n : Nat) (w : Waiter) : (setWait n w s).spd = s.spd := rfl
@[simp] theorem setWait_cam (n : Nat) (w : Waiter) : (setWait n w s).cam = s.cam := rfl
@[simp] theorem setWait_isp (n : Nat) (w : Waiter) : (setWait n w s).isp = s.isp := rfl
@[simp] theorem setWait_ispBanks (n : Nat) (w : Waiter) : (setWait n w s).ispBanks = s.ispBanks := rfl
@[simp] theorem setWait_ispLock (n : Nat) (w : Waiter) : (setWait n w s).ispLock = s.ispLock := rfl
@[simp] theorem setWait_ispLost (n : Nat) (w : Waiter) : (setWait n w s).ispLost = s.ispLost := rfl
@[simp] theorem setWait_ispKept (n : Nat) (w : Waiter) : (setWait n w s).ispKept = s.ispKept := rfl
@[simp] theorem setWait_ctxs (n : Nat) (w : Waiter) : (setWait n w s).ctxs = s.ctxs := rfl
@[simp] theorem setWait_tracks (n : Nat) (w : Waiter) : (setWait n w s).tracks = s.tracks := rfl
@[simp] theorem setWait_accs (n : Nat) (w : Waiter) : (setWait n w s).accs = s.accs := rfl
@[simp] theorem setWait_macs (n : Nat) (w : Waiter) : (setWait n w s).macs = s.macs := rfl
@[simp] theorem setWait_saf (n : Nat) (w : Waiter) : (setWait n w s).saf = s.saf := rfl
@[simp] theorem setWait_sec (n : Nat) (w : Waiter) : (setWait n w s).sec = s.sec := rfl
@[simp] theorem setWait_pwr (n : Nat) (w : Waiter) : (setWait n w s).pwr = s.pwr := rfl
@[simp] theorem setWait_nv (n : Nat) (w : Waiter) : (setWait n w s).nv = s.nv := rfl
@[simp] theorem setWait_boot (n : Nat) (w : Waiter) : (setWait n w s).boot = s.boot := rfl
@[simp] theorem setWait_dice (n : Nat) (w : Waiter) : (setWait n w s).dice = s.dice := rfl
@[simp] theorem setWait_availN (n : Nat) (w : Waiter) : (setWait n w s).availN = s.availN := rfl
@[simp] theorem setWait_availV (n : Nat) (w : Waiter) : (setWait n w s).availV = s.availV := rfl
@[simp] theorem setWait_availI (n : Nat) (w : Waiter) : (setWait n w s).availI = s.availI := rfl
@[simp] theorem setWait_capGen (n : Nat) (w : Waiter) : (setWait n w s).capGen = s.capGen := rfl
@[simp] theorem setWait_out (n : Nat) (w : Waiter) : (setWait n w s).out = s.out := rfl
@[simp] theorem setWait_free (n : Nat) (w : Waiter) : (setWait n w s).free = s.free := rfl

@[simp] theorem modPwr_pwr (f : Pwr → Pwr) : (modPwr f s).pwr = f s.pwr := rfl
@[simp] theorem modSaf_saf (f : Saf → Saf) : (modSaf f s).saf = f s.saf := rfl
@[simp] theorem modSec_sec (f : Sec → Sec) : (modSec f s).sec = f s.sec := rfl
@[simp] theorem modNv_nv (f : Nv → Nv) : (modNv f s).nv = f s.nv := rfl
@[simp] theorem modBoot_boot (f : Boot → Boot) : (modBoot f s).boot = f s.boot := rfl
@[simp] theorem modSeq_seq (f : Seq → Seq) : (modSeq f s).seq = f s.seq := rfl
@[simp] theorem emit_out (o : Out) : (emit o s).out = s.out ++ [o] := rfl
@[simp] theorem draw_free : (draw s).free = s.free + 1 := rfl
@[simp] theorem keepQueue_now (t : State) : (keepQueue s t).now = t.now := rfl
@[simp] theorem keepQueue_powered (t : State) : (keepQueue s t).powered = t.powered := rfl
@[simp] theorem keepQueue_held (t : State) : (keepQueue s t).held = t.held := rfl
@[simp] theorem keepQueue_bifurcated (t : State) : (keepQueue s t).bifurcated = t.bifurcated := rfl
@[simp] theorem keepQueue_mem (t : State) : (keepQueue s t).mem = t.mem := rfl
@[simp] theorem keepQueue_host0 (t : State) : (keepQueue s t).host0 = t.host0 := rfl
@[simp] theorem keepQueue_host1 (t : State) : (keepQueue s t).host1 = t.host1 := rfl
@[simp] theorem keepQueue_regs (t : State) : (keepQueue s t).regs = t.regs := rfl
@[simp] theorem keepQueue_sel (t : State) : (keepQueue s t).sel = t.sel := rfl
@[simp] theorem keepQueue_msix (t : State) : (keepQueue s t).msix = t.msix := rfl
@[simp] theorem keepQueue_msixPend (t : State) : (keepQueue s t).msixPend = t.msixPend := rfl
@[simp] theorem keepQueue_seq (t : State) : (keepQueue s t).seq = t.seq := rfl
@[simp] theorem keepQueue_mrq (t : State) : (keepQueue s t).mrq = t.mrq := rfl
@[simp] theorem keepQueue_ring (t : State) : (keepQueue s t).ring = t.ring := rfl
@[simp] theorem keepQueue_windows (t : State) : (keepQueue s t).windows = t.windows := rfl
@[simp] theorem keepQueue_lanes (t : State) : (keepQueue s t).lanes = t.lanes := rfl
@[simp] theorem keepQueue_fns (t : State) : (keepQueue s t).fns = t.fns := rfl
@[simp] theorem keepQueue_ports (t : State) : (keepQueue s t).ports = t.ports := rfl
@[simp] theorem keepQueue_waits (t : State) : (keepQueue s t).waits = t.waits := rfl
@[simp] theorem keepQueue_log (t : State) : (keepQueue s t).log = t.log := rfl
@[simp] theorem keepQueue_logNext (t : State) : (keepQueue s t).logNext = t.logNext := rfl
@[simp] theorem keepQueue_logGone (t : State) : (keepQueue s t).logGone = t.logGone := rfl
@[simp] theorem keepQueue_spd (t : State) : (keepQueue s t).spd = t.spd := rfl
@[simp] theorem keepQueue_cam (t : State) : (keepQueue s t).cam = t.cam := rfl
@[simp] theorem keepQueue_isp (t : State) : (keepQueue s t).isp = t.isp := rfl
@[simp] theorem keepQueue_ispBanks (t : State) : (keepQueue s t).ispBanks = t.ispBanks := rfl
@[simp] theorem keepQueue_ispLock (t : State) : (keepQueue s t).ispLock = t.ispLock := rfl
@[simp] theorem keepQueue_ispLost (t : State) : (keepQueue s t).ispLost = t.ispLost := rfl
@[simp] theorem keepQueue_ispKept (t : State) : (keepQueue s t).ispKept = t.ispKept := rfl
@[simp] theorem keepQueue_ctxs (t : State) : (keepQueue s t).ctxs = t.ctxs := rfl
@[simp] theorem keepQueue_tracks (t : State) : (keepQueue s t).tracks = t.tracks := rfl
@[simp] theorem keepQueue_accs (t : State) : (keepQueue s t).accs = t.accs := rfl
@[simp] theorem keepQueue_macs (t : State) : (keepQueue s t).macs = t.macs := rfl
@[simp] theorem keepQueue_saf (t : State) : (keepQueue s t).saf = t.saf := rfl
@[simp] theorem keepQueue_sec (t : State) : (keepQueue s t).sec = t.sec := rfl
@[simp] theorem keepQueue_pwr (t : State) : (keepQueue s t).pwr = t.pwr := rfl
@[simp] theorem keepQueue_nv (t : State) : (keepQueue s t).nv = t.nv := rfl
@[simp] theorem keepQueue_boot (t : State) : (keepQueue s t).boot = t.boot := rfl
@[simp] theorem keepQueue_dice (t : State) : (keepQueue s t).dice = t.dice := rfl
@[simp] theorem keepQueue_availN (t : State) : (keepQueue s t).availN = t.availN := rfl
@[simp] theorem keepQueue_availV (t : State) : (keepQueue s t).availV = t.availV := rfl
@[simp] theorem keepQueue_availI (t : State) : (keepQueue s t).availI = t.availI := rfl
@[simp] theorem keepQueue_capGen (t : State) : (keepQueue s t).capGen = t.capGen := rfl
@[simp] theorem keepQueue_out (t : State) : (keepQueue s t).out = t.out := rfl
@[simp] theorem keepQueue_free (t : State) : (keepQueue s t).free = t.free := rfl
@[simp] theorem keepQueue_pending (t : State) : (keepQueue s t).pending = s.pending := rfl

end Sys2Proof.Machine
end

