-- ==== Sys2Proof/Laws/Table.lean ====
section
/-! SUPPORT. Sparse tables: what a read after a write gives, and that every write keeps the canonical form. -/

namespace Sys2Proof.Machine

variable {α : Type} [DecidableEq α]

theorem twfFrom_mono (d : α) : ∀ (t : Tab α) (lo lo' : Nat), lo' ≤ lo → twfFrom d lo t = true → twfFrom d lo' t = true
  | [], _, _, _, _ => rfl
  | (k, v) :: t, lo, lo', hle, h => by
    simp only [twfFrom, Bool.and_eq_true, decide_eq_true_eq] at h ⊢
    exact ⟨⟨by omega, h.1.2⟩, h.2⟩

/-- A write keeps the canonical form. -/
theorem twfFrom_tset (d : α) : ∀ (t : Tab α) (lo q : Nat) (v : α), lo ≤ q → twfFrom d lo t = true →
    twfFrom d lo (tset d t q v) = true
  | [], lo, q, v, hq, _ => by
    by_cases hv : v = d <;> simp [tset, hv, twfFrom, hq]
  | (k, w) :: t, lo, q, v, hq, h => by
    simp only [twfFrom, Bool.and_eq_true, decide_eq_true_eq, Bool.not_eq_true', decide_eq_false_iff_not] at h
    obtain ⟨⟨hk, hw⟩, ht⟩ := h
    unfold tset
    by_cases h1 : q < k
    · by_cases hv : v = d
      · simp [h1, hv, twfFrom, hk, hw, ht]
      · have : twfFrom d (k + 1) t = true := ht
        simp [h1, hv, twfFrom, hq, hw, ht, Nat.succ_le_of_lt h1]
    · by_cases h2 : q = k
      · by_cases hv : v = d
        · simp only [h2, hv, if_true, if_false, Nat.lt_irrefl]
          exact twfFrom_mono d t (k + 1) lo (by omega) ht
        · subst h2
          simp [hv, twfFrom, hq, ht]
      · simp only [h1, h2, if_false, twfFrom, Bool.and_eq_true, decide_eq_true_eq, Bool.not_eq_true',
          decide_eq_false_iff_not]
        exact ⟨⟨hk, hw⟩, twfFrom_tset d t (k + 1) q v (by omega) ht⟩

theorem twf_tset (d : α) (t : Tab α) (q : Nat) (v : α) (h : twf d t = true) : twf d (tset d t q v) = true :=
  twfFrom_tset d t 0 q v (Nat.zero_le q) h

/-! ### Reads after writes need rising keys only -/

omit [DecidableEq α] in
theorem tkeys_mono : ∀ (t : Tab α) (lo lo' : Nat), lo' ≤ lo → tkeys lo t = true → tkeys lo' t = true
  | [], _, _, _, _ => rfl
  | (k, v) :: t, lo, lo', hle, h => by
    simp only [tkeys, Bool.and_eq_true, decide_eq_true_eq] at h ⊢
    exact ⟨by omega, h.2⟩

theorem tkeys_of_twfFrom (d : α) : ∀ (t : Tab α) (lo : Nat), twfFrom d lo t = true → tkeys lo t = true
  | [], _, _ => rfl
  | (k, v) :: t, lo, h => by
    simp only [twfFrom, Bool.and_eq_true] at h
    simp only [tkeys, Bool.and_eq_true]
    exact ⟨h.1.1, tkeys_of_twfFrom d t (k + 1) h.2⟩

omit [DecidableEq α] in
/-- A key below every listed one reads as the default. -/
theorem tget_under (d : α) : ∀ (t : Tab α) (lo q : Nat), tkeys lo t = true → q < lo → tget d t q = d
  | [], _, _, _, _ => rfl
  | (k, v) :: t, lo, q, h, hq => by
    simp only [tkeys, Bool.and_eq_true, decide_eq_true_eq] at h
    have : q < k := by omega
    simp [tget, this]

/-- A write keeps the keys rising. -/
theorem tkeys_tset (d : α) : ∀ (t : Tab α) (lo q : Nat) (v : α), lo ≤ q → tkeys lo t = true →
    tkeys lo (tset d t q v) = true
  | [], lo, q, v, hq, _ => by
    by_cases hv : v = d <;> simp [tset, hv, tkeys, hq]
  | (k, w) :: t, lo, q, v, hq, h => by
    simp only [tkeys, Bool.and_eq_true, decide_eq_true_eq] at h
    obtain ⟨hk, ht⟩ := h
    unfold tset
    by_cases h1 : q < k
    · by_cases hv : v = d
      · simp [h1, hv, tkeys, hk, ht]
      · simp [h1, hv, tkeys, hq, ht, Nat.succ_le_of_lt h1]
    · by_cases h2 : q = k
      · by_cases hv : v = d
        · simp only [h2, hv, if_true, if_false, Nat.lt_irrefl]
          exact tkeys_mono t (k + 1) lo (by omega) ht
        · subst h2
          simp [hv, tkeys, hq, ht]
      · simp only [h1, h2, if_false, tkeys, Bool.and_eq_true, decide_eq_true_eq]
        exact ⟨hk, tkeys_tset d t (k + 1) q v (by omega) ht⟩

/-- A read under one default after a write under another, which agree at the key read. -/
theorem tget_tset_from (d e : α) : ∀ (t : Tab α) (lo q x : Nat) (v : α), tkeys lo t = true → (x = q → d = e) →
    tget e (tset d t q v) x = if x = q then v else tget e t x
  | [], _, q, x, v, _, hde => by
    by_cases hv : v = d
    · by_cases hx : x = q
      · simp [tset, tget, hv, hx, hde hx]
      · simp [tset, tget, hv, hx]
    · unfold tset
      simp only [hv, if_false, tget]
      by_cases h1 : x < q
      · have : x ≠ q := by omega
        simp [h1, this]
      · simp [h1]
  | (k, w) :: t, lo, q, x, v, h, hde => by
    simp only [tkeys, Bool.and_eq_true, decide_eq_true_eq] at h
    obtain ⟨hk, ht⟩ := h
    unfold tset
    by_cases h1 : q < k
    · by_cases hv : v = d
      · simp only [h1, hv, if_true]
        by_cases hx : x = q
        · subst hx
          simp [tget, h1, hde rfl]
        · simp [hx]
      · simp only [h1, hv, if_true, if_false]
        by_cases hx : x < q
        · have h3 : x ≠ q := by omega
          have h4 : x < k := by omega
          simp [tget, hx, h3, h4]
        · by_cases h5 : x = q
          · subst h5
            simp [tget]
          · simp [tget, hx, h5]
    · by_cases h2 : q = k
      · subst h2
        by_cases hv : v = d
        · simp only [Nat.lt_irrefl, hv, if_true, if_false]
          by_cases hx : x = q
          · subst hx
            simp [tget_under e t (x + 1) x ht (Nat.lt_succ_self x), hde rfl]
          · by_cases h3 : x < q
            · simp [tget, hx, h3, tget_under e t (q + 1) x ht (by omega)]
            · simp [tget, hx, h3]
        · simp only [Nat.lt_irrefl, hv, if_true, if_false, tget]
          by_cases h3 : x < q
          · have h4 : x ≠ q := by omega
            simp [h3, h4]
          · by_cases h5 : x = q <;> simp [h3, h5]
      · simp only [h1, h2, if_false, tget]
        by_cases h3 : x < k
        · have h4 : x ≠ q := by omega
          simp [h3, h4]
        · by_cases h5 : x = k
          · have h6 : k ≠ q := fun e => h2 e.symm
            simp [h5, h6]
          · simp [h3, h5, tget_tset_from d e t (k + 1) q x v ht hde]

theorem tget_tset (d : α) (t : Tab α) (q x : Nat) (v : α) (h : twf d t = true) :
    tget d (tset d t q v) x = if x = q then v else tget d t x :=
  tget_tset_from d d t 0 q x v (tkeys_of_twfFrom d t 0 h) (fun _ => rfl)

/-- Removing keys keeps the canonical form. -/
theorem twfFrom_filter (d : α) (p : Nat × α → Bool) : ∀ (t : Tab α) (lo : Nat), twfFrom d lo t = true →
    twfFrom d lo (t.filter p) = true
  | [], _, _ => rfl
  | (k, w) :: t, lo, h => by
    simp only [twfFrom, Bool.and_eq_true, decide_eq_true_eq, Bool.not_eq_true', decide_eq_false_iff_not] at h
    obtain ⟨⟨hk, hw⟩, ht⟩ := h
    have ih := twfFrom_filter d p t (k + 1) ht
    by_cases hp : p (k, w) = true
    · simp [List.filter, hp, twfFrom, hk, hw, ih]
    · simp only [Bool.not_eq_true] at hp
      simp only [List.filter, hp]
      exact twfFrom_mono d _ (k + 1) lo (by omega) ih

theorem twf_filter (d : α) (p : Nat × α → Bool) (t : Tab α) (h : twf d t = true) : twf d (t.filter p) = true :=
  twfFrom_filter d p t 0 h

theorem twf_tdrop (d : α) (p : Nat → Bool) (t : Tab α) (h : twf d t = true) : twf d (tdrop t p) = true :=
  twf_filter d _ t h

end Sys2Proof.Machine
end

