-- ==== Sys2Proof/Laws/Memory.lean ====
section
/-! SUPPORT. Memory: what a read after a write gives, and that every memory operation keeps the canonical form. -/

namespace Sys2Proof.Machine

/-! ### One byte -/

theorem mput_wf (m : List Host.Cell) (a : Nat) (b : Byte) (h : Memory.wf m = true) : Memory.wf (mput m a b) = true :=
  twf_tset _ m a b h

theorem mget_mput (m : List Host.Cell) (a x : Nat) (b : Byte) (h : Memory.wf m = true) :
    mget (mput m a b) x = if x = a then b else mget m x :=
  tget_tset _ m a x b h

/-! ### Runs of bytes -/

theorem mputs_wf : ∀ (l : List Byte) (m : List Host.Cell) (a : Nat), Memory.wf m = true → Memory.wf (mputs m a l) = true
  | [], _, _, h => h
  | b :: t, m, a, h => mputs_wf t (mput m a b) (a + 1) (mput_wf m a b h)

/-- A byte outside those written reads as before. -/
theorem mget_mputs_outside : ∀ (l : List Byte) (m : List Host.Cell) (a x : Nat), Memory.wf m = true →
    (x < a ∨ a + l.length ≤ x) → mget (mputs m a l) x = mget m x
  | [], _, _, _, _, _ => rfl
  | b :: t, m, a, x, h, hx => by
    have hx' : x < a + 1 ∨ a + 1 + t.length ≤ x := by simp only [List.length_cons] at hx; omega
    have hne : x ≠ a := by simp only [List.length_cons] at hx; omega
    rw [mputs, mget_mputs_outside t (mput m a b) (a + 1) x (mput_wf m a b h) hx', mget_mput m a x b h, if_neg hne]

theorem foldl_mput_wf {β : Type} (bad : β → Bool) (addr : β → Nat) (val : β → Byte) :
    ∀ (l : List β) (m : List Host.Cell), Memory.wf m = true →
      Memory.wf (l.foldl (fun m e => if bad e then m else mput m (addr e) (val e)) m) = true
  | [], _, h => h
  | e :: t, m, h => by
    simp only [List.foldl_cons]
    apply foldl_mput_wf bad addr val t
    split
    · exact h
    · exact mput_wf _ _ _ h

/-! ### The memories of the state -/

theorem memoriesOk_of_eq {s t : State} (h : memoriesOk s) (hm : t.mem = s.mem) (h0 : t.host0 = s.host0)
    (h1 : t.host1 = s.host1) : memoriesOk t := by
  unfold memoriesOk at *
  rw [hm, h0, h1]
  exact h

theorem memoriesOk_keepQueue {s t : State} (h : memoriesOk t) : memoriesOk (keepQueue s t) := h

theorem memoriesOk_cnt {s : State} (o i n : Nat) (h : memoriesOk s) : memoriesOk (cnt o i n s) := h

theorem memoriesOk_clearPoison {s : State} (lo hi : Nat) (h : memoriesOk s) : memoriesOk (clearPoison lo hi s) := h

theorem memoriesOk_touchRows {s : State} (r n : Nat) (h : memoriesOk s) : memoriesOk (touchRows r n s) := by
  unfold touchRows
  exact h

theorem memoriesOk_foldl {β : Type} (f : State → β → State) (hf : ∀ s b, memoriesOk s → memoriesOk (f s b)) :
    ∀ (l : List β) (s : State), memoriesOk s → memoriesOk (l.foldl f s)
  | [], _, h => h
  | b :: t, s, h => memoriesOk_foldl f hf t (f s b) (hf s b h)

theorem memoriesOk_findCe {s : State} (r n : Nat) (h : memoriesOk s) : memoriesOk (findCe r n s) := by
  unfold findCe
  apply memoriesOk_foldl _ _ _ _ h
  intro s b hs
  split
  · split
    · exact hs
    · exact hs
  · exact hs

theorem memoriesOk_freshRows {s : State} (r n : Nat) (d : Nat → Bool) (h : memoriesOk s) :
    memoriesOk (freshRows r n d s) := h

theorem hostMem_wf {s : State} (p : Nat) (h : memoriesOk s) : Memory.wf (hostMem s p) = true := by
  unfold hostMem
  split
  · exact h.2.1
  · exact h.2.2

/-- A posted write keeps the canonical form. -/
theorem memoriesOk_hostPut {s : State} (fn a : Nat) (l : List Byte) (h : memoriesOk s) : memoriesOk (hostPut fn a l s) := by
  unfold hostPut
  split
  · have hw := mputs_wf l (hostMem s (portOf fn)) a (hostMem_wf (portOf fn) h)
    unfold setHostMem
    split
    · exact ⟨h.1, hw, h.2.2⟩
    · exact ⟨h.1, h.2.1, hw⟩
  · exact memoriesOk_cnt _ _ _ h

theorem putWhere_wf (dead : Nat → Bool) (rows : List Nat) (a : Nat) (l : List Byte) {m : List Host.Cell}
    (h : Memory.wf m = true) : Memory.wf (putWhere dead rows a l m) = true := by
  unfold putWhere
  split
  · exact foldl_mput_wf (fun e : Byte × Nat => dead (rowOf (a + e.2))) (fun e => a + e.2) Prod.fst _ _ h
  · exact mputs_wf _ _ _ h

theorem memoriesOk_clearWhole {s : State} (w : List Nat) (r n : Nat) (h : memoriesOk s) :
    memoriesOk (clearWhole w r n s) := by
  unfold clearWhole
  split
  · exact h
  · exact memoriesOk_foldl _ (fun s b hs => memoriesOk_clearPoison _ _ hs) _ _ h

theorem memoriesOk_setMem {s : State} {m : List Host.Cell} (h : memoriesOk s) (hm : Memory.wf m = true) :
    memoriesOk { s with mem := m } := ⟨hm, h.2⟩

/-- Storing a data unit keeps the canonical form (R411). -/
theorem unitPut_wf (s : State) (u : Nat) (l : List Byte) {m : List Host.Cell} (h : Memory.wf m = true) :
    Memory.wf (unitPut s u l m) = true := by
  unfold unitPut
  split <;> exact mputs_wf _ _ _ h

theorem foldl_wf {β : Type} (f : List Host.Cell → β → List Host.Cell)
    (hf : ∀ m b, Memory.wf m = true → Memory.wf (f m b) = true) :
    ∀ (l : List β) (m : List Host.Cell), Memory.wf m = true → Memory.wf (l.foldl f m) = true
  | [], _, h => h
  | b :: t, m, h => foldl_wf f hf t (f m b) (hf m b h)

/-- A write of HBM keeps the canonical form. -/
theorem hbmPuts_wf (s : State) (a : Nat) (l : List Byte) (h : Memory.wf s.mem = true) : Memory.wf (hbmPuts s a l) = true := by
  unfold hbmPuts
  split
  · exact foldl_wf _ (fun m i hm => unitPut_wf s _ _ hm) _ _ h
  · exact mputs_wf _ _ _ h

/-- HBM under no memory key holds the bytes themselves (R411). -/
theorem hbmPuts_plain (s : State) (a : Nat) (l : List Byte) (h : encKey s a l.length = none) :
    hbmPuts s a l = mputs s.mem a l := by
  simp [hbmPuts, h]

theorem hbmGets_plain (s : State) (a n : Nat) (h : encKey s a n = none) : hbmGets s a n = mgets s.mem a n := by
  simp [hbmGets, h]

/-- A write of device memory keeps the canonical form. -/
theorem memoriesOk_devPut {s : State} (a : Nat) (l : List Byte) (h : memoriesOk s) : memoriesOk (devPut a l s) := by
  unfold devPut
  split
  · have h0 := fun (rows : List Nat) => memoriesOk_foldl _ (fun s r hs => memoriesOk_findCe r 1 hs) rows s h
    exact memoriesOk_clearWhole _ _ _ (memoriesOk_freshRows _ _ _ (memoriesOk_touchRows _ _
      (memoriesOk_foldl _ (fun s b hs => memoriesOk_cnt _ _ _ hs) _ _
        (memoriesOk_setMem (h0 _) (putWhere_wf _ _ _ _ (h0 _).1)))))
  · exact ⟨hbmPuts_wf _ _ _ h.1, h.2⟩

/-- A write as a tenant keeps the canonical form. -/
theorem memoriesOk_wrBytes {s : State} (t a : Nat) (l : List Byte) (h : memoriesOk s) : memoriesOk (wrBytes t a l s) := by
  unfold wrBytes
  split
  · exact memoriesOk_foldl _ (fun s p hs => memoriesOk_hostPut _ _ _ hs) _ _ h
  · exact memoriesOk_devPut _ _ h

/-- Lost contents keep the canonical form. -/
theorem loseRange_wfFrom (d lo hi : Nat) : ∀ (m : List Host.Cell) (k : Nat), twfFrom (0 : Byte) k m = true →
    twfFrom (0 : Byte) k (loseRange d lo hi m) = true
  | [], _, _ => rfl
  | (a, b) :: t, k, h => by
    simp only [twfFrom, Bool.and_eq_true, decide_eq_true_eq, Bool.not_eq_true', decide_eq_false_iff_not] at h
    obtain ⟨⟨hk, hb⟩, ht⟩ := h
    have ih := loseRange_wfFrom d lo hi t (a + 1) ht
    unfold loseRange at ih ⊢
    simp only [List.filterMap_cons]
    split
    · exact twfFrom_mono _ _ (a + 1) k (by omega) ih
    · rename_i c hc
      have hca : c.1 = a ∧ c.2 ≠ 0 := by
        split at hc
        · split at hc
          · cases hc
          · rename_i hz
            cases hc
            exact ⟨rfl, hz⟩
        · cases hc
          exact ⟨rfl, hb⟩
      obtain ⟨c1, c2⟩ := c
      simp only at hca
      simp only [twfFrom, Bool.and_eq_true, decide_eq_true_eq, Bool.not_eq_true', decide_eq_false_iff_not]
      rw [hca.1]
      exact ⟨⟨hk, hca.2⟩, ih⟩

theorem loseRange_wf (d lo hi : Nat) (m : List Host.Cell) (h : Memory.wf m = true) :
    Memory.wf (loseRange d lo hi m) = true :=
  loseRange_wfFrom d lo hi m 0 h

/-! ### Rows of the scratchpad -/

/-- A place less than `n` past a base lies in the `n` bytes from there. -/
theorem within_span (b n x : Nat) (h : x < n) : (decide (b ≤ b + x) && decide (b + x < b + n)) = true := by
  simp [h]

/-- The rows the device has fill the populated aperture (R24). -/
theorem row_in_aperture (r : Nat) (h : r < 0x100000) : r * 512 < scratchBytes := by
  unfold scratchBytes
  omega

/-- A row's address lies in the populated scratch aperture. -/
theorem isScratch_rowAddr (r : Nat) (h : r < 0x100000) : isScratch (rowAddr r) = true :=
  within_span scratchBase scratchBytes (r * 512) (row_in_aperture r h)

/-- The row at a row's address. -/
theorem rowOf_rowAddr (r : Nat) : rowOf (rowAddr r) = r := by
  unfold rowOf rowAddr
  rw [Nat.add_sub_cancel_left]
  omega

/-- A place in a row, from the aperture's base. -/
theorem rowAddr_add_sub (r n : Nat) : rowAddr r + n - scratchBase = r * 512 + n := by
  unfold rowAddr
  rw [Nat.add_assoc, Nat.add_sub_cancel_left]

/-- Noting an access to rows changes only the time of the slices' latest use (R286). -/
theorem touchRows_frame (r n : Nat) (s : State) :
    touchRows r n s = { s with spd := { s.spd with lastUse := (touchRows r n s).spd.lastUse } } := by
  unfold touchRows
  rfl

end Sys2Proof.Machine
end

