-- ==== Sys2Proof/Laws/Ops.lean ====
section
/-! SUPPORT. What the shared operations can do: the uniform outcome of a command, registers, the log, messages. -/

namespace Sys2Proof.Machine

/-! ### The outcome of a command -/

/-- A command with right operands answers its effect with the queue as it was; with wrong ones it is a fault. -/
theorem onObject_cases (ok : Bool) (s : State) (eff : State → State) :
    (ok = true ∧ onObject ok s eff = .next (keepQueue s (eff s))) ∨
    (ok = false ∧ onObject ok s eff = .fault .noSuchObject) := by
  cases ok
  · exact .inr ⟨rfl, rfl⟩
  · exact .inl ⟨rfl, rfl⟩

/-- The same of a command of the part outside the always-on domain: its effect, or nothing while that part is not
alive. -/
theorem act_cases (ok : Bool) (s : State) (eff : State → State) :
    (ok = true ∧ alive s = true ∧ act ok s eff = .next (keepQueue s (eff s))) ∨
    (ok = true ∧ alive s = false ∧ act ok s eff = .next s) ∨
    (ok = false ∧ act ok s eff = .fault .noSuchObject) := by
  cases ok
  · exact .inr (.inr ⟨rfl, rfl⟩)
  · cases h : alive s
    · refine .inr (.inl ⟨rfl, rfl, ?_⟩)
      simp [act, onObject, whenAlive, h, keepQueue]
    · refine .inl ⟨rfl, rfl, ?_⟩
      simp [act, onObject, whenAlive, h]

theorem act_alive {ok : Bool} {s : State} (eff : State → State) (h : alive s = true) (hok : ok = true) :
    act ok s eff = .next (keepQueue s (eff s)) := by
  simp [act, onObject, whenAlive, h, hok]

theorem act_dead {ok : Bool} {s : State} (eff : State → State) (h : alive s = false) (hok : ok = true) :
    act ok s eff = .next s := by
  simp [act, onObject, whenAlive, h, hok, keepQueue]

/-! ### Registers -/

/-- A write keeps the keys of the register table rising. -/
theorem rput_keys (s : State) (o i v : Nat) (h : tkeys 0 s.regs = true) : tkeys 0 (rput o i v s).regs = true :=
  tkeys_tset _ _ 0 _ _ (Nat.zero_le _) h

/-- A register read after a write: the value written, modulo 2³², at the place written; elsewhere as before. -/
theorem rget_rput (s : State) (o i o' i' v : Nat) (h : tkeys 0 s.regs = true) (ho : o < 0x1000000)
    (ho' : o' < 0x1000000) :
    rget (rput o i v s) o' i' = if o' = o ∧ i' = i then v % 2 ^ 32 else rget s o' i' := by
  have key : rk o' i' = rk o i ↔ o' = o ∧ i' = i := by
    unfold rk
    omega
  unfold rget rput
  simp only
  rw [tget_tset_from _ _ _ 0 _ _ _ h (fun e => by rw [(key.mp e).1])]
  by_cases hk : rk o' i' = rk o i
  · rw [if_pos hk, if_pos (key.mp hk)]
    simp
  · rw [if_neg hk, if_neg (fun e => hk (key.mpr e))]

/-! ### Lanes -/

/-- A lane after a change of a lane: the change at that lane, any other as before. -/
theorem laneSt_modLane (s : State) (n m : Nat) (f : Lane → Lane) (h : tkeys 0 s.lanes = true) :
    laneSt (modLane n f s) m = if m = n then f (laneSt s n) else laneSt s m := by
  unfold laneSt modLane tmod
  simp only
  rw [tget_tset_from _ _ _ 0 _ _ _ h (fun _ => rfl)]

/-- The lanes' table stays in order. -/
theorem modLane_keys (s : State) (n : Nat) (f : Lane → Lane) (h : tkeys 0 s.lanes = true) :
    tkeys 0 (modLane n f s).lanes = true :=
  tkeys_tset _ _ 0 _ _ (Nat.zero_le _) h

/-! ### The log -/

/-- An entry's sequence number and time; the next one counts up modulo 2³² (R392). -/
theorem addLog_next (code tn e d0 d1 d2 : Nat) (s : State) :
    (addLog code tn e d0 d1 d2 s).logNext = w32 (s.logNext + 1) := by
  unfold addLog addLogR
  split <;> rfl

/-- The log never grows past 4,096 entries (R392). -/
theorem addLog_length (code tn e d0 d1 d2 : Nat) (s : State) (h : s.log.length ≤ 4096) :
    (addLog code tn e d0 d1 d2 s).log.length ≤ 4096 := by
  unfold addLog addLogR
  split
  · simp only [List.length_append, List.length_cons, List.length_nil]
    omega
  · simp only [List.length_tail, List.length_append, List.length_cons, List.length_nil]
    omega

/-! ### Messages -/

/-- What an event on a vector can do: nothing, a pending bit, or a posted write (R361). -/
theorem msixEvent_cases (fn vec : Nat) (s : State) :
    (msixEvent fn vec s = s) ∨
    (msixEvent fn vec s = { s with msixPend := s.msixPend ++ [fn * 4096 + vec] }) ∨
    (msixEvent fn vec s =
      hostPut fn (msixW s fn vec 0 + 2 ^ 32 * msixW s fn vec 1) (leBytes 4 (msixW s fn vec 2)) s) := by
  unfold msixEvent
  split
  · exact .inl rfl
  · split
    · split
      · exact .inl rfl
      · exact .inr (.inl rfl)
    · exact .inr (.inr rfl)

end Sys2Proof.Machine
end

