-- ==== Sys2Proof/Laws/PerInstr.lean ====
section
/-! SUPPORT. The family Ops of statements about every command: a command of the always-on domain never carries ill-formed
operands. -/

namespace Sys2Proof.Laws.Ops

/-- A command of the always-on domain is well formed whatever its operands. -/
def Statement (i : Instr) : Prop := alwaysOn i = true → i.wf = true

theorem hello (src : Src) : Statement (.hello src) := by intro h; cases h
theorem capsRead (src : Src) : Statement (.capsRead src) := by intro h; cases h
theorem echo (src : Src) : Statement (.echo src) := by intro h; cases h
theorem regionMap (src : Src) : Statement (.regionMap src) := by intro h; cases h
theorem regionUnmap (src : Src) : Statement (.regionUnmap src) := by intro h; cases h
theorem windowOpen (src : Src) : Statement (.windowOpen src) := by intro h; cases h
theorem windowClose (src : Src) : Statement (.windowClose src) := by intro h; cases h
theorem graphLoad (src : Src) : Statement (.graphLoad src) := by intro h; cases h
theorem graphArm (src : Src) : Statement (.graphArm src) := by intro h; cases h
theorem graphDisarm (src : Src) : Statement (.graphDisarm src) := by intro h; cases h
theorem graphUnload (src : Src) : Statement (.graphUnload src) := by intro h; cases h
theorem jobSubmit (src : Src) : Statement (.jobSubmit src) := by intro h; cases h
theorem jobCancel (src : Src) : Statement (.jobCancel src) := by intro h; cases h
theorem streamRearm (src : Src) : Statement (.streamRearm src) := by intro h; cases h
theorem queuePush (src : Src) : Statement (.queuePush src) := by intro h; cases h
theorem queuePop (src : Src) : Statement (.queuePop src) := by intro h; cases h
theorem sensorProfile (src : Src) : Statement (.sensorProfile src) := by intro h; cases h
theorem sensorSettings (src : Src) : Statement (.sensorSettings src) := by intro h; cases h
theorem streamStart (src : Src) : Statement (.streamStart src) := by intro h; cases h
theorem streamStop (src : Src) : Statement (.streamStop src) := by intro h; cases h
theorem txConfig (src : Src) : Statement (.txConfig src) := by intro h; cases h
theorem sessionOpen (src : Src) : Statement (.sessionOpen src) := by intro h; cases h
theorem sessionClose (src : Src) : Statement (.sessionClose src) := by intro h; cases h
theorem jobKey (src : Src) : Statement (.jobKey src) := by intro h; cases h
theorem statsRead (src : Src) : Statement (.statsRead src) := by intro h; cases h
theorem logRead (src : Src) : Statement (.logRead src) := by intro h; cases h
theorem fwBlock (src : Src) : Statement (.fwBlock src) := by intro h; cases h
theorem fwCommit (src : Src) : Statement (.fwCommit src) := by intro h; cases h
theorem fwConfirm (src : Src) : Statement (.fwConfirm src) := by intro h; cases h
theorem fwStatus (src : Src) : Statement (.fwStatus src) := by intro h; cases h
theorem packetWindowWrite (fn lane off : Nat) (dws : List Word) : Statement (.packetWindowWrite fn lane off dws) := by intro h; cases h
theorem hostLaneConsWrite (fn lane : Nat) (v : Word) : Statement (.hostLaneConsWrite fn lane v) := by intro h; cases h
theorem hostLaneCfgWrite (fn lane : Nat) (v : Word) : Statement (.hostLaneCfgWrite fn lane v) := by intro h; cases h
theorem modWindowEnd (fn lane : Nat) : Statement (.modWindowEnd fn lane) := by intro h; cases h
theorem regRead (sess off : Nat) : Statement (.regRead sess off) := by intro h; cases h
theorem regWrite (sess off : Nat) (v : Word) : Statement (.regWrite sess off v) := by intro h; cases h
theorem registerWrite (rq off : Nat) (v : Word) : Statement (.registerWrite rq off v) := by intro h; cases h
theorem rcRegisterRead (rq off : Nat) : Statement (.rcRegisterRead rq off) := by intro h; cases h
theorem w1cRegisterWrite (rq off : Nat) (v : Word) : Statement (.w1cRegisterWrite rq off v) := by intro h; cases h
theorem mmioMisshapedAccess (rq off size : Nat) (wr : Bool) : Statement (.mmioMisshapedAccess rq off size wr) := by intro h; cases h
theorem mmioHoleAccess (rq off : Nat) (wr : Bool) : Statement (.mmioHoleAccess rq off wr) := by intro h; cases h
theorem pwrTimeLoRead (rq : Nat) : Statement (.pwrTimeLoRead rq) := by intro h; cases h
theorem seqSluiceLastLoRead (rq : Nat) : Statement (.seqSluiceLastLoRead rq) := by intro h; cases h
theorem camFsiLastLoRead (rq n : Nat) : Statement (.camFsiLastLoRead rq n) := by intro h; cases h
theorem secIsoTimeLoRead (rq : Nat) : Statement (.secIsoTimeLoRead rq) := by intro h; cases h
theorem safCauseTimeLoRead (rq : Nat) : Statement (.safCauseTimeLoRead rq) := by intro h; cases h
theorem partitionClear (rq : Nat) (v : Word) : Statement (.partitionClear rq v) := by intro h; cases h
theorem spdArrValueWrite (rq : Nat) (v : Word) : Statement (.spdArrValueWrite rq v) := by intro h; cases h
theorem spdSlicePwrWrite (rq : Nat) (v : Word) : Statement (.spdSlicePwrWrite rq v) := by intro h; cases h
theorem bankPowerDownDone (slice bank : Nat) : Statement (.bankPowerDownDone slice bank) := by intro h; cases h
theorem bankPowerUpDone (slice bank : Nat) : Statement (.bankPowerUpDone slice bank) := by intro h; cases h
theorem spdSliceCacheWrite (rq : Nat) (v : Word) : Statement (.spdSliceCacheWrite rq v) := by intro h; cases h
theorem cacheInv (rq : Nat) (v : Word) : Statement (.cacheInv rq v) := by intro h; cases h
theorem spdWheelCfgWrite (rq : Nat) (v : Word) : Statement (.spdWheelCfgWrite rq v) := by intro h; cases h
theorem mrqCfgWrite (rq : Nat) (v : Word) : Statement (.mrqCfgWrite rq v) := by intro h; cases h
theorem strCtxOwnerWrite (rq : Nat) (v : Word) : Statement (.strCtxOwnerWrite rq v) := by intro h; cases h
theorem isoCommit (rq : Nat) (v : Word) : Statement (.isoCommit rq v) := by intro h; cases h
theorem isolationEpoch : Statement .isolationEpoch := fun _ => rfl
theorem credCommit (rq : Nat) (v : Word) : Statement (.credCommit rq v) := by intro h; cases h
theorem pkgWindowWrite (rq off : Nat) (v : Word) : Statement (.pkgWindowWrite rq off v) := by intro h; cases h
theorem pkgErase (rq : Nat) (v : Word) : Statement (.pkgErase rq v) := by intro h; cases h
theorem pkgEraseDone : Statement .pkgEraseDone := fun _ => rfl
theorem pkgCommit (rq : Nat) (v : Word) : Statement (.pkgCommit rq v) := by intro h; cases h
theorem pkgCommitDone : Statement .pkgCommitDone := fun _ => rfl
theorem vcoreSetPointReached : Statement .vcoreSetPointReached := fun _ => rfl
theorem arclkSwitchDone : Statement .arclkSwitchDone := fun _ => rfl
theorem csi2FrameStart (port vc num : Nat) (ecc : Ecc) : Statement (.csi2FrameStart port vc num ecc) := by intro h; cases h
theorem csi2LineStart (port vc num : Nat) (ecc : Ecc) : Statement (.csi2LineStart port vc num ecc) := by intro h; cases h
theorem csi2LongPacket (port vc dt : Nat) (payload : List Byte) (ecc : Ecc) (crcOk : Bool) : Statement (.csi2LongPacket port vc dt payload ecc crcOk) := by intro h; cases h
theorem embeddedData (port vc : Nat) (payload : List Byte) (ecc : Ecc) (crcOk : Bool) : Statement (.embeddedData port vc payload ecc crcOk) := by intro h; cases h
theorem csi2FrameEnd (port vc num : Nat) (ecc : Ecc) : Statement (.csi2FrameEnd port vc num ecc) := by intro h; cases h
theorem lineTimeout (stream : Nat) : Statement (.lineTimeout stream) := by intro h; cases h
theorem streamLoss (stream : Nat) : Statement (.streamLoss stream) := by intro h; cases h
theorem lineLanded (stream : Nat) : Statement (.lineLanded stream) := by intro h; cases h
theorem settingsWindowOpen (stream : Nat) : Statement (.settingsWindowOpen stream) := by intro h; cases h
theorem settingsWindowClose (stream : Nat) : Statement (.settingsWindowClose stream) := by intro h; cases h
theorem sensorTransferDone (stream : Nat) (ack : Bool) (dataBytes : Nat) : Statement (.sensorTransferDone stream ack dataBytes) := by intro h; cases h
theorem i2cStretchTimeout (stream dataBytes : Nat) : Statement (.i2cStretchTimeout stream dataBytes) := by intro h; cases h
theorem sensorIbi (port addr data : Nat) : Statement (.sensorIbi port addr data) := by intro h; cases h
theorem fsyncOutAssert (k : Nat) : Statement (.fsyncOutAssert k) := by intro h; cases h
theorem fsyncOutDeassert (k : Nat) : Statement (.fsyncOutDeassert k) := by intro h; cases h
theorem fsyncInEdge (n : Nat) (rising : Bool) : Statement (.fsyncInEdge n rising) := by intro h; cases h
theorem timerTrigger (tmpl : Nat) : Statement (.timerTrigger tmpl) := by intro h; cases h
theorem handleTrigger (mrq : Nat) : Statement (.handleTrigger mrq) := by intro h; cases h
theorem handleClaim (mrq : Nat) : Statement (.handleClaim mrq) := by intro h; cases h
theorem timeWaitExpiry (tmpl slot node : Nat) (second : Bool) : Statement (.timeWaitExpiry tmpl slot node second) := by intro h; cases h
theorem gangStarveGuard (prio : Nat) : Statement (.gangStarveGuard prio) := by intro h; cases h
theorem shareWindowEnd : Statement .shareWindowEnd := fun _ => rfl
theorem icoreTask (core : Nat) : Statement (.icoreTask core) := by intro h; cases h
theorem ispFrameRecord (core : Nat) : Statement (.ispFrameRecord core) := by intro h; cases h
theorem wpeResample (core unit : Nat) : Statement (.wpeResample core unit) := by intro h; cases h
theorem wpeMeshInvert (core unit : Nat) : Statement (.wpeMeshInvert core unit) := by intro h; cases h
theorem pyeTask (core : Nat) : Statement (.pyeTask core) := by intro h; cases h
theorem steTask (core : Nat) : Statement (.steTask core) := by intro h; cases h
theorem ofeTask (core : Nat) : Statement (.ofeTask core) := by intro h; cases h
theorem kpeDetect (core : Nat) : Statement (.kpeDetect core) := by intro h; cases h
theorem kpeTrack (core : Nat) : Statement (.kpeTrack core) := by intro h; cases h
theorem kpeMatch (core : Nat) : Statement (.kpeMatch core) := by intro h; cases h
theorem ncoreTaskDispatch : Statement .ncoreTaskDispatch := fun _ => rfl
theorem todConv2d (core : Nat) : Statement (.todConv2d core) := by intro h; cases h
theorem todMatmul (core : Nat) : Statement (.todMatmul core) := by intro h; cases h
theorem todAttention (core : Nat) : Statement (.todAttention core) := by intro h; cases h
theorem todEltwise (core : Nat) : Statement (.todEltwise core) := by intro h; cases h
theorem todAct (core : Nat) : Statement (.todAct core) := by intro h; cases h
theorem todNorm (core : Nat) : Statement (.todNorm core) := by intro h; cases h
theorem todPool (core : Nat) : Statement (.todPool core) := by intro h; cases h
theorem todResize (core : Nat) : Statement (.todResize core) := by intro h; cases h
theorem todReduce (core : Nat) : Statement (.todReduce core) := by intro h; cases h
theorem todSoftmax (core : Nat) : Statement (.todSoftmax core) := by intro h; cases h
theorem todGather (core : Nat) : Statement (.todGather core) := by intro h; cases h
theorem todScatter (core : Nat) : Statement (.todScatter core) := by intro h; cases h
theorem todTransform (core : Nat) : Statement (.todTransform core) := by intro h; cases h
theorem todQuant (core : Nat) : Statement (.todQuant core) := by intro h; cases h
theorem todTopk (core : Nat) : Statement (.todTopk core) := by intro h; cases h
theorem todNms (core : Nat) : Statement (.todNms core) := by intro h; cases h
theorem todArgmax (core : Nat) : Statement (.todArgmax core) := by intro h; cases h
theorem streamCopy (ctx : Nat) : Statement (.streamCopy ctx) := by intro h; cases h
theorem streamTensor (ctx : Nat) : Statement (.streamTensor ctx) := by intro h; cases h
theorem streamReadReturn (ctx : Nat) (outcome : ReadOutcome) (read : ReadRef) : Statement (.streamReadReturn ctx outcome read) := by intro h; cases h
theorem pcieCompletionTimeout (ctx : Nat) (read : ReadRef) : Statement (.pcieCompletionTimeout ctx read) := by intro h; cases h
theorem publishEthernet (mac : Nat) : Statement (.publishEthernet mac) := by intro h; cases h
theorem ethRecordCommit (mac : Nat) : Statement (.ethRecordCommit mac) := by intro h; cases h
theorem ethFrameSent (mac : Nat) : Statement (.ethFrameSent mac) := by intro h; cases h
theorem publishHostRing (port : Nat) : Statement (.publishHostRing port) := by intro h; cases h
theorem publishCsi2Tx (tx : Nat) : Statement (.publishCsi2Tx tx) := by intro h; cases h
theorem csi2TxCommit (tx : Nat) : Statement (.csi2TxCommit tx) := by intro h; cases h
theorem fwSettings : Statement .fwSettings := fun _ => rfl
theorem fwRearm : Statement .fwRearm := fun _ => rfl
theorem fwPush : Statement .fwPush := fun _ => rfl
theorem fwCounterSet : Statement .fwCounterSet := fun _ => rfl
theorem fwNotify : Statement .fwNotify := fun _ => rfl
theorem millracePushAccept (mrq : Nat) : Statement (.millracePushAccept mrq) := by intro h; cases h
theorem taskComplete (engine : Nat) : Statement (.taskComplete engine) := by intro h; cases h
theorem sluiceWindowEnd (sluice : Nat) : Statement (.sluiceWindowEnd sluice) := by intro h; cases h
theorem instanceDrained (tmpl slot : Nat) : Statement (.instanceDrained tmpl slot) := by intro h; cases h
theorem windowWrite (fn req off : Nat) (data : List Byte) : Statement (.windowWrite fn req off data) := by intro h; cases h
theorem windowRead (fn req off len : Nat) (atomic : Bool) : Statement (.windowRead fn req off len atomic) := by intro h; cases h
theorem windowWriteLanded (win : Nat) : Statement (.windowWriteLanded win) := by intro h; cases h
theorem scrubRow (slice group : Nat) (err : RowError) : Statement (.scrubRow slice group err) := by intro h; cases h
theorem eccWriteback (slice : Nat) : Statement (.eccWriteback slice) := by intro h; cases h
theorem sliceIdleRepair (slice : Nat) : Statement (.sliceIdleRepair slice) := by intro h; cases h
theorem repairCopyDone (slice : Nat) : Statement (.repairCopyDone slice) := by intro h; cases h
theorem wheelPoisonFill (core wheel : Nat) : Statement (.wheelPoisonFill core wheel) := by intro h; cases h
theorem checkIntervalStart : Statement .checkIntervalStart := fun _ => rfl
theorem goldenRunDone (engine disagree : Nat) : Statement (.goldenRunDone engine disagree) := by intro h; cases h
theorem safeHbToggle : Statement .safeHbToggle := fun _ => rfl
theorem safetyRecordRepeat : Statement .safetyRecordRepeat := fun _ => rfl
theorem scpLockstepMismatch : Statement .scpLockstepMismatch := fun _ => rfl
theorem siLockstepMismatch : Statement .siLockstepMismatch := fun _ => rfl
theorem clockFault : Statement .clockFault := fun _ => rfl
theorem sslCsFall : Statement .sslCsFall := fun _ => rfl
theorem sslNop : Statement .sslNop := fun _ => rfl
theorem sslSelect (index : Nat) : Statement (.sslSelect index) := by intro h; cases h
theorem sslAckTransient : Statement .sslAckTransient := fun _ => rfl
theorem sslBadFrame (frame : List Bool) : Statement (.sslBadFrame frame) := fun _ => rfl
theorem supplyWarn : Statement .supplyWarn := fun _ => rfl
theorem supplyWarnEnd : Statement .supplyWarnEnd := fun _ => rfl
theorem supplyReset : Statement .supplyReset := fun _ => rfl
theorem supplyResetEnd : Statement .supplyResetEnd := fun _ => rfl
theorem powerMeasure (milliwatts : Nat) : Statement (.powerMeasure milliwatts) := fun _ => rfl
theorem thermalStepDown (temp : Int) : Statement (.thermalStepDown temp) := fun _ => rfl
theorem thermalStepUp (temp : Int) : Statement (.thermalStepUp temp) := fun _ => rfl
theorem thermalTrip (temp : Int) : Statement (.thermalTrip temp) := fun _ => rfl
theorem thermtripAssert : Statement .thermtripAssert := fun _ => rfl
theorem ceWindowEnd : Statement .ceWindowEnd := fun _ => rfl
theorem engineIdle (engine : Nat) : Statement (.engineIdle engine) := by intro h; cases h
theorem coreNap (unit : Nat) : Statement (.coreNap unit) := by intro h; cases h
theorem unitWakeDone (unit : Nat) : Statement (.unitWakeDone unit) := by intro h; cases h
theorem sleepEntry : Statement .sleepEntry := fun _ => rfl
theorem sleepWakeDone : Statement .sleepWakeDone := fun _ => rfl
theorem prewake (tmpl : Nat) : Statement (.prewake tmpl) := by intro h; cases h
theorem prewakeExpire (tmpl : Nat) : Statement (.prewakeExpire tmpl) := by intro h; cases h
theorem deviceTimeTick : Statement .deviceTimeTick := fun _ => rfl
theorem ptmRequest (port : Nat) (enabled : Bool) : Statement (.ptmRequest port enabled) := by intro h; cases h
theorem ptmResponse (port master : Nat) : Statement (.ptmResponse port master) := by intro h; cases h
theorem gptpMessage (mac : Nat) (msg : GptpMsg) : Statement (.gptpMessage mac msg) := by intro h; cases h
theorem ethArpRequest (mac : Nat) (sha spa tpa : List Byte) : Statement (.ethArpRequest mac sha spa tpa) := by intro h; cases h
theorem ethNeighborSolicitation (port : Nat) (src target sll : List Byte) : Statement (.ethNeighborSolicitation port src target sll) := by intro h; cases h
theorem ethIcmpEcho (port : Nat) (v6 : Bool) (mac src dst body : List Byte) : Statement (.ethIcmpEcho port v6 mac src dst body) := by intro h; cases h
theorem ethRxDrop (mac : Nat) (frame : List Byte) : Statement (.ethRxDrop mac frame) := by intro h; cases h
theorem ethLinkChange (mac : Nat) (up : Bool) : Statement (.ethLinkChange mac up) := by intro h; cases h
theorem flr (fn : Nat) : Statement (.flr fn) := by intro h; cases h
theorem perstAssert (port : Nat) : Statement (.perstAssert port) := by intro h; cases h
theorem hotReset (port : Nat) : Statement (.hotReset port) := by intro h; cases h
theorem vfEnableClear (port : Nat) : Statement (.vfEnableClear port) := by intro h; cases h
theorem linkDown (port : Nat) : Statement (.linkDown port) := by intro h; cases h
theorem linkUp (port speed width : Nat) : Statement (.linkUp port speed width) := by intro h; cases h
theorem msixUnmask (fn vec : Nat) : Statement (.msixUnmask fn vec) := by intro h; cases h
theorem doeDiscovery (port index : Nat) : Statement (.doeDiscovery port index) := by intro h; cases h
theorem doeAbort (port : Nat) : Statement (.doeAbort port) := by intro h; cases h
theorem getVersion (link : SpdmLink) (req : SpdmReq) : Statement (.getVersion link req) := by intro h; cases h
theorem getCapabilities (link : SpdmLink) (req : SpdmReq) : Statement (.getCapabilities link req) := by intro h; cases h
theorem negotiateAlgorithms (link : SpdmLink) (req : SpdmReq) : Statement (.negotiateAlgorithms link req) := by intro h; cases h
theorem getDigests (link : SpdmLink) (req : SpdmReq) : Statement (.getDigests link req) := by intro h; cases h
theorem getCertificate (link : SpdmLink) (req : SpdmReq) : Statement (.getCertificate link req) := by intro h; cases h
theorem challenge (link : SpdmLink) (req : SpdmReq) : Statement (.challenge link req) := by intro h; cases h
theorem getMeasurements (link : SpdmLink) (req : SpdmReq) : Statement (.getMeasurements link req) := by intro h; cases h
theorem keyExchange (link : SpdmLink) (req : SpdmReq) : Statement (.keyExchange link req) := by intro h; cases h
theorem finish (link : SpdmLink) (req : SpdmReq) : Statement (.finish link req) := by intro h; cases h
theorem endSession (link : SpdmLink) (req : SpdmReq) : Statement (.endSession link req) := by intro h; cases h
theorem heartbeat (link : SpdmLink) (req : SpdmReq) : Statement (.heartbeat link req) := by intro h; cases h
theorem keyUpdate (link : SpdmLink) (req : SpdmReq) : Statement (.keyUpdate link req) := by intro h; cases h
theorem getEncapsulatedRequest (link : SpdmLink) (req : SpdmReq) : Statement (.getEncapsulatedRequest link req) := by intro h; cases h
theorem deliverEncapsulatedResponse (link : SpdmLink) (req : SpdmReq) : Statement (.deliverEncapsulatedResponse link req) := by intro h; cases h
theorem spdmUnsupportedRequest (link : SpdmLink) (code : Nat) (req : SpdmReq) : Statement (.spdmUnsupportedRequest link code req) := by intro h; cases h
theorem sessionHandshakeTimeout (sess : Nat) : Statement (.sessionHandshakeTimeout sess) := by intro h; cases h
theorem aonPowerUp (bifurcated : Bool) : Statement (.aonPowerUp bifurcated) := fun _ => rfl
theorem powerOff : Statement .powerOff := fun _ => rfl
theorem resetAssert : Statement .resetAssert := fun _ => rfl
theorem resetRelease : Statement .resetRelease := fun _ => rfl
theorem selfTestDone (missed : Option Nat) : Statement (.selfTestDone missed) := fun _ => rfl
theorem trialCountStore : Statement .trialCountStore := fun _ => rfl
theorem trialRunExpiry : Statement .trialRunExpiry := fun _ => rfl
theorem functionResetDone (fn : Nat) : Statement (.functionResetDone fn) := by intro h; cases h
theorem pmbusTransferDone (ok : Bool) : Statement (.pmbusTransferDone ok) := fun _ => rfl
theorem mgtLinkChange (up : Bool) (speed : Nat) : Statement (.mgtLinkChange up speed) := by intro h; cases h
theorem peerDelayRequest (mac : Nat) : Statement (.peerDelayRequest mac) := by intro h; cases h

end Sys2Proof.Laws.Ops
end

