-- ==== Sys2Proof/Laws/Seq.lean ====
section
/-! SUPPORT. What a changed arrival counter leaves alone: the sequencer's reaction to it does not touch the counters. -/

namespace Sys2Proof.Machine

/-- A fold of steps that keep the counters keeps them. -/
theorem foldl_arr {α : Type} (f : State → α → State) (h : ∀ s a, (f s a).spd.arr = s.spd.arr) (l : List α) :
    ∀ s, (l.foldl f s).spd.arr = s.spd.arr := by
  induction l with
  | nil => intro s; rfl
  | cons a l ih => intro s; rw [List.foldl_cons, ih, h]

theorem modTmpl_arr (t : Nat) (f : Tmpl → Tmpl) (s : State) : (modTmpl t f s).spd.arr = s.spd.arr := by
  unfold modTmpl; split <;> rfl

theorem modInst_arr (t k : Nat) (f : Inst → Inst) (s : State) : (modInst t k f s).spd.arr = s.spd.arr := modTmpl_arr _ _ _

theorem logRepair_arr (k r e a p : Nat) (s : State) : (logRepair k r e a p s).spd.arr = s.spd.arr := by
  unfold logRepair; split <;> rw [addLog_spd]

theorem queueRow_arr (row r : Nat) (s : State) : (queueRow row r s).spd.arr = s.spd.arr := by
  unfold queueRow
  split
  · rfl
  · split <;> rw [logRepair_arr]

theorem rowUe_arr (row : Nat) (s : State) : (rowUe row s).spd.arr = s.spd.arr := by
  unfold rowUe
  split
  · rfl
  · rw [queueRow_arr]; rfl

theorem cnt_arr (o i n : Nat) (s : State) : (cnt o i n s).spd.arr = s.spd.arr := rfl

theorem rowCe_arr (row : Nat) (s : State) : (rowCe row s).spd.arr = s.spd.arr := by
  unfold rowCe; rw [cnt_arr]

theorem findCe_arr (r n : Nat) (s : State) : (findCe r n s).spd.arr = s.spd.arr := by
  unfold findCe
  refine foldl_arr _ (fun x e => ?_) _ _
  split
  · split
    · exact rowCe_arr _ _
    · rfl
  · rfl

theorem touchRows_arr (r n : Nat) (s : State) : (touchRows r n s).spd.arr = s.spd.arr := by
  unfold touchRows; dsimp only

theorem touchRead_arr (a n : Nat) (s : State) : (touchRead a n s).spd.arr = s.spd.arr := by
  unfold touchRead
  split
  · rw [findCe_arr, touchRows_arr]
  · rfl

theorem markPoison_arr (c : Chk) (s : State) : (markPoison c s).spd.arr = s.spd.arr := by
  unfold markPoison
  split
  · rw [touchRows_arr]
    split
    · exact rowUe_arr _ _
    · rfl
  · rfl

theorem logChk_arr (c : Chk) (t e : Nat) (s : State) : (logChk c t e s).spd.arr = s.spd.arr := by
  unfold logChk; split
  · rfl
  · unfold logAddr; rw [addLog_spd]
  · unfold logAddr; rw [addLog_spd]
  · rw [addLog_spd]; exact markPoison_arr _ _
  · rw [addLog_spd]; rfl
  · unfold logAddr; rw [addLog_spd]

theorem wantAbort_arr (t k fl : Nat) (s : State) : (wantAbort t k fl s).spd.arr = s.spd.arr := by
  unfold wantAbort; repeat (first | rfl | split)

theorem replaceEntry_arr (e : Nat) (s : State) : (replaceEntry e s).spd.arr = s.spd.arr := by
  unfold replaceEntry logRepair
  dsimp only
  split <;> split <;> first | rfl | (rw [addLog_spd]; rfl)

theorem entryFails_arr (e : Nat) (s : State) : (entryFails e s).spd.arr = s.spd.arr := by
  unfold entryFails
  dsimp only
  split
  · rfl
  · rw [replaceEntry_arr]; rfl

theorem joinReady_arr (t k n i : Nat) (s : State) : (joinReady t k n i s).spd.arr = s.spd.arr := by
  unfold joinReady
  split
  · split
    · rfl
    · split
      · rfl
      · split
        · rw [wantAbort_arr, entryFails_arr]
        split
        · split
          · rfl
          · dsimp only
            rw [wantAbort_arr, addLog_spd]
        · dsimp only
          have e : ∀ c : Chk, ∀ x : State, x.spd.arr = s.spd.arr →
              (if c ≠ .ok then wantAbort t k 2 (logChk c ‹Tmpl›.tenant (engU 0x00 0) s) else x).spd.arr = s.spd.arr := by
            intro c x hx
            split
            · rw [wantAbort_arr, logChk_arr]
            · exact hx
          refine e _ _ ((modInst_arr _ _ _ _).trans ?_)
          show (ite _ _ _ : State).spd.arr = _
          split
          · exact touchRead_arr _ _ _
          · rfl
  · rfl

theorem modCell_arr (t k n i : Nat) (f : Cell → Cell) (s : State) : (modCell t k n i f s).spd.arr = s.spd.arr := modInst_arr _ _ _ _

theorem decCell_arr (t k n i : Nat) (s : State) : (decCell t k n i s).spd.arr = s.spd.arr := by
  unfold decCell
  split
  · split
    · rfl
    · dsimp only
      split
      · rw [joinReady_arr, modCell_arr]
      · exact modCell_arr _ _ _ _ _ _
  · rfl

theorem pollWait_arr (t k n i : Nat) (b : Bool) (s : State) : (pollWait t k n i b s).spd.arr = s.spd.arr := by
  unfold pollWait
  split
  · split
    · dsimp only
      cases b
      · simp only [Bool.false_eq_true, if_false]
        split
        · rw [decCell_arr, modCell_arr]
        · rfl
      · simp only [if_true]
        split
        · rw [decCell_arr, modCell_arr]
        · rfl
    · rfl
  · rfl

theorem pollWaits_arr (kind : Nat) (o : Option Nat) (s : State) : (pollWaits kind o s).spd.arr = s.spd.arr :=
  foldl_arr _ (fun _ _ => pollWait_arr _ _ _ _ _ _) _ _

theorem joinStart_arr (t k : Nat) (s : State) : (joinStart t k s).spd.arr = s.spd.arr := by
  unfold joinStart
  split
  · exact foldl_arr _ (fun _ _ => joinReady_arr _ _ _ _ _) _ _
  · rfl

theorem hostPut_arr (fn a : Nat) (l : List Byte) (s : State) : (hostPut fn a l s).spd.arr = s.spd.arr := by
  unfold hostPut
  split
  · unfold setHostMem; split <;> rfl
  · rfl

theorem msixEvent_arr (fn vec : Nat) (s : State) : (msixEvent fn vec s).spd.arr = s.spd.arr := by
  unfold msixEvent
  split
  · rfl
  · split
    · split <;> rfl
    · exact hostPut_arr _ _ _ _

theorem signalReply_arr (n : Nat) (s : State) : (signalReply n s).spd.arr = s.spd.arr := by
  unfold signalReply
  dsimp only
  split
  · exact msixEvent_arr _ _ _
  · rfl

theorem ringReply_arr (n : Nat) (r : List Byte) (s : State) : (ringReply n r s).spd.arr = s.spd.arr := by
  change (hostPut _ _ _ (hostPut _ _ _ _)).spd.arr = _
  rw [hostPut_arr, hostPut_arr]

theorem pumpQueue_arr (n : Nat) (q : List (List Word)) : ∀ s : State, (pumpQueue n q s).spd.arr = s.spd.arr := by
  induction q with
  | nil => intro s; rfl
  | cons p q ih =>
    intro s
    unfold pumpQueue
    dsimp only
    split
    · rfl
    · rw [ih]
      split
      · rw [signalReply_arr, ringReply_arr]
      · exact ringReply_arr _ _ _

theorem ownerActs_arr (src st : Nat) (s : State) : (ownerActs src st s).spd.arr = s.spd.arr := by
  unfold ownerActs
  split <;> rfl

theorem reply_arr (src head tag st ap det r0 r1 r2 : Nat) (s : State) :
    (reply src head tag st ap det r0 r1 r2 s).spd.arr = s.spd.arr := by
  rw [← ownerActs_arr src st s]
  unfold reply
  dsimp only
  generalize ownerActs src st s = s
  split
  · split
    · rfl
    · unfold pumpLane
      rw [pumpQueue_arr]
      split
      · rw [signalReply_arr]; exact ringReply_arr _ _ _
      · exact ringReply_arr _ _ _
  · split
    · rfl
    · split
      · rfl
      · simp only [addLog_spd]

theorem replyWait_arr (src : Nat) (w : Waiter) (st det r0 r1 : Nat) (s : State) :
    (replyWait src w st det r0 r1 s).spd.arr = s.spd.arr := reply_arr _ _ _ _ _ _ _ _ _ _

theorem abortFaultedNow_arr (t k : Nat) (s : State) : (abortFaultedNow t k s).spd.arr = s.spd.arr := by
  unfold abortFaultedNow
  split <;> rfl

theorem startInst_arr (t k : Nat) (g : Trig) (b : Bool) (s : State) : (startInst t k g b s).spd.arr = s.spd.arr := by
  unfold startInst
  split
  · rfl
  · dsimp only
    have e : ∀ v : Tmpl, ∀ f g',
        (pollWaits 4 none (pollWaits 3 none (pollWaits 1 none (joinStart t k
          (modSeq (fun q => { q with order := q.order + 1 }) (modTmpl t f (modInst t k g' s))))))).spd.arr = s.spd.arr := by
      intro _ f g'
      rw [pollWaits_arr, pollWaits_arr, pollWaits_arr, joinStart_arr]
      exact (modTmpl_arr _ _ _).trans (modInst_arr _ _ _ _)
    rw [abortFaultedNow_arr]
    split
    · split
      · rw [replyWait_arr]; exact e ‹_› _ _
      · exact e ‹_› _ _
    · exact e ‹_› _ _

theorem dropJob_arr (t : Nat) (g : Trig) (d : Nat) (s : State) : (dropJob t g d s).spd.arr = s.spd.arr := by
  unfold dropJob
  split
  · split
    · exact replyWait_arr _ _ _ _ _ _ _
    · rfl
  · rfl

theorem fireTrigger_arr (t : Nat) (g : Trig) (s : State) : (fireTrigger t g s).spd.arr = s.spd.arr := by
  unfold fireTrigger
  split
  · rfl
  · split
    · rfl
    · split
      · rw [startInst_arr]; exact modTmpl_arr _ _ _
      · split
        · rw [dropJob_arr]; exact modTmpl_arr _ _ _
        · split
          · split
            · exact modTmpl_arr _ _ _
            · rw [dropJob_arr]; exact modTmpl_arr _ _ _
          · dsimp only
            rw [modTmpl_arr]
            have e : ∀ o : Option (Inst × Nat), (match o with
                | some o => wantAbort t o.2 18 (cnt R.seqTmplReplaced t 1 s)
                | none => s).spd.arr = s.spd.arr := by
              intro o
              cases o with
              | none => rfl
              | some o => exact wantAbort_arr _ _ _ _
            split
            · rw [dropJob_arr]; exact e _
            · exact e _

theorem fireCounter_arr (t : Nat) : ∀ (f : Nat) (s : State), (fireCounter t f s).spd.arr = s.spd.arr := by
  intro f
  induction f with
  | zero => intro s; rfl
  | succ f ih =>
    intro s
    unfold fireCounter
    split
    · split
      · rw [ih, modTmpl_arr, fireTrigger_arr]
      · rfl
    · rfl

/-- The sequencer's reaction to a changed counter leaves the scratchpad, and so every counter, as it is. -/
theorem counterChanged_arr (key : Nat) (s : State) : (counterChanged key s).spd.arr = s.spd.arr := by
  unfold counterChanged
  rw [pollWaits_arr]
  exact foldl_arr _ (fun _ _ => fireCounter_arr _ _ _) _ _

end Sys2Proof.Machine
end

