-- ==== Sys2Proof/Laws/Step.lean ====
section
/-! SUPPORT. What a run of several steps is, in terms of one step. -/

namespace Sys2Proof

/-- A run of one step more, of any machine: the step answers `t`, and the run goes on from there. -/
theorem run_succ_next (M : Host.Core) (k : Nat) (s t : M.State) (h : M.step s = .next t) :
    M.run (k + 1) s = M.run k t := by
  rw [Host.Core.run, h]

/-- The same of the block. -/
theorem core_run_succ (k : Nat) (s t : Machine.State) (h : Machine.step s = .next t) :
    core.run (k + 1) s = core.run k t :=
  run_succ_next core k s t h

end Sys2Proof
end

