-- ==== Sys2Proof/Tests/Slice0.lean ====
section
/-! SUPPORT. Tests: ill-formed operands are refused, small steps of commands, and for each statement a state and operands
that meet its hypotheses, clause by clause. -/

namespace Sys2Proof.Tests

set_option Elab.async false

open Sys2Proof Sys2Proof.Machine

/-! ### States the tests start from -/

/-- The next state of an outcome; the dead device for a stop. -/
def nextOf : Host.Outcome State Fault Refusal → State
  | .next t => t
  | _ => unpowered State.reset

/-- Right after reset: powered, out of every reset, the ROM about to boot. -/
def s0 : State := State.reset

/-- The isolation table of the tests: tenant 0 enabled at priority cap 7 with 4 windows, every millrace, context, template,
stream and core, 16 MiB of HBM and the rows of the first 8 slices. -/
def table0 : Tab Word :=
  [(0, 0x0004080F), (1, 0x00100000), (2, 0x02010000), (3, 0xFFFFFFFF), (4, 0xFFFFFFFF), (8, 0xFFFFFFFF), (9, 0xFFFFFFFF),
   (16, 0x0000000F), (24, 0x0000000F), (32, 0x3E8FA3E8), (33, 0x3E8FA3E8),
   (34, 0x3E8FA3E8), (41, 8), (57, 0x00020000)]

/-- Firmware runs and tenant 0 has its grants. -/
def fw : State :=
  { s0 with
    boot := { s0.boot with phase := 3 }
    sec := { s0.sec with table := table0, shadow := table0 } }

/-- Fields of the state changed at once. -/
def dead : State := { s0 with held := 1 }

/-! ### Operands that name nothing are refused -/

/-- A request that asks for nothing in particular. -/
def rq0 : SpdmReq :=
  { param := 0, offset := 0, length := 0, sign := false, body := []
    via := { mac := [], ip := [], src := 0, dst := 0, type := 5, eid := 0, own := 0, tag := 0 } }

/-- An 802.1AS Sync message. -/
def gm0 : GptpMsg := .sync 1000

/-- Bytes of zero. -/
def zeros (n : Nat) : List Byte := List.replicate n 0

/-- Commands with one operand that breaks one check. -/
def illFormed0 : List Instr :=
  [.hello (.lane 32 0), .hello (.lane 0 16), .hello (.mgmt 8 []), .capsRead (.lane 32 0), .capsRead (.lane 0 16), 
   .capsRead (.mgmt 8 []), .echo (.lane 32 0), .echo (.lane 0 16), .echo (.mgmt 8 []), .regionMap (.lane 32 0), 
   .regionMap (.lane 0 16), .regionMap (.mgmt 8 []), .regionUnmap (.lane 32 0), .regionUnmap (.lane 0 16), 
   .regionUnmap (.mgmt 8 []), .windowOpen (.lane 32 0), .windowOpen (.lane 0 16), .windowOpen (.mgmt 8 []), 
   .windowClose (.lane 32 0), .windowClose (.lane 0 16), .windowClose (.mgmt 8 []), .graphLoad (.lane 32 0), 
   .graphLoad (.lane 0 16), .graphLoad (.mgmt 8 []), .graphArm (.lane 32 0), .graphArm (.lane 0 16), 
   .graphArm (.mgmt 8 []), .graphDisarm (.lane 32 0), .graphDisarm (.lane 0 16), .graphDisarm (.mgmt 8 []), 
   .graphUnload (.lane 32 0), .graphUnload (.lane 0 16), .graphUnload (.mgmt 8 []), .jobSubmit (.lane 32 0), 
   .jobSubmit (.lane 0 16), .jobSubmit (.mgmt 8 []), .jobCancel (.lane 32 0), .jobCancel (.lane 0 16), 
   .jobCancel (.mgmt 8 []), .streamRearm (.lane 32 0), .streamRearm (.lane 0 16), .streamRearm (.mgmt 8 []), 
   .queuePush (.lane 32 0), .queuePush (.lane 0 16), .queuePush (.mgmt 8 []), .queuePop (.lane 32 0), 
   .queuePop (.lane 0 16), .queuePop (.mgmt 8 []), .sensorProfile (.lane 32 0), .sensorProfile (.lane 0 16), 
   .sensorProfile (.mgmt 8 []), .sensorSettings (.lane 32 0), .sensorSettings (.lane 0 16), 
   .sensorSettings (.mgmt 8 []), .streamStart (.lane 32 0), .streamStart (.lane 0 16), .streamStart (.mgmt 8 []), 
   .streamStop (.lane 32 0), .streamStop (.lane 0 16), .streamStop (.mgmt 8 [])]

/-- Commands with one operand that breaks one check. -/
def illFormed1 : List Instr :=
  [.txConfig (.lane 32 0), .txConfig (.lane 0 16), .txConfig (.mgmt 8 []), .sessionOpen (.lane 32 0), 
   .sessionOpen (.lane 0 16), .sessionOpen (.mgmt 8 []), .sessionClose (.lane 32 0), .sessionClose (.lane 0 16), 
   .sessionClose (.mgmt 8 []), .jobKey (.lane 32 0), .jobKey (.lane 0 16), .jobKey (.mgmt 8 []), 
   .statsRead (.lane 32 0), .statsRead (.lane 0 16), .statsRead (.mgmt 8 []), .logRead (.lane 32 0), 
   .logRead (.lane 0 16), .logRead (.mgmt 8 []), .fwBlock (.lane 32 0), .fwBlock (.lane 0 16), 
   .fwBlock (.mgmt 8 []), .fwCommit (.lane 32 0), .fwCommit (.lane 0 16), .fwCommit (.mgmt 8 []), 
   .fwConfirm (.lane 32 0), .fwConfirm (.lane 0 16), .fwConfirm (.mgmt 8 []), .fwStatus (.lane 32 0), 
   .fwStatus (.lane 0 16), .fwStatus (.mgmt 8 []), .packetWindowWrite 32 15 255 [], .packetWindowWrite 31 16 255 [], 
   .packetWindowWrite 31 15 256 [], .hostLaneConsWrite 32 15 0, .hostLaneConsWrite 31 16 0, 
   .hostLaneCfgWrite 32 15 0, .hostLaneCfgWrite 31 16 0, .modWindowEnd 32 15, .modWindowEnd 31 16, .regRead 8 0, 
   .regWrite 8 0 0, .registerWrite 33 16777215 0, .registerWrite 32 0x1000000 0, .rcRegisterRead 33 16777215, 
   .rcRegisterRead 32 0x1000000, .w1cRegisterWrite 33 16777215 0, .w1cRegisterWrite 32 0x1000000 0, 
   .mmioMisshapedAccess 33 16777215 0 true, .mmioMisshapedAccess 32 0x1000000 0 true, 
   .mmioHoleAccess 33 16777215 true, .mmioHoleAccess 32 0x1000000 true, .pwrTimeLoRead 33, .seqSluiceLastLoRead 33, 
   .camFsiLastLoRead 33 3, .camFsiLastLoRead 32 4, .secIsoTimeLoRead 33, .safCauseTimeLoRead 33, 
   .partitionClear 33 0, .spdArrValueWrite 33 0, .spdSlicePwrWrite 33 0]

/-- Commands with one operand that breaks one check. -/
def illFormed2 : List Instr :=
  [.bankPowerDownDone 64 15, .bankPowerDownDone 63 16, .bankPowerUpDone 64 15, .bankPowerUpDone 63 16, 
   .spdSliceCacheWrite 33 0, .cacheInv 33 0, .spdWheelCfgWrite 33 0, .mrqCfgWrite 33 0, .strCtxOwnerWrite 33 0, 
   .isoCommit 33 0, .credCommit 33 0, .pkgWindowWrite 33 65535 0, .pkgWindowWrite 32 0x10000 0, .pkgErase 33 0, 
   .pkgCommit 33 0, .csi2FrameStart 16 15 0 .good, .csi2FrameStart 15 16 0 .good, .csi2LineStart 16 15 0 .good, 
   .csi2LineStart 15 16 0 .good, .csi2LongPacket 16 15 0 [] .good true, .csi2LongPacket 15 16 0 [] .good true, 
   .embeddedData 16 15 [] .good true, .embeddedData 15 16 [] .good true, .csi2FrameEnd 16 15 0 .good, 
   .csi2FrameEnd 15 16 0 .good, .lineTimeout 64, .streamLoss 64, .lineLanded 64, .settingsWindowOpen 64, 
   .settingsWindowClose 64, .sensorTransferDone 64 true 0, .i2cStretchTimeout 64 0, .sensorIbi 16 0 0, 
   .fsyncOutAssert 8, .fsyncOutDeassert 8, .fsyncInEdge 4 true, .timerTrigger 256, .handleTrigger 1024, 
   .handleClaim 1024, .timeWaitExpiry 256 7 4095 true, .timeWaitExpiry 255 8 4095 true, 
   .timeWaitExpiry 255 7 4096 true, .gangStarveGuard 8, .icoreTask 4, .ispFrameRecord 4, .wpeResample 4 1, 
   .wpeResample 3 2, .wpeMeshInvert 4 1, .wpeMeshInvert 3 2, .pyeTask 4, .steTask 4, .ofeTask 4, .kpeDetect 4, 
   .kpeTrack 4, .kpeMatch 4, .todConv2d 64, .todMatmul 64, .todAttention 64, .todEltwise 64, .todAct 64]

/-- Commands with one operand that breaks one check. -/
def illFormed3 : List Instr :=
  [.todNorm 64, .todPool 64, .todResize 64, .todReduce 64, .todSoftmax 64, .todGather 64, .todScatter 64, 
   .todTransform 64, .todQuant 64, .todTopk 64, .todNms 64, .todArgmax 64, .streamCopy 256, .streamTensor 256, 
   .streamReadReturn 256 .good ⟨0, 255⟩, .streamReadReturn 255 .good ⟨0, 256⟩, .pcieCompletionTimeout 256 ⟨0, 255⟩, 
   .pcieCompletionTimeout 255 ⟨0, 256⟩, .publishEthernet 2, .ethRecordCommit 2, .ethFrameSent 3, .publishHostRing 2, 
   .publishCsi2Tx 2, .csi2TxCommit 2, .millracePushAccept 1024, .taskComplete 0x10100, .sluiceWindowEnd 512, 
   .instanceDrained 256 7, .instanceDrained 255 8, .windowWrite 32 0 0 [], .windowRead 32 0 0 0 true, 
   .windowWriteLanded 2048, .scrubRow 64 3 .none, .scrubRow 63 4 .none, .eccWriteback 64, .sliceIdleRepair 64, 
   .repairCopyDone 64, .wheelPoisonFill 64 63, .wheelPoisonFill 63 64, .goldenRunDone 33 0, .goldenRunDone 0x1000 0, 
   .goldenRunDone 0xC140 0, .goldenRunDone 0x4006 0, .sslSelect 256, .engineIdle 65536, .coreNap 65536, 
   .unitWakeDone 65536, .prewake 256, .prewakeExpire 256, .ptmRequest 2 true, .ptmResponse 2 0, .gptpMessage 2 gm0, 
   .ethArpRequest 2 (zeros 6) (zeros 4) (zeros 4), .ethArpRequest 1 (zeros 5) (zeros 4) (zeros 4), 
   .ethArpRequest 1 (zeros 6) (zeros 3) (zeros 4), .ethArpRequest 1 (zeros 6) (zeros 4) (zeros 3), 
   .ethNeighborSolicitation 3 (zeros 16) (zeros 16) (zeros 6), 
   .ethNeighborSolicitation 2 (zeros 15) (zeros 16) (zeros 6), 
   .ethNeighborSolicitation 2 (zeros 16) (zeros 15) (zeros 6), 
   .ethNeighborSolicitation 2 (zeros 16) (zeros 16) (zeros 5)]

/-- Commands with one operand that breaks one check. -/
def illFormed4 : List Instr :=
  [.ethIcmpEcho 3 true (zeros 6) (zeros 16) (zeros 16) [], .ethIcmpEcho 2 true (zeros 5) (zeros 16) (zeros 16) [], 
   .ethIcmpEcho 2 true (zeros 6) (zeros 15) (zeros 16) [], .ethIcmpEcho 2 true (zeros 6) (zeros 16) (zeros 15) [], 
   .ethRxDrop 2 [], .ethLinkChange 2 true, .flr 32, .perstAssert 2, .hotReset 2, .vfEnableClear 2, .linkDown 2, 
   .linkUp 2 5 8, .linkUp 1 0 8, .linkUp 1 6 8, .linkUp 1 5 3, .msixUnmask 32 1023, .msixUnmask 31 1024, 
   .doeDiscovery 2 0, .doeAbort 2, .getVersion (.doe 2) rq0, .getVersion (.mctp 2) rq0, 
   .getCapabilities (.doe 2) rq0, .getCapabilities (.mctp 2) rq0, .negotiateAlgorithms (.doe 2) rq0, 
   .negotiateAlgorithms (.mctp 2) rq0, .getDigests (.doe 2) rq0, .getDigests (.mctp 2) rq0, 
   .getCertificate (.doe 2) rq0, .getCertificate (.mctp 2) rq0, .challenge (.doe 2) rq0, .challenge (.mctp 2) rq0, 
   .getMeasurements (.doe 2) rq0, .getMeasurements (.mctp 2) rq0, .keyExchange (.doe 2) rq0, 
   .keyExchange (.mctp 2) rq0, .finish (.doe 2) rq0, .finish (.mctp 2) rq0, .endSession (.doe 2) rq0, 
   .endSession (.mctp 2) rq0, .heartbeat (.doe 2) rq0, .heartbeat (.mctp 2) rq0, .keyUpdate (.doe 2) rq0, 
   .keyUpdate (.mctp 2) rq0, .getEncapsulatedRequest (.doe 2) rq0, .getEncapsulatedRequest (.mctp 2) rq0, 
   .deliverEncapsulatedResponse (.doe 2) rq0, .deliverEncapsulatedResponse (.mctp 2) rq0, 
   .spdmUnsupportedRequest (.doe 2) 0 rq0, .spdmUnsupportedRequest (.mctp 2) 0 rq0, .sessionHandshakeTimeout 65536, 
   .functionResetDone 32, .mgtLinkChange true 3, .peerDelayRequest 2]

/-- Commands whose operands are the last the device has. -/
def atTheEdge0 : List Instr :=
  [.hello (.lane 31 15), .capsRead (.lane 31 15), .echo (.lane 31 15), .regionMap (.lane 31 15), 
   .regionUnmap (.lane 31 15), .windowOpen (.lane 31 15), .windowClose (.lane 31 15), .graphLoad (.lane 31 15), 
   .graphArm (.lane 31 15), .graphDisarm (.lane 31 15), .graphUnload (.lane 31 15), .jobSubmit (.lane 31 15), 
   .jobCancel (.lane 31 15), .streamRearm (.lane 31 15), .queuePush (.lane 31 15), .queuePop (.lane 31 15), 
   .sensorProfile (.lane 31 15), .sensorSettings (.lane 31 15), .streamStart (.lane 31 15), 
   .streamStop (.lane 31 15), .txConfig (.lane 31 15), .sessionOpen (.lane 31 15), .sessionClose (.lane 31 15), 
   .jobKey (.lane 31 15), .statsRead (.lane 31 15), .logRead (.lane 31 15), .fwBlock (.lane 31 15), 
   .fwCommit (.lane 31 15), .fwConfirm (.lane 31 15), .fwStatus (.lane 31 15), .packetWindowWrite 31 15 255 [], 
   .hostLaneConsWrite 31 15 0, .hostLaneCfgWrite 31 15 0, .modWindowEnd 31 15, .regRead 7 0, .regWrite 7 0 0, 
   .registerWrite 32 16777215 0, .rcRegisterRead 32 16777215, .w1cRegisterWrite 32 16777215 0, 
   .mmioMisshapedAccess 32 16777215 0 true, .mmioHoleAccess 32 16777215 true, .pwrTimeLoRead 32, 
   .seqSluiceLastLoRead 32, .camFsiLastLoRead 32 3, .secIsoTimeLoRead 32, .safCauseTimeLoRead 32, 
   .partitionClear 32 0, .spdArrValueWrite 32 0, .spdSlicePwrWrite 32 0, .bankPowerDownDone 63 15, 
   .bankPowerUpDone 63 15, .spdSliceCacheWrite 32 0, .cacheInv 32 0, .spdWheelCfgWrite 32 0, .mrqCfgWrite 32 0, 
   .strCtxOwnerWrite 32 0, .isoCommit 32 0, .credCommit 32 0, .pkgWindowWrite 32 65535 0, .pkgErase 32 0]

/-- Commands whose operands are the last the device has. -/
def atTheEdge1 : List Instr :=
  [.pkgCommit 32 0, .csi2FrameStart 15 15 0 .good, .csi2LineStart 15 15 0 .good, 
   .csi2LongPacket 15 15 0 [] .good true, .embeddedData 15 15 [] .good true, .csi2FrameEnd 15 15 0 .good, 
   .lineTimeout 63, .streamLoss 63, .lineLanded 63, .settingsWindowOpen 63, .settingsWindowClose 63, 
   .sensorTransferDone 63 true 0, .i2cStretchTimeout 63 0, .sensorIbi 15 0 0, .fsyncOutAssert 7, 
   .fsyncOutDeassert 7, .fsyncInEdge 3 true, .timerTrigger 255, .handleTrigger 1023, .handleClaim 1023, 
   .timeWaitExpiry 255 7 4095 true, .gangStarveGuard 7, .icoreTask 3, .ispFrameRecord 3, .wpeResample 3 1, 
   .wpeMeshInvert 3 1, .pyeTask 3, .steTask 3, .ofeTask 3, .kpeDetect 3, .kpeTrack 3, .kpeMatch 3, .todConv2d 63, 
   .todMatmul 63, .todAttention 63, .todEltwise 63, .todAct 63, .todNorm 63, .todPool 63, .todResize 63, 
   .todReduce 63, .todSoftmax 63, .todGather 63, .todScatter 63, .todTransform 63, .todQuant 63, .todTopk 63, 
   .todNms 63, .todArgmax 63, .streamCopy 255, .streamTensor 255, .streamReadReturn 255 .good ⟨0, 255⟩, 
   .pcieCompletionTimeout 255 ⟨0, 255⟩, .publishEthernet 1, .ethRecordCommit 1, .ethFrameSent 2, .publishHostRing 1, 
   .publishCsi2Tx 1, .csi2TxCommit 1, .millracePushAccept 1023]

/-- Commands whose operands are the last the device has. -/
def atTheEdge2 : List Instr :=
  [.taskComplete 65791, .sluiceWindowEnd 511, .instanceDrained 255 7, .windowWrite 31 0 0 [], 
   .windowRead 31 0 0 0 true, .windowWriteLanded 2047, .scrubRow 63 3 .none, .eccWriteback 63, .sliceIdleRepair 63, 
   .repairCopyDone 63, .wheelPoisonFill 63 63, .goldenRunDone 0xC100 0, .sslSelect 255, .engineIdle 65535, 
   .coreNap 65535, .unitWakeDone 65535, .prewake 255, .prewakeExpire 255, .ptmRequest 1 true, .ptmResponse 1 0, 
   .gptpMessage 1 gm0, .ethArpRequest 1 (zeros 6) (zeros 4) (zeros 4), 
   .ethNeighborSolicitation 2 (zeros 16) (zeros 16) (zeros 6), 
   .ethIcmpEcho 2 true (zeros 6) (zeros 16) (zeros 16) [], .ethRxDrop 1 [], .ethLinkChange 1 true, .flr 31, 
   .perstAssert 1, .hotReset 1, .vfEnableClear 1, .linkDown 1, .linkUp 1 5 8, .msixUnmask 31 1023, 
   .doeDiscovery 1 0, .doeAbort 1, .getVersion (.mctp 1) rq0, .getCapabilities (.mctp 1) rq0, 
   .negotiateAlgorithms (.mctp 1) rq0, .getDigests (.mctp 1) rq0, .getCertificate (.mctp 1) rq0, 
   .challenge (.mctp 1) rq0, .getMeasurements (.mctp 1) rq0, .keyExchange (.mctp 1) rq0, .finish (.mctp 1) rq0, 
   .endSession (.mctp 1) rq0, .heartbeat (.mctp 1) rq0, .keyUpdate (.mctp 1) rq0, 
   .getEncapsulatedRequest (.mctp 1) rq0, .deliverEncapsulatedResponse (.mctp 1) rq0, 
   .spdmUnsupportedRequest (.mctp 1) 0 rq0, .sessionHandshakeTimeout 65535, .functionResetDone 31, 
   .mgtLinkChange true 2, .peerDelayRequest 1]

theorem test_ill_formed_refused_0 : illFormed0.all (fun c => !c.wf) = true := by decide

theorem test_ill_formed_refused_1 : illFormed1.all (fun c => !c.wf) = true := by decide

theorem test_ill_formed_refused_2 : illFormed2.all (fun c => !c.wf) = true := by decide

theorem test_ill_formed_refused_3 : illFormed3.all (fun c => !c.wf) = true := by decide

theorem test_ill_formed_refused_4 : illFormed4.all (fun c => !c.wf) = true := by decide

theorem test_edge_accepted_0 : atTheEdge0.all Instr.wf = true := by decide

theorem test_edge_accepted_1 : atTheEdge1.all Instr.wf = true := by decide

theorem test_edge_accepted_2 : atTheEdge2.all Instr.wf = true := by decide

theorem test_ill_formed_stops : exec (.bankPowerDownDone 64 0) s0 = .fault .noSuchObject := rfl

theorem test_dead_block_ignores : exec (.bankPowerDownDone 63 15) dead = .next dead := rfl


/-! ### Witnesses: the queue, resets, boot, time -/

/-- Two commands wait. -/
def queued : State := { s0 with pending := [.powerOff, .sslNop] }

theorem witness_FrontCommandRuns : queued.pending = .powerOff :: [.sslNop] ∧ s0.pending = [] := by decide

theorem test_front_command_runs : (match step queued with | .next t => t.pending | _ => []) = [.sslNop] := by decide

theorem witness_StopsExactlyOnIllFormedOperands :
    (Instr.scrubRow 63 3 .double).wf = true ∧ (Instr.scrubRow 63 4 .double).wf = false := by decide

theorem witness_WellFormedQueueRunsThrough : queueOk queued = true := by decide

theorem witness_QueueStaysWellFormed :
    queueOk queued = true ∧ step queued = .next (unpowered { queued with pending := [.sslNop] }) := ⟨by decide, rfl⟩

theorem witness_DeadBlockStaysAsItIs :
    alive dead = false ∧ alwaysOn .sslNop = false ∧ Instr.sslNop.wf = true ∧
    (let q := { dead with pending := [.sslNop, .supplyWarn] }
     alive q = false ∧ queueOk q = true ∧ q.pending.all (fun c => !alwaysOn c) = true) := by decide

/-- Its thermal trip is due. -/
def tripped : State := { s0 with now := 2000000, pwr := { s0.pwr with tripAt := some 2000000 } }

theorem witness_ResetsAndPowerCycles :
    (s0.powered = true ∧ s0.held = 0) ∧ (dead.powered = true ∧ dead.held ≠ 0 ∧ bit dead.held 0 = true) ∧
    (tripped.powered = true ∧ tripped.held = 0 ∧ tripped.pwr.tripAt = some 2000000) := by decide

theorem test_thermtrip_holds :
    (let t := nextOf (exec .thermtripAssert tripped); (t.held, t.now, t.pwr.thermtrip)) =
      (4, 2000000, true) := by decide

theorem witness_BootStartsAndSelfTestEnds :
    ((unpowered s0).powered = false ∧ s0.powered = true ∧ s0.held = 0) ∧
    (dead.powered = true ∧ dead.held ≠ 0 ∧ dead.held - (dead.held &&& 1) = 0) ∧
    (let s := { dead with held := 2 }; s.held ≠ 0 ∧ s.held - (s.held &&& 2) = 0) ∧
    (let s := { dead with held := 3 }; s.held - (s.held &&& 1) ≠ 0 ∧ s.held - (s.held &&& 2) ≠ 0) ∧
    (let s := { s0 with boot := { s0.boot with phase := 2 } }
     alive s = true ∧ s.boot.phase = 2 ∧ s.saf.selfTested = false) ∧
    (alive fw = true ∧ fw.boot.phase ≠ 2) := by decide

theorem test_reset_release_boots :
    (let t := nextOf (exec .resetRelease dead); (t.held, t.boot.phase)) = (0, 2) := by decide +kernel

/-- A trial that has run 600 s. -/
def trial : State := { fw with now := 600000000000, nv := { fw.nv with updState := 3 } }

theorem witness_BootKeepsTheSvnFusesAndTrialsExpire :
    (s0.boot.phase = 0 ∧ s0.nv.loaderOk = true) ∧
    (let s := { s0 with nv := { s0.nv with loaderOk := false } }; s.boot.phase = 0 ∧ s.nv.loaderOk = false) ∧
    (alive trial = true ∧ trial.nv.updState = 3 ∧ trial.boot.phase = 3) ∧ (alive fw = true ∧ fw.nv.updState ≠ 3) ∧
    (let s := { fw with nv := { fw.nv with rec1 := { fw.nv.rec1 with seq := fw.nv.rec0.seq + 1 } } }
     s.nv.rec0.seq < s.nv.rec1.seq) := by decide

theorem test_trial_count_stored :
    (let t := nextOf (exec .trialCountStore trial); (t.nv.runSeconds, t.boot.trialStored)) =
      (10, 10000000000) := by decide

theorem witness_DeviceTimeAdvances :
    (s0.powered = true ∧ registersOk s0 ∧ R.pwrEnv ≠ R.pwrTimeCtrl ∧ R.pwrEnv < 0x1000000) ∧
    (unpowered s0).powered = false ∧ (dead.powered = true ∧ alive dead = false) :=
  ⟨⟨rfl, rfl, by decide, by decide⟩, rfl, rfl, rfl⟩

theorem test_upset_struck :
    (let t := strike [(5, .double)] fw; (t.spd.upsets, t.mem)) = ([(5, .double)], fw.mem) := by
  decide +kernel

theorem test_tick_in_sleep :
    (let t := nextOf (exec .deviceTimeTick { s0 with pwr := { s0.pwr with st := .sleep } }); t.now) = 40 := by
  decide +kernel

/-- Time steps are permitted, MAC 0 up with 802.1AS. -/
def timed : State :=
  modMac 0 (fun q => { q with link := true }) (rput R.ethMacCfg 0 0x11 (rput R.pwrTimeCtrl 0 0x200 fw))

theorem witness_ClockDiscipline :
    (discipline 2000000 timed).now ≠ timed.now ∧
    ((discipline 1000000 timed).now = timed.now ∧ (1000000 : Int) ≤ 1000000) ∧
    (registersOk timed ∧ withinLock 1001 = false ∧ srcLive fw = false) ∧
    (alive timed = true ∧ bit (rget timed R.ethMacCfg 0) 4 = true ∧ macUp timed 0 = true ∧
      (timed.now : Int) - bits (rget timed R.ethPhyDly 0) 31 16 = (0 : Int)) ∧
    (let s := rput R.ethMacCfg 0 0x01 timed; macUp s 0 = true ∧ bit (rget s R.ethMacCfg 0) 4 = false) ∧
    macUp fw 1 = false ∧
    (let s := modMac 0 (fun q => { q with sending := some [0] }) timed
     macUp s 0 = true ∧ tkeys 0 s.macs = true ∧ (macSt s 0).sending ≠ none) ∧
    (tkeys 0 timed.macs = true ∧ (macSt timed 0).sending = none ∧ (macSt timed 0).ahead = []) := by
  unfold registersOk; decide +kernel

theorem test_clock_steps_forward : (discipline 2000002 timed).now = 2000000 := by decide +kernel

/-! ### Power -/

/-- Envelope P1 is asked for, from P4. -/
def rising : State := rput R.pwrEnv 0 0 { s0 with pwr := { s0.pwr with env := 3 } }

theorem witness_EnvelopesChange :
    (rising.pwr.change = 0 ∧ effEnv rising < rising.pwr.env ∧ envClock (effEnv rising) ≠ envClock rising.pwr.env) ∧
    (let s := rput R.pwrEnv 0 3 s0
     s.pwr.change = 0 ∧ s.pwr.env < effEnv s ∧ envClock (effEnv s) ≠ envClock s.pwr.env) ∧
    (let s := rput R.pwrEnv 0 0 s0
     s.pwr.change = 0 ∧ effEnv s ≠ s.pwr.env ∧ envClock (effEnv s) = envClock s.pwr.env) ∧
    (let s := { s0 with pwr := { s0.pwr with change := 2, envTarget := 0 } }
     alive s = true ∧ s.pwr.change = 2 ∧ s.pwr.envTarget < s.pwr.env) ∧
    (let s := { s0 with pwr := { s0.pwr with change := 2, envTarget := 3 } }
     alive s = true ∧ s.pwr.change = 2 ∧ s.pwr.env < s.pwr.envTarget) ∧
    (let s := { s0 with pwr := { s0.pwr with pmbusBusy := true, pmbusFails := 1 } }
     alive s = true ∧ s.pwr.pmbusBusy = true ∧ s.pwr.pmbusFails < 2) ∧
    (let s := { s0 with pwr := { s0.pwr with pmbusBusy := true, pmbusFails := 2 } }
     alive s = true ∧ s.pwr.pmbusBusy = true ∧ 2 ≤ s.pwr.pmbusFails) ∧
    (alive s0 = true ∧ s0.pwr.pmbusBusy = false) ∧ s0.pwr.sag = false ∧
    (let s := { s0 with pwr := { s0.pwr with sag := true } }; alive s = true ∧ s.pwr.sag = true) := by decide +kernel

theorem witness_PowerAndTemperature :
    alive s0 = true ∧
    (let t := nextOf (exec (.powerMeasure 100000000) s0)
     envPower (effEnv s0) < powerAvg t.pwr ∧ t.pwr.duty = 15) ∧
    (let t := nextOf (exec (.powerMeasure 1000) { s0 with pwr := { s0.pwr with duty := 15 } })
     powerAvg t.pwr * 100 < envPower (effEnv s0) * 95 ∧ t.pwr.duty = 16) ∧
    (let t := nextOf (exec (.powerMeasure (envPower (effEnv s0))) s0)
     powerAvg t.pwr ≤ envPower (effEnv s0) ∧ envPower (effEnv s0) * 95 ≤ powerAvg t.pwr * 100) := by decide +kernel

theorem test_thermal_step_down :
    (let t := nextOf (exec (.thermalStepDown 105) s0); t.pwr.thermal) = 1 ∧
    (let t := nextOf (exec (.thermalStepDown 104) s0); t.pwr.thermal) = 0 := by decide +kernel

/-- Naps are on after 5 µs and the device may sleep. -/
def sleepy : State := rput R.pwrSleepCfg 0 0x00050001 { s0 with now := 86400000000000 }

/-- N-core 63 holds accumulators of tenant 32 from a task's last TOD; `saved` says whether to rows. -/
def accHeld (saved : Option Nat) : State :=
  let a : Acc := {
    tmpl := 0
    slot := 0
    seq := 0
    node := 0
    stripe := 0
    final := true
    shape := []
    split := 0
    gang := 1
    vals := []
    row := 0
    saved := saved }
  { sleepy with accs := [(64 * 63 + 32, some a)] }

theorem witness_UnitsFenceIdleNapAndWake :
    (alive s0 = true ∧ s0.now < (s0.pwr.ceWindow + 1) * 86400000000000) ∧
    (alive sleepy = true ∧ (sleepy.pwr.ceWindow + 1) * 86400000000000 ≤ sleepy.now) ∧
    bits (rget { s0 with regs := [(R.pwrSleepCfg, 1)] } R.pwrSleepCfg 0) 31 16 = 0 ∧
    (0 < bits (rget sleepy R.pwrSleepCfg 0) 31 16 ∧ (∀ k < 33, heldAcc sleepy 63 k = none) ∧ unitOf 0xFE0 < 0x4000 ∧
      bits (unitOf 0xFE0) 13 6 = 63) ∧
    ((heldAcc (accHeld (some 0)) 63 32).map (fun a => a.saved) = some (some 0)) ∧
    ((heldAcc (accHeld none) 63 32).map (fun a => a.saved) = some none ∧ alive (accHeld none) = true) ∧
    s0.pwr.waking.contains 0x4003 = false ∧
    ({ s0 with pwr := { s0.pwr with waking := [0x4003] } } : State).pwr.waking.contains 0x4003 = true ∧
    (0 < s0.nv.spareNode ∧ ({ s0 with nv := { s0.nv with spareNode := 0 } } : State).nv.spareNode = 0) := by decide +kernel

/-- A template with a TIMER trigger at 1 ms. -/
def timerTmpl : Tmpl :=
  { tenant := 0, trigKind := 3, policy := 0, trigObj := 0, param0 := 1000, param1 := 0, prewakeLead := 100, coreSets := [15],
    nodes := [], edges := [], nodeBase := 0, edgeBase := 0, armed := true, threshold := 0, nextFire := 1000000, nextSeq := 1,
    pending := [], skipped := false, fresh := true, slots := [instFree, instFree], ended := [], pubSeq := [], doomed := false,
    prewoken := 0 }

/-- Template 255 is loaded, with the timer trigger. -/
def withTimer : State := putTmpl 255 (some timerTmpl) fw

theorem witness_SleepAndPrewake :
    (let s := { sleepy with pwr := { sleepy.pwr with idleSince := some 0 } }; alive s = true ∧ sleepReady s = true) ∧
    (let s := { s0 with pwr := { s0.pwr with st := .waking } }; alive s = true ∧ s.pwr.st = .waking) ∧
    s0.pwr.st ≠ .waking ∧
    (alive withTimer = true ∧ tmplAt withTimer 255 = some timerTmpl ∧ predicted withTimer timerTmpl = some 1000000) ∧
    tmplAt withTimer 254 = none := by decide +kernel

theorem test_sleep_entered :
    (let t := nextOf (exec .sleepEntry { sleepy with pwr := { sleepy.pwr with idleSince := some 0 } }); t.pwr.st) = .sleep := by decide +kernel

/-! ### Safety -/

/-- Out of safe state and ready, in check interval 1. -/
def ready : State :=
  { fw with
    now := 40000000
    saf := { fw.saf with
      safe := false, ready := true, cause := 0, safeN := true, selfTested := true, intervals := 1, intEnd := 33300000 } }

theorem witness_SafeStateKeepsItsFirstCause :
    ready.saf.safe = false ∧ s0.saf.cause = 0x0A ∧
    (let s := enterSafe 0x08 0xC2C0 ready; s.saf.safe = true ∧ s.saf.cause ≠ 0x0A) := by decide +kernel

theorem test_lower_cause_of_the_same_instant :
    (enterSafe 0x03 0xC000 (enterSafe 0x08 0xC2C0 ready)).saf.cause = 0x03 := by decide +kernel

theorem witness_MonitorsAndHeartbeat : alive ready = true ∧ (255 : Nat) < 256 := by decide

theorem test_heartbeat_toggles :
    (let t := nextOf (exec .safeHbToggle ready); t.saf.hb) = true := by decide

/-- A golden run of warp engine 0 of V-core 3 is under way. -/
def golden : State := { modEng 0x40C3 (fun x => { x with running := some 0 }) ready with now := 20000000 }

theorem witness_ChecksOfTheEngines :
    (alive s0 = true ∧ s0.saf.intervals = 0) ∧
    (alive ready = true ∧ ready.saf.intervals ≠ 0 ∧ ready.saf.intEnd ≤ ready.now ∧ ready.saf.slept = false ∧
      ready.pwr.st ≠ .sleep) ∧
    (let s := modEng 0x40C3 (fun x => { x with passed := true }) ready
     engAvail s 0x40C3 = true ∧ (engSt s 0x40C3).fenced = false ∧ (engSt s 0x40C3).passed = true) ∧
    (engAvail ready 0x40C3 = true ∧ (engSt ready 0x40C3).fenced = false ∧ (engSt ready 0x40C3).passed = false) ∧
    (engSt (modEng 0x40C3 (fun x => { x with fenced := true }) ready) 0x40C3).fenced = true ∧
    (goldenUnit 0x40C3 = true ∧ (engSt ready (goldenName 0x40C3).1).running = none) ∧
    (alive golden = true ∧ (engSt golden (goldenName 0x40C3).1).running = some 0 ∧ golden.pwr.waking.contains 0x40C3 = false) ∧
    ((0 : Nat) = intervalAt golden ∧ (1 : Nat) ≠ intervalAt golden) := by
  decide +kernel

theorem test_golden_run_passes :
    (let t := nextOf (exec (.goldenRunDone 0x40C3 0) golden); (engSt t 0x40C3).passed) = true := by
  decide +kernel

/-- A frame of the Safety Status Link: command bits and the CRC. -/
def frameOf (v : Nat) : List Bool := (List.range 32).map (fun i => bit (v * 256 + crc8 v) (31 - i))

theorem witness_BadSafetyLinkFramesOnlyCount :
    alive ready = true ∧ (zeros 31).length ≠ 32 ∧
    (∀ v ∈ [0, 0x020000, 0x010000 + 255, 0x030000], (frameOf v).length = 32 ∧
      crc8 (frameVal (frameOf v) / 256) = frameVal (frameOf v) % 256 ∧ frameVal (frameOf v) / 256 = v) := by
  decide +kernel

theorem witness_MonitorsAndHeartbeat_reserved_arguments :
    alive ready = true ∧
    (∀ v ∈ [1, 0x00FFFF, 0x010100, 0x01FFFF, 0x020001, 0x02FFFF], (frameOf v).length = 32 ∧
      crc8 (frameVal (frameOf v) / 256) = frameVal (frameOf v) % 256 ∧ frameVal (frameOf v) / 256 = v ∧
      ((0 < v ∧ v < 0x010000) ∨ (0x010100 ≤ v ∧ v < 0x020000) ∨ (0x020000 < v ∧ v < 0x030000))) := by decide +kernel

/-! ### Registers -/

theorem witness_PrivilegedRegisterWrites :
    alive fw = true ∧ reaches fw 32 = true ∧ prompt fw = true ∧ R.pwrTimeCtrl % 4 = 0 ∧ R.pwrTimeCtrl < 0x1000000 ∧
    (match placeOf 32 R.pwrTimeCtrl with | .reg d n => d.off == R.pwrTimeCtrl && n == 0 | _ => false) = true ∧
    seesRegs fw 0 = true ∧ tkeys 0 fw.regs = true ∧
    (match placeOf 32 R.pwrSleepCfg with | .reg d n => d.off == R.pwrSleepCfg && n == 0 | _ => false) = true ∧
    privRegs.contains R.pwrSleepCfg = true := by decide +kernel

theorem test_host_may_not_write_time_ctrl :
    (let t := nextOf (exec (.registerWrite 0 R.pwrTimeCtrl 1) fw)
     (rget t R.pwrTimeCtrl 0, rget t R.hostFnWrDenied 0)) = (0, 1) := by decide +kernel

theorem test_management_writes_time_ctrl :
    (let t := nextOf (exec (.registerWrite 32 R.pwrTimeCtrl 0x201) fw); rget t R.pwrTimeCtrl 0) = 0x201 := by
  decide +kernel

theorem witness_RegistersReadBack :
    tkeys 0 s0.regs = true ∧ R.pwrEnv < 0x1000000 ∧ ¬ (R.pwrEnv = R.safCfg ∧ (0 : Nat) = 0) ∧
    (∀ rq ∈ [0, 32], alive fw = true ∧ seesRegs fw rq = true ∧ prompt fw = true ∧ tkeys 0 fw.regs = true) ∧
    (privileged fw 32 = true ∧ privileged fw 0 = false ∧ streamGranted fw 1 0 = false) ∧
    (∀ off ∈ [R.safStat, R.pwrStat, R.camStreamStat], off % 4 = 0 ∧ off < 0x1000000 ∧
      (match placeOf 32 off with | .reg d n => d.off == off && n == 0 && d.w1c != 0 | _ => false) = true) ∧
    (match placeOf 0 R.camStreamStat with
      | .reg d n => d.off == R.camStreamStat && streamGranted fw 0 (objOf fw 0 d n) | _ => false) = true ∧
    (∀ off ∈ [R.seqStaleCnt, R.safEngFail, R.camPortUnclaimed + 64 * 15, R.camFsoCtrl + 16 * 7], off % 4 = 0 ∧ off < 0x1000000 ∧
      (match placeOf 0 off with
        | .reg d n => (d.rc != 0 && d.off != R.seqObsMaxdepth) && readable fw 0 d (objOf fw 0 d n)
        | _ => false) = true) ∧
    (match placeOf 0 R.mgtAuthFail with | .reg d n => !readable fw 0 d (objOf fw 0 d n) | _ => false) = true ∧
    (reaches fw 15 = true ∧ (15 : Nat) < 16) := by decide +kernel

theorem test_lane_without_ring_read :
    (let s := modLane (16 * 15 + 15) (fun l => { l with noring := 5 }) fw
     let t := nextOf (exec (.rcRegisterRead 15 0xF114) s); (t.out, (laneSt t (16 * 15 + 15)).noring)) =
      ([.data 15 0x00050020], 0) := by decide +kernel

theorem test_read_to_clear :
    (let s := rput R.seqStaleCnt 0 7 fw
     let t := nextOf (exec (.rcRegisterRead 0 R.seqStaleCnt) s); (t.out, rget t R.seqStaleCnt 0)) = ([.data 0 7], 0) := by
  decide +kernel

theorem witness_OddAccessesAreCounted :
    (alive fw = true ∧ reaches fw 15 = true ∧ (0xFFFFFF : Nat) < 0x1000000 ∧ (8 ≠ 4 ∨ 0xFFFFFF % 4 ≠ 0)) ∧
    (prompt fw = true ∧ 0xFFFFFC % 4 = 0 ∧ placeOf 15 0xFFFFFC = .hole) ∧
    (inPacketWindow 31 0xFF = true ∧ inPacketWindow 0 0xC0F0FE = true ∧ inPacketWindow 31 0x100 = false) ∧
    (let s := { fw with pwr := { fw.pwr with st := .waking } }
     alive s = true ∧ reaches s 32 = true ∧ s.pwr.st = .waking ∧ R.pwrEnv % 4 = 0) ∧
    (let s := { fw with pwr := { fw.pwr with st := .sleep } }
     alive s = true ∧ reaches s 15 = true ∧ s.pwr.st = .sleep ∧ wakingWrite 0 R.pwrEnv = true ∧
     wakingWrite 15 R.safCfg = false) ∧
    ((31 : Nat) < 33 ∧ reaches fw 31 = false) := by decide +kernel

theorem test_misshaped_read :
    (let t := nextOf (exec (.mmioMisshapedAccess 15 0x480100 8 false) fw)
     (t.out, rget t R.hostFnMmioShape 15)) = ([.data 15 0xFFFFFFFF], 1) := by decide +kernel

theorem witness_TimeReads :
    (∀ rq ∈ [0, 15, 32], alive fw = true ∧ reaches fw rq = true ∧ prompt fw = true ∧ rq < 33) ∧
    (∀ rq ∈ [0, 32], seesRegs fw rq = true) ∧ (3 : Nat) < 4 ∧ tkeys 0 fw.sel = true := by decide +kernel

/-- Requester 0 has selected arrival counter 255 of N-core 3. -/
def arrSel : State := selPut 0 R.spdArrSel 0x3FF fw

theorem witness_ScratchpadArrivalAndPower :
    (alive arrSel = true ∧ seesRegs arrSel 0 = true ∧ prompt arrSel = true) ∧
    (arrExists (selGet arrSel 0 R.spdArrSel) = true ∧ holdsShare arrSel 0 0 3 = true) ∧
    tkeys 0 arrSel.spd.arr = true ∧
    (let may := fun (rq new : Nat) => (banksChanged (rget fw R.spdSlicePwr 0) new).all
        (fun b => rowsRight fw rq (bankRow 0 b) 1024) &&
        !(banksChanged (rget fw R.spdSlicePwr 0) new).any (fun b => bit (rget fw R.spdSlicePwr 0) b && cacheBank fw 0 b)
     may 32 0x7FFF = true ∧ may 15 0x7FFF = false ∧ seesRegs fw 32 = true) := by decide +kernel

theorem test_arrival_counter_set :
    (let t := nextOf (exec (.spdArrValueWrite 0 0xFFFFFFFF) arrSel)
     (tget 0 t.spd.arr 0x3FF, tget 0 (arrAdd 0x3FF 1 t).spd.arr 0x3FF)) = (0xFFFFFFFF, 0) := by decide +kernel

/-- Requester 0 has selected wheel 63 of core 7; it is enabled. -/
def wheelOn : State := rput R.spdWheelCfg 16135 1 (selPut 0 R.spdWheelSel 16135 fw)

/-- Partition 31 is of stream 5, and requester 0 has selected it, millrace 1023 and stream context 255. -/
def owned : State :=
  selPut 0 R.strCtxSel 255 (selPut 0 R.mrqSel 1023 (selPut 0 R.kpePartSel 31 (rput R.kpePartCtrl 31 (5 * 8) fw)))

theorem witness_CachesWheelsAndOwners :
    (alive fw = true ∧ seesRegs fw 0 = true ∧ prompt fw = true) ∧
    (let s := rput R.spdWheelSize 16135 0x10004 (selPut 0 R.spdWheelSel 16135 fw)
     bit (rget s R.spdWheelCfg 16135) 0 = false ∧ wheelRight s 0 16135 0 4 = true ∧ wheelSizes 0 4 1 = true) ∧
    (let s := selPut 0 R.spdWheelSel 16383 fw
     wheelRight s 0 16383 (bits (rget s R.spdWheelCfg 16383) 29 16) (bits (rget s R.spdWheelSize 16383) 14 0) = false) ∧
    (rowsRight fw 32 (bankRow 0 8) (8 * 1024) = true ∧ bits (8 : Nat) 3 0 ≤ 8 ∧ 8 < bits (9 : Nat) 3 0) ∧
    (wheelBusy wheelOn 16135 = false ∧ (let w := { wheelSt wheelOn 16135 with pNode := some 7 }
      wheelEn (putWheel 16135 w wheelOn) 16135 = true)) ∧
    (bit (rget wheelOn R.spdWheelCfg 16135) 0 = true ∧
      wheelRight wheelOn 0 16135 (bits (rget wheelOn R.spdWheelCfg 16135) 29 16)
        (bits (rget wheelOn R.spdWheelSize 16135) 14 0) = true ∧
      bit (0 : Word).toNat 0 = false ∧ bits (0 : Word).toNat 29 16 = bits (rget wheelOn R.spdWheelCfg 16135) 29 16) ∧
    (let c := rget owned R.kpePartCtrl 31
     alive owned = true ∧ seesRegs owned 0 = true ∧ prompt owned = true ∧ selGet owned 0 R.kpePartSel = 31 ∧
     streamGranted owned 0 (bits c 8 3) = true ∧ partBusy owned 31 = false ∧ bits (41 : Word).toNat 8 3 = bits c 8 3 ∧
     bit c 0 = false ∧ bit (41 : Word).toNat 0 = true ∧ partClash owned 31 = false) ∧
    (seesRegs fw 0 = true ∧ mrqGranted s0 0 0 = false) ∧
    (mrqGranted owned 0 1023 = true ∧ bit (rget owned R.mrqCfg 1023) 0 = false) ∧
    (let s := rput R.mrqCfg 1023 1 owned
     mrqGranted s 0 1023 = true ∧ bit (rget s R.mrqCfg 1023) 0 = true ∧
     (0 : Word).toNat &&& 0xFF0002 = rget s R.mrqCfg 1023 &&& 0xFF0002 ∧
     (2 : Word).toNat &&& 0xFF0002 ≠ rget s R.mrqCfg 1023 &&& 0xFF0002) ∧
    selGet owned 0 R.strCtxSel = 255 := by decide +kernel

theorem test_wheel_disabled :
    (let t := nextOf (exec (.spdWheelCfgWrite 0 0) wheelOn); rget t R.spdWheelCfg 16135) = 0 := by decide +kernel

/-- A commit of the isolation table is pending. -/
def committing : State := { fw with sec := { fw.sec with pending := true } }

/-- The next package slot is erased and written. -/
def erased : State := { fw with nv := { fw.nv with pkgErased := [1] } }

/-- An erase is under way. -/
def erasing : State := { fw with boot := { fw.boot with pkgBusy := 1 } }

/-- Function 0 is the host's owner of the device. -/
def hostRuled : State := { fw with sec := { fw.sec with hostOwner := true, shadow := [] } }

theorem witness_SecurityRegisters :
    (alive fw = true ∧ prompt fw = true ∧ fw.sec.pending = false) ∧ (seesRegs fw 0 = true ∧ privileged fw 0 = false) ∧
    (privileged hostRuled 0 = true ∧ seesRegs hostRuled 0 = true ∧ bit (4 : Word).toNat 2 = hostRuled.sec.hostOwner ∧
      hostRuled.sec.pending = false ∧ isoCheck hostRuled = none ∧ bit (1 : Word).toNat 2 ≠ hostRuled.sec.hostOwner) ∧
    (let s := { hostRuled with sec := { hostRuled.sec with shadow := [(0, 0x00000011)] } }
     isoCheck s = some (1, 0, 0)) ∧
    (alive committing = true ∧ committing.sec.pending = true) ∧
    ((0xFFFC : Nat) < 0x10000 ∧ 0xFFFC % 4 = 0 ∧ seesRegs fw 32 = true ∧ privileged fw 32 = true) ∧
    (erased.boot.pkgBusy = 0 ∧ erased.nv.pkgErased.contains (pkgTarget erased) = true ∧ (0xFFFFFFC : Nat) < 0x10000000 ∧
      tget false erased.boot.pkgDirty (pkgTarget erased * 0x10000000 + 0xFFFFFFC) = false) ∧
    (erasing.boot.pkgBusy ≠ 0 ∧ erasing.boot.pkgBusy = 1 ∧ alive erasing = true ∧ privileged erasing 32 = true) ∧
    pkgTarget fw = 1 ∧ pkgTarget { fw with nv := { fw.nv with pkgNext := 1 } } = 0 ∧
    (let s := { fw with boot := { fw.boot with pkgBusy := 2 } }; alive s = true ∧ s.boot.pkgBusy = 2) := by decide +kernel

theorem test_isolation_epoch :
    (let t := nextOf (exec .isolationEpoch committing); (t.sec.epoch, t.sec.pending, t.sec.table == table0)) =
      (1, false, true) := by decide +kernel

/-! ### Lanes, messages, management -/

/-- A packet of an opcode with parameter words, version CCP 1.0, for function 0. -/
def pkt (op : Nat) (ps : List Nat) : List Word :=
  let len := (ps.length + 7) / 4
  (([op + len * 65536 + 0x10 * 2 ^ 24, 77, 0, 0] ++ ps ++ List.replicate (4 * len - 4 - ps.length) 0).map (BitVec.ofNat 32))

/-- Lane 15 of function 0 has an enabled ring. -/
def laneOn : State := modLane 15 (fun l => { l with cfg := 0x0000000B }) fw

theorem witness_WholePacketJoinsItsLane :
    alive laneOn = true ∧ reaches laneOn 0 = true ∧ laneOn.pwr.st ≠ .sleep ∧
    (pkt 0x03 [1, 2, 3]).length = packetWords ((pkt 0x03 [1, 2, 3]).headD 0).toNat ∧ laneEn (laneSt laneOn 15) = true ∧
    0 < (laneSt laneOn 15).credits ∧ opcodes.contains (bits ((pkt 0x03 [1, 2, 3]).headD 0).toNat 7 0) = true ∧
    tkeys 0 laneOn.lanes = true ∧ tkeys 0 (laneSt laneOn 15).staging = true ∧ (255 : Nat) < 256 ∧
    reaches laneOn 31 = false := by decide +kernel

theorem test_packet_takes_a_credit :
    (let t := nextOf (exec (.packetWindowWrite 0 15 0 (pkt 0x03 [1, 2, 3])) laneOn)
     ((laneSt t 15).queue, (laneSt t 15).credits)) = ([pkt 0x03 [1, 2, 3]], 31) := by decide +kernel

theorem test_rest_of_a_write_is_discarded :
    (let t := nextOf (exec (.packetWindowWrite 0 15 0 (pkt 0x03 [1, 2, 3] ++ [9])) laneOn)
     ((laneSt t 15).queue, rget t R.hostFnMmioShape 0)) = ([pkt 0x03 [1, 2, 3]], 1) := by decide +kernel

/-- Two replies stand in the ring of lane 15, none consumed. -/
def replied : State := modLane 15 (fun l => { l with replies := 2, credits := 30 }) laneOn

/-- An open management session of an Owner or Operator. -/
def msessOf (owner : Bool) : MSess where
  link := 2
  stage := 3
  owner := owner
  key := if owner then 0 else 4
  negotiated := some 0x10
  since := 0
  secret := []
  said := []
  owned := []
  asked := []
  packets := []

/-- Management session 7 is open for the Owner; session 6 for an Operator; session 4 is at its handshake. -/
def managed : State :=
  putMsess 4 (some { msessOf true with stage := 0 }) (putMsess 6 (some (msessOf false)) (putMsess 7 (some (msessOf true)) fw))

/-- A vector 1023 of function 0 that is unmasked, and MSI-X is enabled. -/
def unmasked : State :=
  { modFn 0 (fun x => { x with msixEn := true, msixMask := false }) fw with msix := [(4095, 1)] }

theorem witness_LanesMessagesManagement :
    (alive replied = true ∧ reaches replied 0 = true ∧ prompt replied = true ∧
      ((3 : Word).toNat + 2 ^ 32 - (laneSt replied 15).cons) % 2 ^ 32 = 3 ∧
      ((laneSt replied 15).replies + 2 ^ 32 - (laneSt replied 15).cons) % 2 ^ 32 = 2 ∧ (laneSt replied 15).viol = none) ∧
    (let s := modLane 15 (fun l => { l with viol := some (77, 3) }) replied
     ((2 : Word).toNat + 2 ^ 32 - (laneSt s 15).cons) % 2 ^ 32 ≤ ((laneSt s 15).replies + 2 ^ 32 - (laneSt s 15).cons) % 2 ^ 32 ∧
      (laneSt s 15).viol = some (77, 3)) ∧
    (laneEn (laneSt replied 15) = true ∧ bit (1 : Word).toNat 0 = true) ∧
    (laneEn (laneSt fw 15) = false ∧ bit (0x03FF0000 : Word).toNat 0 = false ∧ bit (0x04000001 : Word).toNat 0 = true) ∧
    (bit (0xA : Word).toNat 0 = false ∧ laneEn (laneSt laneOn 15) = true) ∧
    ((1023 : Nat) < msixCount 0 ∧ (63 : Nat) < msixCount 1 ∧ msixCount 1 ≤ 64 ∧ reaches fw 31 = false) ∧
    ((fnSt unmasked 0).resetting = false ∧ (fnSt unmasked 0).msixEn = true ∧ (fnSt unmasked 0).msixMask = false ∧
      bit (msixW unmasked 0 1023 3) 0 = true ∧ bit (msixW unmasked 0 1022 3) 0 = false) ∧
    (fnSt (modFn 0 (fun x => { x with resetting := true }) fw) 0).resetting = true ∧
    (alive managed = true ∧ (msessAt managed 7).map (fun m => (m.stage, m.owner)) = some (3, true) ∧
      (msessAt managed 6).map (fun m => (m.stage, m.owner)) = some (3, false) ∧
      (msessAt managed 4).map (fun m => m.stage) = some 0 ∧ msessAt managed 5 = none) := by decide +kernel

theorem test_consumer_returns_credits :
    (let t := nextOf (exec (.hostLaneConsWrite 0 15 2) replied); ((laneSt t 15).cons, (laneSt t 15).credits)) = (2, 32) := by
  decide +kernel

theorem test_operator_may_not_write :
    (let t := nextOf (exec (.regWrite 6 R.pwrEnv 0) managed); t.out) = [.mgmt 6 [4]] := by decide +kernel

/-! ### Packets -/

/-- The lane the packets of the tests come from. -/
def lane15 : Src := .lane 0 15

/-- Function 0 has negotiated CCP 1.0, and a packet waits at lane 15. -/
def sent (op : Nat) (ps : List Nat) (s : State) : State :=
  modFn 0 (fun f => { f with negotiated := some 0x10 })
    (modLane 15 (fun l => { l with cfg := 0x0000000B, credits := 31, queue := [pkt op ps] }) s)

/-- The packet lane 15 applies next. -/
def head (s : State) : Pkt := (nextPkt s lane15).getD { src := 0, w := [], tn := 0, fn := 0 }

/-- Status and first result of the reply in the ring of lane 15, whose base is 0. -/
def replyOf (s : State) : Nat × Nat := ((mget s.host0 0).toNat, leAt (mgets s.host0 0 32) 20 4)

/-- Port 0 is up, so that replies reach the host. -/
def up0 : State := modPort 0 (fun p => { p with up := true }) fw

/-- A packet of function 32, and the one that management session 7 sends with it. -/
def pkt32 (op : Nat) (ps : List Nat) : List Word := (pkt op ps).set 2 32

def mgmt7 (op : Nat) (ps : List Nat) : Src := .mgmt 7 (pkt32 op ps)

/-- The packet a source applies next. -/
def headOf (s : State) (src : Src) : Pkt := (nextPkt s src).getD { src := 0, w := [], tn := 0, fn := 0 }

theorem witness_HeaderChecksComeFirst_sources :
    (let src : Src := mgmt7 0x7F []
     alive managed = true ∧ src.wf = true ∧ nextPkt managed src = some (headOf managed src) ∧
     512 ≤ (headOf managed src).src ∧ opcodes.contains (pOpcode (headOf managed src)) = false) ∧
    ((msessAt managed 7).map (fun m => m.stage) = some 3 ∧ pkt32 0x03 [] ≠ []) ∧
    (let w : Waiter := { what := .pushTurn 0 0 0, head := 0, tag := 0, applied := 0, r0 := 0 }
     (waiterOf (setWait 15 w fw) (srcNum lane15)).isSome = true) ∧
    (let s := sent 0x02 [0x1000, 0, 8720] up0; (head s).src < 512 ∧ pOpcode (head s) ≠ 0x03) := by decide +kernel

theorem witness_HeaderChecksComeFirst :
    (let s := modFn 0 (fun f => { f with negotiated := none }) (sent 0x03 [1, 2, 3] up0)
     alive s = true ∧ lane15.wf = true ∧ nextPkt s lane15 = some (head s) ∧ pOpcode (head s) = 0x03 ∧
     headCheck (servedState s (head s)) (head s) = some (0x08, 0)) ∧
    (alive up0 = true ∧ nextPkt up0 lane15 = none) ∧
    (let s := sent 0x02 [0x1000, 0, 8720] up0
     nextPkt s lane15 = some (head s) ∧ pOpcode (head s) ≠ 0x03 ∧ opcodes.contains (pOpcode (head s)) = true ∧
     headCheck s (head s) = none) := by decide +kernel

theorem test_echo_without_version :
    (let s := modFn 0 (fun f => { f with negotiated := none }) (sent 0x03 [1, 2, 3] up0)
     replyOf (nextOf (exec (.echo lane15) s))) = (0x08, 0) := by decide +kernel

theorem test_echo :
    (let t := nextOf (exec (.echo lane15) (sent 0x03 [11, 22, 33] up0)); (replyOf t, (laneSt t 15).queue)) =
      ((0, 11), []) := by decide +kernel

theorem witness_HelloEchoAndCapabilities :
    (let s := sent 0x01 [0x1010] up0
     serves s lane15 0x01 (head s) ∧ reservedIn (head s) [0xFFFF] = none ∧ (head s).src < 512 ∧ tkeys 0 s.fns = true) ∧
    (let s := sent 0x03 [1, 2, 0xFFFFFFFF] up0
     serves s lane15 0x03 (head s) ∧ reservedIn (head s) [fullW, fullW, fullW] = none) ∧
    (let s := sent 0x02 [0x1000, 0, 8720] up0
     let p := head s
     serves s lane15 0x02 p ∧ reservedIn p [fullW, 0xFFFF, fullW] = none ∧ addr48 p.w 4 ≠ 0 ∧ 0 < wd p.w 6 ∧
     wd p.w 6 ≤ 8720 ∧ rangePopulated (servedState s p) p.tn (addr48 p.w 4) 0 = true ∧
     rangePopulated (servedState s p) p.tn (addr48 p.w 4) (wd p.w 6) = true ∧
     rangeGranted (servedState s p) p.tn (addr48 p.w 4) (wd p.w 6) = true) := by
  unfold serves; decide +kernel

theorem witness_RegionsAndWindows :
    (let s := sent 0x10 [0xFFFFF000, 0, 0xFFFFFF] up0
     let p := head s
     serves s lane15 0x10 p ∧ reservedIn p [fullW, fullW, 0xFFFFFF] = none ∧ u64 p.w 4 % 4096 = 0 ∧
     u64 p.w 4 + (bits (wd p.w 6) 23 0 + 1) * 4096 ≤ 2 ^ 64 ∧ p.tn ≠ 32 ∧
     regionMeets (servedState s p) p.fn (u64 p.w 4) ((bits (wd p.w 6) 23 0 + 1) * 4096) = none) ∧
    (let s := sent 0x11 [63] up0; serves s lane15 0x11 (head s) ∧ reservedIn (head s) [0x3F] = none) ∧
    ((31 : Nat) < 32 ∧ (63 : Nat) < 64) ∧
    (let s := sent 0x12 [3, 0, 0, 0, 0, 0, 0, 0, 0, 0, 0, 0] up0; serves s lane15 0x12 (head s)) ∧
    (let s := sent 0x13 [3] up0
     serves s lane15 0x13 (head s) ∧ reservedIn (head s) [0x3F] = none ∧ (head s).tn ≠ 32 ∧
     bits (wd (head s).w 4) 5 0 < winCount (servedState s (head s)) (head s).tn) ∧
    (let s := sent 0x13 [4] up0
     serves s lane15 0x13 (head s) ∧ reservedIn (head s) [0x3F] = none ∧
     winCount (servedState s (head s)) (head s).tn ≤ bits (wd (head s).w 4) 5 0) := by
  unfold serves; decide +kernel

theorem witness_RegionsAndWindows_outcomes :
    (let s := sent 0x10 [0xFFFFF000, 0, 0xFFFFFF] up0
     freeRegion (servedState s (head s)) (head s).fn = some 0) ∧
    (let s := modFn 0 (fun f => { f with regions := (List.range 64).map (fun k =>
        (k, some { pcie := 4096 * k, size4k := 0, dev := regionDev 0 k })) }) (sent 0x10 [0xFFFFF000, 0, 0xFFFFFF] up0)
     freeRegion (servedState s (head s)) (head s).fn = none ∧ serves s lane15 0x10 (head s)) ∧
    (let s := sent 0x11 [63] (putRegion 0 63 (some { pcie := 0, size4k := 0, dev := regionDev 0 63 }) up0)
     (tget none (fnSt (servedState s (head s)) (head s).fn).regions (bits (wd (head s).w 4) 5 0)).isSome = true) ∧
    (let s := sent 0x11 [62] up0
     tget none (fnSt (servedState s (head s)) (head s).fn).regions (bits (wd (head s).w 4) 5 0) = none) ∧
    (let s := sent 0x12 [0x243, 0, 0, 0, 0, 0, 0, 0, 0, 0, 0, 0] up0
     serves s lane15 0x12 (head s) ∧ firstErr (winChecks (servedState s (head s)) (head s) (params (head s))) = none) ∧
    (let s := sent 0x12 [0x244, 0, 0, 0, 0, 0, 0, 0, 0, 0, 0, 0] up0
     serves s lane15 0x12 (head s) ∧
     firstErr (winChecks (servedState s (head s)) (head s) (params (head s))) = some (0x04, 4)) ∧
    (let s := modWin 3 (fun w => { w with st := .opened }) (sent 0x13 [3] up0)
     (winSt (servedState s (head s)) (64 * (head s).fn + bits (wd (head s).w 4) 5 0)).st = .opened ∧
     tkeys 0 s.windows = true ∧ (winSt s 3).flight = []) ∧
    (let s := sent 0x13 [3] up0
     (winSt (servedState s (head s)) (64 * (head s).fn + bits (wd (head s).w 4) 5 0)).st ≠ .opened) := by
  unfold serves; decide +kernel

theorem witness_RegionsAndWindows_refusals :
    (let src := mgmt7 0x10 [0x1000, 0, 0]
     let p := headOf managed src
     serves managed src 0x10 p ∧ reservedIn p [fullW, fullW, 0xFFFFFF] = none ∧ p.tn = 32) ∧
    (let src := mgmt7 0x11 [0]
     let p := headOf managed src
     serves managed src 0x11 p ∧ reservedIn p [0x3F] = none ∧ p.tn = 32) ∧
    (let src := mgmt7 0x13 [0]
     let p := headOf managed src
     serves managed src 0x13 p ∧ reservedIn p [0x3F] = none ∧ p.tn = 32) ∧
    (let s := sent 0x10 [0xFFF, 0, 0] up0
     serves s lane15 0x10 (head s) ∧ u64 (head s).w 4 % 4096 ≠ 0) ∧
    (let s := sent 0x10 [0xFFFFF000, 0xFFFFFFFF, 1] up0
     serves s lane15 0x10 (head s) ∧ 2 ^ 64 < u64 (head s).w 4 + (bits (wd (head s).w 6) 23 0 + 1) * 4096) ∧
    (let s := putRegion 0 63 (some { pcie := 0x2000, size4k := 0, dev := regionDev 0 63 }) (sent 0x10 [0x1000, 0, 1] up0)
     serves s lane15 0x10 (head s) ∧
     regionMeets (servedState s (head s)) (head s).fn (u64 (head s).w 4) ((bits (wd (head s).w 6) 23 0 + 1) * 4096) = some 63) ∧
    (let s := putRegion 0 63 (some { pcie := 0, size4k := 0, dev := regionDev 0 63 }) up0
     tkeys 0 s.fns = true ∧ tkeys 0 (fnSt s 0).regions = true ∧ s.seq.runs = []) := by
  unfold serves; decide +kernel

theorem test_region_mapped :
    (let t := nextOf (exec (.regionMap lane15) (sent 0x10 [0x1000, 0, 0] up0))
     tget none (fnSt t 0).regions 0) = some { pcie := 0x1000, size4k := 0, dev := 0x800000000000 } := by decide +kernel

theorem witness_GraphsAndTemplates :
    (let s := sent 0x20 [0x1000, 0, 64] up0; serves s lane15 0x20 (head s) ∧
      reservedIn (head s) [fullW, 0xFFFF, fullW] = none) ∧
    (∀ x ∈ [(0x21, [255], [0xFF]), (0x22, [511], [0x1FF]), (0x23, [255], [0xFF])],
      let s := sent x.1 x.2.1 withTimer
      serves s lane15 x.1 (head s) ∧ reservedIn (head s) x.2.2 = none ∧ s.boot.phase = 3 ∧
      tmplAt (servedState s (head s)) (bits (wd (head s).w 4) 7 0) = some timerTmpl ∧ timerTmpl.doomed = false ∧
      timerTmpl.tenant = (head s).tn) := by
  unfold serves; decide +kernel

/-- The image of a template of one node, a publication, that the host triggers. -/
def image0 : List Nat := [1, 0, 6] ++ List.replicate 45 0 ++ [8] ++ List.replicate 8 0 ++ [65536] ++ List.replicate 6 0

/-- It stands at 0x1000. -/
def imaged : State := { up0 with mem := mputs [] 0x1000 (image0.flatMap (leBytes 4)) }

theorem witness_GraphsAndTemplates_outcomes :
    (let s := sent 0x20 [0x1000, 0, 256] imaged
     serves s lane15 0x20 (head s) ∧ reservedIn (head s) [fullW, 0xFFFF, fullW] = none ∧
     (match graphLoadImage (servedState s (head s)) (head s).tn 0x1000 256 with
      | .ok k nb eb _ => [k, nb, eb] == [0, 0, 0]
      | .err _ _ => false) = true) ∧
    (match graphLoadImage (sent 0x20 [0x1000, 0, 256] up0) 0 0x1000 256 with
      | .ok _ _ _ _ => false
      | .err st _ => st == 1) = true ∧
    (∀ v ∈ [timerTmpl, { timerTmpl with armed := false }, { timerTmpl with armed := false, doomed := true }],
      let s := sent 0x21 [255] (putTmpl 255 (some v) fw)
      serves s lane15 0x21 (head s) ∧ tmplAt (servedState s (head s)) (bits (wd (head s).w 4) 7 0) = some v ∧
      v.tenant = (head s).tn ∧ handleClash (servedState s (head s)) v = none) ∧
    (let v := { timerTmpl with armed := false, trigKind := 4, trigObj := 1023 }
     let s := sent 0x21 [255] (putTmpl 255 (some v) { fw with sec := { fw.sec with table := [(0, 0x0004080F)] } })
     handleClash (servedState s (head s)) v = some 1023) ∧
    (let v := { timerTmpl with armed := false }
     let s := sent 0x23 [255] (putTmpl 255 (some v) fw)
     serves s lane15 0x23 (head s) ∧ tmplBusy v = false) ∧
    (timerTmpl.armed = true) ∧
    (let s := sent 0x22 [255] withTimer
     serves s lane15 0x22 (head s) ∧ bit (wd (head s).w 4) 8 = false) ∧
    (let s := sent 0x22 [511] withTimer
     serves s lane15 0x22 (head s) ∧ bit (wd (head s).w 4) 8 = true) ∧
    (∀ op ∈ [0x21, 0x22, 0x23], let s := sent op [254] withTimer
     serves s lane15 op (head s) ∧ tmplAt (servedState s (head s)) (bits (wd (head s).w 4) 7 0) = none) ∧
    (∀ op ∈ [0x21, 0x22, 0x23], let s := sent op [255] (putTmpl 255 (some { timerTmpl with tenant := 31 }) fw)
     serves s lane15 op (head s) ∧ (tmplAt (servedState s (head s)) (bits (wd (head s).w 4) 7 0)).map Tmpl.tenant = some 31 ∧
     (head s).tn = 0) ∧
    (let s := { sent 0x21 [255] withTimer with boot := { fw.boot with phase := 2 } }
     serves s lane15 0x21 (head s) ∧ s.boot.phase ≠ 3) := by
  unfold serves; decide +kernel

theorem test_disarm :
    (let t := nextOf (exec (.graphDisarm lane15) (sent 0x22 [255] withTimer))
     (tmplAt t 255).map Tmpl.armed) = some false := by decide +kernel

/-- A template that the host triggers. -/
def hostTmpl : Tmpl := { timerTmpl with trigKind := 6 }

/-- It is template 255. -/
def withHost : State := putTmpl 255 (some hostTmpl) up0

theorem witness_JobsRingsAndQueues :
    (∀ x ∈ [(0x24, [255, 0], [0xFF, fullW]), (0x25, [511, 7], [0x1FF, fullW]), (0x25, [255, 7], [0x1FF, fullW])],
      let s := sent x.1 x.2.1 withHost
      serves s lane15 x.1 (head s) ∧ reservedIn (head s) x.2.2 = none ∧ hostTmpl.trigKind = 6 ∧
      bit (wd (head s).w 4) 8 = bit (wd x.2.1 0) 8 ∧
      tmplAt (servedState s (head s)) (bits (wd (head s).w 4) 7 0) = some hostTmpl ∧ hostTmpl.doomed = false ∧
      hostTmpl.tenant = (head s).tn) ∧
    (let s := sent 0x30 [255 + 62 * 256 + 16384, 0x1000, 0, 0x2000, 0x1FFFF] up0
     let p := head s
     serves s lane15 0x30 p ∧ (rearmEntries p).length = 2 ∧
     reservedIn p (0x7FFFF :: (rearmEntries p).flatMap (fun _ => [fullW, 0x1FFFF])) = none ∧
     bits (wd p.w 4) 13 8 + (rearmEntries p).length ≤ 64) ∧
    (let s := sent 0x31 [1023, 42] up0; serves s lane15 0x31 (head s) ∧ reservedIn (head s) [0x3FF, fullW] = none) ∧
    (let s := sent 0x32 [1023] up0; serves s lane15 0x32 (head s) ∧ reservedIn (head s) [0x3FF] = none) ∧
    tkeys 0 up0.mrq = true := by
  unfold serves; decide +kernel

theorem witness_JobsRingsAndQueues_jobs :
    (let s := sent 0x24 [255, 0] withTimer; serves s lane15 0x24 (head s) ∧ timerTmpl.trigKind ≠ 6) ∧
    (let s := sent 0x24 [255, 7] withHost
     serves s lane15 0x24 (head s) ∧ wd (head s).w 5 ≠ 0 ∧ pSession (head s) = 0) ∧
    (let s := modLane 15 (fun l => { l with queue := [(pkt 0x24 [255, 7]).set 2 (9 * 65536)] }) (sent 0x24 [255, 7]
       (putSlot 1 (some { kind := 2, tenant := 0, sess := 9, jobId := 7, nonce := 0, key := [] }) { withHost with
         sec := { withHost.sec with sessions := [(9, some { fn := 0, open_ := true, since := 0, slot := 0, said := [] })] } }))
     serves s lane15 0x24 (head s) ∧ pSession (head s) ≠ 0 ∧ (jobSlot s 0 (pSession (head s)) (wd (head s).w 5)).isSome = true) ∧
    (hostTmpl.armed = true ∧ ({ hostTmpl with armed := false } : Tmpl).armed = false) ∧
    (pendingJob hostTmpl 0 7 = none ∧ runningSlot hostTmpl 7 = none) ∧
    (let j : Job := { src := 15, fn := 0, tag := 7, jobId := 7, key := none }
     let g : Trig := { time := 0, stream := 255, serial := 0, frameNo := 0, handle := none, job := some j }
     (pendingJob { hostTmpl with pending := [g] } 0 7).isSome = true ∧
     runningSlot { hostTmpl with slots := [{ instFree with st := .running, seq := 7 }] } 7 = some 0) := by
  unfold serves; decide +kernel

theorem witness_JobsRingsAndQueues_turns :
    (let s := rput R.mrqCfg 1023 0xF0001 (sent 0x31 [1023, 42] up0)
     mrqGranted s 0 1023 = true ∧ mrqEn s 1023 = true ∧ pushContended s 1023 = false ∧ pushCheck s 0 1023 = none) ∧
    (let w : Waiter := { what := .pushTurn 1023 7 0, head := 0, tag := 0, applied := 0, r0 := 0 }
     let s := setWait 16 w (rput R.mrqCfg 1023 0xF0001 (sent 0x31 [1023, 42] up0))
     serves s lane15 0x31 (head s) ∧ pushContended s 1023 = true) := by
  unfold serves; decide +kernel

theorem test_job_starts :
    (let t := nextOf (exec (.jobSubmit lane15) (sent 0x24 [255, 0] withHost))
     ((instAt t 255 0).map Inst.seq, (laneSt t 15).queue)) = (some 1, []) := by decide +kernel

theorem test_queue_push :
    (let s := rput R.mrqCfg 1023 0xF0001 (sent 0x31 [1023, 42] up0)
     let t := nextOf (exec (.queuePush lane15) s); (mrqQ t 1023, replyOf t)) = ([42], (0, 1)) := by decide +kernel

/-- PF0 of port 0 in host-owner mode. -/
def hostOwned : State := { up0 with sec := { up0.sec with hostOwner := true } }

/-- Function 0 is the Owner; an image of one block is staged. -/
def staging : State := { hostOwned with nv := { hostOwned.nv with updState := 1, stagedBlocks := [4096] } }

theorem witness_FirmwareIsStagedCommittedConfirmed :
    (let s := sent 0x70 [0x1FFF000, 4096, 0x1000, 0] hostOwned
     let p := head s
     serves s lane15 0x70 p ∧ reservedIn p [fullW, fullW, fullW, 0xFFFF] = none ∧ wd p.w 4 % 4096 = 0 ∧
     wd p.w 4 < 0x2000000 ∧ 0 < wd p.w 5 ∧ wd p.w 5 ≤ 4096 ∧
     rangePopulated (servedState s p) p.tn (addr48 p.w 6) (wd p.w 5) = true ∧
     rangeGranted (servedState s p) p.tn (addr48 p.w 6) (wd p.w 5) = true ∧ s.nv.updState ≠ 3) ∧
    (let s := sent 0x71 [64] staging
     let p := head s
     serves s lane15 0x71 p ∧ reservedIn p [fullW] = none ∧ 0 < wd p.w 4 ∧ wd p.w 4 ≤ 33554432 ∧ s.boot.phase = 3 ∧
     s.nv.updState = 1 ∧ allStaged (servedState s p) (wd p.w 4) = true ∧
     bits (leAt (stagingBytes (servedState s p) (wd p.w 4)) 0 4) 7 0 ≠ 2) ∧
    (let s := sent 0x71 [33554432] hostOwned
     serves s lane15 0x71 (head s) ∧ reservedIn (head s) [fullW] = none ∧ wd (head s).w 4 ≤ 33554432 ∧
     s.nv.updState = 0) ∧
    (∀ op ∈ [0x72, 0x73], let s := sent op [] hostOwned; serves s lane15 op (head s) ∧ reservedIn (head s) [] = none) := by
  unfold serves; decide +kernel

theorem witness_FirmwareIsStagedCommittedConfirmed_branches :
    (let s := { sent 0x70 [0x1FFF000, 4096, 0x1000, 0] hostOwned with nv := { hostOwned.nv with updState := 3 } }
     serves s lane15 0x70 (head s) ∧ (servedState s (head s)).nv.updState = 3) ∧
    (let s := sent 0x70 [0x1FFF000, 4096, 0x1000, 0] hostOwned
     (inGet (servedState s (head s)) (head s) (addr48 (head s).w 6) 4096).isSome = true) ∧
    (let s := setPoison 0 1 2 (sent 0x70 [0x1FFF000, 512, 0, 0x4000] hostOwned)
     serves s lane15 0x70 (head s) ∧
     inGet (servedState s (head s)) (head s) (addr48 (head s).w 6) (wd (head s).w 5) = none) ∧
    (let s := { sent 0x71 [64] staging with boot := { staging.boot with phase := 4 } }
     serves s lane15 0x71 (head s) ∧ s.boot.phase = 4 ∧ allStaged (servedState s (head s)) (wd (head s).w 4) = true) ∧
    (let s := sent 0x71 [64] { staging with nv := { staging.nv with
        staging := [(0, 2)] } }
     serves s lane15 0x71 (head s) ∧ bits (leAt (stagingBytes (servedState s (head s)) (wd (head s).w 4)) 0 4) 7 0 = 2) ∧
    (let s := sent 0x71 [8192] staging
     serves s lane15 0x71 (head s) ∧ allStaged (servedState s (head s)) (wd (head s).w 4) = false ∧ s.boot.phase ≠ 4) ∧
    (cfgPairKept hostOwned = false) ∧
    (let s := { sent 0x72 [] hostOwned with nv := { hostOwned.nv with updState := 3, runSeconds := 599 } }
     serves s lane15 0x72 (head s) ∧ (servedState s (head s)).nv.updState = 3 ∧ runSecs (servedState s (head s)) < 600) ∧
    (let s := { sent 0x72 [] hostOwned with nv := { hostOwned.nv with updState := 3, runSeconds := 600 } }
     serves s lane15 0x72 (head s) ∧ 600 ≤ runSecs (servedState s (head s))) := by
  unfold serves; decide +kernel

theorem test_confirm_outside_trial :
    replyOf (nextOf (exec (.fwConfirm lane15) (sent 0x72 [] hostOwned))) = (0x30, 0) := by decide +kernel

/-- A stream slot of tenant 0: port 0, channel 0, RAW8, 64 × 48, started but not open. -/
def stream0 : Stream := { streamZero with
  desc := [5 * 65536] ++ List.replicate 15 0
  started := true }

/-- Stream 5 is that stream. -/
def streaming : State := { up0 with cam := { up0.cam with streams := [(5, some stream0)] } }

theorem witness_CameraCommands :
    (let s := sent 0x40 [63, 0, 0, 0, 0, 0, 0, 0, 0] up0
     serves s lane15 0x40 (head s) ∧
     reservedIn (head s) [0x3F, 0x1FFFFF, fullW, fullW, 0x7FFF7FFF, 0x7FFF, 0, 0, 0] = none) ∧
    (let s := sent 0x41 [4194304 + 5 * 65536, 0, 0] up0; serves s lane15 0x41 (head s)) ∧
    (let s := sent 0x42 stream0.desc up0; serves s lane15 0x42 (head s)) ∧
    streamAt streaming (bits (wd stream0.desc 0) 21 16) = some stream0 ∧
    (let s := sent 0x43 [5] streaming
     let p := head s
     serves s lane15 0x43 p ∧ reservedIn p [0x3F] = none ∧
     streamGranted (servedState s p) p.tn (bits (wd p.w 4) 5 0) = true ∧
     streamAt (servedState s p) (bits (wd p.w 4) 5 0) = some stream0) ∧
    (let s := sent 0x43 [5] { streaming with sec := { streaming.sec with table := [(0, 0x0004080F)] } }
     serves s lane15 0x43 (head s) ∧ reservedIn (head s) [0x3F] = none ∧
     streamGranted (servedState s (head s)) (head s).tn (bits (wd (head s).w 4) 5 0) = false) ∧
    (let s := sent 0x43 [6] streaming
     serves s lane15 0x43 (head s) ∧ streamGranted (servedState s (head s)) (head s).tn (bits (wd (head s).w 4) 5 0) = true ∧
     streamAt (servedState s (head s)) (bits (wd (head s).w 4) 5 0) = none) ∧
    (let s := sent 0x44 [0x3FFF, 4500] up0
     serves s lane15 0x44 (head s) ∧ reservedIn (head s) [0x3FFF, 0xFFFF] = none) := by
  unfold serves; decide +kernel

theorem test_transmit_port_configured :
    (let t := nextOf (exec (.txConfig lane15) (sent 0x44 [3, 4500] up0)); (tget txReset t.cam.tx 1).rate) = 4500 := by
  decide +kernel

/-- The bytes of a SESSION_OPEN message of a step. -/
def opening (step : Nat) (msg : List Byte) : List Byte := leBytes 4 step ++ zeros 12 ++ msg

/-- A KEY_EXCHANGE with empty ExchangeData. -/
def exchange : List Byte := [0x13, 0xE4] ++ zeros 40

/-- A message of a step stands at 0x1000. -/
def asked (step : Nat) (msg : List Byte) (s : State) : State := { s with mem := mputs [] 0x1000 (opening step msg) }

/-- Session 9 of function 0 is open. -/
def inSession : State := { up0 with
  sec := { up0.sec with sessions := [(9, some { fn := 0, open_ := true, since := 0, slot := 1, said := [] })] } }

/-- What SESSION_OPEN of a message asks for. -/
def opens (s : State) (l : List Byte) : Prop :=
  let p := head s
  serves s lane15 0x50 p ∧ reservedIn p [fullW, 0xFFFF, fullW, fullW, 0xFFFF, fullW] = none ∧ p.tn ≠ 32 ∧
  16 ≤ wd p.w 6 ∧ rangePopulated (servedState s p) p.tn (addr48 p.w 4) (wd p.w 6) = true ∧
  rangeGranted (servedState s p) p.tn (addr48 p.w 4) (wd p.w 6) = true ∧
  rangePopulated (servedState s p) p.tn (addr48 p.w 7) (wd p.w 9) = true ∧
  rangeGranted (servedState s p) p.tn (addr48 p.w 7) (wd p.w 9) = true ∧
  inGet (servedState s p) p (addr48 p.w 4) (wd p.w 6) = some l ∧ leAt l 4 4 = 0 ∧ leAt l 8 4 = 0 ∧ leAt l 12 4 = 0

/-- SESSION_OPEN with the 58 or 16 bytes at 0x1000 in a state. -/
def askSession (n : Nat) (s : State) : State := sent 0x50 [0x1000, 0, n, 0x2000, 0, 4096] s

/-- The sessions of a function at their first step. -/
def attempts (n : Nat) (s : State) : State := { s with
  sec := { s.sec with sessions := (List.range n).map (fun i =>
    (i + 1, some { fn := 0, open_ := false, since := 0, slot := 0, said := [] })) } }

/-- Every key slot is taken. -/
def noSlots (s : State) : State := { s with
  sec := { s.sec with slots := (List.range 256).map (fun i =>
    (i, some { kind := 1, tenant := 0, sess := 0, jobId := 0, nonce := 0, key := [] })) } }

theorem witness_SessionsOpenCloseAndGiveJobKeys_first_0 :
    (let s := askSession 58 (asked 1 exchange up0)
     let u := inDone (head s) 0x1000 58 (servedState s (head s))
     opens s (opening 1 exchange) ∧ leAt (opening 1 exchange) 0 4 = 1 ∧ exchangeOk ((opening 1 exchange).drop 16) = true ∧
     (sessionsOf u 0).length < 4 ∧ u.sec.sessions.length < 64 ∧ (allocSlot u 0).isSome = true) := by
  unfold opens serves; decide +kernel

theorem witness_SessionsOpenCloseAndGiveJobKeys_first_1 :
    (let s := askSession 16 (asked 1 [] up0)
     opens s (opening 1 []) ∧ exchangeOk ((opening 1 []).drop 16) = false) := by
  unfold opens serves; decide +kernel

theorem witness_SessionsOpenCloseAndGiveJobKeys_first_2 :
    (let s := askSession 58 (asked 1 exchange (attempts 4 up0))
     opens s (opening 1 exchange) ∧ 4 ≤ (sessionsOf s 0).length) := by
  unfold opens serves; decide +kernel

theorem witness_SessionsOpenCloseAndGiveJobKeys_first_3 :
    (let s := askSession 58 (asked 1 exchange (noSlots up0))
     opens s (opening 1 exchange) ∧ allocSlot (inDone (head s) 0x1000 58 (servedState s (head s))) 0 = none) := by
  unfold opens serves; decide +kernel

theorem witness_SessionsOpenCloseAndGiveJobKeys_second_0 :
    (let s := askSession 16 (asked 0x10002 [] (attempts 1 up0))
     opens s (opening 0x10002 []) ∧ leAt (opening 0x10002 []) 0 4 = 2 + 0x10000 * 1 ∧
     (sessAt s 1).map (fun x => (x.fn, x.open_, x.since)) = some (0, false, 0) ∧ s.now < 1000000000) := by
  unfold opens serves; decide +kernel

theorem witness_SessionsOpenCloseAndGiveJobKeys_second_1 :
    (let s := askSession 16 (asked 0x10002 [] (attempts 1 { up0 with now := 1000000000 }))
     opens s (opening 0x10002 []) ∧ 0 + 1000000000 ≤ (servedState s (head s)).now) := by
  unfold opens serves; decide +kernel

theorem witness_SessionsOpenCloseAndGiveJobKeys_second_2 :
    (let s := askSession 16 (asked 0x50002 [] (attempts 1 up0))
     opens s (opening 0x50002 []) ∧ sessAt s 5 = none) := by
  unfold opens serves; decide +kernel

theorem witness_SessionsOpenCloseAndGiveJobKeys :
    (let s := sent 0x51 [8] inSession
     serves s lane15 0x51 (head s) ∧ sessAt (servedState s (head s)) (bits (wd (head s).w 4) 15 0) = none) ∧
    (let s := sent 0x52 [8, 1] inSession
     serves s lane15 0x52 (head s) ∧ sessAt (servedState s (head s)) (bits (wd (head s).w 4) 15 0) = none) ∧
    (let s := sent 0x52 [9, 0] inSession
     serves s lane15 0x52 (head s) ∧ reservedIn (head s) [0xFFFF, fullW] = none ∧ wd (head s).w 5 = 0) ∧
    (let s := sent 0x52 [9, 1] (noSlots inSession)
     serves s lane15 0x52 (head s) ∧ jobSlot s 0 9 1 = none ∧ allocSlot (servedState s (head s)) 0 = none) ∧
    (let s := sent 0x52 [9, 1] (putSlot 255 (some { kind := 2, tenant := 0, sess := 9, jobId := 1, nonce := 0, key := [] })
       inSession)
     jobSlot s 0 9 1 = some 255) ∧
    (let s := sent 0x52 [9, 1] inSession; jobSlot s 0 9 1 = none ∧ (allocSlot (servedState s (head s)) 0).isSome = true) ∧
    (let s := sent 0x51 [9] inSession
     serves s lane15 0x51 (head s) ∧ reservedIn (head s) [0xFFFF] = none ∧
     (sessAt (servedState s (head s)) (bits (wd (head s).w 4) 15 0)).isSome = true) ∧
    (let s := sent 0x52 [9, 1] inSession
     let p := head s
     serves s lane15 0x52 p ∧ reservedIn p [0xFFFF, fullW] = none ∧ wd p.w 5 ≠ 0 ∧
     (match sessAt (servedState s p) (bits (wd p.w 4) 15 0) with
      | some x => x.fn == p.fn && x.open_
      | none => false) = true) := by
  unfold serves; decide +kernel

theorem test_job_key_given :
    (let t := nextOf (exec (.jobKey lane15) (sent 0x52 [9, 1] inSession))
     (jobSlot t 0 9 1).isSome && (replyOf t).1 == 0) = true := by decide +kernel

/-- One log entry of tenant 0. -/
def logged : State := addLog 0x0001 0 7 1 2 3 up0

theorem witness_StatisticsAndLog :
    (let s := sent 0x60 [0, 0, 0x1000, 0] up0
     let p := head s
     serves s lane15 0x60 p ∧ reservedIn p [0x1F, fullW, fullW, 0xFFFF] = none ∧
     statErr (servedState s p) (bits (wd p.w 4) 3 0) (wd p.w 5) = none ∧ addr48 p.w 6 ≠ 0 ∧ bit (wd p.w 4) 4 = false ∧
     rangePopulated (servedState s p) p.tn (addr48 p.w 6)
       (4 * (groupRegs (servedState s p) (bits (wd p.w 4) 3 0) (wd p.w 5)).length) = true ∧
     rangeGranted (servedState s p) p.tn (addr48 p.w 6)
       (4 * (groupRegs (servedState s p) (bits (wd p.w 4) 3 0) (wd p.w 5)).length) = true) ∧
    (let s := sent 0x61 [0, 0x1000, 0, 4096] logged
     let p := head s
     serves s lane15 0x61 p ∧ reservedIn p [fullW, fullW, 0xFFFF, fullW] = none ∧ addr48 p.w 5 ≠ 0 ∧ 0 < wd p.w 7 ∧
     wd p.w 7 ≤ 4096 ∧ p.isMgmt = false ∧ rangePopulated s p.tn (addr48 p.w 5) 0 = true ∧
     rangePopulated s p.tn (addr48 p.w 5) (32 * wd p.w 7) = true ∧
     rangeGranted s p.tn (addr48 p.w 5) (32 * wd p.w 7) = true ∧
     (s.log.filter (fun e => !serLt e.seq (wd p.w 4) && logSees s p e.tenant)).length = 1 ∧
     s.sec.hostOwner = false) ∧
    (let src := mgmt7 0x61 [0, 0, 0, 4096]
     let p := headOf managed src
     serves managed src 0x61 p ∧ reservedIn p [fullW, fullW, 0xFFFF, fullW] = none ∧ addr48 p.w 5 = 0 ∧ p.isMgmt = true) ∧
    (let src := mgmt7 0x60 [0, 0, 0, 0]
     let p := headOf managed src
     serves managed src 0x60 p ∧ reservedIn p [0x1F, fullW, fullW, 0xFFFF] = none ∧
     statErr (servedState managed p) 0 0 = none ∧ addr48 p.w 6 = 0 ∧ p.isMgmt = true) ∧
    ((head (sent 0x61 [0, 0x1000, 0, 4096] hostOwned)).fn = 0 ∧ hostOwned.sec.hostOwner = true) ∧
    logged.log.length ≤ 4096 := by
  unfold serves; decide +kernel

theorem test_log_read :
    replyOf (nextOf (exec (.logRead lane15) (sent 0x61 [0, 0x1000, 0, 4096] logged))) = (0, 1) := by decide +kernel

/-! ### Memory and the scratchpad -/

/-- A memory of two bytes. -/
def mem2 : List Host.Cell := mputs [] 0x1FFF [7, 9]

theorem witness_MemoryReadsBackItsWrites :
    Memory.wf mem2 = true ∧ (1 : Nat) < ([1, 2] : List Byte).length ∧ 0x1FFE < 0x1FFF ∧ 0x1FFF + 2 ≤ 0x2001 := by decide

theorem test_write_of_zero_leaves_no_cell : mputs mem2 0x1FFF [0, 0] = [] := by decide

/-- Bank 15 of slice 63 has lost its power. -/
def bankOff : State := { fw with spd := { fw.spd with off := [1023] } }

/-- The last row is retired, the row before it is poisoned for an uncorrectable error. -/
def poisoned : State := { fw with spd := { fw.spd with poison := [(0xFFFFF, 0x100000, 3), (0xFFFFE, 0xFFFFF, 1)] } }

theorem witness_DeviceWritesAndPoison :
    (hbmBytes - 2 + ([1, 2] : List Byte).length ≤ hbmBytes) ∧ ((0xFFFFF : Nat) < 0x100000 ∧ (zeros 512).length = 512) ∧
    bankDead bankOff 0xFFFFF = true ∧ rowPoison poisoned 0xFFFFF = 3 ∧
    (bankDead poisoned 0xFFFFE = false ∧ rowPoison poisoned 0xFFFFE ≠ 3) ∧ (portSt up0 (portOf 15)).up = true ∧
    ((0xFFFFE, 0xFFFFF, 1) ∈ poisoned.spd.poison ∧ 0xFFFFE ≤ 0xFFFFE ∧ 0xFFFFE < 0xFFFFF) ∧
    (0xFFFFE ≤ 0xFFFFF ∧ 0xFFFFF < 0x100000) ∧
    ((0xFFFFD : Nat) < 0xFFFFE ∧ ∀ e ∈ poisoned.spd.poison, e.2.1 ≤ 0xFFFFD ∨ 0xFFFFD < e.1) := by decide +kernel

/-- Tenant 0's range of HBM is encrypted; `key` says whether it has its memory key. -/
def encrypted (key : Bool) : State :=
  let s := { fw with sec := { fw.sec with table := table0.map (fun e => if e.1 = 41 then (41, 0x01000008) else e) } }
  if key then putSlot 255 (some { kind := 3, tenant := 0, sess := 0, jobId := 0, nonce := 0, key := zeros 64 }) s else s

theorem witness_DeviceWritesAndPoison_encrypted :
    encKey (encrypted true) (64 * 1023) 64 = some (zeros 64) ∧ (zeros 64).length = 64 ∧
    encKey fw 0 2 = none ∧ rowPoison (setPoison 5 6 4 fw) 5 = 4 ∧ (portSt fw (portOf 31)).up = false ∧
    (5 : Nat) ∉ ({ fw with nv := { fw.nv with rowRetired := [6] } } : State).nv.rowRetired := by decide +kernel

theorem test_whole_row_write_clears_poison :
    rowPoison (devPut (rowAddr 0xFFFFE) (zeros 512) poisoned) 0xFFFFE = 0 := by decide +kernel

/-- A scrub of the last group is due. -/
def scrubbing : State := { fw with now := 20000000000 }

/-- The last two of four places of wheel 63 of core 7 were never written. -/
def filling : State :=
  putWheel 16135 { wheelZero with pUsed := true, height := 4, fill := [(2, 4)], tail := 2, release := 2 }
    (rput R.spdWheelSize 16135 0x10004 wheelOn)

theorem witness_ScratchpadUpkeep :
    alive fw = true ∧ (63 : Nat) < 64 ∧ (15 : Nat) < 16 ∧
    (fw.now < tget 0 fw.spd.scrubTime (4 * 63 + 3) + scrubPeriod fw) ∧
    (tget 0 scrubbing.spd.scrubTime (4 * 63 + 3) + scrubPeriod scrubbing ≤ scrubbing.now ∧
      scrubNext scrubbing (4 * 63 + 3) (tget 0 scrubbing.spd.scrubAt (4 * 63 + 3)) (scrubRows scrubbing (4 * 63 + 3)) = some 0) ∧
    (let s := { scrubbing with spd := { scrubbing.spd with off := [1020, 1021, 1022, 1023] } }
     scrubNext s (4 * 63 + 3) (tget 0 s.spd.scrubAt (4 * 63 + 3)) 40 = none ∧ scrubSkips s (4 * 63 + 3) 4095 = true) ∧
    (wheelSt fw (wheelKey 7 63)).fill = [] ∧
    ((wheelSt filling (wheelKey 7 63)).fill = [(2, 4)] ∧ (2 : Nat) < 4 ∧
      (wheelSt filling (wheelKey 7 63)).written.contains 2 = false ∧
      isGap (places filling (wheelKey 7 63)) (wheelSt filling (wheelKey 7 63)) 2 = false ∧
      (wheelSt filling (wheelKey 7 63)).tail ≤ 2) := by decide +kernel

theorem test_power_up_poisons_the_bank :
    (let t := nextOf (exec (.spdSlicePwrWrite 32 0xFFFF) (rput R.spdSlicePwr 0 0x7FFF fw))
     (rowPoison t 0x3FFF, t.spd.goingUp)) = (2, [15]) := by decide +kernel

theorem test_fill_poisons_a_place :
    (let t := nextOf (exec (.wheelPoisonFill 7 63) filling)
     ((wheelSt t 16135).tail, rowPoison t (7 * 16384 + 2))) = (3, 4) := by decide +kernel

/-- Window 3 of function 0 is open over the first 4 KiB of HBM for requester 5. -/
def windowed : State :=
  modWin 3 (fun w => { w with
    st := .opened, hbm := true, readEn := true, reqs := [5], aperture := 0, size := 4096, base := 0x10000, ranged := true }) fw

/-- A write there. -/
def written : WinWrite := { req := 5, stamp := 0, dev := 0x10000, data := [1, 2] }

/-- It is in flight, accepted 4 ns ago. -/
def inFlight : State := { modWin 3 (fun w => { w with flight := [written] }) windowed with now := 4 }

theorem witness_WindowAccesses :
    (alive windowed = true ∧ (15 : Nat) < 32 ∧ 15 < nFns windowed ∧ winFor windowed 0 4094 2 = some 3) ∧
    (winSt fw 2047).flight = [] ∧ (winSt inFlight 3).flight = written :: [] ∧ written.stamp < inFlight.now ∧
    keyless inFlight 0 written.dev 2 = false ∧ keyless (encrypted false) 0 0 2 = true ∧
    ¬ written.stamp < ({ inFlight with now := 0 } : State).now ∧
    (let s := modWin 3 (fun w => { w with st := .draining }) windowed
     (winSt s 3).st = .draining ∧ (winSt s 3).flight = [] ∧ tkeys 0 s.windows = true) := by decide +kernel

theorem test_window_write_lands :
    (let t := nextOf (exec (.windowWriteLanded 3) { nextOf (exec (.windowWrite 0 5 8 [1, 2]) windowed) with now := 4 })
     mgets t.mem 0x10008 2) = [1, 2] := by decide +kernel

theorem test_window_read_unclaimed :
    (nextOf (exec (.windowRead 0 5 4095 2 false) windowed)).out = [.completion 0 1 []] := by decide +kernel

/-! ### Cameras -/

/-- A stream of tenant 0 on port 15, channel 15: 64 × 48 pixels of RAW8, period 33 ms, line timeout 1 ms; a frame is open. -/
def streamO : Stream := { streamZero with
  desc := [0x052AFF, 0x00300040, 33000000, 1000, 1000000] ++ List.replicate 11 0
  started := true, opened := true, frames := [frameZero 1 0 0 0 0], serial := 1, prevFs := some 0 }

/-- The same for embedded data. -/
def streamE : Stream := { streamO with desc := [0x0612FF, 0x00300040, 33000000, 1000, 1000000] ++ List.replicate 11 0 }

/-- One stream runs. -/
def camera (st : Nat) (v : Stream) (s : State) : State := { s with cam := { s.cam with streams := [(st, some v)] } }

theorem witness_CameraPacketsAreServed :
    (alive up0 = true ∧ (15 : Nat) < 16) ∧
    (let s0 := catchUp 15 (traffic 15 up0); streamsWith s0 (fun v => sdPort v == 15 && sdVc v == 15) = []) ∧
    (let s := camera 5 streamO up0
     let s0 := catchUp 15 (traffic 15 (wakeDevice s))
     alive s = true ∧ Ecc.good ≠ .bad ∧ streamsWith s0 (fun v => sdPort v == 15 && sdVc v == 15) = [5] ∧
     streamsWith (settle (takeFs 5 1 .good s0)) (fun v => sdPort v == 15 && sdVc v == 15) = [5]) ∧
    (∀ ecc ∈ [Ecc.good, .corrected],
      let t := catchUp 15 (traffic 15 (camera 5 streamO up0))
      let s0 := if ecc = .corrected then cnt R.camPortEccCorr 15 1 t else t
      ecc ≠ .bad ∧ streamAt s0 5 = some streamO ∧ streamO.opened = true ∧ (openFrame streamO).isSome = true ∧
      streamsWith s0 (fun v => sdPort v == 15 && sdVc v == 15) = [5] ∧
      streamsWith s0 (fun v => sdPort v == 15 && (sdVc v == 15 && sdDt v == 0x2A)) = [5]) ∧
    (let s0 := catchUp 15 (traffic 15 (camera 6 streamE up0))
     streamAt s0 6 = some streamE ∧ streamE.opened = true ∧ (openFrame streamE).isSome = true ∧
     streamsWith s0 (fun v => sdPort v == 15 && (sdVc v == 15 && sdDt v == 0x12)) = [6]) := by decide +kernel

theorem test_unclaimed_packet :
    rget (nextOf (exec (.csi2LineStart 15 14 1 .good) (camera 5 streamO up0))) R.camPortUnclaimed 15 = 1 := by decide +kernel

theorem test_frame_end_closes :
    (let t := nextOf (exec (.csi2FrameEnd 15 15 1 .good) (camera 5 streamO up0))
     ((streamAt t 5).bind (fun v => (lastFrame v).bind Frame.close))) = some 0 := by decide +kernel

/-- Stream 5 lands in wheel 63 of core 7, which has one place; line `n` is buffered. -/
def landing (n : Nat) : State :=
  camera 5 { streamO with buf := [{ serial := 1, line := n, pad := false, data := [1, 2, 3] }] }
    (rput R.ispLand 5 (1 + 7 * 256 + 63 * 65536) wheelOn)

theorem witness_StreamsTimeOutAndLand :
    (let s := camera 63 streamO up0; alive s = true ∧ streamAt s 63 = some streamO ∧ streamO.prevFs = some 0) ∧
    (let s := landing 1
     let l := rget s R.ispLand 5
     let k := wheelKey (bits l 15 8) (bits l 21 16)
     let w := pStep (places s k) { wheelSt s k with pNode := some (nodeName (256 + 5) 0) } 1 48
     (streamAt s 5).map (fun v => (v.buf.length, sdHeight v)) = some (1, 48) ∧ bit l 0 = true ∧ wheelEn s k = true ∧
     pOrigin w 1 = some 0 ∧ wheelRoom (places s k) w (0 + 1) = false) ∧
    (let s := landing 0
     let l := rget s R.ispLand 5
     let k := wheelKey (bits l 15 8) (bits l 21 16)
     let w := pStep (places s k) { wheelSt s k with pNode := some (nodeName (256 + 5) 0) } 1 48
     let data := ([1, 2, 3] : List Byte) ++ List.replicate (placeRows s k * 512 - 3) 0
     let s1 := putWheel k (markWritten (places s k) (0 + 0) w) (modStream 5 (fun v => { v with buf := [] }) s)
     bit l 0 = true ∧ wheelEn s k = true ∧ pOrigin w 1 = some 0 ∧ wheelRoom (places s k) w (0 + 0) = true ∧
     chkAccess s1 0 (lineAddr s k 0) data.length true = .ok) ∧
    streamAt fw 63 = none := by decide +kernel

theorem test_line_timeout :
    (let t := nextOf (exec (.lineTimeout 5) { camera 5 streamO up0 with now := 1500000 })
     ((streamAt t 5).bind (fun v => (lastFrame v).bind Frame.close))) = some 1000000 := by decide +kernel

theorem test_line_lands :
    (let t := nextOf (exec (.lineLanded 5) (landing 0))
     (mgets t.mem (rowAddr (7 * 16384)) 4, (streamAt t 5).map (fun v => v.buf.length))) = ([1, 2, 3, 0], some 0) := by
  decide +kernel

/-- A set of two entries is being written in a window that is open until 2 ms; the first transfer is under way. -/
def streamW : Stream := { streamO with
  window := some (0, 2000000), writing := some { epoch := 3, entries := [(0x3500, 1), (0x3501, 2)] }, active := true
  busy := some 0, wprofile := [2] ++ List.replicate 8 0 }

theorem witness_SettingsAndFrameSync :
    (let v := { streamO with windows := [(0, 1000000)] }
     let s := camera 63 v up0
     alive s = true ∧ streamAt s 63 = some v ∧ v.windows = (0, 1000000) :: [] ∧ v.window = none ∧ v.started = true ∧
     0 ≤ s.now) ∧
    (let s := { camera 63 streamW up0 with now := 2000000 }
     alive s = true ∧ streamAt s 63 = some streamW ∧ streamW.window = some (0, 2000000) ∧ 2000000 ≤ s.now ∧
     streamW.ending = none ∧ streamW.busy = some 0 ∧ streamW.writing.isSome = true ∧ bits (wd streamW.wprofile 0) 1 0 = 2 ∧
     0 + 1000000 ≤ s.now) ∧
    (let v := { streamW with ending := some (7, 0), busy := none }
     streamAt (camera 63 v up0) 63 = some v ∧ v.ending = some (7, 0)) ∧
    bits (wd { streamW with wprofile := [0] }.wprofile 0) 1 0 ≠ 2 ∧ streamAt up0 63 = none ∧
    (let f := { fsoReset with ctrl := 1, period := 100, phase := 10 }
     let s := { putFso 7 f fw with now := 440 }
     f = fsoSt s 7 ∧ bits f.ctrl 1 0 = 1 ∧ f.period ≠ 0 ∧ f.phase ≤ s.now / 4 ∧
     s.now / 4 - (s.now / 4 - f.phase) % f.period = 110 ∧ f.lastDue ≤ 110) ∧
    (let f := { fsoReset with ctrl := 2, due := [400] }
     let s := { putFso 7 f fw with now := 440 }
     f = fsoSt s 7 ∧ bits f.ctrl 1 0 = 2 ∧ f.due = 400 :: [] ∧ 400 ≤ s.now) ∧
    (bits (fsoSt fw 7).ctrl 1 0 = 0 ∧ fsoReset.asserted = false ∧ ([1, 4, 4] : List Nat).Pairwise (· ≤ ·)) ∧
    (streamW.ending = none ∧ streamW.busy = some 0 ∧ streamW.writing.isSome = true ∧ bits (wd streamW.sprofile 0) 1 0 ≠ 2 ∧
      bits (wd { streamW with sprofile := [2] }.sprofile 0) 1 0 = 2) ∧
    (fsoSt (putFso 7 { fsoReset with asserted := true } fw) 7).asserted = true ∧
    (false = bit (rget (wakeDevice fw) R.camFsiCtrl 0) 3 ∧ fw.pwr.st = .run ∧ true ≠ bit (rget fw R.camFsiCtrl 0) 3 ∧
      tget none fw.cam.fsiEdge 3 = none) := by decide +kernel

theorem test_acknowledged_entry_goes_on :
    (let t := nextOf (exec (.sensorTransferDone 63 true 1) (camera 63 streamW up0))
     (streamAt t 63).map (fun v => v.entry)) = some 1 := by decide +kernel

theorem test_sync_pulse :
    (let f := { fsoReset with ctrl := 1, period := 100, phase := 10 }
     (nextOf (exec (.fsyncOutAssert 7) { putFso 7 f fw with now := 440 })).out) = [.fsync 7 true] := by decide +kernel

/-! ### Tasks -/

/-- A node of a class, one stripe, its descriptor at 64 KiB. -/
def nodeOf (cls : Nat) : Node where
  cls := cls
  prio := 7
  ordered := false
  group := 0
  serial := false
  coreSet := 0
  stripes := 1
  gang := 1
  height := 0
  depInit := 0
  outFirst := 0
  outCount := 0
  w0Kind := 0
  w0Obj := 0
  w0Val := 0
  w1Kind := 0
  w1Obj := 0
  w1Val := 0
  work := 0x10000
  workCount := 1
  sluice := 0
  sluiceEn := false
  early := 0
  late := 1000
  gen := 0

/-- Template 255 with one node and one running instance, whose task is in a phase. -/
def tmplOf (nd : Node) (dep : Nat) (p : Phase) : Tmpl := { timerTmpl with
  nodes := [nd]
  coreSets := [2 ^ 64 - 1]
  slots := [{ instFree with
    st := .running, seq := 1
    nodes := [{ cells := [{ dep := dep, w0 := nd.w0Kind == 0, w1 := nd.w1Kind == 0, phase := p, flags := 0 }]
                handles := [], prevAbsent := false, flags := 0, stamped := 0, lastStamp := 0, verdict := false, failed := false }] }, instFree] }

/-- Its task. -/
def taskOf (cls obj : Nat) : Task :=
  { tmpl := 255, slot := 0, seq := 1, node := 0, stripe := 0, tag := 0, cls := cls, prio := 7, tenant := 0, since := 0,
    obj := obj, orphan := none }

/-- Every core is available and a node of the class has its task on the ready list. -/
def readyOf (nd : Node) (obj : Nat) (s : State) : State :=
  let s1 := putTmpl 255 (some (tmplOf nd 0 .ready)) { s with availN := 2 ^ 64 - 1, availV := 15, availI := 15 }
  modSeq (fun q => { q with ready := [taskOf nd.cls obj] }) s1

/-- Its run on an engine. -/
def runOf (cls eng : Nat) : Run := newRun fw (taskOf cls eng) eng []

/-- The node's task runs. -/
def runningOf (nd : Node) (r : Run) (s : State) : State :=
  let s1 := putTmpl 255 (some (tmplOf nd 0 .running)) { s with availN := 2 ^ 64 - 1, availV := 15, availI := 15 }
  modSeq (fun q => { q with runs := [r] }) s1

/-- Words in memory at 64 KiB. -/
def descr (w : List Nat) (s : State) : State := { s with mem := mputs s.mem 0x10000 (w.flatMap (leBytes 4)) }

/-! ### The sequencer's own events -/

/-- A node that waits on a time. -/
def waitNode (second : Bool) : Node :=
  if second then { nodeOf 1 with w1Kind := 4, w1Val := 500 } else { nodeOf 1 with w0Kind := 4, w0Val := 500 }

/-- The node's entry, number 0, holds an uncorrectable error. -/
def badEntry : State :=
  modSeq (fun q => { q with nodeUpsets := [0] }) (runningOf (nodeOf 1) (runOf 1 (engV 3 0)) fw)

theorem witness_NodeEntriesFailAndAreReplaced :
    (match tmplAt badEntry 255, instAt badEntry 255 0 with
     | some v, some i => i.st == .running && unreadable badEntry (v.nodeBase + 0) && (nodeAt v 0).isSome
     | _, _ => false) = true ∧ 0 < fw.nv.spareNode ∧
    ({ fw with nv := { fw.nv with spareNode := 0 } } : State).nv.spareNode = 0 := by decide +kernel

theorem test_entry_struck :
    (strike [(0x100005, .double), (0x100006, .single 3)] fw).seq.nodeUpsets = [5] := by
  decide +kernel

theorem test_entry_retired_at_unload :
    (let s := modSeq (fun q => { q with nodeBad := [0] }) { badEntry with nv := { badEntry.nv with spareNode := 0 } }
     let t := unloadTmpl 255 s
     ((findReg R.seqNodeFree).map (fun d => regVal t d.1 0), (findReg R.pwrSpareNode).map (fun d => regVal t d.1 0), t.seq.nodeBad)) =
      (some 131071, some 65536, []) := by
  decide +kernel

/-- A finished run on the stereo engine of core 3, and a stream pass whose data have moved. -/
def doneRun : Run := { runOf 1 (engV 3 0) with worked := true, cycles := 10 }
def movedPass : Run := { runOf 7 (engCtx 255) with info := [0x20000, 0, 0, 0, 0, 0, 64, 7, 1], pos := 1 }

/-- Sluice 511 guards the node of template 255. -/
def guarded : State :=
  let s := runningOf { nodeOf 1 with sluice := 511, sluiceEn := true } (runOf 1 (engV 3 0)) { fw with now := 1000 }
  modSeq (fun q => { q with sluices := [(511, { bound := some (255, 0), faults := [0, 0], lastPass := none, lastTime := 0 })] }) s

/-- The instance drains; its task is cancelled. -/
def draining : State :=
  let s := runningOf (nodeOf 1) { runOf 1 (engV 3 0) with cancelled := true } fw
  modInst 255 0 (fun i => { i with st := .draining }) s

theorem witness_SequencerEvents :
    (alive withTimer = true ∧ tmplAt withTimer 255 = some timerTmpl ∧ timerTmpl.armed = true ∧ timerTmpl.trigKind = 3) ∧
    (tmplAt withTimer 0 = none) ∧
    (∀ b ∈ [false, true],
      let s := putTmpl 255 (some (tmplOf (waitNode b) 1 .waiting)) fw
      tmplAt s 255 = some (tmplOf (waitNode b) 1 .waiting) ∧
      nodeAt (tmplOf (waitNode b) 1 .waiting) 0 = some (waitNode b) ∧
      (if b then (waitNode b).w1Kind else (waitNode b).w0Kind) = 4) ∧
    (fw.now < fw.seq.windowStart + 1000000) ∧
    (let s := { fw with now := 1000000 }; alive s = true ∧ s.seq.windowStart + 1000000 ≤ s.now ∧ s.seq.runs = []) ∧
    (let s := runningOf (nodeOf 1) doneRun fw
     runOn s (engV 3 0) = some doneRun ∧ engV 3 0 < 0x10100 ∧ passMoved doneRun = false) ∧
    (let s := runningOf (nodeOf 7) movedPass fw
     runOn s (engCtx 255) = some movedPass ∧ engCtx 255 < 0x10100 ∧ passMoved movedPass = true ∧
     runOn (settle (endPass (engCtx 255) movedPass s)) (engCtx 255) =
       some { movedPass with worked := true }) ∧
    runOn fw (engCtx 255) = none ∧
    (∃ v nd, (sluiceSt guarded 511).bound = some (255, 0) ∧ tmplAt guarded 255 = some v ∧ nodeAt v 0 = some nd) ∧
    (sluiceSt fw 511).bound = none ∧ (instAt draining 255 0).isSome = true := by
  refine ⟨by decide +kernel, by decide +kernel, by decide +kernel, by decide +kernel, by decide +kernel, by decide +kernel,
    by decide +kernel, by decide +kernel, ⟨_, _, by decide +kernel, rfl, rfl⟩, by decide +kernel, by decide +kernel⟩

theorem test_time_wait :
    (let s := putTmpl 255 (some (tmplOf (waitNode true) 1 .waiting)) { fw with now := 500, availV := 15 }
     (nextOf (exec (.timeWaitExpiry 255 0 0 true) s)).seq.ready.length) = 1 := by decide +kernel

theorem test_task_completes :
    (let t := nextOf (exec (.taskComplete (engV 3 0)) (runningOf (nodeOf 1) doneRun fw))
     (t.seq.runs.length, (instAt t 255 0).map (fun i => i.st))) = (0, some .free) := by decide +kernel

theorem test_sluice_trips :
    (let t := nextOf (exec (.sluiceWindowEnd 511) guarded); (sluiceSt t 511).faults) ≠ [0, 0] := by decide +kernel

theorem test_instance_drained :
    (let t := nextOf (exec (.instanceDrained 255 0) draining); (instAt t 255 0).map (fun i => i.st)) = some .free := by
  decide +kernel

/-! ### Millraces -/

/-- A handle of the running task for millrace 1023. -/
def push1023 : Push := pushOf (runOf 1 (engV 3 0)) 1023 5

/-- Millrace 1023 is enabled with depth 16 and holds `n` handles; `l` wait; the task of `push1023` runs. -/
def millrace (n : Nat) (l : List Push) : State :=
  let s := runningOf (nodeOf 1) (runOf 1 (engV 3 0)) (rput R.mrqCfg 1023 0x000F0001 fw)
  modSeq (fun q => { q with pushes := l }) (mrqPut 1023 ((List.range n).map (fun i => i + 1)) s)

/-- A node that waits for two handles of millrace 1023. -/
def claimer (second : Bool) : Node :=
  if second then { nodeOf 1 with w1Kind := 2, w1Obj := 1023, w1Val := 2 } else { nodeOf 1 with w0Kind := 2, w0Obj := 1023, w0Val := 2 }

/-- Template 255 takes its triggers from millrace 1023. -/
def handleTmpl : Tmpl := { timerTmpl with trigKind := 4, trigObj := 1023 }

/-- Its instance claims from millrace 1023. -/
def claiming (b : Bool) (n : Nat) : State := putTmpl 255 (some (tmplOf (claimer b) 1 .waiting)) (millrace n [])

theorem witness_MillracesServeInOrder :
    pushLive fw push1023 = false ∧
    (let s := rput R.mrqCfg 1023 0 (millrace 0 []); pushLive s push1023 = true ∧ mrqEn s 1023 = false) ∧
    (∀ n ∈ [0, 15, 16],
      let s := millrace n []
      tkeys 0 s.mrq = true ∧ pushLive s push1023 = true ∧ mrqEn s 1023 = true ∧ mrqDepth s 1023 = 16 ∧
      (mrqQ s 1023).length = n) ∧
    (let s := millrace 15 [push1023]
     alive s = true ∧ s.seq.pushes.filter (fun p => p.mrq == 1023) = [push1023] ∧ pushLive s push1023 = true ∧
     mrqEn s 1023 = true ∧ tkeys 0 s.mrq = true ∧ (mrqQ s 1023).length < mrqDepth s 1023) ∧
    (∀ b : Bool, firstClaim (claimants (claiming b 2) 1023) = some
        { started := 0, order := 0, tmpl := 255, slot := 0, node := 0, second := b, count := 2 } ∧
      mrqEn (claiming b 2) 1023 = true ∧ 2 ≤ (mrqQ (claiming b 2) 1023).length) ∧
    (let s := putTmpl 255 (some handleTmpl) (millrace 2 [])
     mrqQ s 1023 = 1 :: [2] ∧ mrqEn s 1023 = true ∧ claimants s 1023 = [] ∧
     rotFind 256 (tget 0 s.seq.ptrs (ptrTrig 1023)) (fun t => match tmplAt s t with
       | some v => v.armed && v.trigKind == 4 && v.trigObj == 1023 && (freeSlot v).isSome
       | none => false) = some 255) ∧
    mrqQ fw 1023 = [] := by
  refine ⟨by decide +kernel, by decide +kernel, by decide +kernel, by decide +kernel, fun b => ?_, ?_, by decide +kernel⟩
  · cases b <;> exact ⟨rfl, by decide +kernel, by decide +kernel⟩
  · exact ⟨by decide +kernel, by decide +kernel, by decide +kernel, by decide +kernel⟩

/-- A host's push waits for its turn at millrace 1023. -/
def hostWaits (n : Nat) : State :=
  setWait 16 { what := .pushTurn 1023 7 0, head := 0, tag := 0, applied := 0, r0 := 0 } (millrace n [])

theorem witness_MillracesServeInOrder_turns :
    (let s := millrace 15 []; pushContended s 1023 = false ∧ hostPushes s 1023 = []) ∧
    (let s := millrace 15 [push1023]
     tkeys 0 s.mrq = true ∧ pushLive s push1023 = true ∧ mrqEn s 1023 = true ∧ (mrqQ s 1023).length < mrqDepth s 1023 ∧
     pushContended s 1023 = true ∧ hostPushes s 1023 = []) ∧
    (let s := hostWaits 15
     taskPushes s 1023 = [] ∧ (∃ w, hostPushes s 1023 = [.host 16 w 7 0]) ∧ tkeys 0 s.mrq = true ∧
     pushCheck s 0 1023 = none) ∧
    (pushWinner 0 [.task push1023] = some (.task push1023)) := by
  refine ⟨by decide +kernel, by decide +kernel, ⟨by decide +kernel, ⟨_, rfl⟩, by decide +kernel, by decide +kernel⟩,
    by decide +kernel⟩

theorem test_wheel_in_use_stays_enabled :
    (let s := putWheel 16135 { wheelSt wheelOn 16135 with pNode := some (nodeName 255 0) } (runningOf (nodeOf 1) (runOf 1 (engV 3 0)) wheelOn)
     (bit (rget s R.spdWheelCfg 16135) 0 && wheelBusy s 16135,
      rget (nextOf (exec (.spdWheelCfgWrite 0 0) s)) R.hostFnWrDenied 0)) = (true, 1) := by decide +kernel

theorem test_handle_trigger :
    (let t := nextOf (exec (.handleTrigger 1023) (putTmpl 255 (some handleTmpl) (millrace 2 [])))
     (mrqQ t 1023, (instAt t 255 0).bind (fun i => i.handle))) = ([2], some 1) := by decide +kernel

theorem test_handles_are_claimed :
    (let t := nextOf (exec (.handleClaim 1023) (claiming true 3))
     (mrqQ t 1023, (instAt t 255 0).map (fun i => i.nodes.map (fun m => m.handles)))) = ([3], some [[1, 2]]) := by decide +kernel

theorem witness_RegionsAndWindows_waiting :
    (let r : Region := { pcie := 0, size4k := 0, dev := regionDev 0 63 }
     let s := sent 0x11 [63] (runningOf (nodeOf 7) { runOf 7 (engCtx 255) with lent := some (63, r) } (putRegion 0 63 (some r) up0))
     serves s lane15 0x11 (head s) ∧ tget none (fnSt (servedState s (head s)) 0).regions 63 = some r ∧
     waitMet (unmapRegion 0 63 r (servedState s (head s))) (.regionFree 0 63) = false) := by
  unfold serves; decide +kernel

/-! ### Vision and image engines -/

/-- The classes of core 3's vision engines: class, engine, descriptor word 0, command. -/
def visions : List (Nat × Nat × Nat × Instr × (State → Task → Bool)) :=
  [(1, engV 3 0, 0, .steTask 3, fun _ _ => true), (2, engV 3 1, 0, .ofeTask 3, fun _ _ => true),
   (3, engV 3 2, 0, .kpeDetect 3, fun s => kpTakes s 0), (3, engV 3 2, 1, .kpeTrack 3, fun s => kpTakes s 1),
   (3, engV 3 2, 2, .kpeMatch 3, fun s => kpTakes s 2),
   (4, engV 3 3, 0, .wpeResample 3 0, fun s k => asksInvert s k == false),
   (4, engV 3 4, 0, .wpeResample 3 1, fun s k => asksInvert s k == false),
   (4, engV 3 4, 8, .wpeMeshInvert 3 1, fun s k => asksInvert s k == true), (5, engV 3 5, 0, .pyeTask 3, fun _ _ => true)]

/-- The arbiter's pointer of a class stands at an engine. -/
def pointed (cls eng : Nat) (s : State) : State :=
  modSeq (fun q => { q with
    ptrs := tset 0 q.ptrs (ptrClass cls) (((List.range 16).find? (fun i => classEng cls i == eng)).getD 0) }) s

theorem witness_VisionEnginesTakeTheirTasks :
    (∀ x ∈ visions,
      let s := pointed x.1 x.2.1 (readyOf (nodeOf x.1) 0 (descr [x.2.2.1] fw))
      alive s = true ∧ runOn s x.2.1 = none ∧ pickCore s x.1 3 x.2.1 = some (taskOf x.1 0) ∧
      x.2.2.2.2 s (taskOf x.1 0) = true) ∧
    (∀ x ∈ visions, runOn fw x.2.1 = none ∧ pickCore fw x.1 3 x.2.1 = none) ∧
    (∀ x ∈ visions, ∀ w ∈ [false, true],
      let r := { runOf x.1 x.2.1 with worked := w }
      let s := runningOf (nodeOf x.1) r (descr [x.2.2.1] fw)
      runOn s x.2.1 = some r ∧ r.worked = w ∧ r.cancelled = false ∧ r.task.cls = x.1 ∧ x.2.2.2.2 s r.task = true) := by
  decide +kernel

theorem test_turn_of_another_engine :
    nextOf (exec (.steTask 3) (readyOf (nodeOf 1) 0 (descr [0] fw))) = readyOf (nodeOf 1) 0 (descr [0] fw) := by decide +kernel

theorem witness_VisionEnginesTakeTheirTasks_left_alone :
    ∀ x ∈ visions,
      let r := { runOf x.1 x.2.1 with cancelled := true }
      let q := runOf ((x.1 + 1) % 6) x.2.1
      runOn (runningOf (nodeOf x.1) r fw) x.2.1 = some r ∧ r.cancelled = true ∧
      runOn (runningOf (nodeOf 1) q fw) x.2.1 = some q ∧ q.task.cls ≠ x.1 := by decide +kernel

theorem witness_VisionTasksAreCheckedThenRun :
    ∀ x ∈ visions,
      let r := runOf x.1 x.2.1
      let s := runningOf (nodeOf x.1) r (descr [x.2.2.1] fw)
      alive s = true ∧ (taskCtx s r.task).map (fun c => c.2.1.work) = some 0x10000 ∧ r.worked = false ∧
      r.cancelled = false ∧ runOn s x.2.1 = some r ∧ r.task.cls = x.1 ∧ x.2.2.2.2 s r.task = true := by decide +kernel

theorem test_stereo_task_is_taken :
    (let t := nextOf (exec (.steTask 3) (pointed 1 (engV 3 0) (readyOf (nodeOf 1) 0 (descr [0] fw))))
     (t.seq.ready.length, rget t R.steEngFault 3)) = (0, 1) := by decide +kernel

/-- A parameter block with the fewest stages, a tone curve that rises, statistics over the whole frame. -/
def goodBlock : List Nat := (List.range 193).map (fun k =>
  if k = 0 then 0x1081 else if k = 35 then 0x300040 else if 128 ≤ k then (k - 128) / 2 else 0)

theorem goodBlock_sound : ispBlockReserved goodBlock = false := by
  have h : ∀ k, wd goodBlock (6656 + k) = 0 := fun k => List.getD_eq_default _ 0 (by
    simp only [goodBlock, List.length_map, List.length_range]; omega)
  unfold ispBlockReserved
  simp only [h]
  simp only [Bool.or_eq_false_iff]
  refine ⟨⟨⟨⟨⟨⟨⟨⟨⟨⟨⟨⟨?_, ?_⟩, ?_⟩, ?_⟩, ?_⟩, ?_⟩, ?_⟩, ?_⟩, ?_⟩, ?_⟩, ?_⟩, ?_⟩, ?_⟩ <;> decide +kernel

/-- The image core of the tests works on stream 0, in frame 1. -/
def imaging (r : Run) (v : Stream) : State :=
  let s := runningOf (nodeOf 0) r (camera 0 v up0)
  { s with isp := [(192, some { ispFresh 0 with serial := 1, pseq := 1 })]
           ispBanks := [(6, some { stream := 0, slot := 0, pseq := 1, words := goodBlock })] }

/-- Its task begins, with its descriptor's words all 0; it waits for its record. -/
def imageRun : Run := runOf 0 (engI 3 0)
def recordRun : Run := { imageRun with aux := 1, info := [0, 1] }

/-- Stream 0 with its frame closed. -/
def streamClosed : Stream := { streamO with frames := [{ frameZero 1 0 0 0 0 with close := some 100 }], opened := false }

/-- Its task begins its frame; the block slots at 0 offer the block of word 0 `w`. -/
def imageFirst (w : List Byte) : State := { imaging imageRun streamO with isp := [], mem := mputs [] 0 w }

theorem witness_ImageTasksPassTheirCheck :
    ∀ s ∈ [imaging imageRun streamO, imageFirst [0, 0, 1, 1], imageFirst [0, 0, 1, 3]],
      ispCheck s 3 imageRun.task (descWords s imageRun.task 48)
        (ispPeek s 3 imageRun (descWords s imageRun.task 48)) false = 0 := by
  intro s hs
  simp only [List.mem_cons, List.not_mem_nil, or_false] at hs
  have h : ispPeek s 3 imageRun (descWords s imageRun.task 48) = some goodBlock := by
    rcases hs with rfl | rfl | rfl <;> decide +kernel
  rw [h]
  unfold ispCheck
  simp only [goodBlock_sound, Bool.or_false]
  rcases hs with rfl | rfl | rfl <;> decide +kernel

theorem witness_ImageCoresWorkThroughFrames :
    (let s := pointed 0 (engI 3 0) (readyOf (nodeOf 0) 0 (camera 0 streamO up0))
     alive s = true ∧ runOn s (engI 3 0) = none ∧ ispPick s 3 = some (taskOf 0 0) ∧ runOn up0 (engI 3 0) = none ∧
     ispPick up0 3 = none) ∧
    (let s := imaging imageRun streamO
     let d := descWords s imageRun.task 48
     runOn s (engI 3 0) = some imageRun ∧ imageRun.task.cls = 0 ∧ imageRun.worked = false ∧ imageRun.cancelled = false ∧
     imageRun.aux ≠ 1 ∧ bits (wd d 0) 5 0 = 0 ∧
     chkAccess s imageRun.task.tenant (descAddr s imageRun.task) 192 false = .ok ∧
     streamGranted s imageRun.task.tenant 0 = true ∧
     streamAt s 0 = some streamO ∧ taskFrame s imageRun.task = some (frameZero 1 0 0 0 0) ∧
     (let x := ispFind s 0 1
      x.serial = 1 ∧ ispBlock s 3 imageRun.task.tenant 0 x.slot x.pseq x.block = (.ok, goodBlock))) ∧
    (let s := { imaging imageRun streamO with mem := mputs [] 0x10000 [63] }
     let d := descWords s imageRun.task 48
     streamGranted s 0 63 = true ∧ ispCheck s 3 imageRun.task d (ispPeek s 3 imageRun d) false = 2) := by decide +kernel

/-- A task that frees no engine: at work, cancelled, of another kind. -/
theorem witness_ImageCoresWorkThroughFrames_left_alone :
    ∀ r ∈ [{ imageRun with worked := true }, { imageRun with cancelled := true }, runOf 1 (engI 3 0)],
      runOn (imaging r streamO) (engI 3 0) = some r ∧ (r.task.cls ≠ 0 ∨ r.worked = true ∨ r.cancelled = true) := by
  decide +kernel

/-- The node's descriptor lies outside the tenant's grants; its tenant has no stream; the stream has no frame. -/
def imageNowhere : State := runningOf { nodeOf 0 with work := 2 ^ 41 } imageRun (camera 0 streamO up0)
def imageUngranted : State :=
  let s := imaging imageRun streamO
  { s with sec := { s.sec with table := s.sec.table.filter (fun p => p.1 != 3 && p.1 != 4) } }
def imageNoFrame : State := imaging imageRun { streamO with frames := [] }

theorem witness_ImageCoresWorkThroughFrames_stopped :
    (runOn imageNowhere (engI 3 0) = some imageRun ∧
     chkAccess imageNowhere 0 (descAddr imageNowhere imageRun.task) 192 false ≠ .ok) ∧
    (runOn imageUngranted (engI 3 0) = some imageRun ∧ imageRun.stalled = false ∧
     chkAccess imageUngranted 0 (descAddr imageUngranted imageRun.task) 192 false = .ok ∧
     streamGranted imageUngranted 0 0 = false) ∧
    (let r := { imageRun with stalled := true }
     runOn (imaging r streamO) (engI 3 0) = some r ∧ r.stalled = true) ∧
    (let d := descWords imageNoFrame imageRun.task 48
     ispCheck imageNoFrame 3 imageRun.task d (ispPeek imageNoFrame 3 imageRun d) false = 0 ∧
     taskFrame imageNoFrame imageRun.task = none) := by decide +kernel

theorem witness_ImageCoresWorkThroughFrames_begins :
    (let s := imageFirst [0, 0, 1, 1]
     let d := descWords s imageRun.task 48
     runOn s (engI 3 0) = some imageRun ∧
     streamAt s (bits (wd d 0) 5 0) = some streamO ∧ taskFrame s imageRun.task = some (frameZero 1 0 0 0 0) ∧
     (ispFind s (bits (wd d 0) 5 0) 1).serial ≠ 1 ∧ chkAccess s 0 (addr48 d 1) 128 false = .ok ∧
     selectSlot (rdWords s 0 (addr48 d 1) 32) (bindingEpoch streamO (frameZero 1 0 0 0 0)) =
       some (0, [0x01010000, 0, 0, 0], false) ∧ slotStatus [0x01010000, 0, 0, 0] = 0 ∧
     ispBlock s 3 0 (bits (wd d 0) 5 0) 0 1 0 = (.ok, goodBlock)) ∧
    (let s := imageFirst []
     let d := descWords s imageRun.task 48
     runOn s (engI 3 0) = some imageRun ∧ ispCheck s 3 imageRun.task d (ispPeek s 3 imageRun d) false = 0 ∧
     (ispFind s 0 1).serial ≠ 1 ∧ chkAccess s 0 (addr48 d 1) 128 false = .ok ∧
     selectSlot (rdWords s 0 (addr48 d 1) 32) (bindingEpoch streamO (frameZero 1 0 0 0 0)) = none) ∧
    (let s := imageFirst [0, 0, 1, 3]
     let d := descWords s imageRun.task 48
     (ispFind s 0 1).serial ≠ 1 ∧
     (selectSlot (rdWords s 0 (addr48 d 1) 32) (bindingEpoch streamO (frameZero 1 0 0 0 0))).map (fun x => slotStatus x.2.1) =
       some 1) := by decide +kernel

/-- The descriptor's ring lies outside the tenant's grants. -/
def imageNoRing : State :=
  let s := imageFirst []
  { s with mem := mputs s.mem 0x10004 (leBytes 4 0 ++ leBytes 4 0x80) }

theorem witness_ImageCoresWorkThroughFrames_ring_faults :
    let s := imageNoRing
    let d := descWords s imageRun.task 48
    ispCheck s 3 imageRun.task d (ispPeek s 3 imageRun d) false = 0 ∧ (ispFind s 0 1).serial ≠ 1 ∧
    chkAccess s 0 (addr48 d 1) 128 false ≠ .ok := by decide +kernel

theorem witness_ImageCoresWorkThroughFrames_record :
    (let s := imaging recordRun streamClosed
     let f := { frameZero 1 0 0 0 0 with close := some 100 }
     runOn s (engI 3 0) = some recordRun ∧ wd recordRun.info 0 = 0 ∧ streamAt s 0 = some streamClosed ∧
     (ispFrameCtx s 0 1).serial = 1 ∧
     (ispFrameCtx { s with isp := [] } 0 1).serial = 0 ∧
     (ispAt s 3 0).map (fun x => x.serial) = some 1 ∧
     streamClosed.frames.find? (fun f => f.serial == wd recordRun.info 1) = some f ∧ recordRun.task.cls = 0 ∧
     recordRun.aux = 1 ∧ recordRun.worked = false ∧ recordRun.cancelled = false ∧ f.close.isSome = true) ∧
    (let s := imaging recordRun streamO
     streamO.frames.find? (fun f => f.serial == wd recordRun.info 1) = some (frameZero 1 0 0 0 0) ∧
     (frameZero 1 0 0 0 0).close = none ∧ runOn s (engI 3 0) = some recordRun) ∧
    (runOn up0 (engI 3 0) = none ∧
     streamAt (runningOf (nodeOf 0) recordRun up0) 0 = none ∧
     ({ streamO with frames := [] } : Stream).frames.find? (fun f => f.serial == 1) = none) := by
  decide +kernel

theorem test_record_written :
    ((runOn (nextOf (exec (.ispFrameRecord 3) (imaging recordRun streamClosed))) (engI 3 0)).map
      (fun r => (r.aux, r.worked))) = some (0, true) := by decide +kernel

theorem witness_TaskWorkIsAllOrNothing :
    let s := runningOf (nodeOf 1) (runOf 1 (engV 3 0)) fw
    runOn s (engV 3 0) = some (runOf 1 (engV 3 0)) ∧
    chkAll s 0 [(0x10000, 64)] ([(0x20000, ([7] : List Byte))].map (fun x => (x.1, x.2.length))) = .ok ∧
    chkAll s 0 [(0x10000, 64)] ([(2 ^ 41, ([7] : List Byte))].map (fun x => (x.1, x.2.length))) ≠ .ok := by decide +kernel

/-! ### Neural cores -/

/-- The 17 operations of core 63. -/
def todOps : List (Nat × Instr) :=
  [(0x01, .todConv2d 63), (0x02, .todMatmul 63), (0x03, .todAttention 63), (0x04, .todEltwise 63), (0x05, .todAct 63),
   (0x06, .todNorm 63), (0x07, .todPool 63), (0x08, .todResize 63), (0x09, .todReduce 63), (0x0A, .todSoftmax 63),
   (0x0B, .todGather 63), (0x0C, .todScatter 63), (0x0D, .todTransform 63), (0x0E, .todQuant 63), (0x0F, .todTopk 63),
   (0x10, .todNms 63), (0x11, .todArgmax 63)]

/-- A gang of one, on core 63. -/
def gang63 : Run := { runOf 6 (engN 63 32) with gang := [63] }

/-- It has reached a descriptor of an operation whose other words are 0. -/
def todReached (op : Nat) : State := runningOf (nodeOf 6) gang63 (descr [op] fw)

/-- A vector of four FP32 at a base. -/
def vector (base : Nat) : List Byte := [0x100A, base, 0, 0, 4, 0, 0, 0, 0, 0, 4].flatMap (leBytes 4)

/-- It has reached a QUANT of the FP32 vector (1, 2, 3, 4) to FP32, unsplit. -/
def quantReached : State :=
  let s := runningOf (nodeOf 6) gang63 (descr [0x70E, 0, 0, 0, 0x11000, 0, 0, 0, 0, 0, 0, 0, 0x12000] fw)
  let one : List Byte := [0x3F800000, 0x40000000, 0x40400000, 0x40800000].flatMap (leBytes 4)
  { s with mem := mputs (mputs (mputs s.mem 0x11000 (vector 0x20000)) 0x12000 (vector 0x30000)) 0x20000 one }

theorem witness_NeuralCoresRunTheirGangs :
    (alive fw = true ∧ pickTask fw 6 (fun k => decide (gangOf fw k ≤ (freeCores fw k).length)) = none) ∧
    (let s := readyOf { nodeOf 6 with gang := 64 } 0 fw
     let k := taskOf 6 0
     alive s = true ∧ pickTask s 6 (fun k => decide (gangOf s k ≤ (freeCores s k).length)) = some k ∧
     ((freeCores s k).take (gangOf s k)).length = 64) ∧
    coreTenant fw 63 ≠ 1 := by decide +kernel

/-- Core 63 holds saved accumulators of tenant 0 in a row its grant does not reach, and serves tenant 1. -/
def switchFaults : State :=
  let a : Acc := { tmpl := 255, slot := 0, seq := 1, node := 0, stripe := 0, final := true, shape := [1], split := 7, gang := 1,
                   vals := [], row := 0, saved := some 0 }
  rput R.ncCoreStat 63 256 { fw with accs := [(64 * 63, some a)] }

theorem witness_NeuralCoresRunTheirGangs_switch :
    (let s := readyOf { nodeOf 6 with gang := 64 } 0 fw
     let k := taskOf 6 0
     let taken := (freeCores s k).take (gangOf s k)
     let gang := (List.range 64).filter (fun c => taken.contains c)
     let s1 := dispatch k (engN ((gang.head?).getD 0) 32) gang s
     (switchGang gang k.tenant (gang.foldl (fun s c => cacheStart c (coreTenant s c != k.tenant) s) s1)).2.2 = .ok) ∧
    (switchGang [63] 0 switchFaults).2.2 ≠ .ok ∧
    (saveOut 63 (coreTenant fw 63) fw = (fw, false) ∧ (restoreIn 63 1 fw).2.1 = false) := by decide +kernel

theorem witness_NeuralCoresRunTheirGangs_switch_faults :
    (let s := readyOf { nodeOf 6 with gang := 64 } 0 switchFaults
     let k := taskOf 6 0
     let taken := (freeCores s k).take (gangOf s k)
     let gang := (List.range 64).filter (fun c => taken.contains c)
     let s1 := dispatch k (engN ((gang.head?).getD 0) 32) gang s
     pickTask s 6 (fun k => decide (gangOf s k ≤ (freeCores s k).length)) = some k ∧
     (switchGang gang k.tenant (gang.foldl (fun s c => cacheStart c (coreTenant s c != k.tenant) s) s1)).2.2 ≠ .ok) := by
  decide +kernel

theorem witness_NeuralCoresRunTheirGangs_operations :
    (runOn fw (engN 63 32) = none ∧ alive fw = true) ∧
    (∀ x ∈ todOps,
      let s := todReached x.1
      let r := { gang63 with worked := true }
      runOn s (engN 63 32) = some gang63 ∧ gang63.task.cls = 6 ∧ gang63.worked = false ∧ gang63.cancelled = false ∧
      todAddr s gang63 = some (0x10000, 1) ∧ rdN s gang63.task.tenant 0x10000 1 = x.1 ∧
      runOn (runningOf (nodeOf 6) r s) (engN 63 32) = some r ∧ r.worked = true) ∧
    (∀ r ∈ [{ gang63 with cancelled := true }, { gang63 with task := taskOf 7 0 }],
      runOn (runningOf (nodeOf 6) r fw) (engN 63 32) = some r ∧ (r.task.cls ≠ 6 ∨ r.worked = true ∨ r.cancelled = true)) ∧
    (let s := modSeq (fun q => { q with runs := [gang63] }) fw
     runOn s (engN 63 32) = some gang63 ∧ todAddr s gang63 = none) ∧
    (∀ x ∈ [0x01, 0x11], rdN (todReached x) 0 0x10000 1 ≠ 0x0E ∧ 1 ≤ rdN (todReached x) 0 0x10000 1 ∧
      rdN (todReached x) 0 0x10000 1 ≤ 0x11) ∧
    (rdN (todReached 0) 0 0x10000 1 = 0 ∧ 0x11 < rdN (todReached 0x12) 0 0x10000 1) := by decide +kernel

/-- What the gang of core 63 reads before its checks, with the descriptor at 64 KiB. -/
def todFirst (s : State) : Tod × List (Nat × Nat) :=
  let v := cacheView s 63
  let d := todAt v 0 0x10000
  (d, todReads v 0 0x10000 d)

/-- The state after those reads, of a descriptor without SYNC. -/
def todSecond (s : State) : State :=
  (todFirst s).2.foldl (fun s x => touchRead x.1 x.2 s) ([63].foldl (fun s c => cacheReads c (todFirst s).2 s) s)

/-- The state after its operands' reads too, and what it computes there. -/
def todThird (s : State) : State :=
  let s1 := todSecond s
  gangReads (todFirst s).1 [63] (operandReads (todFirst s).1 (envOf s1 gang63)) s1

def todOutcome (s : State) : TodOut :=
  let s2 := todThird s
  todCompute (todFirst s).1 (envOf s2 gang63)
    (fun rank flat => (([63].map (fun c => heldAcc s2 c 0)).getD rank none).map (fun a => tget 0 a.vals flat))

/-- Its outputs and status record. -/
def todOuts (s : State) : List (Nat × List Byte) :=
  let s2 := todThird s
  let d := (todFirst s).1
  let o := todOutcome s
  let sats := (List.range 1).map (fun q => (d.patch (envOf s2 gang63) 4 (o.els.filter (fun x => x.rank == q))).2)
  (d.patch (envOf s2 gang63) 4 o.els).1.runs ++
    todStat gang63 d (todRecord gang63 (outFlags s2 gang63 gang63.flags) 0 false o.oob (sumN sats) o.result)

/-- The gang's checks and operand reads pass. -/
def todPasses (s : State) : Bool :=
  let from_ := operandReads (todFirst s).1 (envOf (todSecond s) gang63)
  runOn s (engN 63 32) == some gang63 && chkAll s 0 (todFirst s).2 [] == .ok && gangBad s [63] (todFirst s).2 == none &&
  !(todFirst s).1.sync && !(todFirst s).1.carry && !(todFirst s).1.has 5 &&
  todCheck (cacheView (todSecond s) 63) gang63 (todFirst s).1 == 0 &&
  gangBad (todSecond s) [63] from_ == none && chkAll (todSecond s) 0 from_ [] == .ok

/-- The QUANT with its operand, or its output, elsewhere. -/
def quantFrom (src dst : Nat) : State :=
  { quantReached with mem := mputs (mputs quantReached.mem 0x11000 (vector src)) 0x12000 (vector dst) }

/-- Core 63 has a cache bank; a line of it is dirty, and its row holds an uncorrectable error. -/
def cachedBad (line : Nat) (bad : Bool) (s : State) : State :=
  let x : CacheLine := { line := line, way := 0, dirt := 1, data := List.replicate 512 0 }
  { s with spd := { s.spd with
      cacheBanks := [(63, 1)], cacheLines := [(63, [x])], upsets := if bad then [(cacheRow 63 1 x, .double)] else [] } }

/-- A MATMUL of FP8 matrices, 1 by 4 and 4 by 1, to FP32, with further bits in word 0. -/
def matmulReached (more : Nat) : State :=
  let s := runningOf (nodeOf 6) gang63 (descr [0x702 + more, 0, 0, 0, 0x11000, 0, 0x11800, 0, 0, 0, 0, 0, 0x12000] fw)
  let t := fun (w : List Nat) => w.flatMap (leBytes 4)
  { s with mem := mputs (mputs (mputs s.mem 0x11000 (t [0x2006, 0x20000, 0, 0, 1, 4, 0, 0, 0, 0, 4, 1]))
      0x11800 (t [0x2006, 0x21000, 0, 0, 4, 1, 0, 0, 0, 0, 1, 1])) 0x12000 (t [0x200A, 0x30000, 0, 0, 1, 1, 0, 0, 0, 0, 4, 4]) }

theorem witness_NeuralCoresRunTheirGangs_operation_stops :
    (let s := runningOf (nodeOf 6) gang63 (descr [0x0E, 0, 0, 0, 0, 0x200] fw)
     runOn s (engN 63 32) = some gang63 ∧ chkAll s 0 (todFirst s).2 [] ≠ .ok) ∧
    (let s := cachedBad 128 true quantReached
     runOn s (engN 63 32) = some gang63 ∧ chkAll s 0 (todFirst s).2 [] = .ok ∧
     (gangBad s [63] (todFirst s).2).map (fun b => (b.1, b.2.line)) = some (63, 128)) ∧
    (let s := todReached 0x0E
     chkAll s 0 (todFirst s).2 [] = .ok ∧ gangBad s [63] (todFirst s).2 = none ∧
     todCheck (cacheView (todSecond s) 63) gang63 (todFirst s).1 ≠ 0) ∧
    (let s := cachedBad 256 true quantReached
     gangBad s [63] (todFirst s).2 = none ∧ todCheck (cacheView (todSecond s) 63) gang63 (todFirst s).1 = 0 ∧
     (gangBad (todSecond s) [63] (operandReads (todFirst s).1 (envOf (todSecond s) gang63))).map (fun b => (b.1, b.2.line)) =
       some (63, 256)) := by decide +kernel

theorem witness_NeuralCoresRunTheirGangs_operation_operand_faults :
    let s := quantFrom 0x2000000 0x30000
    let from_ := operandReads (todFirst s).1 (envOf (todSecond s) gang63)
    todCheck (cacheView (todSecond s) 63) gang63 (todFirst s).1 = 0 ∧ gangBad (todSecond s) [63] from_ = none ∧
    chkAll (todSecond s) 0 from_ [] ≠ .ok := by decide +kernel

theorem witness_NeuralCoresRunTheirGangs_operation_fails_at_work :
    ∀ more ∈ [0x2000, 0x4000],
      todPasses (matmulReached more) = true ∧ (todOutcome (matmulReached more)).status = (if more = 0x2000 then 1 else 2) := by
  decide +kernel

theorem witness_NeuralCoresRunTheirGangs_operation_completes :
    let s := quantReached
    let from_ := operandReads (todFirst s).1 (envOf (todSecond s) gang63)
    todPasses s = true ∧ (todOutcome s).status = 0 ∧
    chkAll (todSecond s) 0 from_ ((stageWrites (todThird s) (todFirst s).1 ++ todOuts s).map (fun x => (x.1, x.2.length))) = .ok ∧
    gangBad (todThird s) [63] (((todOuts s).filter (throughCache (todThird s) [63])).map (fun x => (x.1, x.2.length))) = none ∧
    (todOuts s).any (throughCache (todThird s) [63]) = false := by decide +kernel

theorem witness_NeuralCoresRunTheirGangs_operation_cached :
    let s := cachedBad 384 false quantReached
    let from_ := operandReads (todFirst s).1 (envOf (todSecond s) gang63)
    todPasses s = true ∧ (todOutcome s).status = 0 ∧
    chkAll (todSecond s) 0 from_ ((stageWrites (todThird s) (todFirst s).1 ++ todOuts s).map (fun x => (x.1, x.2.length))) = .ok ∧
    gangBad (todThird s) [63] (((todOuts s).filter (throughCache (todThird s) [63])).map (fun x => (x.1, x.2.length))) = none ∧
    (todOuts s).any (throughCache (todThird s) [63]) = true := by decide +kernel

theorem witness_NeuralCoresRunTheirGangs_operation_output_line_lost :
    let s := cachedBad 384 true quantReached
    todPasses s = true ∧ (todOutcome s).status = 0 ∧
    (gangBad (todThird s) [63] (((todOuts s).filter (throughCache (todThird s) [63])).map
      (fun x => (x.1, x.2.length)))).map (fun b => b.2.line) = some 384 := by decide +kernel

theorem witness_NeuralCoresRunTheirGangs_operation_output_faults :
    let s := quantFrom 0x20000 0x2000000
    let from_ := operandReads (todFirst s).1 (envOf (todSecond s) gang63)
    todPasses s = true ∧ (todOutcome s).status = 0 ∧
    chkAll (todSecond s) 0 from_ ((stageWrites (todThird s) (todFirst s).1 ++ todOuts s).map (fun x => (x.1, x.2.length))) ≠ .ok := by
  decide +kernel

theorem test_quant_runs :
    (let t := nextOf (exec (.todQuant 63) quantReached)
     (leAt (mgets t.mem 0x30000 16) 12 4, (runOn t (engN 63 32)).map (fun r => r.worked))) = (0x40800000, some true) := by
  decide +kernel

theorem test_gang_of_all_cores :
    ((nextOf (exec .ncoreTaskDispatch (readyOf { nodeOf 6 with gang := 64 } 0 fw))).seq.runs.map
      (fun r => (r.gang.length, r.cycles))) = [(64, 64)] := by decide +kernel

/-! ### Shared arithmetic -/

theorem witness_RoundingFlagsAndCounters :
    (0 : Nat) < 2 ∧ (-32768 : Int) ≤ 32767 ∧ registersOk fw ∧ R.secEnvFail < 0x1000000 ∧
    (R.secEnvFail, (1 : Nat)) ≠ (R.secEnvFail, 0) := by unfold registersOk; decide +kernel

theorem test_ties_go_to_even : (rneDiv 5 2, rneDiv (-5) 2, rneDiv 7 2) = (2, -2, 4) := by decide

theorem test_counter_saturates :
    rget (cnt R.secEnvFail 0 5 (rput R.secEnvFail 0 0xFFFFFFFE fw)) R.secEnvFail 0 = 0xFFFFFFFF := by decide +kernel

/-! ### Stream passes, publications, firmware nodes -/

/-- Context 255 belongs to template 255; its descriptor's words. -/
def context255 (w : List Nat) : State := rput R.strCtxOwner 255 65281 (descr w fw)

/-- A COPY of 64 bytes from 0x20000 to 0x30000, and a TENSOR pass of the vector there. -/
def copyWords : List Nat := [0xFF, 0x100, 0x20000, 0, 0x30000, 0, 64, 0, 0, 0, 0, 0, 0x40000]
def tensorWords : List Nat := [0x1FF, 0x100, 0x11000, 0, 0x12000, 0, 0, 0, 0, 0, 0, 0, 0x40000]

/-- The pass begins, of either mode; it has read and moves its data. -/
def pass255 : Run := runOf 7 (engCtx 255)
def passGoes : Run := { pass255 with info := [0x40000, 0, 0, 0, 0, 0, 0, 7, 9, 0] ++ copyWords }
def passing (r : Run) (w : List Nat) : State :=
  let s := runningOf (nodeOf 7) r (context255 w)
  { s with mem := mputs (mputs s.mem 0x11000 (vector 0x20000)) 0x12000 (vector 0x30000) }

theorem witness_StreamPassesMoveAndFault :
    (∀ w ∈ [copyWords, tensorWords],
      let s := readyOf (nodeOf 7) (engCtx 255) (context255 w)
      alive s = true ∧ runOn s (engCtx 255) = none ∧ pickObj s 7 (engCtx 255) = some (taskOf 7 (engCtx 255))) ∧
    (let s := passing pass255 copyWords
     runOn s (engCtx 255) = some pass255 ∧ pass255.task.cls = 7 ∧ pass255.worked = false ∧ pass255.cancelled = false) ∧
    (∀ w ∈ [copyWords, tensorWords],
      let s := passing pass255 w
      let d := passD s (engCtx 255) pass255
      pass255.info = [] ∧ chkAll s 0 (passReads s pass255 (descWords s pass255.task 32)) [] = .ok ∧
      ctxGranted s 0 (ctxOf (engCtx 255)) = true ∧ bit (wd (descWords s pass255.task 32) 0) 16 = false ∧
      passCheck s (engCtx 255) pass255 d = 0 ∧ d.tensor = (w == tensorWords) ∧ d.src.wheel = false ∧
      d.dst.wheel = false ∧ passKey s pass255 = none) ∧
    (∀ r ∈ [passGoes, { passGoes with aux := 1 }],
      runOn (passing r copyWords) (engCtx 255) = some r ∧ r.task.cls = 7 ∧ r.worked = false ∧ r.cancelled = false ∧
      r.info ≠ [] ∧ hostBase ≤ hostBase ∧ hostBase - 1 < hostBase) ∧
    (runOn fw (engCtx 255) = none) := by decide +kernel

/-- The pass stands at a descriptor; its context is granted to no tenant; it does not run, is done, is of another kind. -/
def passAt (work : Nat) (w : List Nat) : State := runningOf { nodeOf 7 with work := work } pass255 (context255 w)
def passUngranted : State := { passing pass255 copyWords with
  sec := { fw.sec with table := fw.sec.table.filter (fun p => p.1 != 2) } }

theorem witness_StreamPassesMoveAndFault_left_alone :
    (runOn fw (engCtx 255) = none ∧ pickObj fw 7 (engCtx 255) = none) ∧
    (∀ r ∈ [{ pass255 with worked := true }, { pass255 with cancelled := true }, runOf 8 (engCtx 255)],
      runOn (passing r copyWords) (engCtx 255) = some r ∧ (r.task.cls ≠ 7 ∨ r.worked = true ∨ r.cancelled = true)) ∧
    (runOn (passing pass255 copyWords) (engCtx 255) = some pass255 ∧ pass255.task.tag < 256 ∧ pass255.info = []) := by
  decide +kernel

theorem witness_StreamPassesMoveAndFault_stopped :
    (pass255.info = [] ∧ chkAccess (passAt (2 ^ 41) copyWords) 0 (descAddr (passAt (2 ^ 41) copyWords) pass255.task) 128 false ≠ .ok) ∧
    (let s := passAt 0x10000 [0x1FF, 0x100, 0x2000000]
     chkAccess s 0 (descAddr s pass255.task) 128 false = .ok ∧
     chkAll s 0 (passReads s pass255 (descWords s pass255.task 32)) [] ≠ .ok) ∧
    (let s := passUngranted
     chkAccess s 0 (descAddr s pass255.task) 128 false = .ok ∧
     chkAll s 0 (passReads s pass255 (descWords s pass255.task 32)) [] = .ok ∧ ctxGranted s 0 (ctxOf (engCtx 255)) = false) ∧
    (let s := passing pass255 (copyWords.set 0 0x80000000)
     ctxGranted s 0 (ctxOf (engCtx 255)) = true ∧ bit (wd (descWords s pass255.task 32) 0) 16 = false ∧
     passCheck s (engCtx 255) pass255 (passD s (engCtx 255) pass255) ≠ 0) ∧
    (let r := { passGoes with pos := 9 }
     r.info ≠ [] ∧ passMoved r = true ∧ passMoved passGoes = false) := by decide +kernel

theorem witness_StreamPassesMoveAndFault_returns :
    (let s := passing pass255 copyWords
     let d := passD s (engCtx 255) pass255
     d.src.wheel = false ∧ d.dst.wheel = false ∧
     chkAll s 0 [(d.src.addr + 32, 32)] [(d.dst.addr + 32, 32)] = .ok) ∧
    (let r := { passGoes with refetched := [0x20000], retries := [(0x20000, 4, 0)] }
     runOn (passing r copyWords) (engCtx 255) = some r ∧ r.task.tag < 256 ∧ r.refetched.contains 0x20000 = true ∧
     r.refetched.contains 0x20040 = false ∧ r.retries.find? (fun x => x.1 == 0x20000) = some (0x20000, 4, 0) ∧
     r.retries.find? (fun x => x.1 == 0x20040) = none) ∧
    (runOn fw (engCtx 255) = none ∧ (255 : Nat) < 256 ∧
      (let r := { passGoes with cancelled := true }
       runOn (passing r copyWords) (engCtx 255) = some r ∧ r.cancelled = true) ∧ passGoes.task.tag ≠ 255) := by
  decide +kernel

theorem test_late_return_is_stale :
    rget (nextOf (exec (.streamReadReturn 255 .good ⟨0x20000, 9⟩) (passing passGoes copyWords))) R.seqStaleCnt 0 = 1 := by
  decide +kernel

theorem test_copy :
    (let s := passing pass255 copyWords
     let t := nextOf (exec (.streamCopy 255) { s with mem := mputs s.mem 0x20000 [1, 2, 3] })
     (mgets t.mem 0x30000 4, (runOn t (engCtx 255)).map (fun r => r.pos))) = ([1, 2, 3, 0], some 1) := by decide +kernel

/-- A publication on an engine, with its words; 0x10000 is also what the tests' ring names. -/
def publishing (r : Run) (w : List Nat) (s : State) : State := runningOf (nodeOf 8) r (descr w s)

/-- Words of a record without payload to each destination. -/
def pubWords : List (List Nat) :=
  [[0x1000, 0, 0, 0, 0, 0x00010001],
   [0x1001, 0, 0, 0, 0, 0, 0, 0, 0, 0, 0, 0, 0, 0x8000, 0x00010001, 0x200, 0x8000],
   [0x1006, 0, 0, 0, 64, 0, 0, 0, 0, 0, 0, 0, 0, 0, 0, 0, 0, 0, 0x002A0040]]

/-- The engines of the destinations. -/
def pubEngines : List Nat := [engU 0x08 1, engU 0x07 1, engU 0x06 15]

/-- Region 0 of function 0 maps 8 KiB of the host. -/
def mapped : State :=
  modFn 0 (fun f => { f with regions := [(0, some { pcie := 0x1000, size4k := 1, dev := hostBase })] }) up0

/-- A task that waits for its commit. -/
def pubRun (k eng : Nat) : Run := { runOf 8 eng with info := pubWords.getD k [] }

theorem witness_PublicationsReachTheirDestination :
    (∀ k ∈ [0, 1, 2],
      let r := runOf 8 (pubEngines.getD k 0)
      let s := publishing r (pubWords.getD k []) mapped
      alive s = true ∧ runOn s (pubEngines.getD k 0) = some r ∧ r.task.cls = 8 ∧ r.worked = false ∧ r.cancelled = false ∧
      pubDest s k r.task = true) ∧
    (∀ k ∈ [0, 1, 2],
      let r := runOf 8 (pubEngines.getD k 0)
      let s := publishing r (pubWords.getD k []) mapped
      let w := descWords s r.task 32
      r.info = [] ∧ chkAll s r.task.tenant [(descAddr s r.task, 128)] [] = .ok ∧ pubCheck s r w = 0 ∧
      chkAll s r.task.tenant (pubReads r w) [] = .ok) ∧
    (let r := runOf 8 (engU 0x08 1)
     let s := publishing r [0x0F00] mapped
     pubCheck s r (descWords s r.task 32) = 0x02) ∧
    (let r := pubRun 1 (engU 0x07 0)
     let s := runningOf (nodeOf 8) r mapped
     let slot := addr48 r.info 12 + pubSeqOf s r.task % max 1 (bits (wd r.info 14) 15 0) * pubSlotBytes r.info
     pubWaiting s (engU 0x07 0) = some r ∧
     chkAll s r.task.tenant (pubReads r r.info) [(slot, 64 + pubLen s r r.info), (addr48 r.info 15, 4)] = .ok) ∧
    (let r := pubRun 0 (engU 0x08 1)
     let s := runningOf (nodeOf 8) r mapped
     pubWaiting s (engU 0x08 1) = some r ∧ chkAll s r.task.tenant (pubReads r r.info) [] = .ok) ∧
    (let r := pubRun 2 (engU 0x06 15)
     let s := runningOf (nodeOf 8) r { mapped with cam := { mapped.cam with tx := [(1, { txReset with mode := 1 })] } }
     pubWaiting s (engU 0x06 (14 + 1)) = some r ∧ (tget txReset s.cam.tx 1).mode = 1 ∧
     chkAll s r.task.tenant (pubReads r r.info) [] = .ok) ∧
    pubWaiting mapped (engU 0x08 1) = none ∧ pubWaiting mapped (engU 0x06 15) = none := by decide +kernel

theorem witness_PublicationsReachTheirDestination_dispatch :
    ∀ k ∈ [0, 1, 2],
      let eng := pubEngines.getD k 0
      let s := readyOf (nodeOf 8) eng (descr (pubWords.getD k []) mapped)
      alive s = true ∧ runOn s eng = none ∧ pickObj s 8 eng = some (taskOf 8 eng) ∧ pubDest s k (taskOf 8 eng) = true := by
  decide +kernel

/-- An engine without a task, or with one that it leaves alone. -/
theorem witness_PublicationsReachTheirDestination_left_alone :
    (∀ k ∈ [0, 1, 2], runOn mapped (pubEngines.getD k 0) = none ∧ pickObj mapped 8 (pubEngines.getD k 0) = none) ∧
    (∀ k ∈ [0, 1, 2],
      let r := runOf 8 (pubEngines.getD k 0)
      let s := publishing r (pubWords.getD ((k + 1) % 3) []) mapped
      runOn s (pubEngines.getD k 0) = some r ∧ pubDest s k r.task = false) ∧
    (∀ k ∈ [0, 1, 2], ∀ r ∈ [{ runOf 8 (pubEngines.getD k 0) with worked := true },
        { runOf 8 (pubEngines.getD k 0) with cancelled := true }, runOf 7 (pubEngines.getD k 0)],
      runOn (publishing r [] mapped) (pubEngines.getD k 0) = some r ∧
      (r.task.cls ≠ 8 ∨ r.worked = true ∨ r.cancelled = true)) := by decide +kernel

theorem witness_PublicationsReachTheirDestination_stopped :
    (pubRun 0 (engU 0x08 1)).info ≠ [] ∧
    (let r := runOf 8 (engU 0x08 1)
     let s := runningOf { nodeOf 8 with work := 2 ^ 41 } r mapped
     r.info = [] ∧ chkAll s r.task.tenant [(descAddr s r.task, 128)] [] ≠ .ok) ∧
    (let r := runOf 8 (engU 0x08 1)
     let s := publishing r [0x1000, 0, 0x2000000, 0, 64, 0x00010001] mapped
     let w := descWords s r.task 32
     chkAll s r.task.tenant [(descAddr s r.task, 128)] [] = .ok ∧ pubCheck s r w = 0 ∧
     chkAll s r.task.tenant (pubReads r w) [] ≠ .ok) ∧
    (let r := pubRun 2 (engU 0x06 15)
     let s := runningOf (nodeOf 8) r mapped
     pubWaiting s (engU 0x06 (14 + 1)) = some r ∧ (tget txReset s.cam.tx 1).mode ≠ 1) := by decide +kernel

theorem test_ring_record :
    (let r := runOf 8 (engU 0x07 0)
     let t := nextOf (exec (.publishHostRing 0) (publishing r (pubWords.getD 1 []) mapped))
     (leAt (mgets t.host0 0x1200 4) 0 4, (tmplAt t 255).map (fun v => v.pubSeq))) = (1, some [(0, 1)]) := by decide +kernel

theorem test_link_down_record :
    (let r := pubRun 0 (engU 0x08 1)
     let t := nextOf (exec (.ethRecordCommit 1) (runningOf (nodeOf 8) r mapped))
     ((runOn t (engU 0x08 1)).map (fun r => r.committed), rget t R.ethTxLinkdrop 1)) = (some true, 1) := by decide +kernel

/-- A task of class FW with its words; millrace 1023 is enabled. -/
def firmware (w : List Nat) : State := runningOf (nodeOf 9) (runOf 9 fwEng) (descr w (rput R.mrqCfg 1023 1 fw))

/-- The same of NOTIFY, whose input comes from a node that completed with INVALID. -/
def invalidInput : State :=
  modTmpl 255 (fun v => { v with
      nodes := v.nodes ++ [{ nodeOf 9 with outCount := 1 }]
      edges := [{ dst := 0, kind := 0, prev := false, halo := 0 }]
      slots := v.slots.map (fun i => { i with nodes := i.nodes ++ i.nodes.map (fun m => { m with flags := fInvalid }) }) })
    (firmware [5])

theorem witness_FirmwareNodesAct :
    (∀ a ∈ [1, 2, 3, 4, 5],
      let s := firmware [a]
      let r := runOf 9 fwEng
      alive s = true ∧ runOn s fwEng = some r ∧ r.task.cls = 9 ∧ r.worked = false ∧ r.cancelled = false ∧
      fwIs s a r.task = true ∧ bit (outFlags s r 0) 1 = false ∧
      chkAccess s r.task.tenant (descAddr s r.task) 64 false = .ok) ∧
    (runOn invalidInput fwEng = some (runOf 9 fwEng) ∧ fwIs invalidInput 5 (taskOf 9 fwEng) = true ∧
      bit (outFlags invalidInput (runOf 9 fwEng) 0) 1 = true) ∧
    (let s := firmware [1, 0x20000]
     let w := descWords s (taskOf 9 0) 16
     let n := 1 + 2 * setCount (rdWords s 0 (addr48 w 1) 1)
     chkAccess s 0 (addr48 w 1) 4 false = .ok ∧ chkAccess s 0 (addr48 w 1) (4 * n) false = .ok) ∧
    (let s := firmware [2, 0x20000, 0, 0x3FFF]
     let w := descWords s (taskOf 9 0) 16
     chkAccess s 0 (addr48 w 1) 8 false = .ok ∧ rearmReserved (wd (rdWords s 0 (addr48 w 1) 2) 1) = false) ∧
    (let s := firmware [3, 0x20000, 0, 1023]
     chkAccess s 0 (addr48 (descWords s (taskOf 9 0) 16) 1) 4 false = .ok ∧ mrqGranted s 0 1023 = true ∧ mrqEn s 1023 = true) := by
  decide +kernel

theorem witness_FirmwareNodesAct_dispatch :
    ∀ a ∈ [1, 2, 3, 4, 5],
      let s := readyOf (nodeOf 9) fwEng (descr [a] fw)
      alive s = true ∧ runOn s fwEng = none ∧ pickObj s 9 fwEng = some (taskOf 9 fwEng) ∧ fwIs s a (taskOf 9 fwEng) = true ∧
      (a = 5 → fwCheck (descWords (firmware [a]) (taskOf 9 fwEng) 16) = 0) := by decide +kernel

theorem witness_FirmwareNodesAct_left_alone :
    (runOn fw fwEng = none ∧ pickObj fw 9 fwEng = none) ∧
    (∀ a ∈ [1, 2, 3, 4, 5],
      let s := readyOf (nodeOf 9) fwEng (descr [a % 5 + 1] fw)
      runOn s fwEng = none ∧ (pickObj s 9 fwEng).all (fun k => !fwIs s a k) = true ∧
      fwIs (firmware [a % 5 + 1]) a (taskOf 9 fwEng) = false) ∧
    (∀ r ∈ [{ runOf 9 fwEng with worked := true }, { runOf 9 fwEng with cancelled := true }, runOf 8 fwEng],
      runOn (runningOf (nodeOf 9) r fw) fwEng = some r ∧ (r.task.cls ≠ 9 ∨ r.worked = true ∨ r.cancelled = true)) := by
  decide +kernel

theorem test_firmware_push :
    (let t := nextOf (exec .fwPush (firmware [3, 0x20000, 0, 1023]))
     (mrqQ t 1023, (runOn t fwEng).map (fun r => r.worked))) = ([0], some true) := by decide +kernel

theorem test_firmware_counter :
    arrVal (nextOf (exec .fwCounterSet (firmware [4, 0, 0, 7, 99]))) 7 = 99 := by decide +kernel

/-! ### Function resets, links, received frames -/

/-- Both ports exist and are up. -/
def twoPorts : State := modPort 1 (fun p => { p with up := true }) { up0 with bifurcated := true }

/-- MAC 1 has a link and the addresses 1.2.3.4 and fe80::1. -/
def online : State :=
  rput R.ethIp63 1 1 (rput R.ethIp60 1 0xFE800000 (rput R.ethIp4 1 0x01020304 (rput R.ethMacCfg 1 1
    (modMac 1 (fun q => { q with link := true }) fw))))

theorem witness_FunctionsResetTheirTenants :
    (alive fw = true ∧ nFns fw ≤ 16 ∧ portExists fw 0 = true ∧ (fnSt fw 0).resetting = false ∧ portExists fw 1 = false) ∧
    (portExists twoPorts 1 = true ∧ (fnSt twoPorts 16).resetting = false) := by decide +kernel

theorem test_flr :
    (let t := nextOf (exec (.flr 0) (modFn 3 (fun f => { f with negotiated := some 0x10 }) up0))
     ((fnSt t 3).negotiated, (fnSt t 3).resetting)) = (none, true) := by decide +kernel

/-- A pass of tenant 0 reads through port 0. -/
def reading : State :=
  let w : List Nat := [0xFF, 0x100, 0, 0x8000, 0x30000, 0, 64, 0, 0, 0, 0, 0, 0x40000]
  runningOf (nodeOf 7) { pass255 with aux := 1, info := [0x40000, 0, 0, 0, 0, 0, 0, 7, 9, 0] ++ w } (rput R.strCtxOwner 255 65281 (descr w mapped))

theorem witness_LinksGoDownAndUp :
    (alive twoPorts = true ∧ (portSt twoPorts 1).up = true ∧ (portSt fw 1).up = false ∧ 8 ∈ [1, 2, 4, 8]) ∧
    ((portSt fw (portOf 31)).up = false ∧ (portSt reading 0).up = true ∧
      (runOn reading (engCtx 255)).bind (passReading reading) = some hostBase) := by decide +kernel

theorem test_link_down_ends_the_pass :
    rget (nextOf (exec (.linkDown 0) reading)) R.strCtxFault 255 = 1 := by decide +kernel

/-- The addresses of the tests' requesters. -/
def mac6 : List Byte := [2, 0, 0, 0, 0, 9]
def ip4 : List Byte := [1, 2, 3, 9]
def ip6Own : List Byte := [0xFE, 0x80] ++ List.replicate 13 0 ++ [1]
def ip6Any : List Byte := List.replicate 16 0
def ip6Peer : List Byte := [0xFE, 0x80] ++ List.replicate 13 0 ++ [9]

theorem witness_NetworkLinksAndFrames :
    (alive online = true ∧ macUp online 1 = true ∧ macUp fw 1 = false ∧ mac6.length = 6 ∧ ip4.length = 4 ∧
      rget online R.ethIp4 1 ≠ 0 ∧ [1, 2, 3, 4] = ownIp4 online 1 ∧ ip4 ≠ ownIp4 online 1 ∧
      (recentTimes online.now (macSt online 1).arpTimes).length < 100) ∧
    (rxUp online 1 = true ∧ ip6Own.length = 16 ∧ ip6Own = portIp6 online 1 ∧ ip6Own = ownIp6 online 1 ∧ ip6Own ≠ List.replicate 16 0 ∧
      (recentTimes online.now (macSt online 1).ndTimes).length < 100 ∧
      (recentTimes online.now (macSt online 1).echoTimes).length < 100) ∧
    (ip6Any = List.replicate 16 0 ∧ ip6Peer ≠ List.replicate 16 0 ∧ ip6Peer.length = 16 ∧ ip6Peer ≠ portIp6 online 1) := by
  decide +kernel

theorem test_arp_answered :
    (let t := nextOf (exec (.ethArpRequest 1 mac6 ip4 [1, 2, 3, 4]) online)
     ((macSt t 1).sending.map List.length, rget t R.ethRxDrop 1)) = (some 42, 0) := by decide +kernel

/-! ### SPDM -/

/-- A request of the tests. -/
def req (p : Nat) : SpdmReq := { rq0 with param := p, length := 64 }

/-- One the link does not take, and one longer than a message may be. -/
def reqOther : SpdmReq := { rq0 with via := { rq0.via with type := 0 } }
def reqLong : SpdmReq := { rq0 with body := List.replicate 8191 0 }

/-- Every link of the responder is up. -/
def linksUp : State := modMac 2 (fun q => { q with link := true }) twoPorts

/-- Connection `n` has negotiated its algorithms. -/
def negotiated (n : Nat) : State := modConn n (fun c => { c with version := true, caps := true, algs := true }) linksUp

/-- What a request's effects begin from. -/
def heard (l : SpdmLink) (s : State) : State :=
  modConn (linkNo l) (fun c => { c with via := rq0.via }) (expireMsess (if isDoe l then s else wakeDevice s))

/-- The links. -/
def spdmLinks : List SpdmLink := [.doe 0, .doe 1, .mctp 0, .mctp 1]

theorem witness_SpdmConnections :
    alive s0 = true ∧ alive linksUp = true ∧ linkTakes linksUp (.mctp 1) reqOther = false ∧
    (∀ l ∈ spdmLinks, l.wf = true ∧ linkLive s0 l = false ∧ linkLive linksUp l = true ∧
      linkTakes linksUp l { rq0 with via := { rq0.via with dst := rget linksUp R.mgtUdpPort 0 } } = true) ∧
    linkTakes linksUp (.doe 1) rq0 = true ∧ (req 0).body.length + 2 ≤ 8192 := by decide +kernel

theorem witness_SpdmConnections_long : 8192 < reqLong.body.length + 2 ∧ reqLong.body.length + 12 ≤ 16384 := by
  have h : reqLong.body.length = 8191 := List.length_replicate
  omega

theorem witness_SpdmConnections_answers :
    (∀ l ∈ spdmLinks,
      (connSt (heard l linksUp) (linkNo l)).algs = false ∧
      linkLive (negotiated (linkNo l)) l = true ∧
      (connSt (heard l (negotiated (linkNo l))) (linkNo l)).algs = true) ∧
    (req 0).param = 0 ∧ (req 1).param ≠ 0 ∧ (8 < (req 9).param ∧ (req 9).param ≠ 0xFF) ∧
    ((req 8).param ≤ 8 ∧ (req 255).param = 0xFF ∧ (req 8).sign = false) := by decide +kernel

/-- A certificate chain has at least the four bytes before its hash. -/
theorem witness_SpdmConnections_answers_certificate (certs : List (List Byte)) :
    (req 0).param = 0 ∧ (req 0).offset < (chainOf certs).length := by
  refine ⟨rfl, ?_⟩
  simp [req, rq0, chainOf, leBytes]

theorem test_early_digests :
    (nextOf (exec (.getDigests (.doe 1) (req 0)) linksUp)).out = [.spdm 1 0x7F [4, 0]] := by decide +kernel

/-- MCTP link 1 has a negotiated connection, key 11 is in the credential set, session 7 is in a stage. -/
def authing (stage : Nat) : State :=
  let s := negotiated 3
  putMsess 7 (some { msessOf false with link := 3, stage := stage, key := 11 })
    { s with sec := { s.sec with cred := some [0, 0, 0, 8] } }

/-- All eight sessions are taken. -/
def sessionsFull : State := (List.range 8).foldl (fun s n => putMsess n (some (msessOf false)) s) (authing 3)

/-- A handshake of session 9 began a second ago. -/
def handshaking : State :=
  { fw with now := 1000000000, sec := { fw.sec with sessions := [(9, some { fn := 0, open_ := false, since := 0, slot := 0, said := [] })] } }

theorem witness_ManagementSessionsAuthenticate :
    (isDoe (.doe 1) = true ∧ isDoe (.mctp 1) = false ∧ linkTakes linksUp (.mctp 1) (req 7) = true ∧
      linkTakes linksUp (.doe 1) (req 7) = true) ∧
    ((connSt (heard (.mctp 1) linksUp) 3).algs = false ∧ linkLive (authing 1) (.mctp 1) = true) ∧
    (let w := heard (.mctp 1) (negotiated 3)
     (connSt w 3).algs = true ∧ w.sec.cred = none) ∧
    (let w := heard (.mctp 1) sessionsFull
     (connSt w 3).algs = true ∧ w.sec.cred = some [0, 0, 0, 8] ∧ freeMsess w = none) ∧
    (let w := heard (.mctp 1) (authing 1)
     (connSt w 3).algs = true ∧ w.sec.cred = some [0, 0, 0, 8] ∧ freeMsess w = some 0 ∧
     (req 11).param < 12 ∧ credHas [0, 0, 0, 8] (req 11).param = true ∧ msessAt w (req 6).param = none) ∧
    (∀ stage ∈ [1, 2, 3],
      let w := heard (.mctp 1) (authing stage)
      (msessAt w (req 7).param).map (fun m => (m.stage, m.link)) = some (stage, linkNo (.mctp 1))) ∧
    (alive handshaking = true ∧ (sessAt handshaking 9).isSome = true ∧ sessAt handshaking 8 = none) := by decide +kernel

theorem test_handshake_times_out :
    (let t := nextOf (exec (.sessionHandshakeTimeout 9) handshaking); sessAt t 9) = none := by decide +kernel

theorem test_end_session :
    (let t := nextOf (exec (.endSession (.mctp 1) (req 7)) (authing 3)); msessAt t 7) = none := by decide +kernel
end Sys2Proof.Tests
end

/-! SUPPORT. Register accesses at the bus: what a read and a write leave when they are misshaped, meet no register, meet a
sleeping or waking device, or come from a function that is not there (R11, R26, R379, R457). -/

namespace Sys2Proof.Machine

/-! ### The outcome of a register command -/

/-- A state that has the queue of `s` is left as it is when it takes that queue. -/
theorem keepQueue_of_pending_eq {s t : State} (h : t.pending = s.pending) : keepQueue s t = t := by
  rw [keepQueue, ← h]

/-- A requester that is there is one of the 32 functions or the management port. -/
theorem lt_of_reaches {s : State} {rq : Nat} (h : reaches s rq = true) : rq < 33 := by
  have hfns : nFns s ≤ 32 := by unfold nFns; split <;> omega
  simp only [reaches, Bool.or_eq_true, beq_iff_eq, decide_eq_true_eq] at h
  omega

/-- A register command with right operands answers its effect, where that effect leaves the queue alone. -/
theorem regAct_of_effect {s t : State} {rq off : Nat} {f : State → State} (ha : alive s = true) (hrq : rq < 33)
    (hoff : off < 0x1000000) (h : f s = t) (hq : t.pending = s.pending) : regAct rq off s f = .next t := by
  rw [regAct, act_alive f ha (by simp [hrq, hoff]), h, keepQueue_of_pending_eq hq]

/-! ### Accesses of another size or alignment (R11, R379) -/

@[simp] theorem countShape_pending (rq : Nat) (s : State) : (countShape rq s).pending = s.pending := rfl

@[simp] theorem shapeRead_pending (rq off : Nat) (s : State) : (shapeRead rq off s).pending = s.pending := by
  unfold shapeRead
  split <;> rfl

/-- A write that is not an aligned one of 32 bits is only counted; a read of that kind is `shapeRead`. -/
theorem misshaped_of_odd {s : State} {rq off size : Nat} (wr : Bool) (hr : reaches s rq = true)
    (hodd : size ≠ 4 ∨ off % 4 ≠ 0) :
    misshaped rq off size wr s = if wr then countShape rq s else shapeRead rq off s := by
  simp [misshaped, hr, hodd]

/-- The packet windows are the first 0x100 bytes of the lanes' apertures. -/
theorem inPacketWindow_iff (rq off : Nat) :
    inPacketWindow rq off = true ↔ ∃ l k, placeOf rq off = .lane l k ∧ k < 0x100 := by
  unfold inPacketWindow
  cases placeOf rq off <;> simp

/-! ### Aligned accesses of a device that neither sleeps nor wakes (R26) -/

theorem wrReg_of_prompt {s : State} {rq off : Nat} (v : Nat) (hr : reaches s rq = true) (hp : prompt s = true)
    (hal : off % 4 = 0) : wrReg rq off v s = busWrite rq off v s := by
  have hd : deferred s = false := by simpa [prompt] using hp
  simp [wrReg, hr, hal, hd]

theorem rdReg_of_prompt {s : State} {rq off : Nat} (hr : reaches s rq = true) (hp : prompt s = true)
    (hal : off % 4 = 0) :
    rdReg rq off s = emit (.data rq (BitVec.ofNat 32 (busRead rq off s).1)) (busRead rq off s).2 := by
  have hd : deferred s = false := by simpa [prompt] using hp
  simp [rdReg, hr, hal, hd]

theorem busWrite_hole {rq off : Nat} (v : Nat) (s : State) (h : placeOf rq off = .hole) :
    busWrite rq off v s = countHole rq s := by
  simp [busWrite, h]

theorem busRead_hole {rq off : Nat} (s : State) (h : placeOf rq off = .hole) :
    busRead rq off s = (0, countHole rq s) := by
  simp [busRead, h]

theorem wrReg_hole {s : State} {rq off : Nat} (v : Nat) (hr : reaches s rq = true) (hp : prompt s = true)
    (hal : off % 4 = 0) (hole : placeOf rq off = .hole) : wrReg rq off v s = countHole rq s := by
  rw [wrReg_of_prompt v hr hp hal, busWrite_hole v s hole]

theorem rdReg_hole {s : State} {rq off : Nat} (hr : reaches s rq = true) (hp : prompt s = true) (hal : off % 4 = 0)
    (hole : placeOf rq off = .hole) : rdReg rq off s = emit (.data rq 0) (countHole rq s) := by
  rw [rdReg_of_prompt hr hp hal, busRead_hole s hole]
  rfl

/-! ### Aligned accesses of a device that sleeps or wakes (R457) -/

/-- A wake call leaves a device that is waking as it is. -/
theorem wakeDevice_of_waking {s : State} (h : s.pwr.st = .waking) : wakeDevice s = s := by
  simp [wakeDevice, h]

/-- A wake call takes a sleeping device to waking and changes nothing else. -/
theorem wakeDevice_of_sleep {s : State} (h : s.pwr.st = .sleep) :
    wakeDevice s = { s with pwr := { s.pwr with st := .waking } } := by
  simp [wakeDevice, modPwr, h]

theorem wrReg_of_deferred {s : State} {rq off : Nat} (v : Word) (hr : reaches s rq = true) (hd : deferred s = true)
    (hal : off % 4 = 0) :
    wrReg rq off v.toNat s = defer { rq := rq, off := off, wr := some v }
      (if rq = 32 ∨ wakingWrite rq off = true then wakeDevice s else s) := by
  simp [wrReg, hr, hal, hd]

theorem rdReg_of_deferred {s : State} {rq off : Nat} (hr : reaches s rq = true) (hd : deferred s = true)
    (hal : off % 4 = 0) :
    rdReg rq off s = defer { rq := rq, off := off, wr := none } (if rq = 32 then wakeDevice s else s) := by
  simp [rdReg, hr, hal, hd]

/-- An access that may wake a waking device only joins those that wait. -/
theorem defer_of_waking {s : State} (d : Deferred) (wakes : Prop) [Decidable wakes] (h : s.pwr.st = .waking) :
    defer d (if wakes then wakeDevice s else s) =
      { s with pwr := { s.pwr with waiting := s.pwr.waiting ++ [d] } } := by
  rw [wakeDevice_of_waking h, ite_self]
  rfl

/-- An access that finds a sleeping device joins those that wait, and starts the wake if it is one that does. -/
theorem defer_of_sleep {s : State} (d : Deferred) (wakes : Prop) [Decidable wakes] (h : s.pwr.st = .sleep) :
    defer d (if wakes then wakeDevice s else s) =
      { s with pwr := { s.pwr with
          st := if wakes then .waking else .sleep, waiting := s.pwr.waiting ++ [d] } } := by
  by_cases hw : wakes
  · rw [if_pos hw, if_pos hw, wakeDevice_of_sleep h]
    rfl
  · rw [if_neg hw, if_neg hw, ← h]
    rfl

/-! ### Accesses of a function that is not there (R352) -/

theorem wrReg_of_absent {s : State} {rq : Nat} (off v : Nat) (h : reaches s rq = false) : wrReg rq off v s = s := by
  simp [wrReg, h]

theorem rdReg_of_absent {s : State} {rq : Nat} (off : Nat) (h : reaches s rq = false) : rdReg rq off s = s := by
  simp [rdReg, h]

/-! ### The commands -/

section
variable {s t : State} {rq off : Nat} (ha : alive s = true) (hoff : off < 0x1000000)
include ha hoff

/-- MMIO_MISSHAPED_ACCESS of an access that is not an aligned one of 32 bits. -/
theorem exec_mmioMisshapedAccess_of_odd {size : Nat} (wr : Bool) (hr : reaches s rq = true)
    (hodd : size ≠ 4 ∨ off % 4 ≠ 0) :
    exec (.mmioMisshapedAccess rq off size wr) s =
      .next (if wr then countShape rq s else shapeRead rq off s) :=
  regAct_of_effect ha (lt_of_reaches hr) hoff (misshaped_of_odd wr hr hodd) (by cases wr <;> simp)

/-- REGISTER_WRITE answers what its write leaves at the bus. -/
theorem exec_registerWrite_of_wrReg {v : Word} (hrq : rq < 33) (h : wrReg rq off v.toNat s = t)
    (hq : t.pending = s.pending) : exec (.registerWrite rq off v) s = .next t :=
  regAct_of_effect ha hrq hoff h hq

/-- RC_REGISTER_READ answers what its read leaves at the bus. -/
theorem exec_rcRegisterRead_of_rdReg (hrq : rq < 33) (h : rdReg rq off s = t) (hq : t.pending = s.pending) :
    exec (.rcRegisterRead rq off) s = .next t :=
  regAct_of_effect ha hrq hoff h hq

/-- MMIO_HOLE_ACCESS that writes answers what a write of 0 leaves at the bus. -/
theorem exec_mmioHoleAccess_of_wrReg (hrq : rq < 33) (h : wrReg rq off 0 s = t) (hq : t.pending = s.pending) :
    exec (.mmioHoleAccess rq off true) s = .next t :=
  regAct_of_effect ha hrq hoff h hq

/-- MMIO_HOLE_ACCESS that reads answers what the read leaves at the bus. -/
theorem exec_mmioHoleAccess_of_rdReg (hrq : rq < 33) (h : rdReg rq off s = t) (hq : t.pending = s.pending) :
    exec (.mmioHoleAccess rq off false) s = .next t :=
  regAct_of_effect ha hrq hoff h hq

end

end Sys2Proof.Machine

namespace Sys2Proof

open Sys2Proof.Machine

/-- Settles O22: each kind of access by what it leaves at the bus, and the register command answers exactly that, since
none of them touches the queue. -/
theorem oddAccessesAreCounted : Obligations.OddAccessesAreCounted := by
  unfold Obligations.OddAccessesAreCounted
  refine ⟨?shape, inPacketWindow_iff, ?hole, ?waking, ?sleep, ?absent⟩
  case shape =>
    intro s rq off size ha hr hoff hodd
    exact ⟨exec_mmioMisshapedAccess_of_odd ha hoff true hr hodd,
      exec_mmioMisshapedAccess_of_odd ha hoff false hr hodd⟩
  case hole =>
    intro s rq off ha hr hp hal hoff hole
    have hrq := lt_of_reaches hr
    exact ⟨exec_mmioHoleAccess_of_wrReg ha hoff hrq (wrReg_hole 0 hr hp hal hole) rfl,
      exec_mmioHoleAccess_of_rdReg ha hoff hrq (rdReg_hole hr hp hal hole) rfl⟩
  case waking =>
    intro s rq off v ha hr hst hal hoff
    have hrq := lt_of_reaches hr
    have hd : deferred s = true := by simp [deferred, hst]
    exact ⟨exec_registerWrite_of_wrReg ha hoff hrq ((wrReg_of_deferred v hr hd hal).trans (defer_of_waking _ _ hst)) rfl,
      exec_rcRegisterRead_of_rdReg ha hoff hrq ((rdReg_of_deferred hr hd hal).trans (defer_of_waking _ _ hst)) rfl⟩
  case sleep =>
    intro s rq off v ha hr hst hal hoff
    have hrq := lt_of_reaches hr
    have hd : deferred s = true := by simp [deferred, hst]
    exact ⟨exec_registerWrite_of_wrReg ha hoff hrq ((wrReg_of_deferred v hr hd hal).trans (defer_of_sleep _ _ hst)) rfl,
      exec_rcRegisterRead_of_rdReg ha hoff hrq ((rdReg_of_deferred hr hd hal).trans (defer_of_sleep _ _ hst)) rfl⟩
  case absent =>
    intro s rq off v ha hrq hr hoff
    exact ⟨exec_registerWrite_of_wrReg ha hoff hrq (wrReg_of_absent off v.toNat hr) rfl,
      exec_rcRegisterRead_of_rdReg ha hoff hrq (rdReg_of_absent off hr) rfl⟩

end Sys2Proof

/-! SUPPORT. Bits of a word: a bit field's value in `Nat.testBit`'s terms, and what a write of a register's RW bits
leaves (R7). -/

namespace Sys2Proof.Machine

theorem bit_eq_testBit (w n : Nat) : bit w n = w.testBit n := by
  rw [bit, Nat.testBit_eq_decide_div_mod_eq, Nat.shiftRight_eq_div_pow]
  rfl

theorem bit_and (x y k : Nat) : bit (x &&& y) k = (bit x k && bit y k) := by
  simp only [bit_eq_testBit, Nat.testBit_and]

theorem bit_mod_two_pow {k n : Nat} (w : Nat) (h : k < n) : bit (w % 2 ^ n) k = bit w k := by
  simp only [bit_eq_testBit, Nat.testBit_mod_two_pow, h, decide_true, Bool.true_and]

/-- An AND's lowest bit is 1 exactly where both are. -/
theorem and_mod_two (x y : Nat) : (x &&& y) % 2 = if y % 2 = 1 then x % 2 else 0 := by
  have h := Nat.and_mod_two_eq_one (a := x) (b := y)
  split <;> omega

/-- The lowest bit of a merge is the written value's where it is RW, and the old one elsewhere. -/
theorem mergeRw_mod_two (old rw v : Nat) : mergeRw old rw v % 2 = if rw % 2 = 1 then v % 2 else old % 2 := by
  have hle : old &&& rw ≤ old := Nat.and_le_left
  have ho := and_mod_two old rw
  have hv := and_mod_two v rw
  unfold mergeRw
  by_cases h : rw % 2 = 1
  all_goals
    simp only [h, ↓reduceIte] at ho hv ⊢
    omega

/-- A merge takes each bit from one of the two words: nothing is carried from the lowest bit to the others. -/
theorem mergeRw_div_two (old rw v : Nat) : mergeRw old rw v / 2 = mergeRw (old / 2) (rw / 2) (v / 2) := by
  have hle : old &&& rw ≤ old := Nat.and_le_left
  have ho := and_mod_two old rw
  have hv := and_mod_two v rw
  unfold mergeRw
  rw [← Nat.and_div_two, ← Nat.and_div_two]
  by_cases h : rw % 2 = 1
  all_goals
    simp only [h, ↓reduceIte] at ho hv
    omega

/-- A merge takes each RW bit from the written value and each other bit from the old one. -/
theorem bit_mergeRw (old rw v k : Nat) : bit (mergeRw old rw v) k = if bit rw k then bit v k else bit old k := by
  simp only [bit_eq_testBit]
  induction k generalizing old rw v with
  | zero => by_cases h : rw % 2 = 1 <;> simp [Nat.testBit_zero, mergeRw_mod_two, h]
  | succ k ih => simp only [Nat.testBit_add_one, mergeRw_div_two, ih]

end Sys2Proof.Machine

/-! SUPPORT. Device time (R27): what PWR_TIME_CTRL.LOCKED, a tick, and the errors of a tick change. -/

namespace Sys2Proof.Machine

/-! ### LOCKED (R28) -/

/-- LOCKED is bit 8 of PWR_TIME_CTRL, and nothing else of the state is stored with it. -/
theorem exists_lockBit_eq (s : State) : ∃ on, lockBit s =
    rput R.pwrTimeCtrl 0 ((rget s R.pwrTimeCtrl 0 &&& 0x207) + 256 * b2n on) s :=
  ⟨_, rfl⟩

/-- A word stored with LOCKED shows the RW bits of PWR_TIME_CTRL as they were. -/
theorem bit_lockWord {k : Nat} (w : Nat) (on : Bool) (hk : k ∈ [0, 1, 2, 9]) :
    bit (((w &&& 0x207) + 256 * b2n on) % 2 ^ 32) k = bit w k := by
  have hrw : bit 0x207 k = true := by revert k; decide
  have hand : bit (w &&& 0x207) k = bit w k := by rw [bit_and, hrw, Bool.and_true]
  have htop : w &&& 0x207 ≤ 0x207 := Nat.and_le_right
  have hlow : (w &&& 0x207) % 2 ^ 9 ≤ 7 := by
    rw [Nat.and_mod_two_pow]
    exact Nat.and_le_right
  have hon : b2n on ≤ 1 := by cases on <;> decide
  have hbit : ∀ x, bit x k = ((x / 2 ^ k) % 2 == 1) := fun x => by rw [bit, Nat.shiftRight_eq_div_pow]
  rw [← hand, hbit, hbit]
  congr 1
  simp only [List.mem_cons, List.not_mem_nil, or_false] at hk
  rcases hk with rfl | rfl | rfl | rfl <;> omega

section
variable {s : State} (hs : registersOk s)
include hs

theorem bit_rget_lockBit {k : Nat} (hk : k ∈ [0, 1, 2, 9]) :
    bit (rget (lockBit s) R.pwrTimeCtrl 0) k = bit (rget s R.pwrTimeCtrl 0) k := by
  obtain ⟨on, h⟩ := exists_lockBit_eq s
  rw [h, rget_rput s _ _ _ _ _ hs (by decide) (by decide), if_pos ⟨rfl, rfl⟩, bit_lockWord _ on hk]

theorem rget_lockBit_other {off idx : Nat} (hoff : off < 0x1000000) (hne : (off, idx) ≠ (R.pwrTimeCtrl, 0)) :
    rget (lockBit s) off idx = rget s off idx := by
  obtain ⟨on, h⟩ := exists_lockBit_eq s
  rw [h, rget_rput s _ _ _ _ _ hs (by decide) hoff, if_neg (fun e => hne (Prod.ext e.1 e.2))]

end

/-! ### A tick (R27) -/

/-- Slewing changes neither the power state nor the envelope. -/
theorem slew_st_env (d : Nat) (p : Pwr) : (slew d p).st = p.st ∧ (slew d p).env = p.env := by
  unfold slew
  split
  · exact ⟨rfl, rfl⟩
  · simp only
    split <;> exact ⟨rfl, rfl⟩

/-- A tick moves device time, the clock's own fields of the power state, and PWR_TIME_CTRL. -/
theorem exists_tick_eq (s : State) : ∃ p w, p.st = s.pwr.st ∧ p.env = s.pwr.env ∧
    tick s = rput R.pwrTimeCtrl 0 w { s with now := s.now + (if s.pwr.st = .sleep then 40 else 4), pwr := p } := by
  refine ⟨_, _, ?_, ?_, rfl⟩
  · exact (slew_st_env _ s.pwr).1
  · exact (slew_st_env _ s.pwr).2

/-- A tick leaves every register but PWR_TIME_CTRL. -/
theorem rget_tick_other {s : State} {off : Nat} (idx : Nat) (hs : registersOk s) (hne : off ≠ R.pwrTimeCtrl)
    (hoff : off < 0x1000000) : rget (tick s) off idx = rget s off idx := by
  obtain ⟨p, w, -, -, h⟩ := exists_tick_eq s
  rw [h]
  exact (rget_rput _ _ _ _ _ _ hs (by decide) hoff).trans (if_neg (fun e => hne e.1))

/-! ### The errors of a tick (R282, R469) -/

/-- Errors that strike change only the lists of struck rows and struck entries. -/
theorem exists_strike_eq (ups : List (Nat × RowError)) (s : State) : ∃ rows entries, strike ups s =
    { s with spd := { s.spd with upsets := rows }, seq := { s.seq with nodeUpsets := entries } } := by
  unfold strike
  split
  · exact ⟨_, _, rfl⟩
  · exact ⟨s.spd.upsets, s.seq.nodeUpsets, rfl⟩

/-- Errors strike nothing of a device that is not alive, and a tick does not bring it to life. -/
theorem strike_tick_of_dead {s : State} (ups : List (Nat × RowError)) (h : alive s = false) :
    (strike ups (tick s)).spd = s.spd ∧ (strike ups (tick s)).seq = s.seq := by
  obtain ⟨p, w, -, -, ht⟩ := exists_tick_eq s
  have hdead : alive (tick s) = false := by
    rw [ht]
    exact h
  have hnone : strike ups (tick s) = tick s := by simp [strike, hdead]
  rw [hnone, ht]
  exact ⟨rfl, rfl⟩

/-! ### The commands of the clock and of the supply -/

/-- DEVICE_TIME_TICK: what a tick and its errors leave, while there is power. -/
theorem exec_deviceTimeTick (s : State) : exec .deviceTimeTick s =
    .next (keepQueue s (if s.powered then draw (strike (upsetsNow s) (tick s)) else s)) := rfl

/-- DEVICE_TIME_TICK of a powered device. -/
theorem exec_deviceTimeTick_of_powered {s : State} (h : s.powered = true) :
    exec .deviceTimeTick s = .next (draw (strike (upsetsNow s) (tick s))) := by
  obtain ⟨p, w, -, -, ht⟩ := exists_tick_eq s
  obtain ⟨rows, entries, hs⟩ := exists_strike_eq (upsetsNow s) (tick s)
  rw [exec_deviceTimeTick, if_pos h, keepQueue_of_pending_eq (by rw [hs, ht]; rfl)]

/-- DEVICE_TIME_TICK of a device without power. -/
theorem exec_deviceTimeTick_of_unpowered {s : State} (h : s.powered = false) :
    exec .deviceTimeTick s = .next s := by
  rw [exec_deviceTimeTick, h, if_neg Bool.false_ne_true, keepQueue_of_pending_eq rfl]

/-- AON_POWER_UP of a device without power: device time starts from 0. -/
theorem exec_aonPowerUp_of_unpowered {s : State} (two : Bool) (h : s.powered = false) :
    ∃ t, exec (.aonPowerUp two) s = .next t ∧ t.now = 0 := by
  refine ⟨keepQueue s (powerUp two s), rfl, ?_⟩
  simp [powerUp, h, unpowered, State.reset]

end Sys2Proof.Machine

/-! SUPPORT. Device time runs on through resets and the boot chain (R27, R478): each step of either leaves it. -/

namespace Sys2Proof.Machine

/-- A fold of steps that leave device time leaves it. -/
theorem foldl_now {β : Type} (f : State → β → State) (hf : ∀ s b, (f s b).now = s.now) :
    ∀ (l : List β) (s : State), (l.foldl f s).now = s.now
  | [], _ => rfl
  | b :: l, s => (foldl_now f hf l (f s b)).trans (hf s b)

/-! ### What the boot's steps call -/

@[simp] theorem modEng_now (e : Nat) (f : EngSaf → EngSaf) (s : State) : (modEng e f s).now = s.now := rfl

@[simp] theorem modDice_now (f : Dice → Dice) (s : State) : (modDice f s).now = s.now := rfl

@[simp] theorem putCfg_now (a : Nat) (c : Option CfgBlock) (s : State) : (putCfg a c s).now = s.now := rfl

@[simp] theorem logBoot_now (code d0 d1 : Nat) (s : State) : (logBoot code d0 d1 s).now = s.now :=
  addLog_now ..

@[simp] theorem logRepair_now (kind reason eng addr spare : Nat) (s : State) :
    (logRepair kind reason eng addr spare s).now = s.now := by
  unfold logRepair
  split <;> exact addLog_now ..

@[simp] theorem saveRecord_now (phase : Nat) (s : State) : (saveRecord phase s).now = s.now := by
  unfold saveRecord
  simp only
  split <;> rfl

@[simp] theorem setAvail_now (kind core : Nat) (on : Bool) (s : State) : (setAvail kind core on s).now = s.now := by
  simp only [setAvail, capChange]
  split
  · rfl
  · split <;> rfl

@[simp] theorem substitute_now (e : Nat) (s : State) : (substitute e s).now = s.now := by
  simp only [substitute, capChange]
  split <;> rfl

/-! ### The loader's steps (R466 to R471, R481 to R487) -/

@[simp] theorem checkRepairLog_now (s : State) : (checkRepairLog s).now = s.now := by
  unfold checkRepairLog
  refine foldl_now _ (fun s e => ?_) _ s
  split
  · rfl
  · exact logBoot_now ..

@[simp] theorem maskUnit_now (e : Nat) (s : State) : (maskUnit e s).now = s.now := by
  have hmarked := foldl_now (fun s x => modEng x (fun y => { y with fenced := true }) s) (fun _ _ => rfl)
    (fenceGroup e) (modEng e (fun y => { y with last := 3 }) s)
  unfold maskUnit
  simp only
  split
  · rw [setAvail_now, hmarked, modEng_now]
  · rw [hmarked, modEng_now]

@[simp] theorem bootSpares_now (s : State) : (bootSpares s).now = s.now := by
  unfold bootSpares
  simp only
  rw [foldl_now _ (fun s c => maskUnit_now _ s), foldl_now _ (fun s e => maskUnit_now e s), modNv_now,
    foldl_now _ (fun s e => by rw [logRepair_now, substitute_now])]

@[simp] theorem bootRows_now (s : State) : (bootRows s).now = s.now := by
  unfold bootRows
  simp only
  rw [modNv_now]
  exact foldl_now _ (fun _ _ => modNv_now ..) _ s

@[simp] theorem bootHbm_now (s : State) : (bootHbm s).now = s.now := by
  unfold bootHbm
  refine foldl_now _ (fun s a => ?_) _ s
  split <;> rw [logRepair_now, modNv_now]

@[simp] theorem loadCreds_now (s : State) : (loadCreds s).now = s.now := rfl

@[simp] theorem keepCopy_now (s : State) : (keepCopy s).now = s.now := by
  unfold keepCopy
  split
  · rfl
  · rw [modNv_now, saveRecord_now]

@[simp] theorem install_now (s : State) : (install s).now = s.now := by
  unfold install
  split
  · split
    · simp
    · rfl
  · rfl

@[simp] theorem dropDerived_now (s : State) : (dropDerived s).now = s.now := rfl

@[simp] theorem fallBack_now (reason : Nat) (s : State) : (fallBack reason s).now = s.now := by
  simp [fallBack]

@[simp] theorem trialBoot_now (s : State) : (trialBoot s).now = s.now := by
  unfold trialBoot
  split
  · split
    · exact fallBack_now 1 s
    · split
      · exact fallBack_now 2 s
      · rw [saveRecord_now, modNv_now]
  · rfl

/-! ### The image's selection and start (R396, R479, R487) -/

@[simp] theorem selectCfg_now (fmt : Nat) (s : State) : (selectCfg fmt s).now = s.now := by
  unfold selectCfg
  simp only
  split
  · rfl
  · split
    · split <;> rfl
    · rfl

@[simp] theorem startFirmware_now (i : Image) (s : State) : (startFirmware i s).now = s.now := by
  simp [startFirmware]

@[simp] theorem enterRecovery_now (s : State) : (enterRecovery s).now = s.now := by
  simp [enterRecovery]

@[simp] theorem selectImage_now (s : State) : (selectImage s).now = s.now := by
  unfold selectImage
  simp only
  split
  · split
    · exact startFirmware_now _ s
    · rfl
  · split
    · split
      · rw [startFirmware_now, modBoot_now, logBoot_now]
      · exact logBoot_now ..
    · rw [enterRecovery_now, logBoot_now, logBoot_now]

@[simp] theorem romStart_now (s : State) : (romStart s).now = s.now := by
  simp [romStart]

/-- Device time as the boot chain found it. -/
@[simp] theorem bootChain_now (s : State) : (bootChain s).now = s.now := by
  unfold bootChain
  simp only
  split
  · exact romStart_now s
  · simp

/-! ### Resets (R463, R465, R505) -/

@[simp] theorem coldReset_now (s : State) : (coldReset s).now = s.now := rfl

@[simp] theorem holdReset_now (b : Nat) (s : State) : (holdReset b s).now = s.now := by
  unfold holdReset
  split
  · rfl
  · split <;> rfl

@[simp] theorem freeReset_now (b : Nat) (s : State) : (freeReset b s).now = s.now := by
  unfold freeReset
  split
  · rfl
  · split
    · split
      · exact bootChain_now s
      · rfl
    · simp only
      split
      · exact bootChain_now _
      · rfl

@[simp] theorem supplyLow_now (s : State) : (supplyLow s).now = s.now := by
  unfold supplyLow
  split
  · rfl
  · split
    · exact holdReset_now 2 s
    · rw [addLog_now, holdReset_now]

@[simp] theorem thermtrip_now (s : State) : (thermtrip s).now = s.now := by
  unfold thermtrip
  split
  · split
    · exact holdReset_now 4 s
    · rfl
  · rfl

/-- An effect of the always-on domain that leaves device time is answered by a state of the same device time. -/
theorem exists_onObject_now {s : State} {f : State → State} (h : (f s).now = s.now) :
    ∃ t, onObject true s f = .next t ∧ t.now = s.now :=
  ⟨keepQueue s (f s), rfl, h⟩

end Sys2Proof.Machine

namespace Sys2Proof

open Sys2Proof.Machine

/-- Settles O9: a tick's frame from the equations of the tick and of the errors that strike, and device time through a
reset from each step of the boot chain. -/
theorem deviceTimeAdvances : Obligations.DeviceTimeAdvances := by
  unfold Obligations.DeviceTimeAdvances
  intro s
  refine ⟨fun hp => ⟨_, exec_deviceTimeTick_of_powered hp, ?tick⟩,
    fun hp => ⟨exec_deviceTimeTick_of_unpowered hp, fun two => exec_aonPowerUp_of_unpowered two hp⟩, ?resets⟩
  case tick =>
    have hkept := strike_tick_of_dead (s := s) (upsetsNow s)
    have hregs := fun off idx hne hoff hok => rget_tick_other (s := s) (off := off) idx hok hne hoff
    obtain ⟨p, w, hst, henv, ht⟩ := exists_tick_eq s
    obtain ⟨rows, entries, hs⟩ := exists_strike_eq (upsetsNow s) (tick s)
    rw [hs] at hkept ⊢
    rw [ht] at hkept hregs ⊢
    exact ⟨rfl, hst, henv, rfl, rfl, ⟨rfl, rfl, rfl, hkept⟩, rfl, rfl, rfl, rfl, rfl, rfl, rfl, rfl, rfl, rfl, rfl,
      rfl, rfl, hregs⟩
  case resets =>
    intro _ c hc
    simp only [List.mem_cons, List.not_mem_nil, or_false] at hc
    rcases hc with rfl | rfl | rfl | rfl | rfl
    · exact exists_onObject_now (holdReset_now 1 s)
    · exact exists_onObject_now (freeReset_now 1 s)
    · exact exists_onObject_now (supplyLow_now s)
    · exact exists_onObject_now (freeReset_now 2 s)
    · exact exists_onObject_now (thermtrip_now s)

end Sys2Proof

/-! SUPPORT. Writes to the registers that only the requesters of R30 write. -/

namespace Sys2Proof.Machine

theorem privileged_iff (s : State) (rq : Nat) :
    privileged s rq = true ↔ rq = 32 ∨ (rq = 0 ∧ s.sec.hostOwner = true) := by
  simp [privileged]

/-! ### Where a write goes -/

theorem busWrite_reg {rq off n : Nat} {d : RegDef} (v : Nat) (s : State) (h : placeOf rq off = .reg d n) :
    busWrite rq off v s = writeReg rq n v d s := by
  simp [busWrite, h]

/-- No privileged register is a selector or one of a port's link registers. -/
theorem mem_privRegs_plain : ∀ o ∈ privRegs,
    selectors.contains o = false ∧ ¬ (R.hostPortLink ≤ o ∧ o ≤ R.hostPortDiscard) := by
  decide

/-- A write to a register of `privRegs` stores its RW bits, from a requester of R30 alone. -/
theorem writeReg_of_privRegs {rq n v : Nat} {d : RegDef} {s : State} (h : privRegs.contains d.off = true) :
    writeReg rq n v d s = allowed (privileged s rq) rq s (storeRw d (objOf s rq d n) v) := by
  obtain ⟨hsel, hlink⟩ := mem_privRegs_plain d.off (List.contains_iff_mem.mp h)
  rw [writeReg, hsel, if_neg Bool.false_ne_true, if_neg hlink, if_pos h]

/-- PWR_TIME_CTRL's row of the register map. -/
def timeCtrlReg : RegDef := ⟨R.pwrTimeCtrl, 4, 1, 0, 0x207, 0x0, 0x0, 0x0⟩

/-- PWR_TIME_CTRL's place, for a requester that sees the register blocks. -/
theorem placeOf_pwrTimeCtrl {s : State} {rq : Nat} (h : seesRegs s rq = true) :
    placeOf rq R.pwrTimeCtrl = .reg timeCtrlReg 0 := by
  have hpf : rq = 32 ∨ isPf rq = true := by
    simp only [seesRegs, Bool.and_eq_true, Bool.or_eq_true, beq_iff_eq] at h
    exact h.2
  rw [placeOf, pfOffset, if_pos hpf]
  rfl

theorem writeReg_pwrTimeCtrl {rq n v : Nat} {d : RegDef} {s : State} (h : d.off = R.pwrTimeCtrl) :
    writeReg rq n v d s = allowed (privileged s rq) rq s (timeCtrlWrite d v) := by
  have hsel : selectors.contains R.pwrTimeCtrl = false := by decide
  have hlink : ¬ (R.hostPortLink ≤ R.pwrTimeCtrl ∧ R.pwrTimeCtrl ≤ R.hostPortDiscard) := by decide
  have hpriv : privRegs.contains R.pwrTimeCtrl = false := by decide
  rw [writeReg, h, hsel, if_neg Bool.false_ne_true, if_neg hlink, hpriv, if_neg Bool.false_ne_true, if_pos rfl]

theorem allowed_pending {c : Bool} {rq : Nat} {s : State} {f : State → State} (h : (f s).pending = s.pending) :
    (allowed c rq s f).pending = s.pending := by
  cases c
  · rfl
  · exact h

/-! ### What a write to PWR_TIME_CTRL leaves -/

/-- A write of PWR_TIME_CTRL stores the RW bits, may restart the measurement of the source, and forms LOCKED anew. -/
theorem exists_timeCtrlWrite_eq (d : RegDef) (v : Nat) (s : State) :
    ∃ f, timeCtrlWrite d v s = lockBit (modPwr f (storeRw d 0 v s)) := by
  unfold timeCtrlWrite
  simp only
  split
  · exact ⟨id, rfl⟩
  · exact ⟨_, rfl⟩

section
variable {s : State} {d : RegDef} (v : Nat)

/-- A write of PWR_TIME_CTRL leaves the queue, device time and memory. -/
theorem timeCtrlWrite_frame : (timeCtrlWrite d v s).pending = s.pending ∧ (timeCtrlWrite d v s).now = s.now ∧
    (timeCtrlWrite d v s).mem = s.mem := by
  obtain ⟨f, h⟩ := exists_timeCtrlWrite_eq d v s
  rw [h]
  exact ⟨rfl, rfl, rfl⟩

variable (hs : registersOk s) (hd : d.off = R.pwrTimeCtrl)
include hs hd

/-- The RW bits of PWR_TIME_CTRL after a write are the value's. -/
theorem bit_rget_timeCtrlWrite {k : Nat} (hrw : d.rw = 0x207) (hk : k ∈ [0, 1, 2, 9]) :
    bit (rget (timeCtrlWrite d v s) R.pwrTimeCtrl 0) k = bit v k := by
  obtain ⟨f, h⟩ := exists_timeCtrlWrite_eq d v s
  have hok : registersOk (modPwr f (storeRw d 0 v s)) := rput_keys s _ _ _ hs
  have hk32 : k < 32 := by revert k; decide
  have hbit : bit 0x207 k = true := by revert k; decide
  calc bit (rget (timeCtrlWrite d v s) R.pwrTimeCtrl 0) k
      = bit (rget (storeRw d 0 v s) R.pwrTimeCtrl 0) k := by rw [h, bit_rget_lockBit hok hk]; rfl
    _ = bit (mergeRw (rget s d.off 0) d.rw v % 2 ^ 32) k := by
        rw [storeRw, hd, rget_rput s _ _ _ _ _ hs (by decide) (by decide), if_pos ⟨rfl, rfl⟩]
    _ = bit v k := by rw [bit_mod_two_pow _ hk32, bit_mergeRw, hrw, if_pos hbit]

/-- A write to PWR_TIME_CTRL leaves every other register. -/
theorem rget_timeCtrlWrite_other {off idx : Nat} (hoff : off < 0x1000000) (hne : (off, idx) ≠ (R.pwrTimeCtrl, 0)) :
    rget (timeCtrlWrite d v s) off idx = rget s off idx := by
  obtain ⟨f, h⟩ := exists_timeCtrlWrite_eq d v s
  have hok : registersOk (modPwr f (storeRw d 0 v s)) := rput_keys s _ _ _ hs
  calc rget (timeCtrlWrite d v s) off idx
      = rget (storeRw d 0 v s) off idx := by rw [h, rget_lockBit_other hok hoff hne]; rfl
    _ = rget s off idx := by
        rw [storeRw, hd, rget_rput s _ _ _ _ _ hs (by decide) hoff, if_neg (fun e => hne (Prod.ext e.1 e.2))]

end

/-! ### The command -/

section
variable {s : State} {rq : Nat} (ha : alive s = true) (hp : prompt s = true)
include ha hp

/-- REGISTER_WRITE of an aligned offset that holds a register. -/
theorem exec_registerWrite_of_reg {off n : Nat} {d : RegDef} {v : Word} (hr : reaches s rq = true)
    (hal : off % 4 = 0) (hoff : off < 0x1000000) (hpl : placeOf rq off = .reg d n)
    (hq : (writeReg rq n v.toNat d s).pending = s.pending) :
    exec (.registerWrite rq off v) s = .next (writeReg rq n v.toNat d s) :=
  exec_registerWrite_of_wrReg ha hoff (lt_of_reaches hr)
    ((wrReg_of_prompt v.toNat hr hp hal).trans (busWrite_reg v.toNat s hpl)) hq

/-- REGISTER_WRITE of a register of `privRegs`. -/
theorem exec_registerWrite_of_privRegs {off n : Nat} {d : RegDef} (v : Word) (hr : reaches s rq = true)
    (hal : off % 4 = 0) (hoff : off < 0x1000000) (hpl : placeOf rq off = .reg d n)
    (hpriv : privRegs.contains d.off = true) :
    exec (.registerWrite rq off v) s =
      .next (allowed (privileged s rq) rq s (storeRw d (objOf s rq d n) v.toNat)) := by
  have hw := writeReg_of_privRegs (rq := rq) (n := n) (v := v.toNat) (s := s) hpriv
  rw [exec_registerWrite_of_reg ha hp hr hal hoff hpl (by rw [hw]; exact allowed_pending rfl), hw]

/-- REGISTER_WRITE of PWR_TIME_CTRL. -/
theorem exec_registerWrite_pwrTimeCtrl (v : Word) (hsees : seesRegs s rq = true) :
    exec (.registerWrite rq R.pwrTimeCtrl v) s = .next (allowed (privileged s rq) rq s
      (timeCtrlWrite timeCtrlReg v.toNat)) := by
  have hr : reaches s rq = true := by
    rw [seesRegs, Bool.and_eq_true] at hsees
    exact hsees.1
  have hw := writeReg_pwrTimeCtrl (rq := rq) (n := 0) (v := v.toNat) (s := s) (d := timeCtrlReg) rfl
  rw [exec_registerWrite_of_reg ha hp hr (by decide) (by decide) (placeOf_pwrTimeCtrl hsees)
    (by rw [hw]; exact allowed_pending (timeCtrlWrite_frame _).1), hw]

end

end Sys2Proof.Machine

namespace Sys2Proof

open Sys2Proof.Machine

/-- Settles O20: the write reaches the register's own rule, which is dropped and counted or stores the RW bits; LOCKED,
which PWR_TIME_CTRL's write forms anew, is none of them. -/
theorem privilegedRegisterWrites : Obligations.PrivilegedRegisterWrites := by
  unfold Obligations.PrivilegedRegisterWrites
  refine ⟨privileged_iff, ?timeCtrl, ?others, bit_mergeRw⟩
  case timeCtrl =>
    intro s rq v ha hsees hp hregs
    refine ⟨_, exec_registerWrite_pwrTimeCtrl ha hp v hsees, fun hpriv => ?dropped, fun hpriv => ?stored⟩
    case dropped => rw [hpriv]; rfl
    case stored =>
      rw [hpriv]
      obtain ⟨-, hnow, hmem⟩ := timeCtrlWrite_frame (s := s) (d := timeCtrlReg) v.toNat
      exact ⟨hnow, hmem,
        fun k hk => bit_rget_timeCtrlWrite _ hregs rfl rfl hk,
        fun off idx hoff hne => rget_timeCtrlWrite_other _ hregs rfl hoff hne⟩
  case others =>
    intro s rq off n d v ha hr hp hal hoff hpl hpriv
    exact exec_registerWrite_of_privRegs ha hp v hr hal hoff hpl hpriv

end Sys2Proof

/-! SUPPORT. Writes to the scratchpad's power and arrival registers: where they go, and what they leave (R292, R300). -/

namespace Sys2Proof.Machine

/-! ### Where the writes go -/

/-- A requester that sees the register blocks is there. -/
theorem reaches_of_seesRegs {s : State} {rq : Nat} (h : seesRegs s rq = true) : reaches s rq = true := by
  rw [seesRegs, Bool.and_eq_true] at h
  exact h.1

/-- A requester that sees the register blocks finds each block at its own offset. -/
theorem placeOf_of_seesRegs {s : State} {rq off : Nat} (h : seesRegs s rq = true) (hoff : off < 0x500000) :
    placeOf rq off = blockPlace off := by
  have hpf : rq = 32 ∨ isPf rq = true := by
    simp only [seesRegs, Bool.and_eq_true, Bool.or_eq_true, beq_iff_eq] at h
    exact h.2
  rw [placeOf, pfOffset, if_pos hpf, placeAt, if_pos hoff]

/-- The effect of an aligned write to a register block is the write of the register that stands there. -/
theorem wrReg_of_block {s : State} {rq off n : Nat} {d : RegDef} (v : Nat) (hsees : seesRegs s rq = true)
    (hp : prompt s = true) (hal : off % 4 = 0) (hoff : off < 0x500000) (hb : blockPlace off = .reg d n) :
    wrReg rq off v s = writeReg rq n v d s := by
  rw [wrReg_of_prompt v (reaches_of_seesRegs hsees) hp hal,
    busWrite_reg v s ((placeOf_of_seesRegs hsees hoff).trans hb)]

/-- SPD_ARR_VALUE's row of the register map. -/
def arrValueReg : RegDef := ⟨R.spdArrValue, 4, 1, R.spdArrSel, 0xffffffff, 0x0, 0x0, 0x0⟩

/-- SPD_SLICE_PWR's row of the register map. -/
def slicePwrReg : RegDef := ⟨R.spdSlicePwr, 4, 1, R.spdSliceSel, 0xffff, 0x0, 0x0, 0x0⟩

theorem blockPlace_spdArrValue : blockPlace R.spdArrValue = .reg arrValueReg 0 := rfl

theorem blockPlace_spdSlicePwr : blockPlace R.spdSlicePwr = .reg slicePwrReg 0 := rfl

theorem writeReg_arrValueReg (rq n v : Nat) (s : State) : writeReg rq n v arrValueReg s = arrValueWrite rq v s := rfl

theorem writeReg_slicePwrReg (rq n v : Nat) (s : State) : writeReg rq n v slicePwrReg s = slicePwrWrite rq v s := rfl

/-! ### Arrival counters (R299, R300) -/

section
variable {s : State} (hk : tkeys 0 s.spd.arr = true)
include hk

/-- A counter that is set reads as the value, modulo 2³². -/
theorem tget_arrSet (key v : Nat) : tget 0 (arrSet key v s).spd.arr key = v % 2 ^ 32 := by
  rw [arrSet, counterChanged_arr, tget_tset_from _ _ _ 0 _ _ _ hk (fun _ => rfl), if_pos rfl, w32]

/-- Setting a counter keeps the counters' table in order. -/
theorem arrSet_keys (key v : Nat) : tkeys 0 (arrSet key v s).spd.arr = true := by
  rw [arrSet, counterChanged_arr]
  exact tkeys_tset _ _ 0 _ _ (Nat.zero_le _) hk

/-- Arrivals raise the counter by their number, modulo 2³²; no arrivals leave it. -/
theorem tget_arrAdd (key n : Nat) : tget 0 (arrAdd key n s).spd.arr key =
    if n = 0 then tget 0 s.spd.arr key else (tget 0 s.spd.arr key + n) % 2 ^ 32 := by
  rw [arrAdd]
  split
  · rfl
  · rw [counterChanged_arr, tget_tset_from _ _ _ 0 _ _ _ hk (fun _ => rfl), if_pos rfl, w32]

end

/-- Arrivals after a write of the counter are added to the written value. -/
theorem tget_arrAdd_arrSet {s : State} (key v n : Nat) (hk : tkeys 0 s.spd.arr = true) :
    tget 0 (arrAdd key n (arrSet key v s)).spd.arr key = (v + n) % 2 ^ 32 := by
  rw [tget_arrAdd (arrSet_keys hk key v), tget_arrSet hk, Nat.mod_add_mod]
  split
  case isTrue h => rw [h, Nat.add_zero]
  case isFalse => rfl

/-- A write of SPD_ARR_VALUE is dropped and counted unless the counter exists and its core is shared with the
requester. -/
theorem arrValueWrite_eq (rq v : Nat) (s : State) : arrValueWrite rq v s =
    let sel := selGet s rq R.spdArrSel
    if arrExists sel = true ∧ holdsShare s rq (bits sel 16 16) (bits sel 15 8) = true then
      settle (arrSet (arrKey sel) v s)
    else countDenied rq s := by
  simp only [arrValueWrite, Bool.and_eq_true]

/-! ### Bank power (R292) -/

/-- Marking the rows of banks as poisoned leaves the queue. -/
theorem foldl_setPoison_pending (reason : Nat) : ∀ (banks : List Nat) (s : State),
    (banks.foldl (fun s k => setPoison (k * 1024) ((k + 1) * 1024) reason s) s).pending = s.pending
  | [], _ => rfl
  | _ :: banks, _ => foldl_setPoison_pending reason banks _

/-- A write of BANK_ON may be made: the requester's rights cover every bank that changes, and none that is on serves as
cache. -/
def mayPowerBanks (s : State) (rq sl new : Nat) : Bool :=
  let old := rget s R.spdSlicePwr sl
  let ch := banksChanged old new
  ch.all (fun b => rowsRight s rq (bankRow sl b) 1024) && !ch.any (fun b => bit old b && cacheBank s sl b)

/-- The banks of a slice that change start towards the power that BANK_ON then asks for; those that gain it read as
poisoned. -/
def powerBanks (sl new : Nat) (s : State) : State :=
  let old := rget s R.spdSlicePwr sl
  let ch := banksChanged old new
  let up := (ch.filter (fun b => !bit old b)).map (fun b => 16 * sl + b)
  let down := (ch.filter (fun b => bit old b)).map (fun b => 16 * sl + b)
  rput R.spdSlicePwr sl new (up.foldl (fun s k => setPoison (k * 1024) ((k + 1) * 1024) 2 s)
    { s with spd := { s.spd with
      goingDown := s.spd.goingDown.filter (fun k => !up.contains k) ++ down,
      goingUp := s.spd.goingUp.filter (fun k => !down.contains k) ++ up,
      off := s.spd.off.filter (fun k => !up.contains k) } })

theorem powerBanks_pending (sl new : Nat) (s : State) : (powerBanks sl new s).pending = s.pending :=
  foldl_setPoison_pending 2 _ _

/-- A choice on a refusal's two grounds is the opposite choice on the permission. -/
theorem ite_not_or {α : Type} (a b : Bool) (x y : α) :
    (if !a || b then x else y) = if a && !b then y else x := by
  cases a <;> cases b <;> rfl

/-- A write of SPD_SLICE_PWR powers the banks that change, or is dropped and counted. -/
theorem slicePwrWrite_eq (rq v : Nat) (s : State) : slicePwrWrite rq v s =
    allowed (mayPowerBanks s rq (selGet s rq R.spdSliceSel) (bits v 15 0)) rq s
      (powerBanks (selGet s rq R.spdSliceSel) (bits v 15 0)) :=
  ite_not_or ..

/-! ### The commands -/

section
variable {s : State} {rq : Nat} (v : Word) (ha : alive s = true) (hsees : seesRegs s rq = true) (hp : prompt s = true)
include ha hsees hp

/-- SPD_ARR_VALUE_WRITE: the write of the selected counter. -/
theorem exec_spdArrValueWrite :
    exec (.spdArrValueWrite rq v) s = .next (keepQueue s (arrValueWrite rq v.toNat s)) := by
  have hrq : rq < 33 := lt_of_reaches (reaches_of_seesRegs hsees)
  have hw := wrReg_of_block v.toNat hsees hp (by decide) (by decide) blockPlace_spdArrValue
  rw [writeReg_arrValueReg] at hw
  rw [← hw]
  exact act_alive _ ha (by simp [hrq, R.spdArrValue])

/-- SPD_SLICE_PWR_WRITE: the write of the selected slice's BANK_ON. -/
theorem exec_spdSlicePwrWrite :
    exec (.spdSlicePwrWrite rq v) s = .next (
      allowed (mayPowerBanks s rq (selGet s rq R.spdSliceSel) (bits v.toNat 15 0)) rq s
        (powerBanks (selGet s rq R.spdSliceSel) (bits v.toNat 15 0))) := by
  have hrq : rq < 33 := lt_of_reaches (reaches_of_seesRegs hsees)
  have hw := wrReg_of_block v.toNat hsees hp (by decide) (by decide) blockPlace_spdSlicePwr
  rw [writeReg_slicePwrReg, slicePwrWrite_eq] at hw
  exact regAct_of_effect ha hrq (by decide) hw (allowed_pending (powerBanks_pending ..))

end

end Sys2Proof.Machine

namespace Sys2Proof

open Sys2Proof.Machine

/-- Settles O24: each command is the write of its register's own rule, and the arrivals after a write read the counter
that the write has set. -/
theorem scratchpadArrivalAndPower : Obligations.ScratchpadArrivalAndPower := by
  unfold Obligations.ScratchpadArrivalAndPower
  refine ⟨?arrival, ?counter, ?power⟩
  case arrival =>
    intro s rq v ha hsees hp
    rw [exec_spdArrValueWrite v ha hsees hp, arrValueWrite_eq]
  case counter =>
    intro s key v n hk
    exact ⟨tget_arrSet hk key v, tget_arrAdd_arrSet key v n hk⟩
  case power =>
    intro s rq v ha hsees hp sl old new ch up down may
    have hexec : exec (.spdSlicePwrWrite rq v) s = .next (allowed may rq s (powerBanks sl new)) :=
      exec_spdSlicePwrWrite v ha hsees hp
    refine ⟨fun hmay => ?taken, fun hmay => ?dropped⟩
    case taken => rw [hexec, hmay]; rfl
    case dropped => rw [hexec, hmay]; rfl

end Sys2Proof

/-! SUPPORT. Host links: what a link that goes down or comes up leaves, and a posted write toward a link that is down
(R351, R354, R457). -/

namespace Sys2Proof.Machine

/-! ### A link goes down (R354) -/

/-- What a port's link going down does to one pass: a pass of the port's functions that reads host memory through it
ends with a completion timeout at the address it reads (R316). -/
def timeOutReading (p : Nat) (s : State) (r : Run) : State :=
  if r.task.tenant < 32 && portOf r.task.tenant == p then
    (match passReading s r with | some a => faultPass r.eng 6 a s | none => s)
  else s

/-- A port whose link has gone down: no speed, no width, no PTM request under way, and one more loss counted. -/
def dropLink (p : Nat) (s : State) : State :=
  cnt R.hostPortDldown p 1 (modPort p (fun q => { q with up := false, speed := 0, width := 0, ptmOut := false }) s)

theorem linkFall_of_down {s : State} {p : Nat} (h : (portSt s p).up = false) : linkFall p s = s := by
  rw [linkFall, h, Bool.not_false, if_pos rfl]

theorem linkFall_of_up {s : State} {p : Nat} (h : (portSt s p).up = true) :
    linkFall p s = settle (s.seq.runs.foldl (timeOutReading p) (dropLink p s)) := by
  rw [linkFall, h, Bool.not_true, if_neg Bool.false_ne_true]
  rfl

theorem exec_linkDown {s : State} {p : Nat} (ha : alive s = true) (hp : p < 2) :
    exec (.linkDown p) s = .next (keepQueue s (linkFall p s)) :=
  act_alive (linkFall p) ha (decide_eq_true hp)

/-! ### A link comes up (R351, R352, R457) -/

/-- A link comes up where its port is there; ports of a bifurcated device are not eight lanes wide. -/
theorem linkRise_eq (p speed width : Nat) (s : State) : linkRise p speed width s =
    if portExists s p = true ∧ ¬(s.bifurcated = true ∧ width = 8) then
      wakeDevice (modPort p (fun q => { q with up := true, speed := speed, width := width }) s) else s := by
  simp only [linkRise, Bool.and_eq_true, Bool.not_eq_true', ← Bool.not_eq_true, beq_iff_eq]

theorem exec_linkUp {s : State} {p speed width : Nat} (ha : alive s = true) (hp : p < 2) (hlo : 1 ≤ speed)
    (hhi : speed ≤ 5) (hw : width ∈ [1, 2, 4, 8]) :
    exec (.linkUp p speed width) s = .next (keepQueue s (linkRise p speed width s)) :=
  act_alive (linkRise p speed width) ha
    (by simp only [hp, hlo, hhi, List.contains_iff_mem.mpr hw, decide_true, Bool.and_true])

/-! ### A posted write (R354) -/

theorem hostPut_of_down {s : State} {fn : Nat} (a : Nat) (l : List Byte) (h : (portSt s (portOf fn)).up = false) :
    hostPut fn a l s = cnt R.hostPortDiscard (portOf fn) 1 s := by
  rw [hostPut, h, if_neg Bool.false_ne_true]

end Sys2Proof.Machine

namespace Sys2Proof

open Sys2Proof.Machine

/-- Settles O57: each command answers its link's change, a link that is down has nothing to lose, and a posted write
asks for its port's link alone. -/
theorem linksGoDownAndUp : Obligations.LinksGoDownAndUp := by
  unfold Obligations.LinksGoDownAndUp
  refine ⟨⟨?alreadyDown, ?down, ?up, ?wakes⟩, ?posted⟩
  case alreadyDown =>
    intro s p ha hp hdown
    rw [exec_linkDown ha hp, linkFall_of_down hdown, keepQueue_of_pending_eq rfl]
  case down =>
    intro s p ha hp hup
    rw [exec_linkDown ha hp, linkFall_of_up hup]
    rfl
  case up =>
    intro s p speed width ha hp hlo hhi hw
    rw [exec_linkUp ha hp hlo hhi hw, linkRise_eq]
  case wakes => exact fun _ => rfl
  case posted =>
    intro s fn a l _ hdown
    exact hostPut_of_down a l hdown

end Sys2Proof

/-! SUPPORT. The Safety Status Link: the status word that goes out and the command a controller's frame spells (R445 to
R447). -/

namespace Sys2Proof.Machine

theorem b2n_lt_two (b : Bool) : b2n b < 2 := by cases b <;> decide

/-! ### The status word (R447) -/

theorem crc8_lt (v : Nat) : crc8 v < 2 ^ 8 := by
  refine Nat.xor_lt_two_pow (List.foldlRecOn (motive := (· < 2 ^ 8)) _ _ (by decide) ?bitIn) (by decide)
  intro c _ i _
  have hshift : c * 2 % 256 < 2 ^ 8 := Nat.mod_lt _ (by decide)
  dsimp only
  split
  · exact Nat.xor_lt_two_pow hshift (by decide)
  · exact hshift

/-- The last bit of the status is the error bit. -/
theorem sslStatus_mod_two (s : State) : sslStatus s % 2 = b2n s.saf.sslErr := by
  have herr := b2n_lt_two s.saf.sslErr
  unfold sslStatus
  omega

/-- A word is status and CRC: bit 8 is the last bit of the status. -/
theorem statusWord_bit8 {st crc : Nat} (h : crc < 2 ^ 8) :
    (BitVec.ofNat 32 (st * 256 + crc)).toNat / 256 % 2 = st % 2 := by
  rw [BitVec.toNat_ofNat]
  omega

theorem exec_sslCsFall {s : State} (ha : alive s = true) : exec .sslCsFall s = .next (sslLatch s) :=
  act_alive sslLatch ha rfl

/-! ### The controller's frame (R446) -/

/-- One more bit doubles what was received before it. -/
theorem frameVal_append_bit (l : List Bool) (b : Bool) : frameVal (l ++ [b]) = 2 * frameVal l + b2n b := by
  simp only [frameVal, List.foldl_append, List.foldl_cons, List.foldl_nil]

theorem frameVal_lt (l : List Bool) : frameVal l < 2 ^ l.length := by
  induction l using List.reverseRecOn with
  | nil => decide
  | append_singleton l b ih =>
    have hb := b2n_lt_two b
    rw [frameVal_append_bit, List.length_append, List.length_singleton, pow_succ]
    omega

theorem sslFrame_of_bad {l : List Bool} (s : State)
    (h : l.length ≠ 32 ∨ crc8 (frameVal l / 256) ≠ frameVal l % 256) : sslFrame l s = sslBad s :=
  if_pos h

/-- A frame of 32 bits with the right CRC, by its bits [31:8], CMD over ARG. -/
theorem sslFrame_of_good {l : List Bool} (s : State) (hlen : l.length = 32)
    (hcrc : crc8 (frameVal l / 256) = frameVal l % 256) :
    sslFrame l s =
      if frameVal l / 256 = 0 then sslOk s
      else if 0x010000 ≤ frameVal l / 256 ∧ frameVal l / 256 < 0x010100 then sslSel (frameVal l / 256 - 0x010000) s
      else if frameVal l / 256 = 0x020000 then sslAck s
      else sslBad s := by
  have hlt := frameVal_lt l
  rw [hlen] at hlt
  have hcmd : bits (frameVal l) 31 24 = frameVal l / 256 / 0x010000 := by
    simp only [bits, Nat.shiftRight_eq_div_pow]; omega
  have harg : bits (frameVal l) 23 8 = frameVal l / 256 % 0x010000 := by
    simp only [bits, Nat.shiftRight_eq_div_pow]; omega
  have hgood : ¬(l.length ≠ 32 ∨ crc8 (frameVal l / 256) ≠ frameVal l % 256) :=
    not_or.mpr ⟨not_not.mpr hlen, not_not.mpr hcrc⟩
  simp only [sslFrame, if_neg hgood, hcmd, harg]
  generalize frameVal l / 256 = p
  have hnop : (p / 0x010000 = 0 ∧ p % 0x010000 = 0) ↔ p = 0 := by omega
  have hsel : (p / 0x010000 = 1 ∧ p % 0x010000 < 256) ↔ (0x010000 ≤ p ∧ p < 0x010100) := by omega
  have hack : (p / 0x010000 = 2 ∧ p % 0x010000 = 0) ↔ p = 0x020000 := by omega
  simp only [hnop, hsel, hack]
  by_cases h : 0x010000 ≤ p ∧ p < 0x010100
  · rw [show p % 0x010000 = p - 0x010000 by omega]
  · rw [if_neg h, if_neg h]

@[simp] theorem sslFrame_pending (l : List Bool) (s : State) : (sslFrame l s).pending = s.pending := by
  simp only [sslFrame]
  split_ifs <;> rfl

section
variable {s : State} (ha : alive s = true)
include ha

theorem exec_sslBadFrame (l : List Bool) : exec (.sslBadFrame l) s = .next (sslFrame l s) :=
  (act_alive (sslFrame l) ha rfl).trans (by rw [keepQueue_of_pending_eq (sslFrame_pending l s)])

theorem exec_sslNop : exec .sslNop s = .next (sslOk s) := act_alive sslOk ha rfl

theorem exec_sslAckTransient : exec .sslAckTransient s = .next (sslAck s) := act_alive sslAck ha rfl

theorem exec_sslSelect {i : Nat} (hi : i < 256) : exec (.sslSelect i) s = .next (sslSel i s) :=
  act_alive (sslSel i) ha (decide_eq_true hi)

end

end Sys2Proof.Machine

namespace Sys2Proof

open Sys2Proof.Machine

/-- Settles O19: the word that goes out carries the error bit above its CRC, and each frame is decided by its length,
its CRC and the command in its bits [31:8]. -/
theorem badSafetyLinkFramesOnlyCount : Obligations.BadSafetyLinkFramesOnlyCount := by
  unfold Obligations.BadSafetyLinkFramesOnlyCount
  refine ⟨?status, ?bad, ?good⟩
  case status =>
    intro s ha
    refine ⟨_, _, exec_sslCsFall ha, rfl, ?_⟩
    rw [statusWord_bit8 (crc8_lt _), sslStatus_mod_two]
    rfl
  case bad =>
    intro s l ha hbad
    rw [exec_sslBadFrame ha, sslFrame_of_bad s hbad]
    rfl
  case good =>
    intro s l ha hlen hcrc
    rw [exec_sslBadFrame ha, sslFrame_of_good s hlen hcrc]
    refine ⟨fun hnop => ?nop, fun hack => ?ack, fun i hi hsel => ?select, fun hres => ?reserved⟩
    case nop => rw [exec_sslNop ha, if_pos hnop]
    case ack => rw [exec_sslAckTransient ha, hack]; rfl
    case select =>
      rw [exec_sslSelect ha hi, hsel, if_neg (by omega), if_pos (by omega), Nat.add_sub_cancel_left]
    case reserved => rw [if_neg (by omega), if_neg (by omega), if_neg (by omega)]; rfl

end Sys2Proof

/-! SUPPORT. Every command is of one shape: its effect, where its operands name objects of the device, and a fault
elsewhere; outside the always-on domain the effect is nothing while that part is not alive. -/

namespace Sys2Proof.Machine

/-! ### The shape of a command -/

/-- A register command at a fixed offset of the register space asks for its requester alone. -/
theorem regAct_eq_act {rq off : Nat} {s : State} {f : State → State} (h : off < 0x1000000) :
    regAct rq off s f = act (decide (rq < 33)) s f := by
  simp [regAct, h]

theorem timeLoAt_lt (rq : Nat) : timeLoAt rq < 0x1000000 := by
  unfold timeLoAt
  split <;> decide

/-- A command of the part outside the always-on domain is `act` of an effect, under its operands' check. -/
theorem exec_eq_act {c : Instr} (h : alwaysOn c = false) (s : State) : ∃ eff, exec c s = act c.wf s eff := by
  cases c with
  | aonPowerUp _ | powerOff | resetAssert | resetRelease | supplyReset | supplyResetEnd | thermtripAssert
  | deviceTimeTick => cases h
  | pwrTimeLoRead rq => exact ⟨_, regAct_eq_act (timeLoAt_lt rq)⟩
  | seqSluiceLastLoRead _ | secIsoTimeLoRead _ | safCauseTimeLoRead _ | partitionClear _ _ | spdArrValueWrite _ _
  | spdSlicePwrWrite _ _ | spdSliceCacheWrite _ _ | cacheInv _ _ | spdWheelCfgWrite _ _ | mrqCfgWrite _ _
  | strCtxOwnerWrite _ _ | isoCommit _ _ | credCommit _ _ | pkgErase _ _ | pkgCommit _ _ =>
    exact ⟨_, regAct_eq_act (by decide)⟩
  | _ => exact ⟨_, rfl⟩

/-- A command of the always-on domain takes effect in every state. -/
theorem exec_eq_onObject_of_alwaysOn {c : Instr} (h : alwaysOn c = true) (s : State) :
    ∃ eff, exec c s = onObject c.wf s eff := by
  cases c with
  | aonPowerUp _ | powerOff | resetAssert | resetRelease | supplyReset | supplyResetEnd | thermtripAssert
  | deviceTimeTick => exact ⟨_, rfl⟩
  | _ => cases h

/-- Every command is `onObject` of an effect, under its operands' check. -/
theorem exec_eq_onObject (c : Instr) (s : State) : ∃ eff, exec c s = onObject c.wf s eff := by
  cases h : alwaysOn c
  · obtain ⟨eff, he⟩ := exec_eq_act h s
    exact ⟨fun s => whenAlive s eff, he⟩
  · exact exec_eq_onObject_of_alwaysOn h s

theorem exec_of_wf {c : Instr} (h : c.wf = true) (s : State) : ∃ t, exec c s = .next t ∧ t.pending = s.pending := by
  obtain ⟨eff, he⟩ := exec_eq_onObject c s
  exact ⟨keepQueue s (eff s), by rw [he, h]; rfl, rfl⟩

theorem exec_of_not_wf {c : Instr} (h : c.wf = false) (s : State) : exec c s = .fault .noSuchObject := by
  obtain ⟨eff, he⟩ := exec_eq_onObject c s
  rw [he, h]
  rfl

theorem exec_of_dead {c : Instr} {s : State} (hdead : alive s = false) (hc : alwaysOn c = false) (hwf : c.wf = true) :
    exec c s = .next s := by
  obtain ⟨eff, he⟩ := exec_eq_act hc s
  rw [he, act_dead eff hdead hwf]

/-! ### A step, and a run of steps -/

theorem step_of_empty {s : State} (h : s.pending = []) : step s = .next s := by
  rw [step, h]

theorem step_of_cons {c : Instr} {rest : List Instr} {s : State} (h : s.pending = c :: rest) :
    step s = exec c { s with pending := rest } := by
  rw [step, h]

theorem run_succ_of_next {M : Host.Core} {s t : M.State} (h : M.step s = .next t) (k : Nat) :
    M.run (k + 1) s = M.run k t := by
  rw [Host.Core.run.eq_def]
  simp only [h]

theorem queueOk_of_pending_eq_tail {s t : State} (h : queueOk s = true) (ht : t.pending = s.pending.tail) :
    queueOk t = true := by
  rw [queueOk, List.all_eq_true] at h ⊢
  exact fun c hc => h c (List.mem_of_mem_tail (ht ▸ hc))

/-- A step of a well-formed queue goes on with the queue's rest. -/
theorem step_of_queueOk {s : State} (h : queueOk s = true) : ∃ t, step s = .next t ∧ t.pending = s.pending.tail := by
  cases hp : s.pending with
  | nil => exact ⟨s, step_of_empty hp, hp⟩
  | cons c rest =>
    have hc : c.wf = true := by
      rw [queueOk, hp, List.all_cons, Bool.and_eq_true] at h
      exact h.1
    rw [step_of_cons hp]
    exact exec_of_wf hc _

/-- A dead block takes a command of the reset part in and does nothing else. -/
theorem step_of_dead {s : State} (hdead : alive s = false) (h : queueOk s = true)
    (haon : s.pending.all (fun c => !alwaysOn c) = true) : step s = .next { s with pending := s.pending.tail } := by
  cases hp : s.pending with
  | nil => rw [step_of_empty hp, List.tail_nil, ← hp]
  | cons c rest =>
    rw [queueOk, hp, List.all_cons, Bool.and_eq_true] at h
    rw [hp, List.all_cons, Bool.and_eq_true, Bool.not_eq_true'] at haon
    rw [step_of_cons hp]
    exact exec_of_dead hdead haon.1 h.1

end Sys2Proof.Machine

namespace Sys2Proof

open Sys2Proof.Machine

/-- Settles O3: induction over the steps; each goes on with the queue's rest, which is well formed again. -/
theorem wellFormedQueueRunsThrough : Obligations.WellFormedQueueRunsThrough := by
  unfold Obligations.WellFormedQueueRunsThrough
  intro k
  induction k with
  | zero => exact fun s _ => ⟨s, rfl, rfl⟩
  | succ k ih =>
    intro s hs
    obtain ⟨t, hstep, ht⟩ := step_of_queueOk hs
    obtain ⟨u, hrun, hu⟩ := ih t (queueOk_of_pending_eq_tail hs ht)
    exact ⟨u, (run_succ_of_next (M := core) hstep k).trans hrun, by rw [hu, ht, List.drop_tail]⟩

/-- Settles O4: a step that goes on leaves the queue's tail. -/
theorem queueStaysWellFormed : Obligations.QueueStaysWellFormed := by
  unfold Obligations.QueueStaysWellFormed
  intro s t hs hstep
  obtain ⟨u, hu, htail⟩ := step_of_queueOk hs
  obtain rfl : u = t := by simpa [hu] using hstep
  exact ⟨queueOk_of_pending_eq_tail hs htail, htail⟩

/-- Settles O6: one command by its shape, any number by induction over the steps. -/
theorem deadBlockStaysAsItIs : Obligations.DeadBlockStaysAsItIs := by
  unfold Obligations.DeadBlockStaysAsItIs
  refine ⟨fun c s hdead hc hwf => exec_of_dead hdead hc hwf, fun k => ?run⟩
  induction k with
  | zero => exact fun s _ _ _ => rfl
  | succ k ih =>
    intro s hdead hs haon
    have htail : s.pending.tail.all (fun c => !alwaysOn c) = true :=
      List.all_eq_true.mpr fun c hc => List.all_eq_true.mp haon c (List.mem_of_mem_tail hc)
    have hrest := ih { s with pending := s.pending.tail } hdead (queueOk_of_pending_eq_tail hs rfl) htail
    simp only [List.drop_tail] at hrest
    exact (run_succ_of_next (M := core) (step_of_dead hdead hs haon) k).trans hrest

/-- Settles O2: the shape of every command. -/
theorem stopsExactlyOnIllFormedOperands : Obligations.StopsExactlyOnIllFormedOperands := by
  unfold Obligations.StopsExactlyOnIllFormedOperands
  exact fun c s => ⟨fun h => exec_of_wf h s, fun h => exec_of_not_wf h s⟩

/-- Settles O1. -/
theorem frontCommandRuns : Obligations.FrontCommandRuns := by
  unfold Obligations.FrontCommandRuns
  exact ⟨fun _ _ _ h => step_of_cons h, fun _ h => step_of_empty h⟩

end Sys2Proof

/-! SUPPORT. Safe state (R438, R439): what reporting a cause over the Ethernet ports leaves alone. -/

namespace Sys2Proof.Machine

/-! ### The safety record -/

/-- A MAC that takes up its next frame changes its own state and what the device has sent. -/
theorem exists_macKick_eq (m : Nat) (s : State) : ∃ macs out, macKick m s = { s with macs := macs, out := out } := by
  unfold macKick
  simp only
  split
  · exact ⟨_, _, rfl⟩
  · split
    · exact ⟨_, _, rfl⟩
    · exact ⟨_, _, rfl⟩

/-- A frame that is handed to a MAC joins those ahead, or is counted where the link is down. -/
theorem exists_sendAhead_eq (m : Nat) (f : Ahead) (s : State) : ∃ macs out regs,
    sendAhead m f s = { s with macs := macs, out := out, regs := regs } := by
  unfold sendAhead
  split
  · obtain ⟨macs, out, h⟩ := exists_macKick_eq m (modMac m (fun q => { q with ahead := q.ahead ++ [f] }) s)
    exact ⟨macs, out, s.regs, h⟩
  · exact ⟨s.macs, s.out, _, rfl⟩

/-- The safety record of a MAC, as it stands in the state `s`, where SAF_CFG enables it. -/
def sendSafetyOn (m : Nat) (s s' : State) : State :=
  if bit (bits (rget s R.safCfg 0) 22 21) m then
    (match safetyFrame s m with | some fr => sendAhead m (.bytes fr) s' | none => s')
  else s'

theorem exists_sendSafetyOn_eq (m : Nat) (s s' : State) : ∃ macs out regs,
    sendSafetyOn m s s' = { s' with macs := macs, out := out, regs := regs } := by
  unfold sendSafetyOn
  split
  · split
    · exact exists_sendAhead_eq m _ s'
    · exact ⟨_, _, _, rfl⟩
  · exact ⟨_, _, _, rfl⟩

/-- A safety record that was sent is counted (R441). -/
def countSafetyRecord (s : State) : State :=
  draw { s with saf := { s.saf with
    recSeq := w32 (s.saf.recSeq + 1), recSends := s.saf.recSends + 1, lastRec := s.now } }

theorem sendSafety_eq (s : State) : sendSafety s = countSafetyRecord (sendSafetyOn 1 s (sendSafetyOn 0 s s)) := rfl

/-- Sending the safety record counts it, and changes the MACs, their counts and what was sent. -/
theorem exists_sendSafety_eq (s : State) : ∃ macs out regs,
    sendSafety s = countSafetyRecord { s with macs := macs, out := out, regs := regs } := by
  obtain ⟨macs, out, regs, h⟩ := exists_sendSafetyOn_eq 0 s s
  obtain ⟨macs', out', regs', h'⟩ := exists_sendSafetyOn_eq 1 s { s with macs := macs, out := out, regs := regs }
  exact ⟨macs', out', regs', by rw [sendSafety_eq, h, h']⟩

theorem sendSafety_saf (s : State) : (sendSafety s).saf = { s.saf with
    recSeq := w32 (s.saf.recSeq + 1), recSends := s.saf.recSends + 1, lastRec := s.now } := by
  obtain ⟨macs, out, regs, h⟩ := exists_sendSafety_eq s
  rw [h]
  rfl

theorem sendSafety_logNext (s : State) : (sendSafety s).logNext = s.logNext := by
  obtain ⟨macs, out, regs, h⟩ := exists_sendSafety_eq s
  rw [h]
  rfl

/-! ### Entering safe state -/

/-- The log entry of a cause. -/
def logCause (cause eng : Nat) (s : State) : State := addLog 0x0100 63 eng cause (intervalNow s) 0 s

/-- The first cause is kept with its engine and time, and reported. -/
theorem enterSafe_of_first {s : State} (cause eng : Nat) (h : s.saf.safe = false ∨ s.saf.cause = 0x0A) :
    enterSafe cause eng s = sendSafety { logCause cause eng s with saf := { s.saf with
      safe := true, cause := cause, causeEng := eng, causeTime := s.now, later := 0, safeN := false,
      recSends := 0 } } := by
  have hsaf : (logCause cause eng s).saf = s.saf := addLog_saf ..
  have hnow : (logCause cause eng s).now = s.now := addLog_now ..
  have hc : (s.saf.safe && s.saf.cause != 0x0A) = false := by
    rcases h with h | h <;> simp [h]
  unfold enterSafe
  simp only [hc, Bool.false_eq_true, if_false]
  rw [← hsaf, ← hnow]
  rfl

/-- A later cause is counted, and replaces the kept one if it is lower and of the same instant. -/
theorem enterSafe_of_later {s : State} (cause eng : Nat) (hs : s.saf.safe = true) (hc : s.saf.cause ≠ 0x0A) :
    enterSafe cause eng s = { logCause cause eng s with saf :=
      if s.now = s.saf.causeTime ∧ cause < s.saf.cause then
        { s.saf with later := s.saf.later + 1, cause := cause, causeEng := eng }
      else { s.saf with later := s.saf.later + 1 } } := by
  have hsaf : (logCause cause eng s).saf = s.saf := addLog_saf ..
  have hg : (s.saf.safe && s.saf.cause != 0x0A) = true := by simp [hs, hc]
  unfold enterSafe
  simp only [hg, if_true]
  by_cases hlow : s.now = s.saf.causeTime ∧ cause < s.saf.cause
  · rw [if_pos hlow, if_pos hlow, ← hsaf]
    rfl
  · rw [if_neg hlow, if_neg hlow, ← hsaf]
    rfl

end Sys2Proof.Machine

namespace Sys2Proof

open Sys2Proof.Machine

/-- Settles O16: either the cause is the first, and kept, or a later one, and counted. -/
theorem safeStateKeepsItsFirstCause : Obligations.SafeStateKeepsItsFirstCause := by
  unfold Obligations.SafeStateKeepsItsFirstCause
  intro cause eng s
  have hlog : (logCause cause eng s).logNext = w32 (s.logNext + 1) := addLog_next ..
  by_cases hfirst : s.saf.safe = false ∨ s.saf.cause = 0x0A
  case pos =>
    rw [enterSafe_of_first cause eng hfirst, sendSafety_saf, sendSafety_logNext]
    exact ⟨rfl, hlog, fun _ => ⟨rfl, rfl, rfl, rfl, rfl⟩,
      fun hs hc => absurd hfirst (not_or.mpr ⟨by simp [hs], hc⟩)⟩
  case neg =>
    obtain ⟨hs, hc⟩ := not_or.mp hfirst
    rw [Bool.not_eq_false] at hs
    have hout : (logCause cause eng s).out = s.out := addLog_out ..
    rw [enterSafe_of_later cause eng hs hc]
    refine ⟨?safe, hlog, fun h => absurd h hfirst, fun _ _ => ?later⟩
    case safe => split <;> exact hs
    case later => split <;> exact ⟨rfl, rfl, rfl, hout, rfl⟩

end Sys2Proof

/-! SUPPORT. Where the boot chain ends (R479, R482), and the update record (R484). -/

namespace Sys2Proof.Machine

/-! ### The chain's end -/

/-- An image without a fault is there, and its SVN is not below the fuses'. -/
theorem exists_of_slotFault_eq_zero {s : State} {i : Option Image} (h : slotFault s i = 0) :
    ∃ x, i = some x ∧ s.nv.svnFuses ≤ x.svn := by
  cases i with
  | none => simp [slotFault] at h
  | some x =>
    refine ⟨x, rfl, ?_⟩
    simp only [slotFault] at h
    split at h
    · cases h
    · split at h
      · cases h
      · omega

/-- Taking a configuration into force leaves the phase, the running SVN and the fuses. -/
theorem selectCfg_kept (fmt : Nat) (s : State) : (selectCfg fmt s).boot.phase = s.boot.phase ∧
    (selectCfg fmt s).boot.runningSvn = s.boot.runningSvn ∧ (selectCfg fmt s).nv.svnFuses = s.nv.svnFuses := by
  unfold selectCfg
  simp only
  split
  · exact ⟨rfl, rfl, rfl⟩
  · split
    · split
      · unfold putCfg
        split <;> exact ⟨rfl, rfl, rfl⟩
      · exact ⟨rfl, rfl, rfl⟩
    · exact ⟨rfl, rfl, rfl⟩

/-- Started firmware runs its image's SVN. -/
theorem startFirmware_runs (i : Image) (s : State) : (startFirmware i s).boot.phase = 2 ∧
    (startFirmware i s).boot.runningSvn = i.svn ∧ (startFirmware i s).nv.svnFuses = s.nv.svnFuses := by
  unfold startFirmware
  exact selectCfg_kept i.cfgFmt _

theorem logBoot_boot (code d0 d1 : Nat) (s : State) : (logBoot code d0 d1 s).boot = s.boot := addLog_boot ..

theorem logBoot_nv (code d0 d1 : Nat) (s : State) : (logBoot code d0 d1 s).nv = s.nv := addLog_nv ..

/-! ### The update record (R484) -/

/-- The record of the update's state as it stands. -/
def recordNow (phase : Nat) (s : State) : UpdRec :=
  { seq := (updRec s).seq + 1, state := s.nv.updState, phase := phase, boots := s.nv.bootsLeft,
    seconds := s.nv.runSeconds }

/-- The record is kept where the newest one says the same, and else takes the place of the older one. -/
theorem saveRecord_eq (phase : Nat) (s : State) : saveRecord phase s =
    if { recordNow phase s with seq := (updRec s).seq } = updRec s then s
    else if s.nv.rec0.seq < s.nv.rec1.seq then { s with nv := { s.nv with rec0 := recordNow phase s } }
    else { s with nv := { s.nv with rec1 := recordNow phase s } } := by
  have h : saveRecord phase s = if { recordNow phase s with seq := (updRec s).seq } = updRec s then s
    else modNv (fun n => if n.rec0.seq < n.rec1.seq then { n with rec0 := recordNow phase s }
      else { n with rec1 := recordNow phase s }) s := rfl
  rw [h, modNv]
  by_cases hold : s.nv.rec0.seq < s.nv.rec1.seq
  · simp only [if_pos hold]
  · simp only [if_neg hold]

/-- Saving the record changes its older copy at most. -/
theorem saveRecord_frame (phase : Nat) (s : State) :
    saveRecord phase s = { s with nv := { s.nv with
      rec0 := (saveRecord phase s).nv.rec0, rec1 := (saveRecord phase s).nv.rec1 } } := by
  rw [saveRecord_eq]
  split
  · rfl
  · split <;> rfl

/-- One copy stays, and it is the newer one where copy 1 is that. -/
theorem saveRecord_kept (phase : Nat) (s : State) :
    ((saveRecord phase s).nv.rec0 = s.nv.rec0 ∨ (saveRecord phase s).nv.rec1 = s.nv.rec1) ∧
    (s.nv.rec0.seq < s.nv.rec1.seq → (saveRecord phase s).nv.rec1 = s.nv.rec1) := by
  rw [saveRecord_eq]
  split
  · exact ⟨.inl rfl, fun _ => rfl⟩
  · split
    · exact ⟨.inr rfl, fun _ => rfl⟩
    · exact ⟨.inl rfl, fun h => absurd h ‹_›⟩

/-- The newest record after a save says what is to be kept. -/
theorem updRec_saveRecord (phase : Nat) (s : State) : ∃ seq,
    updRec (saveRecord phase s) = { recordNow phase s with seq := seq } := by
  rw [saveRecord_eq]
  split
  case isTrue h => exact ⟨_, h.symm⟩
  case isFalse =>
    split
    case isTrue h =>
      have hseq : (recordNow phase s).seq = s.nv.rec1.seq + 1 := by simp [recordNow, updRec, h]
      exact ⟨(recordNow phase s).seq, if_neg (by simp only [hseq]; omega)⟩
    case isFalse h =>
      have hseq : (recordNow phase s).seq = s.nv.rec0.seq + 1 := by simp [recordNow, updRec, h]
      exact ⟨(recordNow phase s).seq, if_pos (by simp only [hseq]; omega)⟩

theorem saveRecord_updState (phase : Nat) (s : State) : (saveRecord phase s).nv.updState = s.nv.updState := by
  rw [saveRecord_frame]

/-! ### Recovery, and the choice of an image (R479) -/

theorem enterRecovery_ends (s : State) : (enterRecovery s).boot.phase = 4 ∧ (enterRecovery s).nv.updState = 5 := by
  unfold enterRecovery
  rw [logBoot_boot, logBoot_nv]
  exact ⟨rfl, saveRecord_updState ..⟩

/-- A loader that verified starts an image the fuses allow, or recovery. -/
theorem selectImage_ends (s : State) :
    ((selectImage s).boot.phase = 2 ∧ (selectImage s).nv.svnFuses ≤ (selectImage s).boot.runningSvn) ∨
    ((selectImage s).boot.phase = 4 ∧ (selectImage s).nv.updState = 5) := by
  unfold selectImage
  simp only
  split
  case isTrue h =>
    obtain ⟨i, hi, hsvn⟩ := exists_of_slotFault_eq_zero h
    obtain ⟨hphase, hrun, hfuse⟩ := startFirmware_runs i s
    rw [hi]
    exact .inl ⟨hphase, by rw [hrun, hfuse]; exact hsvn⟩
  case isFalse =>
    split
    case isTrue h =>
      obtain ⟨i, hi, hsvn⟩ := exists_of_slotFault_eq_zero h
      rw [hi]
      refine .inl ⟨(startFirmware_runs i _).1, ?_⟩
      rw [(startFirmware_runs i _).2.1, (startFirmware_runs i _).2.2, modBoot, logBoot_nv]
      exact hsvn
    case isFalse => exact .inr (enterRecovery_ends _)

theorem bootChain_of_bad_loader {s : State} (h : s.nv.loaderOk = false) : bootChain s = romStart s := by
  have hr : (!(romStart s).nv.loaderOk) = true := by
    change (!s.nv.loaderOk) = true
    rw [h]
    rfl
  rw [bootChain]
  exact if_pos hr

theorem bootChain_of_good_loader {s : State} (h : s.nv.loaderOk = true) : ∃ t, bootChain s = selectImage t := by
  have hr : ¬ (!(romStart s).nv.loaderOk) = true := by
    change ¬ (!s.nv.loaderOk) = true
    rw [h]
    decide
  exact ⟨_, if_neg hr⟩

/-! ### A trial's run seconds (R484) -/

section
variable {s : State} (ha : alive s = true)
include ha

theorem exec_trialCountStore : exec .trialCountStore s = .next (keepQueue s (storeTrial s)) :=
  act_alive storeTrial ha rfl

theorem exec_trialRunExpiry : exec .trialRunExpiry s = .next (keepQueue s (trialExpire s)) :=
  act_alive trialExpire ha rfl

end

end Sys2Proof.Machine

namespace Sys2Proof

open Sys2Proof.Machine

/-- Settles O14: the boot's end by the choice of its image, the trial by its two commands' conditions, and the record by
the copy that a save writes. -/
theorem bootKeepsTheSvnFusesAndTrialsExpire : Obligations.BootKeepsTheSvnFusesAndTrialsExpire := by
  unfold Obligations.BootKeepsTheSvnFusesAndTrialsExpire
  refine ⟨fun s hphase => ⟨fun h => ?rom, fun h => ?chosen⟩, ?store, ?expiry, ?neither, ?record⟩
  case rom =>
    rw [bootChain_of_bad_loader h]
    exact hphase
  case chosen =>
    obtain ⟨t, ht⟩ := bootChain_of_good_loader h
    rw [ht]
    exact selectImage_ends t
  case store =>
    intro s ha htrial hphase
    rw [exec_trialCountStore ha, storeTrial]
    by_cases hdue : s.boot.trialStored + 10000000000 ≤ s.now
    · rw [if_pos ⟨htrial, hdue, hphase⟩, if_pos hdue, modNv, saveRecord_frame]
      rfl
    · rw [if_neg (fun h => hdue h.2.1), if_neg hdue]
      rfl
  case expiry =>
    intro s ha htrial hphase
    rw [exec_trialRunExpiry ha, trialExpire, ← runSecs]
    by_cases hdue : 600 ≤ runSecs s
    · rw [if_pos ⟨htrial, hdue, hphase⟩, if_pos hdue]
      rfl
    · rw [if_neg (fun h => hdue h.2.1), if_neg hdue]
      rfl
  case neither =>
    intro s ha hno
    have hnone : ¬ (s.nv.updState = 3 ∧ (s.boot.phase = 2 ∨ s.boot.phase = 3)) := by omega
    rw [exec_trialCountStore ha, exec_trialRunExpiry ha, storeTrial, trialExpire,
      if_neg (fun h => hnone ⟨h.1, h.2.2⟩), if_neg (fun h => hnone ⟨h.1, h.2.2⟩)]
    exact ⟨rfl, rfl⟩
  case record =>
    intro phase s
    obtain ⟨seq, hrec⟩ := updRec_saveRecord phase s
    obtain ⟨hone, hnewer⟩ := saveRecord_kept phase s
    refine ⟨saveRecord_frame phase s, hone, hnewer, ?_⟩
    rw [hrec]
    exact ⟨rfl, rfl, rfl, rfl⟩

end Sys2Proof

/-! SUPPORT. Register reads and writes by the kind of their bits: W1C, RC, and the times that latch (R7, R8, R29). -/

namespace Sys2Proof.Machine

/-! ### Bits of a stored value -/

theorem rget_lt (s : State) (off idx : Nat) : rget s off idx < 2 ^ 32 := BitVec.isLt _

/-- Taking a mask's bits off a value clears these and leaves the others. -/
theorem bit_sub_and (x m k : Nat) : bit (x - (x &&& m)) k = (bit x k && !bit m k) := by
  have h := bit_mergeRw x m 0 k
  have hz : bit 0 k = false := by simp [bit]
  rw [mergeRw, Nat.zero_and, Nat.add_zero, hz] at h
  rw [h]
  cases bit m k <;> simp

/-- A register whose value loses bits reads the rest. -/
theorem rget_rput_sub {s : State} {off idx : Nat} (m : Nat) (hs : registersOk s) (hoff : off < 0x1000000) :
    rget (rput off idx (rget s off idx - (rget s off idx &&& m)) s) off idx =
      rget s off idx - (rget s off idx &&& m) := by
  rw [rget_rput s _ _ _ _ _ hs hoff hoff, if_pos ⟨rfl, rfl⟩]
  exact Nat.mod_eq_of_lt (Nat.lt_of_le_of_lt (Nat.sub_le ..) (rget_lt ..))

/-! ### The register map -/

/-- A register that stands somewhere is of the register map. -/
theorem mem_regTable_of_findReg {off n : Nat} {d : RegDef} (h : findReg off = some (d, n)) :
    d ∈ regTable ∧ n < d.count := by
  unfold findReg at h
  split at h
  case h_1 e he =>
    obtain ⟨rfl, rfl⟩ := Prod.mk.inj (Option.some.inj h)
    have hp := List.find?_some he
    simp only [Bool.and_eq_true, decide_eq_true_eq] at hp
    exact ⟨List.mem_of_find?_eq_some he, hp.2⟩
  case h_2 => cases h

theorem mem_regTable_of_placeOf {rq off n : Nat} {d : RegDef} (h : placeOf rq off = .reg d n) :
    d ∈ regTable ∧ n < d.count := by
  unfold placeOf placeAt blockPlace at h
  split at h
  case isTrue =>
    split_ifs at h
    split at h
    case h_1 e m he =>
      obtain ⟨rfl, rfl⟩ := Place.reg.inj h
      exact mem_regTable_of_findReg he
    case h_2 => cases h
  case isFalse => split_ifs at h

theorem regTable_off_lt : ∀ d ∈ regTable, d.off < 0x1000000 := by decide +kernel

/-- The registers whose value is formed from the state when they are read (R7). -/
def formedRegs : List Nat :=
  [R.pwrTimeLo, R.seqNodeFree, R.seqNodeRun, R.seqEdgeFree, R.seqEdgeRun, R.seqSluiceBind, R.seqSluiceNode,
   R.seqSluiceLastLo, R.seqObsDepth, R.camPortStat, R.camStreamStat, R.camStreamIndex, R.camStreamEpoch, R.camFsiLastLo,
   R.ispCoreStat, R.wpeEngStat, R.pyeEngStat, R.steEngStat, R.ofeEngStat, R.kpeEngStat, R.kpePartCtrl, R.kpePartActive,
   R.ncCoreStat, R.spdScrubPass, R.spdSliceRepair, R.spdWheelCfg, R.spdWheelTail, R.spdWheelHead, R.spdWheelRelease,
   R.spdArrValue, R.strCtxStat, R.mrqCount, R.winStat, R.hostPortLink, R.ethMacCfg, R.mgtStat, R.secIsoCtrl,
   R.secIsoEpoch, R.secIsoTimeLo, R.secSlotFree, R.secCredCtrl, R.safStat, R.safCauseEng, R.safCauseTimeLo,
   R.safIntervalCnt, R.safEngStat, R.pwrStat, R.pwrPkg, R.pwrTemp, R.pwrSpare, R.pwrSpareNode, R.pwrSpareHbm,
   R.pwrRepairLog, R.bootStat, R.bootTime, R.bootFuse, R.bootTrial, R.bootStaged, R.bootPkgCtrl]

/-- The engine counters stand for the engine that a selected reference shows. -/
def counterObj (off i : Nat) : Nat :=
  if off = R.safEngFail ∨ off = R.safEngTransient ∨ off = R.safEngUnchecked then safEng i else i

theorem regVal_of_stored {d : RegDef} (h : d.off ∉ formedRegs) (s : State) (i : Nat) :
    regVal s d i = rget s d.off (counterObj d.off i) := by
  simp only [formedRegs, List.mem_cons, not_or, List.not_mem_nil, not_false_eq_true, and_true] at h
  simp only [regVal, h, or_self, if_false, counterObj]

/-- A register with read-to-clear fields holds its value itself, but for the depth that SEQ_OBS_MAXDEPTH goes back
to. -/
theorem regTable_of_rc : ∀ d ∈ regTable, d.rc ≠ 0 →
    d.off ∉ formedRegs ∧ d.off ∉ selectors ∧ d.off ∉ shadows ∧ d.off ≠ R.camFsiLastHi ∧ d.off ≠ R.secSlotStat ∧
    ((R.safEngFail ≤ d.off ∧ d.off ≤ R.safEngUnchecked) ↔
      (d.off = R.safEngFail ∨ d.off = R.safEngTransient ∨ d.off = R.safEngUnchecked)) := by
  decide +kernel

/-! ### Write-one-to-clear bits (R8) -/

/-- CAM_STREAM_STAT's row of the register map. -/
def camStreamStatReg : RegDef := ⟨R.camStreamStat, 4, 1, R.camStreamSel, 0x0, 0x2, 0x0, 0x0⟩

/-- SAF_STAT's row of the register map. -/
def safStatReg : RegDef := ⟨R.safStat, 4, 1, 0, 0x0, 0x8, 0x0, 0x0⟩

/-- PWR_STAT's row of the register map. -/
def pwrStatReg : RegDef := ⟨R.pwrStat, 4, 1, 0, 0x0, 0x4, 0x0, 0x0⟩

theorem regTable_of_w1c : ∀ d ∈ regTable, d.w1c ≠ 0 → d = camStreamStatReg ∨ d = safStatReg ∨ d = pwrStatReg := by
  decide +kernel

theorem blockPlace_camStreamStat : blockPlace R.camStreamStat = .reg camStreamStatReg 0 := rfl

theorem blockPlace_safStat : blockPlace R.safStat = .reg safStatReg 0 := rfl

theorem blockPlace_pwrStat : blockPlace R.pwrStat = .reg pwrStatReg 0 := rfl

/-- A requester may clear a register's W1C bits: those of R30, and a stream's owner those of its stream. -/
def mayClear (s : State) (rq : Nat) (d : RegDef) (i : Nat) : Bool :=
  privileged s rq || (decide (d.off = R.camStreamStat) && streamGranted s rq i)

/-- Bits of a register's object cleared. -/
def clearBits (off idx m : Nat) (s : State) : State := rput off idx (rget s off idx - (rget s off idx &&& m)) s

theorem allowed_clearBits_and (c : Bool) (rq off idx a b : Nat) (s : State) :
    allowed c rq s (clearBits off idx (a &&& b)) =
      allowed c rq s (rput off idx (rget s off idx - (rget s off idx &&& a &&& b))) := by
  rw [allowed, clearBits, Nat.and_assoc, allowed]

/-- A write of a register with W1C bits clears those that are written as 1. -/
theorem writeReg_of_w1c {rq n : Nat} {d : RegDef} (v : Nat) (s : State) (hd : d ∈ regTable) (hn : n < d.count)
    (hw : d.w1c ≠ 0) : writeReg rq n v d s =
      allowed (mayClear s rq d (objOf s rq d n)) rq s (clearBits d.off (objOf s rq d n) (v &&& d.w1c)) := by
  rcases regTable_of_w1c d hd hw with rfl | rfl | rfl
  case inl =>
    have hmay : mayClear s rq camStreamStatReg (objOf s rq camStreamStatReg n) =
        (streamGranted s rq (objOf s rq camStreamStatReg n) || privileged s rq) := by
      rw [Bool.or_comm]
      rfl
    rw [hmay, allowed_clearBits_and]
    rfl
  case inr.inl =>
    obtain rfl : n = 0 := Nat.lt_one_iff.mp hn
    have hmay : mayClear s rq safStatReg 0 = privileged s rq := Bool.or_false _
    change _ = allowed (mayClear s rq safStatReg 0) rq s (clearBits R.safStat 0 (v &&& 8))
    rw [hmay, allowed_clearBits_and]
    rfl
  case inr.inr =>
    obtain rfl : n = 0 := Nat.lt_one_iff.mp hn
    have hmay : mayClear s rq pwrStatReg 0 = privileged s rq := Bool.or_false _
    change _ = allowed (mayClear s rq pwrStatReg 0) rq s (clearBits R.pwrStat 0 (v &&& 4))
    rw [hmay, allowed_clearBits_and]
    rfl

/-! ### Read-to-clear fields (R7) -/

theorem busRead_reg {rq off n : Nat} {d : RegDef} (s : State) (h : placeOf rq off = .reg d n) :
    busRead rq off s =
      if readable s rq d (objOf s rq d n) then (regFor s rq d n, readEffect rq d n s) else (0, s) := by
  rw [busRead, h]

/-- The object whose value a register with read-to-clear fields shows and clears. -/
def clearedObj (off i : Nat) : Nat := if R.safEngFail ≤ off ∧ off ≤ R.safEngUnchecked then safEng i else i

/-- A register with read-to-clear fields shows its value, and leaves these fields 0. -/
theorem read_of_rc {d : RegDef} (rq n : Nat) (s : State) (hd : d ∈ regTable) (hrc : d.rc ≠ 0)
    (hmax : d.off ≠ R.seqObsMaxdepth) :
    regFor s rq d n = rget s d.off (clearedObj d.off (objOf s rq d n)) ∧
    readEffect rq d n s = clearBits d.off (clearedObj d.off (objOf s rq d n)) d.rc s := by
  obtain ⟨hform, hsel, hshd, hfsi, hslot, heng⟩ := regTable_of_rc d hd hrc
  constructor
  case left =>
    have hno : ¬ (selectors.contains d.off = true ∨ shadows.contains d.off = true) := by
      simp only [List.contains_iff_mem, not_or]
      exact ⟨hsel, hshd⟩
    rw [regFor, if_neg hno, if_neg hfsi, if_neg hslot, regVal_of_stored hform]
    simp only [counterObj, clearedObj, heng]
  case right =>
    have hne : ∀ o ∈ formedRegs, d.off ≠ o := fun o ho he => hform (he ▸ ho)
    rw [readEffect, if_neg (hne _ (by decide)), if_neg (hne _ (by decide)), if_neg (hne _ (by decide)),
      if_neg (hne _ (by decide)), if_neg (hne _ (by decide)), if_neg hmax, if_pos hrc]
    rfl

/-- SEQ_OBS_MAXDEPTH's row of the register map. -/
def maxdepthReg : RegDef := ⟨R.seqObsMaxdepth, 4, 1, R.seqObsSel, 0x0, 0x0, 0xffffff, 0x0⟩

/-- A read of SEQ_OBS_MAXDEPTH leaves it at the list's depth. -/
theorem busRead_maxdepth {s : State} {rq : Nat} (hsees : seesRegs s rq = true) :
    busRead rq R.seqObsMaxdepth s = (rget s R.seqObsMaxdepth (selGet s rq R.seqObsSel),
      rput R.seqObsMaxdepth (selGet s rq R.seqObsSel)
        (depthOf s (selGet s rq R.seqObsSel % 16) (selGet s rq R.seqObsSel / 16)) s) := by
  have hpl : placeOf rq R.seqObsMaxdepth = .reg maxdepthReg 0 := placeOf_of_seesRegs hsees (by decide)
  rw [busRead_reg s hpl]
  rfl

/-! ### Lane registers (R395) -/

/-- A function finds its lanes' registers from its lanes' base on (R356, R378). -/
theorem placeOf_lane {fn lane o : Nat} (hfn : fn < 32) (hl : lane < 16) (ho : o < 0x118) :
    placeOf fn (laneBase fn + 0x1000 * lane + o) = .lane lane o := by
  have hpf : pfOffset fn (laneBase fn + 0x1000 * lane + o) = 0xC00000 + 0x1000 * lane + o := by
    unfold pfOffset laneBase
    by_cases h : isPf fn = true
    · rw [if_pos h, if_pos (Or.inr h)]
    · rw [if_neg h, if_neg (not_or.mpr ⟨by omega, h⟩), if_pos (by omega)]
      omega
  rw [placeOf, hpf, placeAt, if_neg (by omega), if_neg (by omega), if_pos (by omega), if_pos (by omega)]
  congr 1 <;> omega

theorem laneOffset_ok {fn lane o : Nat} (hl : lane < 16) (ho : o < 0x118) (hal : o % 4 = 0) :
    laneBase fn + 0x1000 * lane + o < 0x1000000 ∧ (laneBase fn + 0x1000 * lane + o) % 4 = 0 := by
  unfold laneBase
  split <;> omega

theorem busRead_laneStat {fn lane : Nat} (s : State) (hfn : fn < 32) (hl : lane < 16) :
    busRead fn (laneBase fn + 0x1000 * lane + 0x114) s =
      (laneStat s (16 * fn + lane), modLane (16 * fn + lane) (fun l => { l with noring := 0 }) s) := by
  rw [busRead, placeOf_lane hfn hl (by decide)]
  rfl

/-! ### The commands -/

section
variable {s : State} {rq off : Nat} (ha : alive s = true) (hr : reaches s rq = true) (hp : prompt s = true)
  (hal : off % 4 = 0) (hoff : off < 0x1000000)
include ha hr hp hal hoff

/-- RC_REGISTER_READ of an aligned offset returns what the bus reads there. -/
theorem exec_rcRegisterRead_of_busRead {w : Nat} {t : State} (hread : busRead rq off s = (w, t))
    (hq : t.pending = s.pending) :
    exec (.rcRegisterRead rq off) s = .next (emit (.data rq (BitVec.ofNat 32 w)) t) :=
  exec_rcRegisterRead_of_rdReg ha hoff (lt_of_reaches hr) (by rw [rdReg_of_prompt hr hp hal, hread]) hq

/-- W1C_REGISTER_WRITE of a register with such bits. -/
theorem exec_w1cRegisterWrite_of_w1c {n : Nat} {d : RegDef} (v : Word) (hpl : placeOf rq off = .reg d n)
    (hw : d.w1c ≠ 0) : exec (.w1cRegisterWrite rq off v) s = .next
      (allowed (mayClear s rq d (objOf s rq d n)) rq s (clearBits d.off (objOf s rq d n) (v.toNat &&& d.w1c))) := by
  obtain ⟨hd, hn⟩ := mem_regTable_of_placeOf hpl
  have hwr := writeReg_of_w1c (rq := rq) v.toNat s hd hn hw
  rw [← hwr]
  exact exec_registerWrite_of_reg ha hp hr hal hoff hpl (by rw [hwr]; exact allowed_pending rfl)

end

end Sys2Proof.Machine

namespace Sys2Proof

open Sys2Proof.Machine

/-- Settles O21: the register table by its read after a write; W1C and RC bits by the rows of the register map that have
them, each of which stores its value less the bits that are cleared. -/
theorem registersReadBack : Obligations.RegistersReadBack := by
  unfold Obligations.RegistersReadBack
  refine ⟨?table, ⟨?clear, ?status, ?stream⟩, ?read, ?denied, ?maxdepth, ?lane⟩
  case table =>
    intro s off idx v hs hoff
    refine ⟨rput_keys s _ _ _ hs, ?_, fun off' idx' hoff' hne => ?_, rfl, rfl, rfl, rfl⟩
    · rw [rget_rput s _ _ _ _ _ hs hoff hoff, if_pos ⟨rfl, rfl⟩]
    · rw [rget_rput s _ _ _ _ _ hs hoff hoff', if_neg hne]
  case clear =>
    intro s rq off n d v ha hr hp hal hoff hs hpl hw hmay
    have hmay' : mayClear s rq d (objOf s rq d n) = true := by
      rcases hmay with h | ⟨ho, h⟩ <;> simp [mayClear, *]
    have hd := regTable_off_lt d (mem_regTable_of_placeOf hpl).1
    refine ⟨_, exec_w1cRegisterWrite_of_w1c ha hr hp hal hoff v hpl hw, ?_⟩
    rw [hmay', allowed, if_pos rfl, clearBits, rget_rput_sub _ hs hd]
    exact ⟨fun k => by rw [bit_sub_and, bit_and], rfl⟩
  case status =>
    intro s rq v ha hsees hp
    have hr := reaches_of_seesRegs hsees
    have hsaf := exec_w1cRegisterWrite_of_w1c ha hr hp (by decide) (by decide) v
      ((placeOf_of_seesRegs hsees (by decide)).trans blockPlace_safStat) (by decide)
    have hpwr := exec_w1cRegisterWrite_of_w1c ha hr hp (by decide) (by decide) v
      ((placeOf_of_seesRegs hsees (by decide)).trans blockPlace_pwrStat) (by decide)
    have hmay : ∀ d ∈ [safStatReg, pwrStatReg], mayClear s rq d (objOf s rq d 0) = privileged s rq := by
      simp [mayClear, safStatReg, pwrStatReg, R.safStat, R.pwrStat, R.camStreamStat]
    rw [hmay _ (by simp), allowed_clearBits_and] at hsaf hpwr
    exact ⟨hsaf, hpwr⟩
  case stream =>
    intro s rq v ha hsees hp hpriv hgrant
    have hmay : mayClear s rq camStreamStatReg (objOf s rq camStreamStatReg 0) = false := by
      have hobj : objOf s rq camStreamStatReg 0 = selGet s rq R.camStreamSel := rfl
      rw [mayClear, hpriv, hobj, hgrant, Bool.and_false, Bool.or_false]
    rw [exec_w1cRegisterWrite_of_w1c ha (reaches_of_seesRegs hsees) hp (by decide) (by decide) v
      ((placeOf_of_seesRegs hsees (by decide)).trans blockPlace_camStreamStat) (by decide), hmay]
    rfl
  case read =>
    intro s rq off n d ha hr hp hal hoff hs hpl hrc hmax hread i
    obtain ⟨hd, -⟩ := mem_regTable_of_placeOf hpl
    obtain ⟨hval, heff⟩ := read_of_rc rq n s hd hrc hmax
    have hi : clearedObj d.off (objOf s rq d n) = i := rfl
    clear_value i
    have hbus : busRead rq off s = (rget s d.off i, clearBits d.off i d.rc s) := by
      rw [busRead_reg s hpl, hread, if_pos rfl, hval, heff, hi]
    refine ⟨_, exec_rcRegisterRead_of_busRead ha hr hp hal hoff hbus rfl, ?_⟩
    rw [clearBits, rget_rput_sub _ hs (regTable_off_lt d hd)]
    exact ⟨fun k => bit_sub_and _ _ k, rfl⟩
  case denied =>
    intro s rq off n d ha hr hp hal hoff hpl hread
    exact exec_rcRegisterRead_of_busRead ha hr hp hal hoff
      (by rw [busRead_reg s hpl, hread, if_neg Bool.false_ne_true]) rfl
  case maxdepth =>
    intro s rq ha hsees hp
    exact exec_rcRegisterRead_of_busRead ha (reaches_of_seesRegs hsees) hp (by decide) (by decide)
      (busRead_maxdepth hsees) rfl
  case lane =>
    intro s fn lane ha hfn hr hp hl
    obtain ⟨hoff, hal⟩ := laneOffset_ok (fn := fn) (o := 0x114) hl (by decide) (by decide)
    exact exec_rcRegisterRead_of_busRead ha hr hp hal hoff (busRead_laneStat s hfn hl) rfl

end Sys2Proof

/-! SUPPORT. The 64-bit times: a read of the low word latches the upper one for its requester (R29, R75, R101, R424,
R441). -/

namespace Sys2Proof.Machine

/-! ### Selectors and shadows -/

/-- A requester's shadow after a latch: the value, modulo 2³². -/
theorem selGet_selPut {s : State} (rq off v : Nat) (h : tkeys 0 s.sel = true) :
    selGet (selPut rq off v s) rq off = v % 2 ^ 32 := by
  rw [selGet, selPut, tget_tset_from _ _ _ 0 _ _ _ h (fun _ => rfl), if_pos rfl, BitVec.toNat_ofNat]

theorem selGet_of_sel_eq {s t : State} (h : t.sel = s.sel) (rq off : Nat) : selGet t rq off = selGet s rq off := by
  rw [selGet, h, selGet]

theorem tick_sel (s : State) : (tick s).sel = s.sel := by
  obtain ⟨p, w, -, -, h⟩ := exists_tick_eq s
  rw [h]
  rfl

/-- Time that passes leaves the shadows. -/
theorem tick_iterate_sel (k : Nat) (s : State) : (tick^[k] s).sel = s.sel := by
  induction k generalizing s with
  | zero => rfl
  | succ k ih => rw [Function.iterate_succ_apply, ih, tick_sel]

/-! ### The rows of the register map -/

/-- A register of one word, all of its bits read-only, under a selector or none. -/
def readOnlyReg (off sel : Nat) : RegDef := ⟨off, 4, 1, sel, 0x0, 0x0, 0x0, 0x0⟩

/-- CAM_FSI_LAST_LO's row of the register map. -/
def fsiLastLoReg : RegDef := ⟨R.camFsiLastLo, 8, 4, 0, 0x0, 0x0, 0x0, 0x0⟩

/-- Every requester finds PWR_TIME_LO and PWR_TIME_HI, a VF in its own BAR0 (R356). -/
theorem placeOf_time {rq : Nat} (hrq : rq < 33) :
    placeOf rq (timeLoAt rq) = .reg (readOnlyReg R.pwrTimeLo 0) 0 ∧
    placeOf rq (timeLoAt rq + 4) = .reg (readOnlyReg R.pwrTimeHi 0) 0 := by
  interval_cases rq <;> decide +kernel

theorem blockPlace_fsiLastLo {n : Nat} (hn : n < 4) : blockPlace (R.camFsiLastLo + 8 * n) = .reg fsiLastLoReg n := by
  interval_cases n <;> decide +kernel

/-! ### The reads -/

theorem busRead_timeLo {rq : Nat} (s : State) (hrq : rq < 33) : busRead rq (timeLoAt rq) s =
    (s.now % 2 ^ 32, selPut rq R.pwrTimeHi (s.now / 2 ^ 32 % 2 ^ 32) s) := by
  rw [busRead_reg s (placeOf_time hrq).1]
  rfl

theorem busRead_timeHi {rq : Nat} (s : State) (hrq : rq < 33) :
    busRead rq (timeLoAt rq + 4) s = (selGet s rq R.pwrTimeHi, s) := by
  rw [busRead_reg s (placeOf_time hrq).2]
  rfl

section
variable {s : State} {rq : Nat} (hsees : seesRegs s rq = true)
include hsees

theorem busRead_sluiceLastLo : busRead rq R.seqSluiceLastLo s =
    ((sluiceSt s (selGet s rq R.seqSluiceSel)).lastTime % 2 ^ 32, selPut rq R.seqSluiceLastHi
      ((sluiceSt s (selGet s rq R.seqSluiceSel)).lastTime / 2 ^ 32 % 2 ^ 32) s) := by
  have hb : blockPlace R.seqSluiceLastLo = .reg (readOnlyReg R.seqSluiceLastLo R.seqSluiceSel) 0 := rfl
  rw [busRead_reg s ((placeOf_of_seesRegs hsees (by decide)).trans hb)]
  rfl

theorem busRead_isoTimeLo : busRead rq R.secIsoTimeLo s =
    (s.sec.epochTime % 2 ^ 32, selPut rq R.secIsoTimeHi (s.sec.epochTime / 2 ^ 32 % 2 ^ 32) s) := by
  have hb : blockPlace R.secIsoTimeLo = .reg (readOnlyReg R.secIsoTimeLo 0) 0 := rfl
  rw [busRead_reg s ((placeOf_of_seesRegs hsees (by decide)).trans hb)]
  rfl

theorem busRead_causeTimeLo : busRead rq R.safCauseTimeLo s =
    (s.saf.causeTime % 2 ^ 32, selPut rq R.safCauseTimeHi (s.saf.causeTime / 2 ^ 32 % 2 ^ 32) s) := by
  have hb : blockPlace R.safCauseTimeLo = .reg (readOnlyReg R.safCauseTimeLo 0) 0 := rfl
  rw [busRead_reg s ((placeOf_of_seesRegs hsees (by decide)).trans hb)]
  rfl

theorem busRead_fsiLastLo {n : Nat} (hn : n < 4) : busRead rq (R.camFsiLastLo + 8 * n) s =
    (tget 0 s.cam.fsiLast n % 2 ^ 32,
      selPut rq (R.camFsiLastHi + 8 * n) (tget 0 s.cam.fsiLast n / 2 ^ 32 % 2 ^ 32) s) := by
  have hoff : R.camFsiLastLo + 8 * n < 0x500000 := by simp only [R.camFsiLastLo]; omega
  rw [busRead_reg s ((placeOf_of_seesRegs hsees hoff).trans (blockPlace_fsiLastLo hn))]
  rfl

end

/-- A low word and a reading of the upper word that was latched with it make up the time, modulo 2⁶⁴. -/
theorem hi_lo_eq_mod (t : Nat) : t / 2 ^ 32 % 2 ^ 32 % 2 ^ 32 * 2 ^ 32 + t % 2 ^ 32 = t % 2 ^ 64 := by
  omega

end Sys2Proof.Machine

namespace Sys2Proof

open Sys2Proof.Machine

/-- Settles O23: each time command reads its low word at the bus, and the latched word stays while time passes. -/
theorem timeReads : Obligations.TimeReads := by
  unfold Obligations.TimeReads
  refine ⟨⟨?device, ?others, ?fsi⟩, ?oneInstant⟩
  case device =>
    intro s rq ha hr hp hrq
    have hal : timeLoAt rq % 4 = 0 := by unfold timeLoAt; split <;> decide
    exact exec_rcRegisterRead_of_busRead ha hr hp hal (timeLoAt_lt rq) (busRead_timeLo s hrq) rfl
  case others =>
    intro s rq ha hsees hp
    have hr := reaches_of_seesRegs hsees
    exact ⟨exec_rcRegisterRead_of_busRead ha hr hp (by decide) (by decide) (busRead_sluiceLastLo hsees) rfl,
      exec_rcRegisterRead_of_busRead ha hr hp (by decide) (by decide) (busRead_isoTimeLo hsees) rfl,
      exec_rcRegisterRead_of_busRead ha hr hp (by decide) (by decide) (busRead_causeTimeLo hsees) rfl⟩
  case fsi =>
    intro s rq n ha hsees hp hn
    have hr := reaches_of_seesRegs hsees
    have hal : (R.camFsiLastLo + 8 * n) % 4 = 0 := by simp only [R.camFsiLastLo]; omega
    have hread := rdReg_of_prompt hr hp hal
    rw [busRead_fsiLastLo hsees hn] at hread
    have hok : (decide (rq < 33) && decide (n < 4)) = true := by simp [lt_of_reaches hr, hn]
    exact (act_alive _ ha hok).trans (by rw [hread]; rfl)
  case oneInstant =>
    intro s rq k hrq hk
    rw [busRead_timeHi _ hrq, busRead_timeLo s hrq]
    dsimp only
    rw [selGet_of_sel_eq (tick_iterate_sel k _), selGet_selPut rq _ _ hk, hi_lo_eq_mod]

end Sys2Proof

/-! SUPPORT. A lane's packet window: what a write stages, and what its commit leaves (R379, R380). -/

namespace Sys2Proof.Machine

/-! ### One lane alone -/

/-- Only lane `n` differs from `s`, and it is `l`. -/
def LaneOnly (n : Nat) (l : Lane) (s t : State) : Prop :=
  t = { s with lanes := t.lanes } ∧ tkeys 0 t.lanes = true ∧ laneSt t n = l ∧ ∀ m, m ≠ n → laneSt t m = laneSt s m

theorem LaneOnly.refl {s : State} (n : Nat) (h : tkeys 0 s.lanes = true) : LaneOnly n (laneSt s n) s s :=
  ⟨rfl, h, rfl, fun _ _ => rfl⟩

/-- A change of the lane changes it alone. -/
theorem LaneOnly.modLane {n : Nat} {l : Lane} {s t : State} (h : LaneOnly n l s t) (f : Lane → Lane) :
    LaneOnly n (f l) s (modLane n f t) := by
  obtain ⟨hs, hk, hl, hothers⟩ := h
  refine ⟨?_, modLane_keys t n f hk, ?_, fun m hm => ?_⟩
  · rw [hs]
    rfl
  · rw [laneSt_modLane t n n f hk, if_pos rfl, hl]
  · rw [laneSt_modLane t n m f hk, if_neg hm, hothers m hm]

/-! ### Staging -/

/-- A lane's staging with words written from place `i` on. -/
def stageWords : Nat → List Word → Tab Word → Tab Word
  | _, [], m => m
  | i, w :: t, m => stageWords (i + 1) t (tset 0 m i w)

theorem stageWords_keys : ∀ (t : List Word) (i : Nat) (m : Tab Word), tkeys 0 m = true →
    tkeys 0 (stageWords i t m) = true
  | [], _, _, h => h
  | w :: t, i, m, h => stageWords_keys t (i + 1) _ (tkeys_tset 0 m 0 i w (Nat.zero_le i) h)

/-- A staged word reads back; the others read as before. -/
theorem tget_stageWords : ∀ (t : List Word) (i k : Nat) (m : Tab Word), tkeys 0 m = true →
    tget 0 (stageWords i t m) k = if i ≤ k then (t[k - i]?).getD (tget 0 m k) else tget 0 m k
  | [], i, k, m, _ => by simp [stageWords]
  | w :: t, i, k, m, h => by
    rw [stageWords, tget_stageWords t (i + 1) k _ (tkeys_tset 0 m 0 i w (Nat.zero_le i) h),
      tget_tset_from 0 0 m 0 i k w h (fun _ => rfl)]
    rcases Nat.lt_trichotomy k i with hlt | rfl | hgt
    · rw [if_neg (by omega), if_neg (by omega), if_neg (by omega)]
    · rw [if_neg (by omega), if_pos rfl, if_pos (Nat.le_refl k), Nat.sub_self]
      rfl
    · obtain ⟨j, rfl⟩ := Nat.exists_eq_add_of_lt hgt
      rw [if_pos (by omega), if_neg (by omega), if_pos (by omega), show i + j + 1 - i = j + 1 by omega,
        show i + j + 1 - (i + 1) = j by omega, List.getElem?_cons_succ]

/-- Words that were staged from place 0 on are those that a commit of their number takes. -/
theorem range_map_stageWords {t : List Word} {m : Tab Word} (h : tkeys 0 m = true) :
    (List.range t.length).map (fun i => tget 0 (stageWords 0 t m) i) = t := by
  refine List.ext_getElem (by simp) (fun k h1 h2 => ?_)
  rw [List.getElem_map, List.getElem_range, tget_stageWords t 0 k m h, if_pos (Nat.zero_le k), Nat.sub_zero,
    List.getElem?_eq_getElem h2]
  rfl

/-! ### The window -/

theorem laneWindow_nil (n i : Nat) (s : State) : laneWindow n i [] s = s := rfl

theorem laneWindow_cons (n i : Nat) (w : Word) (t : List Word) (s : State) : laneWindow n i (w :: t) s =
    let s1 := modLane n (fun l => { l with staging := tset (0 : Word) l.staging i w }) s
    let len := packetWords (tget (0 : Word) (laneSt s1 n).staging 0).toNat
    if i + 1 = len then laneCommit n len (if t = [] then s1 else cnt R.hostFnMmioShape (n / 16) 1 s1)
    else laneWindow n (i + 1) t s1 := by
  cases t <;> rfl

/-- Words that end a packet are staged, and the packet commits. -/
theorem laneWindow_of_end {n : Nat} {s : State} : ∀ (t : List Word) (i : Nat) (l : Lane) (u : State), LaneOnly n l s u →
    t ≠ [] → packetWords (tget (0 : Word) (stageWords i t l.staging) 0).toNat = i + t.length →
    tkeys 0 l.staging = true → (0 < i → packetWords (tget (0 : Word) l.staging 0).toNat = i + t.length) →
    ∃ u', laneWindow n i t u = laneCommit n (i + t.length) u' ∧
      LaneOnly n { l with staging := stageWords i t l.staging } s u'
  | [], _, _, _, _, hne, _, _, _ => absurd rfl hne
  | w :: t, i, l, u, hu, _, hlen, hk, hfirst => by
    have hs1 := hu.modLane (fun l => { l with staging := tset (0 : Word) l.staging i w })
    have hk1 := tkeys_tset 0 l.staging 0 i w (Nat.zero_le i) hk
    have hlen1 : packetWords (tget (0 : Word) (tset 0 l.staging i w) 0).toNat = i + (w :: t).length := by
      rcases Nat.eq_zero_or_pos i with rfl | hi
      · rw [stageWords, tget_stageWords t 1 0 _ hk1, if_neg (by decide)] at hlen
        exact hlen
      · rw [tget_tset_from 0 0 l.staging 0 i 0 w hk (fun _ => rfl), if_neg (by omega)]
        exact hfirst hi
    rw [laneWindow_cons]
    simp only [hs1.2.2.1, hlen1]
    cases t with
    | nil => exact ⟨_, by simp, hs1⟩
    | cons w' t =>
      obtain ⟨u', hwin, hu'⟩ := laneWindow_of_end (w' :: t) (i + 1) _ _ hs1 (List.cons_ne_nil _ _)
        (by rw [List.length_cons, ← Nat.add_right_comm, Nat.add_assoc]; exact hlen) hk1
        (fun _ => by rw [hlen1]; simp only [List.length_cons]; omega)
      refine ⟨u', ?_, hu'⟩
      rw [if_neg (by simp only [List.length_cons]; omega), hwin]
      congr 1
      simp only [List.length_cons]
      omega

/-! ### The commit -/

theorem laneCommit_eq (n k : Nat) (s : State) :
    let p := (List.range k).map (fun i => tget (0 : Word) (laneSt s n).staging i)
    let s1 := modLane n (fun l => { l with staging := [] }) s
    laneCommit n k s =
      if laneEn (laneSt s n) = false then modLane n (fun l => { l with noring := min 65535 (l.noring + 1) }) s1
      else if (laneSt s n).credits = 0 then modLane n (fun l => { l with viol := some (match l.viol with
        | some (t, c) => (t, sat32 (c + 1))
        | none => ((p.getD 1 0).toNat, 1)) }) s1
      else
        let s2 := modLane n (fun l => { l with credits := l.credits - 1, queue := l.queue ++ [p] }) s1
        if (waiterOf s2 n).isSome = true ∨ (laneSt s n).queue ≠ [] then s2 else pumpLane n s2 := by
  simp only [laneCommit, Bool.not_eq_true', Bool.or_eq_true, List.isEmpty_eq_false_iff] <;> rfl

/-- A packet whose opcode exists stays at the front of its lane's queue. -/
theorem LaneOnly.pumpLane {n : Nat} {l : Lane} {s t : State} {p : List Word} (h : LaneOnly n l s t) (hq : l.queue = [p])
    (hop : opcodes.contains (bits (p.getD 0 0).toNat 7 0) = true) : LaneOnly n l s (pumpLane n t) := by
  have hpump : Machine.pumpLane n t = Machine.modLane n (fun l => { l with queue := [p] }) t := by
    rw [Machine.pumpLane, h.2.2.1, hq]
    exact if_pos hop
  have hl : { l with queue := [p] } = l := by rw [← hq]
  rw [hpump]
  exact hl ▸ h.modLane (fun l => { l with queue := [p] })

/-- A packet that commits with a ring and a credit joins its lane's queue. -/
theorem LaneOnly.laneCommit {n k : Nat} {l : Lane} {s t : State} {p : List Word} (h : LaneOnly n l s t)
    (hp : (List.range k).map (fun i => tget (0 : Word) l.staging i) = p) (hen : laneEn l = true) (hcr : 0 < l.credits)
    (hop : opcodes.contains (bits (p.getD 0 0).toNat 7 0) = true) :
    LaneOnly n { l with staging := [], credits := l.credits - 1, queue := l.queue ++ [p] } s (laneCommit n k t) := by
  have hs2 := (h.modLane (fun l => { l with staging := [] })).modLane
    (fun l => { l with credits := l.credits - 1, queue := l.queue ++ [p] })
  have heq := laneCommit_eq n k t
  simp only [h.2.2.1, hp, hen, Bool.true_eq_false, if_false, Nat.pos_iff_ne_zero.mp hcr] at heq
  rw [heq]
  split
  case isTrue => exact hs2
  case isFalse hempty =>
    have hq : l.queue = [] := not_not.mp (not_or.mp hempty).2
    exact hs2.pumpLane (by simp [hq]) hop

/-! ### The command -/

theorem packetWrite_eq (fn lane off : Nat) (dws : List Word) (s : State) (hl : lane < 16) :
    packetWrite (16 * fn + lane) off dws s =
      if off % 4 ≠ 0 ∨ dws = [] ∨ 256 < off + 4 * dws.length then cnt R.hostFnMmioShape fn 1 s
      else laneWindow (16 * fn + lane) (off / 4) dws s := by
  have hfn : (16 * fn + lane) / 16 = fn := by omega
  simp only [packetWrite, countShape, hfn, List.isEmpty_iff]

theorem exec_packetWindowWrite {s : State} {fn lane off : Nat} (dws : List Word) (ha : alive s = true) (hfn : fn < 32)
    (hl : lane < 16) (hoff : off < 256) : exec (.packetWindowWrite fn lane off dws) s = .next (keepQueue s (
      if reaches s fn then packetWrite (16 * fn + lane) off dws (wakeDevice s) else s)) :=
  act_alive _ ha (by simp [hfn, hl, hoff])

theorem packetWords_pos (w : Nat) : 0 < packetWords w ∧ packetWords w ≤ 64 := by
  unfold packetWords
  simp only
  split <;> omega

theorem wakeDevice_of_not_sleep {s : State} (h : s.pwr.st ≠ .sleep) : wakeDevice s = s := if_neg h

end Sys2Proof.Machine

namespace Sys2Proof

open Sys2Proof.Machine

/-- Settles O27: the words of a whole packet are staged by induction over them, and the commit appends them to the
queue; the rest is the window's equations. -/
theorem wholePacketJoinsItsLane : Obligations.WholePacketJoinsItsLane := by
  unfold Obligations.WholePacketJoinsItsLane
  refine ⟨?joins, ?write, fun n i w t s => ⟨laneWindow_nil n i s, laneWindow_cons n i w t s⟩, laneCommit_eq⟩
  case joins =>
    intro s fn lane w t ha hfn hl hr hst hlen hen hcr hop hk hks
    have hw0 : tget (0 : Word) (stageWords 0 (w :: t) (laneSt s (16 * fn + lane)).staging) 0 = w := by
      rw [tget_stageWords _ 0 0 _ hks]
      rfl
    obtain ⟨u, hwin, hu⟩ := laneWindow_of_end (w :: t) 0 _ s (LaneOnly.refl (16 * fn + lane) hk) (List.cons_ne_nil _ _)
      (by rw [hw0, hlen, Nat.zero_add]) hks (fun h => absurd h (Nat.lt_irrefl 0))
    have hdone := hu.laneCommit (k := (w :: t).length) (p := w :: t) (range_map_stageWords hks) hen hcr hop
    have hle := (packetWords_pos w.toNat).2
    rw [exec_packetWindowWrite _ ha hfn hl (by decide), if_pos hr, wakeDevice_of_not_sleep hst,
      packetWrite_eq _ _ _ _ _ hl,
      if_neg (by rw [hlen]; simp; omega), Nat.zero_div, hwin, Nat.zero_add]
    obtain ⟨hs, -, hlane, hothers⟩ := hdone
    refine ⟨_, rfl, hlane, hothers, ?_⟩
    rw [hs]
    exact ⟨rfl, rfl, rfl, rfl, rfl⟩
  case write =>
    intro s fn lane off dws ha hfn hl hoff
    rw [exec_packetWindowWrite dws ha hfn hl hoff]
    refine ⟨fun hr => ?absent, fun hr => ?there⟩
    case absent =>
      rw [hr]
      rfl
    case there =>
      rw [if_pos hr, packetWrite_eq _ _ _ _ _ hl]
      rfl

end Sys2Proof

/-! SUPPORT. A packet of CCP from its source to its reply: what a command whose packet its source applies next leaves,
the checks of a body, and ranges that pass; STATS_READ, LOG_READ and the log ring (O37). -/

namespace Sys2Proof.Machine

/-! ### From the result of a body to the state after the command -/

/-- What a packet's result leaves, the waiting commands kept. -/
def ended (s : State) (p : Pkt) (r : Res) : State := keepQueue s (settle (finishPkt p r))

@[simp] theorem ended_fail (s t : State) (p : Pkt) (st d : Nat) :
    ended s p (.fail st d t) = turnedAway s p st d t := rfl

@[simp] theorem ended_ok (s t : State) (p : Pkt) (a b c : Nat) : ended s p (.ok a b c t) = applied s p a b c t := rfl

@[simp] theorem ended_done (s t : State) (p : Pkt) (a b c : Nat) (l : List Byte) :
    ended s p (.done a b c l t) = keepQueue s (settle (answerPkt p 0 0 a b c l t)) := rfl

@[simp] theorem ended_wait (s t : State) (p : Pkt) (w : WaitFor) (r0 : Nat) (f : State → State) :
    ended s p (.wait w r0 f t) = keepQueue s (settle (f (setWait p.src
      { what := w, head := wd p.w 0, tag := wd p.w 1, applied := t.now, r0 := r0 } t))) := rfl

theorem ended_ite (s : State) (p : Pkt) (c : Prop) [Decidable c] (a b : Res) :
    ended s p (if c then a else b) = if c then ended s p a else ended s p b := apply_ite _ _ _ _

/-- A packet that carries the command's opcode and passes the header checks runs the command's body. -/
theorem ccp_of_serves {op : Nat} {src : Src} {s : State} {p : Pkt} (body : Pkt → State → Res) (h : serves s src op p) :
    ccp op src body s = settle (finishPkt p (body p (servedState s p))) := by
  obtain ⟨-, -, hn, hop, hh⟩ := h
  have hh' : headCheck (served s p) p = none := hh
  simp only [ccp, hn, hop, hh', ne_eq, not_true, decide_false, Bool.false_and, Bool.false_eq_true, if_false]
  rfl

theorem ccpAct_of_serves {op : Nat} {src : Src} {s : State} {p : Pkt} (body : Pkt → State → Res)
    (h : serves s src op p) : ccpAct op src s body = .next (ended s p (body p (servedState s p))) := by
  rw [ccpAct, act_alive _ h.1 h.2.1, ccp_of_serves body h]
  rfl

/-! ### Checks -/

theorem firstErr_nil : firstErr [] = none := rfl

theorem firstErr_none (l : List (Option Err)) : firstErr (none :: l) = firstErr l := rfl

theorem firstErr_some (e : Err) (l : List (Option Err)) : firstErr (some e :: l) = some e := rfl

theorem chk_true (st d : Nat) : chk true st d = some (st, d) := rfl

theorem chk_false (st d : Nat) : chk false st d = none := rfl

theorem checked_nil (s : State) (f : State → Res) : checked [] s f = f s := rfl

/-- A check that passes leaves the rest to be looked at. -/
theorem checked_none (l : List (Option Err)) (s : State) (f : State → Res) :
    checked (none :: l) s f = checked l s f := rfl

/-- The first failure is the result. -/
theorem checked_some (e : Err) (l : List (Option Err)) (s : State) (f : State → Res) :
    checked (some e :: l) s f = .fail e.1 e.2 s := rfl

theorem checked_of_err {l : List (Option Err)} {e : Err} (h : firstErr l = some e) (s : State) (f : State → Res) :
    checked l s f = .fail e.1 e.2 s := by
  rw [checked, h]

theorem checked_of_ok {l : List (Option Err)} (h : firstErr l = none) (s : State) (f : State → Res) :
    checked l s f = f s := by
  rw [checked, h]

/-! ### Ranges -/

theorem destNone_of_ne (p : Pkt) {a : Nat} (h : a ≠ 0) : destNone p a = false := by
  simp [destNone, h]

theorem destNone_of_mgmt {p : Pkt} {a : Nat} (h : a = 0) (hm : p.isMgmt = true) : destNone p a = true := by
  simp [destNone, h, hm]

theorem rangeBad_of_populated {s : State} {p : Pkt} {a n : Nat} (d : Nat) (h : rangePopulated s p.tn a n = true) :
    rangeBad s p a n d = none := by
  rw [rangeBad, h]
  rfl

theorem rangeDenied_of_granted {s : State} {p : Pkt} {a n : Nat} (d : Nat) (h : rangeGranted s p.tn a n = true) :
    rangeDenied s p a n d = none := by
  rw [rangeDenied, h]
  rfl

theorem destBad_of_populated {s : State} {p : Pkt} {a n : Nat} (d : Nat) (ha : a ≠ 0)
    (h : rangePopulated s p.tn a n = true) : destBad s p a n d = none := by
  rw [destBad, destNone_of_ne p ha, rangeBad_of_populated d h, if_neg ha]
  rfl

theorem destDenied_of_granted {s : State} {p : Pkt} {a n : Nat} (d : Nat) (h : rangeGranted s p.tn a n = true) :
    destDenied s p a n d = none := by
  rw [destDenied, rangeDenied_of_granted d h, ite_self]

theorem destBad_of_none {s : State} {p : Pkt} {a : Nat} (n d : Nat) (h : destNone p a = true) :
    destBad s p a n d = none := if_pos h

theorem destDenied_of_none {s : State} {p : Pkt} {a : Nat} (n d : Nat) (h : destNone p a = true) :
    destDenied s p a n d = none := if_pos h

/-! ### The log ring (R440) -/

/-- An entry is the ring's last, and the oldest goes only where the ring is full. -/
theorem addLog_log (code tenant engine d0 d1 d2 : Nat) (s : State) :
    (addLog code tenant engine d0 d1 d2 s).log = (if s.log.length < 4096 then s.log else s.log.tail) ++
      [{ code := code, tenant := tenant, seq := s.logNext, time := s.now, engine := engine,
         d0 := w32 d0, d1 := w32 d1, d2 := w32 d2, retry := 0 }] := by
  unfold addLog addLogR
  by_cases h : s.log.length < 4096
  · simp only [h, if_true]
  · have hne : s.log ≠ [] := by
      intro h0
      rw [h0] at h
      exact h (by decide)
    simp only [h, if_false, List.tail_append_of_ne_nil hne]

theorem mem_addLog_of_tail {code tenant engine d0 d1 d2 : Nat} {s : State} {e : LogEntry} (h : e ∈ s.log.tail) :
    e ∈ (addLog code tenant engine d0 d1 d2 s).log := by
  rw [addLog_log]
  refine List.mem_append_left _ ?_
  by_cases hl : s.log.length < 4096
  · rw [if_pos hl]
    exact List.mem_of_mem_tail h
  · rw [if_neg hl]
    exact h

theorem mem_addLog_of_room {code tenant engine d0 d1 d2 : Nat} {s : State} {e : LogEntry} (hl : s.log.length < 4096)
    (h : e ∈ s.log) : e ∈ (addLog code tenant engine d0 d1 d2 s).log := by
  rw [addLog_log, if_pos hl]
  exact List.mem_append_left _ h

theorem addLog_length_le {code tenant engine d0 d1 d2 : Nat} {s : State} (h : s.log.length ≤ 4096) :
    (addLog code tenant engine d0 d1 d2 s).log.length ≤ 4096 := by
  rw [addLog_log]
  by_cases hl : s.log.length < 4096
  · simp only [hl, if_true, List.length_append, List.length_singleton]
    omega
  · simp only [hl, if_false, List.length_append, List.length_singleton, List.length_tail]
    omega

/-- A part of a list is shorter than the list exactly where the list is longer than the part asked for. -/
theorem length_take_lt_iff {α : Type} (k : Nat) (l : List α) : (l.take k).length < l.length ↔ k < l.length := by
  rw [List.length_take]
  omega

end Sys2Proof.Machine

namespace Sys2Proof

open Sys2Proof.Machine

/-- Settles O37: a read that passes its checks is its body's one branch, and the log ring by its equation. -/
theorem statisticsAndLog : Obligations.StatisticsAndLog := by
  unfold Obligations.StatisticsAndLog
  refine ⟨⟨?stats, ?log, ?own, ?all⟩, ?ring⟩
  case stats =>
    intro s t src p g i l clear hs hr ht hg hi he hl hc
    have hx := ccpAct_of_serves cmdStats hs
    have hx : exec (.statsRead src) s = .next (ended s p (cmdStats p (servedState s p))) := hx
    subst ht hg hi hl hc
    refine ⟨fun ha hp hgr => ?_, fun ha hm => ?_⟩
    · simp only [hx, cmdStats, hr, he, checked_none, checked_nil, destBad_of_populated 6 ha hp,
        destDenied_of_granted 6 hgr,
        destNone_of_ne p ha, Bool.false_eq_true, if_false, ended_ite, ended_fail, ended_ok]
    · have hd := destNone_of_mgmt ha hm
      simp only [hx, cmdStats, hr, he, checked_none, checked_nil, destBad_of_none _ _ hd, destDenied_of_none _ _ hd, hd,
        if_true, ended_done, List.take_length]
  case log =>
    intro s t src p l es hs hr ht h0 h1 hl he next hn
    have hx : exec (.logRead src) s = .next (ended s p (cmdLog p (servedState s p))) := ccpAct_of_serves cmdLog hs
    have hcap : (wd p.w 7 == 0 || decide (4096 < wd p.w 7)) = false := by simp; omega
    subst ht hl he hn
    refine ⟨fun ha hp0 hp hgr => ?_, fun ha hm => ?_⟩
    · simp only [hx, cmdLog, hr, hcap, chk_false, checked_none, checked_nil, destBad_of_populated 5 ha hp0,
        destBad_of_populated 5 ha hp, destDenied_of_granted 5 hgr,
        destNone_of_ne p ha, Bool.false_eq_true, if_false, ended_ite, ended_fail, ended_ok, length_take_lt_iff,
        if_neg ha] <;> rfl
    · have hd := destNone_of_mgmt ha hm
      simp only [hx, cmdLog, hr, hcap, chk_false, checked_none, checked_nil, destBad_of_none _ _ hd,
        destDenied_of_none _ _ hd, hd, if_true, ended_done, length_take_lt_iff, if_pos ha] <;> rfl
  case own =>
    intro s p t hm ho
    simp only [logSees, hm, ho, Bool.and_false, Bool.false_or, beq_eq_decide]
  case all =>
    intro s p t h
    rcases h with hm | ⟨hf, ho⟩
    · simp [logSees, hm]
    · simp [logSees, hf, ho]
  case ring =>
    intro code tenant engine d0 d1 d2 s h
    refine ⟨addLog_length_le h, ?_, addLog_next .., fun e he => mem_addLog_of_tail he,
      fun hl e he => mem_addLog_of_room hl he⟩
    rw [addLog_log, List.getLast?_append]
    rfl

end Sys2Proof

/-! SUPPORT. Memory, the memory key and poison: bytes read back (O38), writes of device memory and poison marks (O39),
and the memory effect of a task's work (O50). -/

namespace Sys2Proof.Machine

/-! ### Bytes -/

/-- A byte written reads back; those written after it lie above it. -/
theorem mget_mputs_inside : ∀ (l : List Byte) (m : List Host.Cell) (a i : Nat) (_ : Memory.wf m = true)
    (h : i < l.length), mget (mputs m a l) (a + i) = l[i]
  | b :: t, m, a, 0, hm, _ => by
    have hlow : mget (mputs (mput m a b) (a + 1) t) a = mget (mput m a b) a :=
      mget_mputs_outside t _ _ a (mput_wf m a b hm) (.inl (Nat.lt_succ_self a))
    change mget (mputs (mput m a b) (a + 1) t) a = b
    rw [hlow, mget_mput m a a b hm, if_pos rfl]
  | b :: t, m, a, i + 1, hm, h => by
    have ih := mget_mputs_inside t (mput m a b) (a + 1) i (mput_wf m a b hm) (Nat.lt_of_succ_lt_succ h)
    rw [mputs, show a + (i + 1) = a + 1 + i by omega, ih]
    rfl

/-! ### The memory key (R411) -/

theorem length_leBytes : ∀ n v : Nat, (leBytes n v).length = n
  | 0, _ => rfl
  | n + 1, v => congrArg (· + 1) (length_leBytes n (v / 256))

/-- A unit under a key is no longer than its whole blocks. -/
theorem length_xtsUnit_le (cipher : List (List Nat) → List Nat → List Nat) (key : List Byte) (u : Nat) (m : List Byte) :
    (xtsUnit cipher key u m).length ≤ 16 * (m.length / 16) := by
  have hb : ∀ x ∈ (xtsTweaks (aesKeys (key.drop 32)) u (m.length / 16)).zipIdx, x.1.length = 16 := by
    intro x hx
    have hx1 := List.fst_mem_of_mem_zipIdx hx
    obtain ⟨j, -, hj⟩ := List.mem_map.mp hx1
    rw [← hj, List.length_map, length_leBytes]
  have hn : (xtsTweaks (aesKeys (key.drop 32)) u (m.length / 16)).length = m.length / 16 := by simp [xtsTweaks]
  unfold xtsUnit
  rw [List.length_flatMap]
  refine (List.sum_le_card_nsmul _ 16 fun x hx => ?_).trans ?_
  · obtain ⟨y, hy, rfl⟩ := List.mem_map.mp hx
    simp [hb y hy]
  · simp [hn, Nat.mul_comm]

theorem cdiv_unit (u : Nat) : cdiv (64 * u + 64) 64 - u = 1 := by
  unfold cdiv
  omega

/-- A data unit written whole is stored under the key of its range. -/
theorem hbmPuts_unit {s : State} {u : Nat} {l k : List Byte} (hl : l.length = 64) (hk : encKey s (64 * u) 64 = some k) :
    hbmPuts s (64 * u) l = mputs s.mem (64 * u) (xtsSeal k u l) := by
  have hu : 64 * u / 64 = u := by omega
  have hold : (unitGet s s.mem u).length ≤ 64 := by
    simpa [unitGet, hk, xtsOpen, mgets] using length_xtsUnit_le aesBlockInv k u (mgets s.mem (64 * u) 64)
  have hrest : (unitGet s s.mem u).drop 64 = [] := List.drop_eq_nil_of_le hold
  have htake : l.take 64 = l := List.take_of_length_le hl.le
  simp [hbmPuts, hl, hk, cdiv_unit, hu, unitPut, hrest, htake]

/-- A data unit is read whole under the key of its range. -/
theorem hbmGets_unit {s : State} {u : Nat} {k : List Byte} (hk : encKey s (64 * u) 64 = some k) :
    hbmGets s (64 * u) 64 = xtsOpen k u (mgets s.mem (64 * u) 64) := by
  have hu : 64 * u / 64 = u := by omega
  have hlen : (xtsOpen k u (mgets s.mem (64 * u) 64)).length ≤ 64 := by
    simpa [xtsOpen, mgets] using length_xtsUnit_le aesBlockInv k u (mgets s.mem (64 * u) 64)
  simp [hbmGets, hk, cdiv_unit, hu, unitGet, List.take_of_length_le hlen]

/-! ### Poison marks (R277, R292) -/

theorem poisonCut_outside {l : List (Nat × Nat × Nat)} {lo hi : Nat} {e : Nat × Nat × Nat} (h : e ∈ poisonCut l lo hi) :
    e.2.1 ≤ lo ∨ hi ≤ e.1 := by
  obtain ⟨x, -, hx⟩ := List.mem_flatMap.mp h
  split at hx
  · next hout =>
    rw [List.mem_singleton.mp hx]
    exact hout
  · rcases List.mem_append.mp hx with hx | hx
    · split at hx
      · rw [List.mem_singleton.mp hx]
        exact .inl (Nat.le_refl _)
      · cases hx
    · split at hx
      · rw [List.mem_singleton.mp hx]
        exact .inr (Nat.le_refl _)
      · cases hx

/-- A cut keeps every row's mark outside the rows cut out. -/
theorem poisonCut_keeps {l : List (Nat × Nat × Nat)} {lo hi r : Nat} {e : Nat × Nat × Nat} (he : e ∈ l) (h1 : e.1 ≤ r)
    (h2 : r < e.2.1) (hr : r < lo ∨ hi ≤ r) : ∃ x ∈ poisonCut l lo hi, x.1 ≤ r ∧ r < x.2.1 ∧ x.2.2 = e.2.2 := by
  by_cases hout : e.2.1 ≤ lo ∨ hi ≤ e.1
  · exact ⟨e, List.mem_flatMap.mpr ⟨e, he, by simp [hout]⟩, h1, h2, rfl⟩
  · rcases hr with hr | hr
    · exact ⟨(e.1, lo, e.2.2), List.mem_flatMap.mpr ⟨e, he, by simp [hout, Nat.lt_of_le_of_lt h1 hr]⟩, h1, hr, rfl⟩
    · exact ⟨(hi, e.2.1, e.2.2), List.mem_flatMap.mpr ⟨e, he, by simp [hout, Nat.lt_of_le_of_lt hr h2]⟩, hr, h2, rfl⟩

/-- Marks that all lie off a row leave no mark of the row in what a cut keeps. -/
theorem poisonCut_off {l : List (Nat × Nat × Nat)} {lo hi r : Nat} (h : ∀ e ∈ l, e.2.1 ≤ r ∨ r < e.1) :
    ∀ e ∈ poisonCut l lo hi, e.2.1 ≤ r ∨ r < e.1 := by
  intro e he
  obtain ⟨x, hx, hex⟩ := List.mem_flatMap.mp he
  have hxr := h x hx
  split at hex
  · rw [List.mem_singleton.mp hex]
    exact hxr
  · rcases List.mem_append.mp hex with hex | hex <;> split at hex
    · rw [List.mem_singleton.mp hex]
      simp only
      omega
    · cases hex
    · rw [List.mem_singleton.mp hex]
      simp only
      omega
    · cases hex

theorem find_mark_of_off {l : List (Nat × Nat × Nat)} {r : Nat} (h : ∀ e ∈ l, e.2.1 ≤ r ∨ r < e.1) :
    l.find? (fun e => decide (e.1 ≤ r) && decide (r < e.2.1)) = none := by
  refine List.find?_eq_none.mpr fun e he => ?_
  have := h e he
  simp
  omega

/-- A row that is not retired, of a bank with power, reads as its first mark says. -/
theorem rowPoison_of_off {s : State} {r : Nat} (hret : r ∉ s.nv.rowRetired) (hdead : bankDead s r = false)
    (h : ∀ e ∈ s.spd.poison, e.2.1 ≤ r ∨ r < e.1) : rowPoison s r = 0 := by
  simp [rowPoison, hret, hdead, find_mark_of_off h]

theorem not_retired_of_rowPoison {s : State} {r : Nat} (h : rowPoison s r ≠ 3) : r ∉ s.nv.rowRetired := by
  intro hr
  exact h (by simp [rowPoison, hr])

theorem bankDead_setPoison (lo hi why r : Nat) (s : State) : bankDead (setPoison lo hi why s) r = bankDead s r := rfl

theorem rowPoison_setPoison_inside {lo hi r : Nat} (why : Nat) (s : State) (h1 : lo ≤ r) (h2 : r < hi) :
    rowPoison (setPoison lo hi why s) r =
      if r ∈ s.nv.rowRetired then 3 else if bankDead s r = true then 2 else why := by
  have hf : (setPoison lo hi why s).spd.poison.find? (fun e => decide (e.1 ≤ r) && decide (r < e.2.1)) =
      some (lo, hi, why) := by simp [setPoison, h1, h2]
  rw [rowPoison, bankDead_setPoison, hf]
  simp [setPoison]

theorem rowPoison_setPoison_outside {lo hi r : Nat} (why : Nat) (s : State) (hr : r < lo ∨ hi ≤ r)
    (h : ∀ e ∈ s.spd.poison, e.2.1 ≤ r ∨ r < e.1) : rowPoison (setPoison lo hi why s) r = rowPoison s r := by
  have hmarks : ∀ e ∈ (setPoison lo hi why s).spd.poison, e.2.1 ≤ r ∨ r < e.1 := by
    intro e he
    rcases List.mem_cons.mp he with rfl | he
    · simp only
      omega
    · exact poisonCut_off h e he
  rw [rowPoison, rowPoison, bankDead_setPoison, find_mark_of_off hmarks, find_mark_of_off h]
  rfl

/-! ### A whole row of the scratchpad (R276, R277) -/

/-- A place of a row lies in that row. -/
theorem rowOf_rowAddr_add {r i : Nat} (h : i < 512) : rowOf (rowAddr r + i) = r := by
  unfold rowOf
  rw [rowAddr_add_sub]
  omega

/-- A write of one whole row: only the row is written, and only where it takes writes. -/
theorem devPut_row {s : State} {r : Nat} {l : List Byte} (hr : r < 0x100000) (hl : l.length = 512) :
    devPut (rowAddr r) l s =
      clearWhole ([r].filter (fun x => !(bankDead s x || rowPoison s x == 3))) r 1
        (freshRows r 1 (fun x => bankDead s x || rowPoison s x == 3) (touchRows r 1
          (([r].filter (fun x => rowPoison s x == 3)).foldl (fun t x => cnt R.spdSliceUe (x / 16384) 1 t)
            { s with mem := putWhere (fun x => bankDead s x || rowPoison s x == 3) [r] (rowAddr r) l s.mem }))) := by
  have hn : cdiv (rowAddr r + 512 - scratchBase) 512 - r = 1 := by
    rw [rowAddr_add_sub]
    unfold cdiv
    omega
  have hrow : (List.range 1).map (· + r) = [r] := by simp
  unfold devPut
  simp only [isScratch_rowAddr r hr, rowOf_rowAddr, hl, hn, hrow, if_true, Nat.le_refl, decide_true, Bool.true_and,
    Bool.and_self, Bool.not_true, List.filter_cons, List.filter_nil, Bool.false_eq_true, if_false, List.foldl_nil]

theorem foldl_putWhere_dead {dead : Nat → Bool} {a : Nat} : ∀ (l : List (Byte × Nat)) (m : List Host.Cell),
    (∀ e ∈ l, dead (rowOf (a + e.2)) = true) →
    l.foldl (fun m e => if dead (rowOf (a + e.2)) then m else mput m (a + e.2) e.1) m = m
  | [], _, _ => rfl
  | e :: t, m, h => by
    rw [List.foldl_cons, if_pos (h e List.mem_cons_self)]
    exact foldl_putWhere_dead t m fun x hx => h x (List.mem_cons_of_mem e hx)

/-- A row that takes no writes keeps its bytes. -/
theorem putWhere_dead_row {dead : Nat → Bool} {r : Nat} {l : List Byte} (m : List Host.Cell) (hd : dead r = true)
    (hl : l.length = 512) : putWhere dead [r] (rowAddr r) l m = m := by
  have hall : ∀ e ∈ l.zipIdx, dead (rowOf (rowAddr r + e.2)) = true := by
    intro e he
    have hlt := List.snd_lt_of_mem_zipIdx he
    rw [rowOf_rowAddr_add (by omega)]
    exact hd
  simp only [putWhere, List.any_cons, hd, Bool.true_or, if_true]
  exact foldl_putWhere_dead l.zipIdx m hall

theorem putWhere_live_row {dead : Nat → Bool} {r : Nat} (a : Nat) (l : List Byte) (m : List Host.Cell)
    (hd : dead r = false) : putWhere dead [r] a l m = mputs m a l := by
  simp [putWhere, hd]

theorem devPut_row_live {s : State} {r : Nat} {l : List Byte} (hr : r < 0x100000) (hl : l.length = 512)
    (hd : bankDead s r = false) (hp : rowPoison s r ≠ 3) :
    devPut (rowAddr r) l s =
      clearPoison r (r + 1) (freshRows r 1 (fun x => bankDead s x || rowPoison s x == 3) (touchRows r 1
        { s with mem := mputs s.mem (rowAddr r) l })) := by
  have hlive : (bankDead s r || rowPoison s r == 3) = false := by simp [hd, hp]
  have h3 : (rowPoison s r == 3) = false := by simp [hp]
  rw [devPut_row hr hl, putWhere_live_row (dead := fun x => bankDead s x || rowPoison s x == 3) _ _ _ hlive]
  simp only [List.filter_cons, List.filter_nil, hd, h3, Bool.or_self, Bool.not_false, if_true, Bool.false_eq_true,
    if_false,
    List.foldl_nil, clearWhole, List.length_cons, List.length_nil]

theorem devPut_row_dead_mem {s : State} {r : Nat} {l : List Byte} (hr : r < 0x100000) (hl : l.length = 512)
    (h : bankDead s r = true ∨ rowPoison s r = 3) : (devPut (rowAddr r) l s).mem = s.mem := by
  have hdead : (bankDead s r || rowPoison s r == 3) = true := by
    rcases h with h | h <;> simp [h]
  rw [devPut_row hr hl, putWhere_dead_row (dead := fun x => bankDead s x || rowPoison s x == 3) _ hdead hl]
  simp only [List.filter_cons, List.filter_nil, hdead, Bool.not_true, Bool.false_eq_true, if_false, clearWhole,
    List.length_nil, Nat.zero_ne_one, List.foldl_nil, freshRows, touchRows]
  by_cases h3 : (rowPoison s r == 3) = true
  · simp only [h3, if_true, List.foldl_cons, List.foldl_nil, cnt_mem]
  · simp only [h3, Bool.false_eq_true, if_false, List.foldl_nil]

theorem tget_of_no_key {α : Type} (d : α) : ∀ (t : Tab α) (q : Nat), (∀ e ∈ t, e.1 ≠ q) → tget d t q = d
  | [], _, _ => rfl
  | (k, v) :: t, q, h => by
    have hk : q ≠ k := fun e => h (k, v) List.mem_cons_self e.symm
    rw [tget, if_neg hk, tget_of_no_key d t q fun e he => h e (List.mem_cons_of_mem _ he), ite_self]

/-- A row written whole holds no stored error. -/
theorem hiddenUe_freshRows {r n : Nat} {dead : Nat → Bool} (s : State) {x : Nat} (h1 : r ≤ x) (h2 : x < r + n)
    (hd : dead x = false) : hiddenUe (freshRows r n dead s) x = false := by
  have hnone : ∀ e ∈ (freshRows r n dead s).spd.upsets, e.1 ≠ x := by
    rintro e he rfl
    have := (List.mem_filter.mp he).2
    simp [h1, h2, hd] at this
  rw [hiddenUe, tget_of_no_key _ _ _ hnone]
  rfl

theorem not_mem_writeback_freshRows {r n : Nat} {dead : Nat → Bool} (s : State) {x : Nat} (h1 : r ≤ x) (h2 : x < r + n)
    (hd : dead x = false) : x ∉ (freshRows r n dead s).spd.writeback := by
  intro hx
  have := (List.mem_filter.mp hx).2
  simp [h1, h2, hd] at this

theorem freshRows_mem (r n : Nat) (d : Nat → Bool) (s : State) : (freshRows r n d s).mem = s.mem := rfl

theorem freshRows_regs (r n : Nat) (d : Nat → Bool) (s : State) : (freshRows r n d s).regs = s.regs := rfl

theorem freshRows_nv (r n : Nat) (d : Nat → Bool) (s : State) : (freshRows r n d s).nv = s.nv := rfl

theorem bankDead_freshRows (r n x : Nat) (d : Nat → Bool) (s : State) :
    bankDead (freshRows r n d s) x = bankDead s x := rfl

theorem bankDead_clearPoison (lo hi x : Nat) (s : State) : bankDead (clearPoison lo hi s) x = bankDead s x := rfl

theorem hiddenUe_clearPoison (lo hi x : Nat) (s : State) : hiddenUe (clearPoison lo hi s) x = hiddenUe s x := rfl

theorem writeback_clearPoison (lo hi : Nat) (s : State) : (clearPoison lo hi s).spd.writeback = s.spd.writeback := rfl

theorem touchRows_mem (r n : Nat) (s : State) : (touchRows r n s).mem = s.mem := by rw [touchRows_frame]

theorem touchRows_regs (r n : Nat) (s : State) : (touchRows r n s).regs = s.regs := by rw [touchRows_frame]

theorem touchRows_nv (r n : Nat) (s : State) : (touchRows r n s).nv = s.nv := by rw [touchRows_frame]

theorem bankDead_touchRows (r n x : Nat) (s : State) : bankDead (touchRows r n s) x = bankDead s x := by
  rw [touchRows_frame]
  rfl

/-- What a write of a whole live row leaves: its bytes, no poison, no stored error, and nothing to write back. -/
theorem devPut_row_live_frame {s : State} {r : Nat} {l : List Byte} (hr : r < 0x100000) (hl : l.length = 512)
    (hd : bankDead s r = false) (hp : rowPoison s r ≠ 3) :
    (devPut (rowAddr r) l s).mem = mputs s.mem (rowAddr r) l ∧ (devPut (rowAddr r) l s).regs = s.regs ∧
      rowPoison (devPut (rowAddr r) l s) r = 0 ∧ hiddenUe (devPut (rowAddr r) l s) r = false ∧
      r ∉ (devPut (rowAddr r) l s).spd.writeback := by
  have hlive : (bankDead s r || rowPoison s r == 3) = false := by simp [hd, hp]
  rw [devPut_row_live hr hl hd hp]
  refine ⟨?_, ?_, rowPoison_of_off ?_ ?_ fun e he => ?_, ?_, ?_⟩
  · rw [clearPoison_mem, freshRows_mem, touchRows_mem]
  · rw [clearPoison_regs, freshRows_regs, touchRows_regs]
  · rw [clearPoison_nv, freshRows_nv, touchRows_nv]
    exact not_retired_of_rowPoison hp
  · rw [bankDead_clearPoison, bankDead_freshRows, bankDead_touchRows]
    exact hd
  · have := poisonCut_outside he
    omega
  · rw [hiddenUe_clearPoison]
    exact hiddenUe_freshRows _ (Nat.le_refl r) (Nat.lt_succ_self r) hlive
  · rw [writeback_clearPoison]
    exact not_mem_writeback_freshRows _ (Nat.le_refl r) (Nat.lt_succ_self r) hlive

/-! ### HBM -/

theorem devPut_hbm {s : State} {a : Nat} {l : List Byte} (h : a < hbmBytes) :
    devPut a l s = freshLines a l.length { s with mem := hbmPuts s a l } := by
  have hs : isScratch a = false := by
    have hlow : ¬scratchBase ≤ a := by
      unfold hbmBytes at h
      unfold scratchBase
      omega
    rw [isScratch, decide_eq_false hlow, Bool.false_and]
  rw [devPut, hs]
  rfl

/-! ### Memory of the ports -/

theorem hostPut_mem (fn a : Nat) (l : List Byte) (s : State) : (hostPut fn a l s).mem = s.mem := by
  unfold hostPut setHostMem
  split
  · split <;> rfl
  · rfl

theorem hostPut_of_up {s : State} {fn : Nat} (a : Nat) (l : List Byte) (hfn : fn < 32)
    (h : (portSt s (portOf fn)).up = true) :
    hostPut fn a l s = if fn < 16 then { s with host0 := mputs s.host0 a l }
      else { s with host1 := mputs s.host1 a l } := by
  have hport : portOf fn = 0 ↔ fn < 16 := by
    unfold portOf
    omega
  rw [hostPut, if_pos h]
  by_cases h16 : fn < 16
  · simp [setHostMem, hostMem, hport.mpr h16, h16]
  · simp [setHostMem, hostMem, mt hport.mp h16, h16]

/-! ### The memory effect of a task's work (log entry 72) -/

/-- The three memories are the same. -/
def SameMemories (s t : State) : Prop := t.mem = s.mem ∧ t.host0 = s.host0 ∧ t.host1 = s.host1

theorem SameMemories.refl (s : State) : SameMemories s s := ⟨rfl, rfl, rfl⟩

theorem SameMemories.trans {s t u : State} (h1 : SameMemories s t) (h2 : SameMemories t u) : SameMemories s u :=
  ⟨h2.1.trans h1.1, h2.2.1.trans h1.2.1, h2.2.2.trans h1.2.2⟩

theorem sameMemories_foldl {β : Type} {f : State → β → State} (hf : ∀ s b, SameMemories s (f s b)) :
    ∀ (l : List β) (s : State), SameMemories s (l.foldl f s)
  | [], s => .refl s
  | b :: t, s => (hf s b).trans (sameMemories_foldl hf t (f s b))

theorem sameMemories_addLog (code tn e d0 d1 d2 : Nat) (s : State) : SameMemories s (addLog code tn e d0 d1 d2 s) := by
  unfold addLog addLogR
  split <;> exact ⟨rfl, rfl, rfl⟩

theorem sameMemories_logRepair (kind why eng a spare : Nat) {s t : State} (h : SameMemories s t) :
    SameMemories s (logRepair kind why eng a spare t) := by
  unfold logRepair
  split
  · exact h.trans (sameMemories_addLog ..)
  · exact h.trans (SameMemories.trans ⟨rfl, rfl, rfl⟩ (sameMemories_addLog ..))

theorem sameMemories_touchRows (r n : Nat) (s : State) : SameMemories s (touchRows r n s) := by
  rw [touchRows_frame]
  exact ⟨rfl, rfl, rfl⟩

theorem sameMemories_queueRow (r why : Nat) (s : State) : SameMemories s (queueRow r why s) := by
  unfold queueRow
  split
  · exact .refl s
  · split <;> exact sameMemories_logRepair _ _ _ _ _ ⟨rfl, rfl, rfl⟩

theorem sameMemories_cnt (off i n : Nat) (s : State) : SameMemories s (cnt off i n s) := ⟨rfl, rfl, rfl⟩

theorem sameMemories_setPoison (lo hi why : Nat) (s : State) : SameMemories s (setPoison lo hi why s) := ⟨rfl, rfl, rfl⟩

theorem sameMemories_clearUpset (r : Nat) (s : State) : SameMemories s (clearUpset r s) := ⟨rfl, rfl, rfl⟩

theorem sameMemories_rowUe (r : Nat) (s : State) : SameMemories s (rowUe r s) := by
  unfold rowUe
  split
  · exact sameMemories_clearUpset r s
  · exact ((sameMemories_clearUpset r s).trans (sameMemories_setPoison r (r + 1) 1 _)).trans
      ((sameMemories_cnt ..).trans (sameMemories_queueRow ..))

theorem sameMemories_markPoison (c : Chk) (s : State) : SameMemories s (markPoison c s) := by
  unfold markPoison
  split
  · split
    · exact (sameMemories_rowUe _ s).trans (sameMemories_touchRows ..)
    · exact sameMemories_touchRows ..
  · exact .refl s

theorem sameMemories_queueHbm (a : Nat) (s : State) : SameMemories s (queueHbm a s) := ⟨rfl, rfl, rfl⟩

theorem sameMemories_logChk (c : Chk) (t e : Nat) (s : State) : SameMemories s (logChk c t e s) := by
  cases c with
  | ok => exact .refl s
  | unmapped a => exact sameMemories_addLog ..
  | denied a => exact sameMemories_addLog ..
  | poison r why => exact (sameMemories_markPoison _ s).trans (sameMemories_addLog ..)
  | check a => exact (sameMemories_queueHbm a s).trans (sameMemories_addLog ..)
  | timeout a => exact sameMemories_addLog ..

theorem sameMemories_faultRun (eng : Nat) (c : Chk) (s : State) : SameMemories s (faultRun eng c s) := by
  unfold faultRun
  split
  · exact (sameMemories_logChk ..).trans ⟨rfl, rfl, rfl⟩
  · exact .refl s

theorem sameMemories_modRun (eng : Nat) (f : Run → Run) (s : State) : SameMemories s (modRun eng f s) := ⟨rfl, rfl, rfl⟩

theorem sameMemories_presentPush (p : Push) (s : State) : SameMemories s (presentPush p s) := by
  unfold presentPush
  repeat' split
  all_goals exact ⟨rfl, rfl, rfl⟩

/-- Work that passes its checks leaves in memory what its writes leave. -/
theorem sameMemories_doWork_of_ok {eng : Nat} {w : Work} {s : State} {r : Run} (hr : runOn s eng = some r)
    (h : chkAll s r.task.tenant w.reads (w.writes.map (fun x => (x.1, x.2.length))) = .ok) :
    SameMemories (w.writes.foldl (fun s x => wrBytes r.task.tenant x.1 x.2 s)
      (w.reads.foldl (fun s x => touchRead x.1 x.2 s) s)) (doWork eng w s) := by
  rw [doWork, hr]
  simp only [h]
  refine (sameMemories_modRun eng (fun r => { r with
    worked := true, stalled := false, flags := r.flags ||| w.flags, cycles := r.cycles + w.cycles }) _).trans ?_
  exact sameMemories_foldl (f := fun s (p : Nat × Nat) => presentPush (pushOf r p.1 p.2) s)
    (fun t p => sameMemories_presentPush (pushOf r p.1 p.2) t) _ _

/-- Work that fails a check leaves every memory as it was. -/
theorem sameMemories_doWork_of_fault {eng : Nat} {w : Work} {s : State} {r : Run} (hr : runOn s eng = some r)
    (h : chkAll s r.task.tenant w.reads (w.writes.map (fun x => (x.1, x.2.length))) ≠ .ok) :
    SameMemories s (doWork eng w s) := by
  rw [doWork, hr]
  simp only
  exact sameMemories_faultRun ..

end Sys2Proof.Machine

namespace Sys2Proof

open Sys2Proof.Machine

/-- Settles O38. -/
theorem memoryReadsBackItsWrites : Obligations.MemoryReadsBackItsWrites := by
  unfold Obligations.MemoryReadsBackItsWrites
  intro m a l hm
  exact ⟨mputs_wf l m a hm, fun i h => mget_mputs_inside l m a i hm h, fun x hx => mget_mputs_outside l m a x hm hx⟩

/-- Settles O39: the rows of a write are those of `devPut_row`, the marks those a cut of their list keeps. -/
theorem deviceWritesAndPoison : Obligations.DeviceWritesAndPoison := by
  unfold Obligations.DeviceWritesAndPoison
  refine ⟨⟨?hbm, hbmPuts_plain, fun s u l k hl hk => ⟨hbmPuts_unit hl hk, hbmGets_unit hk⟩,
    fun s r l hr hl h => devPut_row_dead_mem hr hl h, ?row⟩, ?host, ?clear,
    fun s lo hi why r h1 h2 => rowPoison_setPoison_inside why s h1 h2,
    fun s lo hi why r hr h => rowPoison_setPoison_outside why s hr h, fun s lo hi why => ⟨rfl, rfl, rfl, rfl⟩⟩
  case hbm =>
    intro s a l hle hne
    have hpos := List.length_pos_of_ne_nil hne
    rw [devPut_hbm (by omega)]
    rfl
  case row =>
    intro s r l hr hl hd hp
    exact devPut_row_live_frame hr hl hd hp
  case host =>
    intro s fn a l hfn
    exact ⟨fun hup => hostPut_of_up a l hfn hup, hostPut_mem fn a l s⟩
  case clear =>
    intro s lo hi
    exact ⟨fun e he => poisonCut_outside he, fun e he r h1 h2 hr => poisonCut_keeps he h1 h2 hr⟩

/-- Settles O50: after the checks only the writes change memory, and a fault changes none. -/
theorem taskWorkIsAllOrNothing : Obligations.TaskWorkIsAllOrNothing := by
  unfold Obligations.TaskWorkIsAllOrNothing
  intro eng w s r hr
  exact ⟨fun h => sameMemories_doWork_of_fault hr h, fun h => sameMemories_doWork_of_ok hr h⟩

end Sys2Proof

/-! SUPPORT. A push whose tenant has lost its millrace, the state that refutes O46; rounding, flags and counters
(O52). -/

namespace Sys2Proof.Machine

/-! ### A millrace its tenant has lost (R422) -/

/-- A run of a template, under sequence number, tags and stream 0. -/
def runningInst : Inst where
  st := .running
  slotTag := 0
  nodeTag := 0
  seq := 0
  trig := 0
  frameTime := 0
  stale := false
  stream := 0
  frameNo := 0
  serial := 0
  handle := none
  jobId := 0
  key := none
  nodes := []
  prevPend := []
  started := 0
  order := 0
  lastStamp := 0
  predicted := false

/-- A template of tenant 0 that it runs. -/
def tenantTmpl : Tmpl where
  tenant := 0
  trigKind := 6
  policy := 0
  trigObj := 0
  param0 := 0
  param1 := 0
  prewakeLead := 0
  coreSets := []
  nodes := []
  edges := []
  nodeBase := 0
  edgeBase := 0
  armed := true
  threshold := 0
  nextFire := 0
  nextSeq := 1
  pending := []
  skipped := false
  fresh := false
  slots := [runningInst]
  ended := []
  pubSeq := []
  doomed := false
  prewoken := 0

/-- After reset no isolation table grants anything and every millrace is disabled; template 0 runs. -/
def barredState : State := { State.reset with seq := { seqReset with tmpls := [(0, some tenantTmpl)] } }

/-- A live push of that run to millrace 0. -/
def barredPush : Push where
  mrq := 0
  handle := 7
  tmpl := 0
  slot := 0
  seq := 0
  tag := 0
  prio := 0
  requester := 0

theorem pushLive_barredPush : pushLive barredState barredPush = true := by decide +kernel

theorem mrqEn_barredState : mrqEn barredState barredPush.mrq = false := by decide +kernel

/-- The push asks for its run's abort. -/
theorem toAbort_presentPush_barred : (presentPush barredPush barredState).seq.toAbort = [(0, 0, 2)] := by decide +kernel

/-- A drop would count and ask for nothing. -/
theorem toAbort_drop_barred : (cnt R.mrqDrop barredPush.mrq 1 barredState).seq.toAbort = [] := by decide +kernel

/-! ### Rounding (R12) -/

/-- The remainder of a rounded division, by the branch that rounds. -/
theorem rneDiv_mul (a : Int) (b : Nat) : a - rneDiv a b * b =
    if rneDiv a b = a / b then a % b else a % b - b := by
  have hd := Int.emod_add_mul_ediv a b
  have hcases : rneDiv a b = a / b ∨ rneDiv a b = a / b + 1 := by
    unfold rneDiv
    simp only
    split
    · exact .inl rfl
    · split
      · exact .inr rfl
      · split
        · exact .inl rfl
        · exact .inr rfl
  rcases hcases with h | h
  · rw [if_pos h, h]
    linarith
  · rw [if_neg (by omega), h, add_mul, one_mul]
    linarith

/-- Where a division rounds down and where up, with the parity of a tie. -/
theorem rneDiv_cases (a : Int) (b : Nat) :
    (rneDiv a b = a / b ∧ (2 * (a % b) < b ∨ (2 * (a % b) = b ∧ a / b % 2 = 0))) ∨
    (rneDiv a b = a / b + 1 ∧ ((b : Int) < 2 * (a % b) ∨ (2 * (a % b) = b ∧ a / b % 2 ≠ 0))) := by
  unfold rneDiv
  simp only
  split
  · next h => exact .inl ⟨rfl, .inl h⟩
  · next h1 =>
    split
    · next h => exact .inr ⟨rfl, .inl h⟩
    · next h2 =>
      have htie : 2 * (a % (b : Int)) = b := by omega
      split
      · next h => exact .inl ⟨rfl, .inr ⟨htie, h⟩⟩
      · next h => exact .inr ⟨rfl, .inr ⟨htie, h⟩⟩

/-- Rounding is to nearest, a tie to the even quotient. -/
theorem rneDiv_nearest (a : Int) {b : Nat} (hb : 0 < b) :
    2 * (a - rneDiv a b * b) ≤ b ∧ -(b : Int) ≤ 2 * (a - rneDiv a b * b) ∧
      (2 * (a - rneDiv a b * b) = b ∨ 2 * (a - rneDiv a b * b) = -(b : Int) → rneDiv a b % 2 = 0) := by
  have hb' : (b : Int) ≠ 0 := by omega
  have h0 := Int.emod_nonneg a hb'
  have h1 := Int.emod_lt_of_pos a (show (0 : Int) < b by omega)
  rcases rneDiv_cases a b with ⟨hq, hc⟩ | ⟨hq, hc⟩
  · rw [rneDiv_mul, if_pos hq, hq]
    omega
  · rw [rneDiv_mul, if_neg (by omega), hq]
    omega

theorem clampI_range {lo hi x : Int} (h : lo ≤ hi) :
    lo ≤ clampI lo hi x ∧ clampI lo hi x ≤ hi ∧ (lo ≤ x → x ≤ hi → clampI lo hi x = x) := by
  unfold clampI
  split
  · omega
  · split <;> omega

/-! ### Flags (R14) -/

/-- The four flags of a VALIDITY byte stand in bits 1 to 4. -/
theorem bit_flagBits (f n : Nat) : bit (flagBits f) n = (decide (1 ≤ n) && decide (n ≤ 4) && bit f n) := by
  rw [flagBits, bit_and, Bool.and_comm]
  congr 1
  by_cases hn : n < 5
  · interval_cases n <;> rfl
  · rw [bit_eq_testBit, Nat.testBit_lt_two_pow (Nat.lt_of_lt_of_le (by decide : 0x1E < 2 ^ 5)
      (Nat.pow_le_pow_right (by decide) (Nat.le_of_not_lt hn)))]
    simp
    omega

theorem bit_or (x y n : Nat) : bit (x ||| y) n = (bit x n || bit y n) := by
  simp only [bit_eq_testBit, Nat.testBit_or]

theorem bit_validity (f n : Nat) : bit (validity f) n =
    if n = 0 then decide (flagBits f = 0) else bit (flagBits f) n := by
  unfold validity
  by_cases h : flagBits f = 0
  · rw [if_pos h, h]
    by_cases hn : n = 0
    · rw [if_pos hn, hn]
      rfl
    · rw [if_neg hn, bit_eq_testBit, bit_eq_testBit, show 1 = 2 ^ 0 from rfl, Nat.testBit_two_pow, Nat.zero_testBit]
      simpa using Ne.symm hn
  · rw [if_neg h]
    by_cases hn : n = 0
    · rw [if_pos hn, hn, bit_flagBits]
      simp [h]
    · rw [if_neg hn]

theorem bit_outFlags (s : State) (r : Run) (own n : Nat) : bit (outFlags s r own) n = true ↔ 1 ≤ n ∧ n ≤ 4 ∧
    (bit (inputFlags s r.task) n = true ∨ bit own n = true ∨ bit (goldenFlags s r) n = true) := by
  rw [outFlags, bit_flagBits, bit_or, bit_or]
  simp [and_assoc, or_assoc]

/-! ### Counters (R13) -/

/-- A counter saturates, and no other register changes. -/
theorem rget_cnt {s : State} (off idx n off' idx' : Nat) (hs : registersOk s) (ho : off < 0x1000000)
    (ho' : off' < 0x1000000) :
    rget (cnt off idx n s) off' idx' =
      if off' = off ∧ idx' = idx then min (rget s off idx + n) (2 ^ 32 - 1) else rget s off' idx' := by
  rw [cnt, rget_rput s off idx off' idx' _ hs ho ho', sat32, Nat.mod_eq_of_lt (Nat.lt_of_le_of_lt (Nat.min_le_right _ _)
    (by decide))]

end Sys2Proof.Machine

namespace Sys2Proof

open Sys2Proof.Machine

/-- Refutes O46: a live push to a disabled millrace that its tenant has lost as well asks for its run's abort
(R422), and is not dropped and counted. -/
theorem not_millracesServeInOrder : ¬ Obligations.MillracesServeInOrder := by
  unfold Obligations.MillracesServeInOrder
  rintro ⟨⟨-, hdrop, -⟩, -⟩
  have h := hdrop barredState barredPush pushLive_barredPush mrqEn_barredState
  have hsame := congrArg (fun t => t.seq.toAbort) h
  simp only [toAbort_presentPush_barred, toAbort_drop_barred] at hsame
  exact absurd hsame (by decide)

/-- Settles O52. -/
theorem roundingFlagsAndCounters : Obligations.RoundingFlagsAndCounters := by
  unfold Obligations.RoundingFlagsAndCounters
  refine ⟨fun a b hb => rneDiv_nearest a hb, fun lo hi x h => clampI_range h, fun f => ⟨?valid, ?flags, ?rest⟩,
    bit_outFlags, ?counters⟩
  case valid => simp [bit_validity]
  case flags =>
    intro n h1 h4
    rw [bit_validity, if_neg (by omega), bit_flagBits]
    simp [h1, h4]
  case rest =>
    intro n h5
    rw [bit_validity, if_neg (by omega), bit_flagBits]
    simp
    omega
  case counters =>
    intro s off idx n hs ho
    refine ⟨?_, fun off' idx' ho' hne => ?_⟩
    · rw [rget_cnt off idx n off idx hs ho ho, if_pos ⟨rfl, rfl⟩]
    · rw [rget_cnt off idx n off' idx' hs ho ho', if_neg fun h => hne (by rw [h.1, h.2])]

/-- Settles O5: the state right after reset is a value, read field by field. -/
theorem resetState : Obligations.ResetState := by
  unfold Obligations.ResetState
  refine ⟨⟨rfl, ⟨rfl, rfl, rfl⟩, rfl, rfl⟩, rfl, rfl, rfl, rfl, rfl, rfl, fun _ => rfl, fun _ => rfl, rfl, rfl, rfl,
    rfl, fun off idx => ?_⟩
  exact BitVec.toNat_ofNat ..

end Sys2Proof

/-! SUPPORT. Resets, power cycles and the self-test's end (O7, O8). -/

namespace Sys2Proof.Machine

/-! ### Commands that leave the queue -/

/-- An effect that keeps the queue is the outcome itself. -/
theorem onObject_of_pending {s : State} {f : State → State} (h : (f s).pending = s.pending) :
    onObject true s f = .next (f s) :=
  congrArg Host.Outcome.next (keepQueue_of_pending_eq h)

theorem act_of_pending {ok : Bool} {s : State} (eff : State → State) (ha : alive s = true) (hok : ok = true)
    (h : (eff s).pending = s.pending) : act ok s eff = .next (eff s) := by
  rw [act_alive eff ha hok, keepQueue_of_pending_eq h]

/-! ### Resets (R27, R463, R465) -/

theorem holdReset_pending (b : Nat) (s : State) : (holdReset b s).pending = s.pending := by
  unfold holdReset
  split
  · rfl
  · split <;> rfl

/-- The first reset reason puts the device in its reset state, a further one only adds to what holds it. -/
theorem holdReset_of_powered (b : Nat) {s : State} (h : s.powered = true) :
    holdReset b s = if s.held = 0 then { coldReset s with held := b } else { s with held := s.held ||| b } := by
  rw [holdReset, h]
  rfl

theorem supplyLow_pending (s : State) : (supplyLow s).pending = s.pending := by
  unfold supplyLow
  split
  · rfl
  · split
    · exact holdReset_pending 2 s
    · rw [addLog_pending, holdReset_pending]

theorem thermtrip_pending (s : State) : (thermtrip s).pending = s.pending := by
  unfold thermtrip
  split
  · split
    · exact holdReset_pending 4 s
    · rfl
  · rfl

theorem exec_resetAssert (s : State) : exec .resetAssert s = .next (holdReset 1 s) :=
  onObject_of_pending (holdReset_pending 1 s)

theorem exec_supplyReset (s : State) : exec .supplyReset s = .next (supplyLow s) :=
  onObject_of_pending (supplyLow_pending s)

theorem exec_thermtripAssert (s : State) : exec .thermtripAssert s = .next (thermtrip s) :=
  onObject_of_pending (thermtrip_pending s)

theorem exec_powerOff (s : State) : exec .powerOff s = .next (unpowered s) := onObject_of_pending rfl

theorem exec_aonPowerUp (two : Bool) (s : State) : exec (.aonPowerUp two) s = .next (powerUp two s) := by
  refine onObject_of_pending ?_
  unfold powerUp
  split <;> rfl

theorem supplyLow_of_off {s : State} (h : s.powered = false ∨ bit s.held 1 = true) : supplyLow s = s := by
  rcases h with h | h <;> simp [supplyLow, h]

theorem supplyLow_of_on {s : State} (h : ¬(s.powered = false ∨ bit s.held 1 = true)) :
    supplyLow s = if bit s.held 0 then holdReset 2 s else addLog 0x0201 63 pwrEng 0 0 0 (holdReset 2 s) := by
  simp only [not_or, Bool.not_eq_false, Bool.not_eq_true] at h
  simp [supplyLow, h]

theorem thermtrip_eq {s : State} (hp : s.powered = true) : thermtrip s = match s.pwr.tripAt with
    | none => s
    | some t => if s.now < t then s
      else if s.held = 0 then { coldReset s with held := 4, pwr := { (coldReset s).pwr with thermtrip := true } }
      else { s with held := s.held ||| 4, pwr := { s.pwr with thermtrip := true } } := by
  unfold thermtrip
  cases s.pwr.tripAt with
  | none => rfl
  | some t =>
    simp only
    rw [holdReset_of_powered 4 hp]
    by_cases ht : s.now < t
    · rw [if_neg (Nat.not_le.mpr ht), if_pos ht]
    · rw [if_pos (Nat.le_of_not_lt ht), if_neg ht]
      by_cases h0 : s.held = 0
      · rw [if_pos h0, if_pos h0]
      · rw [if_neg h0, if_neg h0]

/-! ### The end of a reset (R463, R505) -/

/-- The commands that end a reset reason are its release. -/
theorem exec_releases {s : State} {x : Instr × Nat} (hx : x ∈ [(Instr.resetRelease, 1), (.supplyResetEnd, 2)]) :
    exec x.1 s = .next (keepQueue s (freeReset x.2 s)) := by
  simp only [List.mem_cons, List.not_mem_nil, or_false] at hx
  rcases hx with rfl | rfl
  · rfl
  · rfl

theorem freeReset_of_unpowered (b : Nat) {s : State} (h : s.powered = false) : freeReset b s = s := by
  rw [freeReset, h]
  rfl

theorem freeReset_of_free (b : Nat) {s : State} (hp : s.powered = true) (h : s.held = 0) :
    freeReset b s = if b = 1 ∧ s.boot.phase = 0 then bootChain s else s := by
  rw [freeReset, hp, if_pos h]
  rfl

/-- The last reason to end boots the device; while another holds, only the reason goes. -/
theorem freeReset_of_held (b : Nat) {s : State} (hp : s.powered = true) (h : s.held ≠ 0) :
    freeReset b s = if s.held - (s.held &&& b) = 0 then bootChain { s with held := 0 }
      else { s with held := s.held - (s.held &&& b) } := by
  rw [freeReset, hp, if_neg h]
  simp only [Bool.not_true, Bool.false_eq_true, if_false]
  by_cases h0 : s.held - (s.held &&& b) = 0
  · rw [if_pos h0, if_pos h0, h0]
  · rw [if_neg h0, if_neg h0]

/-! ### The start-up self-test (R505, R434) -/

theorem exec_selfTestDone {s : State} (missed : Option Nat) (ha : alive s = true) :
    exec (.selfTestDone missed) s = .next (keepQueue s (selfTestEnd missed s)) := act_alive _ ha rfl

end Sys2Proof.Machine

namespace Sys2Proof

open Sys2Proof.Machine

/-- Settles O7. -/
theorem resetsAndPowerCycles : Obligations.ResetsAndPowerCycles := by
  unfold Obligations.ResetsAndPowerCycles
  refine ⟨⟨?held, ?supply, ?trip,
    fun s => ⟨rfl, rfl, rfl, rfl, rfl, rfl, rfl, rfl, rfl, rfl, rfl, rfl, rfl, rfl, rfl, rfl, rfl⟩⟩,
    exec_powerOff, ?up, fun s => ⟨rfl, rfl, rfl, rfl, rfl, rfl, rfl⟩⟩
  case held =>
    intro s
    rw [exec_resetAssert]
    by_cases hp : s.powered = false
    · rw [if_pos hp, holdReset, hp]
      rfl
    · rw [if_neg hp, holdReset_of_powered 1 (Bool.not_eq_false _ ▸ hp)]
  case supply =>
    intro s
    rw [exec_supplyReset]
    by_cases h : s.powered = false ∨ bit s.held 1 = true
    · rw [supplyLow_of_off h, if_pos h]
    · rw [supplyLow_of_on h, if_neg h,
        holdReset_of_powered 2 (Bool.not_eq_false _ ▸ (not_or.mp h).1)]
  case trip =>
    intro s hp
    exact (exec_thermtripAssert s).trans (congrArg Host.Outcome.next (thermtrip_eq hp))
  case up =>
    intro s two
    exact exec_aonPowerUp two s

/-- Settles O8. -/
theorem bootStartsAndSelfTestEnds : Obligations.BootStartsAndSelfTestEnds := by
  unfold Obligations.BootStartsAndSelfTestEnds
  refine ⟨fun s x hx => ?release, ?ends, ?stays⟩
  case release =>
    rw [exec_releases hx]
    refine ⟨fun hp => ?_, fun hp h0 => ?_, fun hp h0 hz => ?_, fun hp hz => ?_⟩
    · rw [freeReset_of_unpowered _ hp]
      rfl
    · rw [freeReset_of_free _ hp h0]
    · rw [freeReset_of_held _ hp h0, if_pos hz]
    · rw [freeReset_of_held _ hp (fun h => hz (by rw [h, Nat.zero_sub])), if_neg hz]
      rfl
  case ends =>
    intro s missed ha hph hst
    rw [exec_selfTestDone missed ha]
    have hdue : ¬(s.boot.phase ≠ 2 ∨ s.saf.selfTested = true) := by simp [hph, hst]
    exact congrArg (fun t => Host.Outcome.next (keepQueue s t)) (if_neg hdue)
  case stays =>
    intro s missed ha h
    rw [exec_selfTestDone missed ha]
    exact congrArg (fun t => Host.Outcome.next (keepQueue s t)) (if_pos h)

end Sys2Proof

/-! SUPPORT. Envelope changes and supply warnings (O10), power and temperature readings (O11). -/

namespace Sys2Proof.Machine

/-! ### What the operations leave of the queue -/

theorem hostPut_pending (fn a : Nat) (l : List Byte) (s : State) : (hostPut fn a l s).pending = s.pending := by
  unfold hostPut setHostMem
  split
  · split <;> rfl
  · rfl

theorem msixEvent_pending (fn vec : Nat) (s : State) : (msixEvent fn vec s).pending = s.pending := by
  rcases msixEvent_cases fn vec s with h | h | h <;> rw [h]
  exact hostPut_pending ..

theorem warnIrq_pending (s : State) : (warnIrq s).pending = s.pending := by
  unfold warnIrq
  simp only
  split <;> split <;> simp only [msixEvent_pending]

theorem pmbusSet_eq (mv : Nat) (s : State) : pmbusSet mv s =
    { s with pwr := { s.pwr with pmbusBusy := true, pmbusFails := 0 }, out := s.out ++ [voutCommand mv] } := rfl

/-! ### Envelope changes (R461) -/

/-- A change of envelope: what the target is, what is in force, and what the rail is asked for. -/
theorem reformEnv_eq (s : State) : reformEnv s =
    if effEnv s = s.pwr.envTarget ∧ s.pwr.change ≠ 0 then s
    else if effEnv s = s.pwr.env then { s with pwr := { s.pwr with envTarget := effEnv s, change := 0 } }
    else if envClock (effEnv s) = envClock s.pwr.env then
      { s with pwr := { s.pwr with envTarget := effEnv s, env := effEnv s, change := 0 } }
    else if effEnv s < s.pwr.env then { s with
      pwr := { s.pwr with envTarget := effEnv s, change := 1, pmbusBusy := true, pmbusFails := 0 },
      out := s.out ++ [voutCommand (Config.railMv (effEnv s))] }
    else { s with pwr := { s.pwr with envTarget := effEnv s, change := 2 } } := by
  unfold reformEnv
  generalize effEnv s = t
  by_cases h1 : t = s.pwr.envTarget ∧ s.pwr.change ≠ 0
  · rw [if_pos h1, if_pos h1]
  · rw [if_neg h1, if_neg h1]
    by_cases h2 : t = s.pwr.env
    · rw [if_pos h2, if_pos h2]
      rfl
    · rw [if_neg h2, if_neg h2]
      by_cases h3 : envClock t = envClock s.pwr.env
      · rw [if_pos h3, if_pos h3]
        rfl
      · rw [if_neg h3, if_neg h3]
        by_cases h4 : t < s.pwr.env
        · rw [if_pos h4, if_pos h4, pmbusSet_eq]
          rfl
        · rw [if_neg h4, if_neg h4]
          rfl

theorem exec_vcoreSetPointReached {s : State} (ha : alive s = true) :
    exec .vcoreSetPointReached s = .next (setPointReached s) :=
  act_of_pending _ ha rfl (by unfold setPointReached; split <;> rfl)

theorem exec_arclkSwitchDone {s : State} (ha : alive s = true) :
    exec .arclkSwitchDone s = .next (clockSwitched s) := by
  refine act_of_pending _ ha rfl ?_
  unfold clockSwitched
  split
  · simp only
    split <;> rfl
  · rfl

theorem exec_pmbusTransferDone {s : State} (ok : Bool) (ha : alive s = true) :
    exec (.pmbusTransferDone ok) s = .next (keepQueue s (pmbusDone ok s)) := act_alive _ ha rfl

theorem exec_supplyWarn {s : State} (ha : alive s = true) : exec .supplyWarn s = .next (keepQueue s (warn s)) :=
  act_alive _ ha rfl

theorem exec_supplyWarnEnd {s : State} (ha : alive s = true) :
    exec .supplyWarnEnd s = .next (keepQueue s (warnEnd s)) := act_alive _ ha rfl

/-- A supply warning forces P4. -/
theorem three_le_effEnv {s : State} (h : s.pwr.sag = true) : 3 ≤ effEnv s := by
  rw [effEnv, if_pos h]
  exact Nat.le_max_right _ _

/-! ### Power (R462) -/

/-- A measurement changes the last ten readings and the duty. -/
theorem powerMeasured_eq (mw : Nat) (s : State) : powerMeasured mw s = { s with pwr := { s.pwr with
      power := (powerMeasured mw s).pwr.power, duty := (powerMeasured mw s).pwr.duty } } := rfl

theorem power_powerMeasured (mw : Nat) (s : State) :
    (powerMeasured mw s).pwr.power = (s.pwr.power ++ [mw]).drop (s.pwr.power.length + 1 - 10) := rfl

/-- The duty follows the average that the measurement is part of. -/
theorem duty_powerMeasured (mw : Nat) (s : State) : (powerMeasured mw s).pwr.duty =
    if envPower (effEnv s) < powerAvg (powerMeasured mw s).pwr then s.pwr.duty - 1
    else if powerAvg (powerMeasured mw s).pwr * 100 < envPower (effEnv s) * 95 then min 16 (s.pwr.duty + 1)
    else s.pwr.duty := rfl

end Sys2Proof.Machine

namespace Sys2Proof

open Sys2Proof.Machine

/-- Settles O10. -/
theorem envelopesChange : Obligations.EnvelopesChange := by
  unfold Obligations.EnvelopesChange
  refine ⟨⟨reformEnv_eq, ?reached, ?switched, ?sent, ?again, ?failed, ?idle⟩, ?warned, ?same,
    fun s h => three_le_effEnv h, fun s ha => exec_supplyWarnEnd ha⟩
  case reached =>
    intro s ha
    rw [exec_vcoreSetPointReached ha, setPointReached]
    simp only [Bool.not_eq_true]
    rfl
  case switched =>
    intro s ha
    rw [exec_arclkSwitchDone ha, clockSwitched]
    by_cases h2 : s.pwr.change = 2
    · rw [if_pos h2, if_neg (not_not.mpr h2)]
      by_cases hd : s.pwr.env < s.pwr.envTarget
      · rw [if_pos hd]
        simp only [hd, decide_true, if_true]
        rfl
      · rw [if_neg hd]
        simp only [hd, decide_false, Bool.false_eq_true, if_false]
        rfl
    · rw [if_neg h2, if_pos h2]
  case sent =>
    intro s ha hb
    rw [exec_pmbusTransferDone true ha, pmbusDone, hb]
    rfl
  case again =>
    intro s ha hb hf
    rw [exec_pmbusTransferDone false ha, pmbusDone, hb, if_neg (by decide), if_neg (by decide), if_neg (by omega)]
    rfl
  case failed =>
    intro s s1 ha hb hf h1
    have ha1 : alive s1 = true := by
      rw [h1]
      exact ha
    have hk : keepQueue s1 = keepQueue s := by
      rw [h1]
      rfl
    rw [exec_pmbusTransferDone false ha, exec_supplyWarn ha1, hk, pmbusDone, hb, if_neg (by decide), if_neg (by decide),
      if_pos (by omega), h1]
    rfl
  case idle =>
    intro s ha hb ok
    rw [exec_pmbusTransferDone ok ha, pmbusDone, hb]
    rfl
  case warned =>
    intro s ha hs
    rw [exec_supplyWarn ha, warn, hs]
    rfl
  case same =>
    intro s ha hs
    rw [exec_supplyWarn ha, warn, if_pos hs]
    rfl

/-- Settles O11. -/
theorem powerAndTemperature : Obligations.PowerAndTemperature := by
  unfold Obligations.PowerAndTemperature
  refine ⟨fun s mw ha => ?power, fun s c ha => act_alive _ ha rfl, fun s c ha => act_alive _ ha rfl,
    fun s c ha => act_alive _ ha rfl⟩
  case power =>
    have hd := duty_powerMeasured mw s
    refine ⟨powerMeasured mw s, act_of_pending (powerMeasured mw) ha rfl rfl, powerMeasured_eq mw s,
      power_powerMeasured mw s, ?_, fun h => ?_, fun h => ?_, fun h1 h2 => ?_⟩
    · rw [power_powerMeasured, List.length_drop, List.length_append, List.length_singleton]
      omega
    · rw [hd, if_pos h]
    · have hle : ¬envPower (effEnv s) < powerAvg (powerMeasured mw s).pwr := by omega
      rw [hd, if_neg hle, if_pos h]
    · rw [hd, if_neg (by omega), if_neg (by omega)]

end Sys2Proof

/-! SUPPORT. Units: the node table's entries, idle, nap and wake (O12); SLEEP and pre-wakes (O13). -/

namespace Sys2Proof.Machine

/-! ### Tables -/

/-- A value that is not the default stands in the table under its key. -/
theorem mem_of_tget {α : Type} {d v : α} : ∀ {t : Tab α} {q : Nat}, tget d t q = v → v ≠ d → (q, v) ∈ t
  | [], _, h, hv => absurd h.symm hv
  | (k, w) :: t, q, h, hv => by
    rw [tget] at h
    split at h
    · exact absurd h.symm hv
    · split at h
      · next hk =>
        rw [hk, h]
        exact List.mem_cons_self
      · exact List.mem_cons_of_mem _ (mem_of_tget h hv)

/-! ### Node-table entries (R467, R468) -/

/-- An entry of a loaded template's nodes is held. -/
theorem entryHeld_of_node {s : State} {t n : Nat} {v : Tmpl} {nd : Node} (hv : tmplAt s t = some v)
    (hn : nodeAt v n = some nd) : entryHeld s (v.nodeBase + n) = true := by
  have hlt : n < v.nodes.length := (List.getElem?_eq_some_iff.mp hn).1
  have hmem : (t, some v) ∈ s.seq.tmpls := mem_of_tget hv (by simp)
  rw [entryHeld, List.any_eq_true]
  exact ⟨_, hmem, by simp [hlt]⟩

/-- An entry that is held stays, and is failing. -/
theorem entryFails_of_held {s : State} {e : Nat} (h : entryHeld s e = true) : entryFails e s =
    modSeq (fun q => { q with
      nodeUpsets := q.nodeUpsets.filter (· != e)
      nodeBad := if q.nodeBad.contains e then q.nodeBad else q.nodeBad ++ [e] }) s := if_pos h

/-- A task that would join from an unreadable entry has the run of its template ended instead. -/
theorem joinReady_of_unreadable {s : State} {t k n : Nat} (stripe : Nat) {v : Tmpl} {i : Inst} {nd : Node}
    (hv : tmplAt s t = some v) (hi : instAt s t k = some i) (hn : nodeAt v n = some nd) (hr : i.st = .running)
    (hu : unreadable s (v.nodeBase + n) = true) :
    joinReady t k n stripe s = wantAbort t k 2 (entryFails (v.nodeBase + n) s) := by
  simp [joinReady, hv, hi, hn, hr, hu]

theorem mem_nodeBad (l : List Nat) (e : Nat) : e ∈ (if l.contains e then l else l ++ [e]) := by
  split
  · next h => exact List.contains_iff_mem.mp h
  · exact List.mem_append_right _ (List.mem_singleton_self e)

/-- A repair's record changes the log and the record itself. -/
theorem exists_logRepair_eq (kind why eng a spare : Nat) (s : State) : ∃ log next gone recs,
    logRepair kind why eng a spare s = { s with
      log := log, logNext := next, logGone := gone, nv := { s.nv with repairLog := recs } } := by
  unfold logRepair addLog addLogR
  split
  · split <;> exact ⟨_, _, _, s.nv.repairLog, rfl⟩
  · simp only
    split <;> exact ⟨_, _, _, _, rfl⟩

theorem logRepair_spareNode (kind why eng a spare : Nat) (s : State) :
    (logRepair kind why eng a spare s).nv.spareNode = s.nv.spareNode := by
  obtain ⟨_, _, _, _, h⟩ := exists_logRepair_eq kind why eng a spare s
  rw [h]

theorem logRepair_nodeRetired (kind why eng a spare : Nat) (s : State) :
    (logRepair kind why eng a spare s).nv.nodeRetired = s.nv.nodeRetired := by
  obtain ⟨_, _, _, _, h⟩ := exists_logRepair_eq kind why eng a spare s
  rw [h]

theorem logRepair_seq (kind why eng a spare : Nat) (s : State) : (logRepair kind why eng a spare s).seq = s.seq := by
  obtain ⟨_, _, _, _, h⟩ := exists_logRepair_eq kind why eng a spare s
  rw [h]

theorem replaceEntry_of_spare {e : Nat} {s : State} (h : 0 < s.nv.spareNode) :
    (replaceEntry e s).nv.spareNode = s.nv.spareNode - 1 ∧ (replaceEntry e s).nv.nodeRetired = s.nv.nodeRetired := by
  have hr : replaceEntry e s = _ := if_pos h
  rw [hr, logRepair_spareNode, logRepair_nodeRetired]
  exact ⟨rfl, rfl⟩

theorem replaceEntry_of_none {e : Nat} {s : State} (h : s.nv.spareNode = 0) :
    (replaceEntry e s).nv.spareNode = 0 ∧ (replaceEntry e s).nv.nodeRetired = s.nv.nodeRetired ++ [e] := by
  have hr : replaceEntry e s = _ := if_neg (by simp [h])
  rw [hr, logRepair_spareNode, logRepair_nodeRetired]
  exact ⟨h, rfl⟩

theorem replaceEntry_nodeBad (e : Nat) (s : State) :
    (replaceEntry e s).seq.nodeBad = s.seq.nodeBad.filter (· != e) := by
  unfold replaceEntry
  simp only
  split <;> rw [logRepair_seq] <;> rfl

/-! ### Idle, nap and wake (R455, R456) -/

theorem exec_engineIdle {s : State} {e : Nat} (ha : alive s = true) (he : e < 65536) :
    exec (.engineIdle e) s = .next (engIdles e s) := by
  refine act_of_pending _ ha (decide_eq_true he) ?_
  unfold engIdles
  simp only
  split <;> rfl

theorem exec_coreNap {s : State} {u : Nat} (ha : alive s = true) (hu : u < 65536) :
    exec (.coreNap u) s = .next (unitNaps (unitOf u) s) := by
  refine act_of_pending _ ha (decide_eq_true hu) ?_
  unfold unitNaps
  simp only
  split <;> rfl

theorem exec_unitWakeDone {s : State} {e : Nat} (ha : alive s = true) (he : e < 65536) :
    exec (.unitWakeDone e) s = .next (engWoken e s) := by
  refine act_of_pending _ ha (decide_eq_true he) ?_
  unfold engWoken
  split <;> rfl

/-- The core of the unit holds accumulators that are not saved. -/
def holdsUnsaved (s : State) (u : Nat) : Bool :=
  decide (u / 0x4000 = 0) && (List.range 33).any (fun t => match heldAcc s (bits u 13 6) t with
    | some a => a.saved.isNone
    | none => false)

theorem unitNaps_eq (s : State) (u : Nat) : unitNaps u s =
    if bits (rget s R.pwrSleepCfg 0) 31 16 ≠ 0 ∧ ¬holdsUnsaved s u ∧ tget 0 s.pwr.prewoken u = 0 ∧
        ¬s.pwr.nap.contains u ∧ (unitEngines u).all (fun e => tget 0 s.pwr.idle e != 0 &&
          decide (tget 0 s.pwr.idle e - 1 + bits (rget s R.pwrSleepCfg 0) 31 16 * 1000 ≤ s.now)) then
      { s with pwr := { s.pwr with nap := s.pwr.nap ++ [u] } } else s := rfl

theorem holdsUnsaved_eq_false {s : State} {u : Nat} (h : u < 0x4000 → ∀ k < 33, ∀ a,
    heldAcc s (bits u 13 6) k = some a → a.saved ≠ none) : holdsUnsaved s u = false := by
  rw [holdsUnsaved, Bool.and_eq_false_iff]
  by_cases hu : u < 0x4000
  · refine .inr (List.any_eq_false.mpr fun k hk => ?_)
    cases ha : heldAcc s (bits u 13 6) k with
    | none => simp
    | some a => simpa [Option.ne_none_iff_isSome] using h hu k (List.mem_range.mp hk) a ha
  · exact .inl (by simp; omega)

theorem holdsUnsaved_of_held {s : State} {u k : Nat} {a : Acc} (hu : u < 0x4000) (hk : k < 33)
    (ha : heldAcc s (bits u 13 6) k = some a) (hs : a.saved = none) : holdsUnsaved s u = true := by
  rw [holdsUnsaved, Bool.and_eq_true]
  refine ⟨decide_eq_true (Nat.div_eq_of_lt hu), List.any_eq_true.mpr ⟨k, List.mem_range.mpr hk, ?_⟩⟩
  rw [ha]
  simp [hs]

/-! ### SLEEP (R457) -/

theorem exec_sleepEntry {s : State} (ha : alive s = true) : exec .sleepEntry s = .next (enterSleep s) := by
  refine act_of_pending _ ha rfl ?_
  unfold enterSleep
  split
  · split <;> rfl
  · rfl

theorem exec_sleepWakeDone {s : State} (ha : alive s = true) :
    exec .sleepWakeDone s = .next (keepQueue s (wakeDone s)) := act_alive _ ha rfl

/-! ### Pre-wakes (R459) -/

theorem exec_prewake {s : State} {t : Nat} (ha : alive s = true) (ht : t < 256) :
    exec (.prewake t) s = .next (keepQueue s (prewakeNow t s)) := act_alive _ ha (decide_eq_true ht)

theorem exec_prewakeExpire {s : State} {t : Nat} (ha : alive s = true) (ht : t < 256) :
    exec (.prewakeExpire t) s = .next (prewakeEnd t s) := by
  refine act_of_pending _ ha (decide_eq_true ht) ?_
  unfold prewakeEnd
  split <;> rfl

end Sys2Proof.Machine

namespace Sys2Proof

open Sys2Proof.Machine

/-- Settles O12: an entry that a loaded template's node uses is held, so that it stays and is failing. -/
theorem unitsFenceIdleNapAndWake : Obligations.UnitsFenceIdleNapAndWake := by
  unfold Obligations.UnitsFenceIdleNapAndWake
  refine ⟨⟨?early, ?ends⟩, ⟨?joins, fun e s => ⟨replaceEntry_of_spare, replaceEntry_of_none, replaceEntry_nodeBad e s⟩⟩,
    ?idle, ?off, ?naps, ?holds, ?awake, ?woken⟩
  case early =>
    intro s ha h
    have hx : exec .ceWindowEnd s = .next (keepQueue s (ceEnd s)) := act_alive _ ha rfl
    rw [hx, show ceEnd s = s from if_pos h]
    rfl
  case ends =>
    intro s ha h
    have hx : exec .ceWindowEnd s = .next (keepQueue s (ceEnd s)) := act_alive _ ha rfl
    rw [hx]
    exact congrArg (fun t => Host.Outcome.next (keepQueue s t)) (if_neg (Nat.not_lt.mpr h))
  case joins =>
    intro t k n stripe v i nd s hv hi hn hr hu
    rw [joinReady_of_unreadable stripe hv hi hn hr hu, entryFails_of_held (entryHeld_of_node hv hn)]
    exact ⟨mem_nodeBad _ _, rfl, rfl⟩
  case idle =>
    intro s e ha he
    rw [exec_engineIdle ha he, engIdles]
    simp only [Bool.not_or, Bool.and_eq_true, Bool.not_eq_true', beq_iff_eq, decide_eq_true_eq,
      Option.isSome_eq_false_iff, Option.isNone_iff_eq_none, and_assoc]
    rfl
  case off =>
    intro s u ha hu h0
    rw [exec_coreNap ha hu, unitNaps_eq, if_neg (fun h => h.1 h0)]
  case naps =>
    intro s u ha hu h0 hacc
    rw [exec_coreNap ha hu, unitNaps_eq, holdsUnsaved_eq_false hacc]
    simp only [Nat.pos_iff_ne_zero.mp h0, ne_eq, not_false_eq_true, Bool.false_eq_true, true_and, Bool.not_eq_true]
  case holds =>
    intro s u k a ha hu hlt hk hheld hsaved
    rw [exec_coreNap ha hu, unitNaps_eq, if_neg]
    rintro ⟨-, hfree, -⟩
    exact hfree (holdsUnsaved_of_held hlt hk hheld hsaved)
  case awake =>
    intro s e ha he h
    rw [exec_unitWakeDone ha he, engWoken, h]
    rfl
  case woken =>
    intro s e ha he h
    rw [exec_unitWakeDone ha he, engWoken, h]
    rfl

/-- Settles O13. -/
theorem sleepAndPrewake : Obligations.SleepAndPrewake := by
  unfold Obligations.SleepAndPrewake
  refine ⟨⟨?entry, ?ready, ?done, ?awake⟩, ?prewake, ?expire, ?unpredicted, ?unloaded⟩
  case entry =>
    intro s ha
    rw [exec_sleepEntry ha, enterSleep]
    cases s.pwr.idleSince with
    | none => rfl
    | some t =>
      simp only [Bool.and_eq_true, decide_eq_true_eq]
      rfl
  case ready =>
    intro s h
    simp only [sleepReady, Bool.and_eq_true, beq_iff_eq, List.all_eq_true, List.isEmpty_iff] at h
    obtain ⟨⟨⟨⟨⟨⟨⟨⟨hcfg, hrun⟩, ha⟩, hstreams⟩, htmpls⟩, hwins⟩, hwaits⟩, hlanes⟩, hsess⟩ := h
    refine ⟨hcfg, hrun, ha, hwaits, hwins, hlanes, fun e he m hm => ?_, fun e he v hv => ?_, fun e he v hv => ?_⟩
    · have := hsess e he
      rw [hm] at this
      simpa using this
    · have := hstreams e he
      rw [hv] at this
      simpa using this
    · have := htmpls e he
      rw [hv] at this
      simp only [Bool.and_eq_true, Bool.not_eq_true', List.isEmpty_iff, Bool.and_eq_false_iff, beq_eq_false_iff_ne,
        decide_eq_false_iff_not] at this
      obtain ⟨⟨hbusy, hpend⟩, htimer⟩ := this
      refine ⟨hbusy, hpend, fun harm htrig => ?_⟩
      rcases htimer with (h | h) | h
      · rw [harm] at h
        cases h
      · exact absurd htrig h
      · omega
  case done =>
    intro s ha hw
    rw [exec_sleepWakeDone ha, wakeDone, if_pos hw]
    rfl
  case awake =>
    intro s ha hw
    rw [exec_sleepWakeDone ha, wakeDone, if_neg hw]
    rfl
  case prewake =>
    intro s t v p ha ht hv hp
    rw [exec_prewake ha ht, prewakeNow, hv]
    simp only [hp, Bool.and_eq_true, bne_iff_ne, decide_eq_true_eq, and_assoc]
    rfl
  case expire =>
    intro s t v ha ht hv
    rw [exec_prewakeExpire ha ht, prewakeEnd, hv]
    rfl
  case unpredicted =>
    intro s t ha ht h
    rw [exec_prewake ha ht, prewakeNow]
    cases hv : tmplAt s t with
    | none => rfl
    | some v =>
      simp only [h v hv]
      rfl
  case unloaded =>
    intro s t ha ht hv
    rw [exec_prewakeExpire ha ht, prewakeEnd, hv]

end Sys2Proof

/-! SUPPORT. The monitors, the heartbeat and the status link (O17); check intervals and golden runs (O18). -/

namespace Sys2Proof.Machine

/-! ### Tables -/

/-- A value other than the default reads back in any table. -/
theorem tget_tset_self_of_ne {α : Type} [DecidableEq α] {d v : α} (hv : v ≠ d) : ∀ (t : Tab α) (q : Nat),
    tget d (tset d t q v) q = v
  | [], q => by simp [tset, hv, tget]
  | (k, w) :: t, q => by
    rw [tset, if_neg hv, if_neg hv]
    split
    · rw [tget, if_neg (Nat.lt_irrefl q), if_pos rfl]
    · next h1 =>
      split
      · rw [tget, if_neg (Nat.lt_irrefl q), if_pos rfl]
      · next h2 => rw [tget, if_neg h1, if_neg h2, tget_tset_self_of_ne hv t q]

/-! ### The status word (R447) -/

theorem sslStatus_lt (s : State) : sslStatus s < 2 ^ 24 := by
  have h1 := b2n_lt_two s.saf.safe
  have h2 := b2n_lt_two s.saf.ready
  have h3 := b2n_lt_two (anyUnchecked s)
  have h4 := b2n_lt_two s.saf.sslTransient
  have h5 := b2n_lt_two s.saf.sslErr
  unfold sslStatus
  omega

/-- A word of a status and its CRC, and its two parts. -/
theorem statusWord_parts {st crc : Nat} (hs : st < 2 ^ 24) (hc : crc < 2 ^ 8) :
    (BitVec.ofNat 32 (st * 256 + crc)).toNat / 256 = st ∧ (BitVec.ofNat 32 (st * 256 + crc)).toNat % 256 = crc := by
  rw [BitVec.toNat_ofNat]
  omega

theorem exec_safeHbToggle {s : State} (ha : alive s = true) : exec .safeHbToggle s = .next (hbToggle s) := by
  refine act_of_pending _ ha rfl ?_
  unfold hbToggle
  split <;> rfl

theorem exec_safetyRecordRepeat {s : State} (ha : alive s = true) :
    exec .safetyRecordRepeat s = .next (keepQueue s (recordRepeat s)) := act_alive _ ha rfl

/-! ### Check intervals (R427, R428) -/

theorem exec_checkIntervalStart {s : State} (ha : alive s = true) :
    exec .checkIntervalStart s = .next (keepQueue s (intervalStart s)) := act_alive _ ha rfl

theorem clampN_range {lo hi x : Nat} (h : lo ≤ hi) : lo ≤ clampN lo hi x ∧ clampN lo hi x ≤ hi := by
  unfold clampN
  split
  · omega
  · split <;> omega

theorem intervalNs_range (s : State) : 5000000 ≤ intervalNs s ∧ intervalNs s ≤ 100000000 := by
  have h := clampN_range (x := bits (rget s R.safCfg 0) 16 0) (show 5000 ≤ 100000 by decide)
  unfold intervalNs
  omega

/-- An engine that is fenced or absent only releases what it holds. -/
theorem endInterval_of_absent (iv : Nat) {e : Nat} {s : State} (h : (engSt s e).fenced = true ∨ engAvail s e = false) :
    endInterval iv s e = releaseHeld e iv fUnchecked s := by
  refine if_pos ?_
  rcases h with h | h <;> simp [h]

theorem endInterval_of_passed (iv : Nat) {e : Nat} {s : State} (ha : engAvail s e = true)
    (hf : (engSt s e).fenced = false) (hp : (engSt s e).passed = true) :
    endInterval iv s e = modEng e (fun x => { x with
      last := if x.transients.contains iv then 1 else 0, streak := 0 }) s := by
  simp only [endInterval, ha, hf, hp, Bool.not_true, Bool.or_self, Bool.false_eq_true, if_false, if_true]

/-- What is put at an engine is the function's value there. -/
theorem modEng_congr {e : Nat} {f g : EngSaf → EngSaf} {s : State} (h : f (engSt s e) = g (engSt s e)) :
    modEng e f s = modEng e g s := by
  unfold modEng tmod
  rw [show f (tget engReset s.saf.engs e) = g (tget engReset s.saf.engs e) from h]

theorem endInterval_of_unchecked (iv : Nat) {e : Nat} {s s1 : State} (ha : engAvail s e = true)
    (hf : (engSt s e).fenced = false) (hp : (engSt s e).passed = false)
    (h1 : s1 = releaseHeld e iv fUnchecked (addLog 0x0103 63 e iv (b2n ((engSt s e).streak != 0)) 0
      (cnt R.safEngUnchecked e 1 (modEng e (fun x => { x with last := 2, streak := (engSt s e).streak + 1 }) s)))) :
    endInterval iv s e = if 1 ≤ (engSt s e).streak then enterSafe 0x02 e s1 else s1 := by
  have hm : modEng e (fun x => { x with last := 2, streak := x.streak + 1 }) s =
      modEng e (fun x => { x with last := 2, streak := (engSt s e).streak + 1 }) s := modEng_congr rfl
  simp only [endInterval, ha, hf, hp, Bool.not_true, Bool.or_self, Bool.false_eq_true, if_false, hm, h1]

/-! ### Golden runs (R429 to R433) -/

theorem exec_goldenRunDone {s : State} {name : Nat} (n : Nat) (ha : alive s = true) (h : goldenUnit name = true) :
    exec (.goldenRunDone name n) s = .next (keepQueue s (goldenDone name n s)) := act_alive _ ha h

/-- The interval of a run that disagreed is marked at its engine. -/
theorem bad_markBad {e iv : Nat} {s : State} (h : iv = intervalAt s) : (engSt (markBad e iv s) e).bad = some iv := by
  have hne : { engSt s e with bad := some iv } ≠ engReset := fun heq => by
    have := congrArg EngSaf.bad heq
    simp [engReset] at this
  have hm : engSt (markBad e iv s) e = { engSt s e with bad := some iv } := by
    rw [markBad, if_pos h]
    exact tget_tset_self_of_ne hne _ _
  rw [hm]

end Sys2Proof.Machine

namespace Sys2Proof

open Sys2Proof.Machine

/-- Settles O17. -/
theorem monitorsAndHeartbeat : Obligations.MonitorsAndHeartbeat := by
  unfold Obligations.MonitorsAndHeartbeat
  refine ⟨fun s ha => ⟨act_alive _ ha rfl, act_alive _ ha rfl, act_alive _ ha rfl⟩, ⟨?beat, ?again, sendSafety_saf⟩,
    ?word, fun s ha => ⟨exec_sslNop ha, exec_sslAckTransient ha⟩, fun s i ha hi => exec_sslSelect ha hi, ?reserved⟩
  case beat =>
    intro s ha
    rw [exec_safeHbToggle ha, hbToggle]
    simp only [Bool.and_eq_true, Bool.not_eq_true', beq_iff_eq, and_assoc]
    rfl
  case again =>
    intro s ha
    rw [exec_safetyRecordRepeat ha, recordRepeat]
    simp only [Bool.and_eq_true, decide_eq_true_eq, and_assoc]
  case word =>
    intro s ha
    refine ⟨_, exec_sslCsFall ha, ?_, ?_⟩
    · obtain ⟨hst, hcrc⟩ := statusWord_parts (sslStatus_lt _) (crc8_lt _)
      rw [hst, hcrc]
    · rw [statusWord_bit8 (crc8_lt _), sslStatus_mod_two]
      rfl
  case reserved =>
    intro s l ha hlen hcrc hres
    rw [exec_sslBadFrame ha, sslFrame_of_good s hlen hcrc, if_neg (by omega), if_neg (by omega), if_neg (by omega)]
    rfl

/-- Settles O18: every clause is one branch of the interval's end, of a verdict or of a repeat. -/
theorem checksOfTheEngines : Obligations.ChecksOfTheEngines := by
  unfold Obligations.ChecksOfTheEngines
  refine ⟨⟨?early, ?ends, fun iv e s h => endInterval_of_absent iv h,
      fun iv e s ha hf hp => endInterval_of_passed iv ha hf hp,
      fun iv e s s1 ha hf hp h1 => endInterval_of_unchecked iv ha hf hp h1, ?place, intervalNs_range⟩,
    ?silent, ?verdict, fun e iv s => rfl, fun e iv s h => if_neg h, ?marks, ?repeats, fun e iv elems reason te s => rfl⟩
  case early =>
    intro s ha h
    rw [exec_checkIntervalStart ha, show intervalStart s = s from if_pos h]
    rfl
  case ends =>
    intro s s1 s2 ha hn hend h1 h2
    subst h1
    have hdue : ¬(s.saf.intervals = 0 ∨ s.now < s.saf.intEnd) := by omega
    rw [exec_checkIntervalStart ha, intervalStart, if_neg hdue, h2]
    simp only [beq_iff_eq]
    rfl
  case place =>
    intro e s
    simp only [placeGolden, Bool.and_eq_true, Bool.not_eq_true']
  case silent =>
    intro s name n ha hu h
    rw [exec_goldenRunDone n ha hu]
    have hs : goldenDone name n s = s := by
      unfold goldenDone
      rcases h with h | h
      · simp only [h]
      · simp only [h, if_true]
        split <;> rfl
    rw [hs]
    rfl
  case verdict =>
    intro s name n iv e ha hu he hr hw
    subst he
    rw [exec_goldenRunDone n ha hu, goldenDone]
    simp only [hr, hw, Bool.false_eq_true, if_false]
  case marks =>
    intro e iv s h
    refine ⟨?_, bad_markBad h⟩
    rw [markBad, if_pos h]
    rfl
  case repeats =>
    intro e iv n te range s s1 h1
    subst h1
    refine ⟨fun hn => ?_, fun hn tr elems s2 htr helems h2 => ?_⟩
    · rw [repeatDone]
      exact if_pos hn
    · subst htr helems h2
      rw [repeatDone]
      exact if_neg (not_not.mpr hn)

end Sys2Proof

/-! SUPPORT. Writes to the registers of caches, wheels, partitions, millraces and stream contexts (O25), and to the
security registers and the package window (O26). -/

namespace Sys2Proof.Machine

/-! ### A command that writes a register of a block -/

/-- The write reaches the register that stands at the offset. -/
theorem regAct_of_block {s : State} {rq off n : Nat} {d : RegDef} (v : Nat) (ha : alive s = true)
    (hsees : seesRegs s rq = true) (hp : prompt s = true) (hal : off % 4 = 0) (hoff : off < 0x500000)
    (hb : blockPlace off = .reg d n) :
    regAct rq off s (wrReg rq off v) = .next (keepQueue s (writeReg rq n v d s)) := by
  have hrq : rq < 33 := lt_of_reaches (reaches_of_seesRegs hsees)
  rw [regAct, act_alive _ ha (by simp [hrq]; omega), wrReg_of_block v hsees hp hal hoff hb]

theorem bits_or_two (v : Nat) : bits (v ||| 2) 8 3 = bits v 8 3 := by
  simp [bits, Nat.shiftRight_or_distrib]

theorem countDenied_pending (rq : Nat) (s : State) : (countDenied rq s).pending = s.pending := rfl

theorem keepQueue_countDenied (rq : Nat) (s : State) : keepQueue s (countDenied rq s) = countDenied rq s :=
  keepQueue_of_pending_eq rfl

theorem keepQueue_rput (o i v : Nat) (s : State) : keepQueue s (rput o i v s) = rput o i v s :=
  keepQueue_of_pending_eq rfl

theorem keepQueue_putWheel_rput (k : Nat) (w : Wheel) (o i v : Nat) (s : State) :
    keepQueue s (putWheel k w (rput o i v s)) = putWheel k w (rput o i v s) := keepQueue_of_pending_eq rfl

/-! ### Their rows of the register map -/

/-- SPD_SLICE_CACHE's row. -/
def sliceCacheReg : RegDef := ⟨R.spdSliceCache, 4, 1, R.spdSliceSel, 0x1f, 0x0, 0x0, 0x20⟩

/-- SPD_WHEEL_CFG's row. -/
def wheelCfgReg : RegDef := ⟨R.spdWheelCfg, 4, 1, R.spdWheelSel, 0x3fff0001, 0x0, 0x0, 0x0⟩

/-- KPE_PART_CTRL's row. -/
def partCtrlReg : RegDef := ⟨R.kpePartCtrl, 4, 1, R.kpePartSel, 0x1f9, 0x0, 0x0, 0x2⟩

/-- MRQ_CFG's row. -/
def mrqCfgReg : RegDef := ⟨R.mrqCfg, 4, 1, R.mrqSel, 0xff0003, 0x0, 0x0, 0x0⟩

/-- STR_CTX_OWNER's row. -/
def ctxOwnerReg : RegDef := ⟨R.strCtxOwner, 4, 1, R.strCtxSel, 0xff01, 0x0, 0x0, 0x0⟩

/-- SEC_ISO_CTRL's row. -/
def isoCtrlReg : RegDef := ⟨R.secIsoCtrl, 4, 1, 0, 0x4, 0x0, 0x0, 0x1⟩

/-- SEC_CRED_CTRL's row. -/
def credCtrlReg : RegDef := ⟨R.secCredCtrl, 4, 1, 0, 0x0, 0x0, 0x0, 0x1⟩

/-- BOOT_PKG_CTRL's row. -/
def pkgCtrlReg : RegDef := ⟨R.bootPkgCtrl, 4, 1, 0, 0x0, 0x0, 0x0, 0x3⟩

theorem writeReg_sliceCacheReg (rq v : Nat) (s : State) :
    writeReg rq 0 v sliceCacheReg s = settle (sliceCacheWrite rq v s) := rfl

theorem writeReg_wheelCfgReg (rq v : Nat) (s : State) : writeReg rq 0 v wheelCfgReg s = wheelCfgWrite rq v s := rfl

theorem writeReg_partCtrlReg (rq v : Nat) (s : State) :
    writeReg rq 0 v partCtrlReg s = partWrite rq (selGet s rq R.kpePartSel) v partCtrlReg s := rfl

theorem writeReg_mrqCfgReg (rq v : Nat) (s : State) : writeReg rq 0 v mrqCfgReg s = settle (mrqWrite rq v s) := rfl

theorem writeReg_ctxOwnerReg (rq v : Nat) (s : State) : writeReg rq 0 v ctxOwnerReg s = ctxOwnerWrite rq v s := rfl

theorem writeReg_isoCtrlReg (rq v : Nat) (s : State) : writeReg rq 0 v isoCtrlReg s = isoCtrlWrite rq v s := rfl

theorem writeReg_credCtrlReg (rq v : Nat) (s : State) : writeReg rq 0 v credCtrlReg s =
    allowed (privileged s rq) rq s (fun s => if bit v 0 then commitCred s else s) := rfl

theorem writeReg_pkgCtrlReg (rq v : Nat) (s : State) :
    writeReg rq 0 v pkgCtrlReg s = allowed (privileged s rq) rq s (pkgCtrl rq v) := rfl

/-! ### The commands -/

section
variable {s : State} {rq : Nat} (v : Word) (ha : alive s = true) (hsees : seesRegs s rq = true) (hp : prompt s = true)
include ha hsees hp

theorem exec_spdSliceCacheWrite :
    exec (.spdSliceCacheWrite rq v) s = .next (keepQueue s (settle (sliceCacheWrite rq v.toNat s))) :=
  regAct_of_block (d := sliceCacheReg) v.toNat ha hsees hp (by decide) (by decide) rfl

theorem exec_cacheInv :
    exec (.cacheInv rq v) s = .next (keepQueue s (settle (sliceCacheWrite rq (v.toNat ||| 32) s))) :=
  regAct_of_block (d := sliceCacheReg) (v.toNat ||| 32) ha hsees hp (by decide) (by decide) rfl

theorem exec_spdWheelCfgWrite :
    exec (.spdWheelCfgWrite rq v) s = .next (keepQueue s (wheelCfgWrite rq v.toNat s)) :=
  regAct_of_block (d := wheelCfgReg) v.toNat ha hsees hp (by decide) (by decide) rfl

theorem exec_partitionClear : exec (.partitionClear rq v) s =
    .next (keepQueue s (partWrite rq (selGet s rq R.kpePartSel) (v.toNat ||| 2) partCtrlReg s)) :=
  regAct_of_block (d := partCtrlReg) (v.toNat ||| 2) ha hsees hp (by decide) (by decide) rfl

theorem exec_mrqCfgWrite : exec (.mrqCfgWrite rq v) s = .next (keepQueue s (settle (mrqWrite rq v.toNat s))) :=
  regAct_of_block (d := mrqCfgReg) v.toNat ha hsees hp (by decide) (by decide) rfl

theorem exec_strCtxOwnerWrite : exec (.strCtxOwnerWrite rq v) s = .next (keepQueue s (ctxOwnerWrite rq v.toNat s)) :=
  regAct_of_block (d := ctxOwnerReg) v.toNat ha hsees hp (by decide) (by decide) rfl

theorem exec_isoCommit : exec (.isoCommit rq v) s = .next (keepQueue s (isoCtrlWrite rq (v.toNat ||| 1) s)) :=
  regAct_of_block (d := isoCtrlReg) (v.toNat ||| 1) ha hsees hp (by decide) (by decide) rfl

theorem exec_credCommit : exec (.credCommit rq v) s = .next (keepQueue s (allowed (privileged s rq) rq s
    (fun s => if bit (v.toNat ||| 1) 0 then commitCred s else s))) :=
  regAct_of_block (d := credCtrlReg) (v.toNat ||| 1) ha hsees hp (by decide) (by decide) rfl

theorem exec_pkgErase : exec (.pkgErase rq v) s = .next (keepQueue s (allowed (privileged s rq) rq s (pkgCtrl rq 1))) :=
  regAct_of_block (d := pkgCtrlReg) 1 ha hsees hp (by decide) (by decide) rfl

theorem exec_pkgCommit : exec (.pkgCommit rq v) s =
    .next (keepQueue s (allowed (privileged s rq) rq s (pkgCtrl rq 2))) :=
  regAct_of_block (d := pkgCtrlReg) 2 ha hsees hp (by decide) (by decide) rfl

end

/-! ### Caches (R290, R291) -/

/-- The write of SPD_SLICE_CACHE may be made: at most eight banks, and rights over those that change. -/
theorem sliceCacheWrite_of_many {s : State} {rq x : Nat} (h : 8 < bits x 3 0) :
    sliceCacheWrite rq x s = countDenied rq s := if_pos (by simp [h])

theorem sliceCacheWrite_of_right {s : State} {rq x sl old : Nat} (hsl : sl = selGet s rq R.spdSliceSel)
    (hold : old = rget s R.spdSliceCache sl) (h8 : bits x 3 0 ≤ 8)
    (hr : rowsRight s rq (bankRow sl (16 - max (bits x 3 0) (bits old 3 0)))
      ((max (bits x 3 0) (bits old 3 0) -
        (if bits x 5 4 = bits old 4 4 then min (bits x 3 0) (bits old 3 0) else 0)) * 1024) = true) :
    sliceCacheWrite rq x s =
      if bits x 3 0 ≠ tget 0 s.spd.cacheBanks sl ∨ bit x 5 = true then
        { rput R.spdSliceCache sl (bits x 4 0) s with
          spd := { s.spd with cachePend := s.spd.cachePend.filter (· != sl) ++ [sl] } }
      else rput R.spdSliceCache sl (bits x 4 0) s := by
  subst hsl hold
  simp only [sliceCacheWrite, hr, decide_eq_false (Nat.not_lt.mpr h8), Bool.not_true, Bool.or_self, Bool.false_eq_true,
    if_false]
  rfl

/-! ### Wheels (R298) -/

/-- The base a write of SPD_WHEEL_CFG asks for is refused where it is not the requester's. -/
theorem wheelCfgWrite_of_foreign {s : State} {rq v : Nat}
    (h : wheelRight s rq (selGet s rq R.spdWheelSel)
      (bits (rget s R.spdWheelCfg (selGet s rq R.spdWheelSel)) 29 16)
      (bits (rget s R.spdWheelSize (selGet s rq R.spdWheelSel)) 14 0) = false) :
    wheelCfgWrite rq v s = countDenied rq s := if_pos (by simp [h])

section
variable {s : State} {rq v k old rows : Nat} (hk : k = selGet s rq R.spdWheelSel) (hold : old = rget s R.spdWheelCfg k)
  (hrows : rows = bits (rget s R.spdWheelSize k) 14 0) (hr : wheelRight s rq k (bits old 29 16) rows = true)
include hk hold hrows hr

/-- A wheel that is disabled takes the base, and starts from zero counters where it is enabled. -/
theorem wheelCfgWrite_of_disabled (h0 : bit old 0 = false) (hb : wheelRight s rq k (bits v 29 16) rows = true) :
    wheelCfgWrite rq v s =
      if bit v 0 && !wheelSizes (bits v 29 16) rows (bits (rget s R.spdWheelSize k) 30 16) then countDenied rq s
      else if bit v 0 then putWheel k wheelZero (rput R.spdWheelCfg k (bits v 29 16 * 2 ^ 16 + v % 2) s)
      else rput R.spdWheelCfg k (bits v 29 16 * 2 ^ 16 + v % 2) s := by
  subst hk hold hrows
  simp only [wheelCfgWrite, hr, h0, hb, Bool.not_true, Bool.false_eq_true, if_false, Bool.or_self, Bool.not_false,
    if_true]

/-- A wheel that is enabled keeps its base; it restarts, or is disabled where no task uses it. -/
theorem wheelCfgWrite_of_enabled (h1 : bit old 0 = true) (hb : bits v 29 16 = bits old 29 16) :
    wheelCfgWrite rq v s =
      if bit v 0 then putWheel k wheelZero s
      else if wheelBusy s k then countDenied rq s
      else rput R.spdWheelCfg k (bits old 29 16 * 2 ^ 16) s := by
  subst hk hold hrows
  simp only [wheelCfgWrite, hr, h1, hb, Bool.not_true, Bool.false_eq_true, if_false, Bool.or_self, if_true]

end

theorem mod_two_of_bit {v : Nat} (b : Bool) (h : bit v 0 = b) : v % 2 = b2n b := by
  rw [← h]
  unfold bit b2n
  rw [Nat.shiftRight_zero]
  by_cases hv : v % 2 = 1
  · simp [hv]
  · simp [hv]
    omega

/-! ### Track partitions (R225) -/

/-- A write of KPE_PART_CTRL that clears: it is taken where the stream is granted, no task holds the partition, and the
other fields may be so written. -/
theorem partWrite_of_clear {s : State} {rq p : Nat} (v : Nat) : partWrite rq p (v ||| 2) partCtrlReg s =
    if streamGranted s rq (bits (rget s R.kpePartCtrl p) 8 3) = true ∧ partBusy s p = false ∧
        (bits v 8 3 = bits (rget s R.kpePartCtrl p) 8 3 ∨
          bit (rget s R.kpePartCtrl p) 0 = false ∧ streamGranted s rq (bits v 8 3) = true) ∧
        (bit v 0 = true → partClash s p = false) then
      partClear p (rput R.kpePartCtrl p (mergeRw (rget s R.kpePartCtrl p) 0x1F9 (v ||| 2)) s)
    else countDenied rq s := by
  have h0 : bit (v ||| 2) 0 = bit v 0 := by
    rw [bit_or, show bit 2 0 = false from rfl, Bool.or_false]
  have h1 : bit (v ||| 2) 1 = true := by
    rw [bit_or, show bit 2 1 = true from rfl, Bool.or_true]
  simp only [partWrite, bits_or_two, h0, h1, if_true, show partCtrlReg.off = R.kpePartCtrl from rfl,
    show partCtrlReg.rw = 0x1F9 from rfl]
  by_cases hg : streamGranted s rq (bits (rget s R.kpePartCtrl p) 8 3) = true
  · by_cases hb : partBusy s p = false
    · simp only [hg, hb, Bool.not_true, Bool.or_self, Bool.false_eq_true, if_false, true_and]
      rw [← ite_not]
      congr 1
      simp only [ne_eq, not_or, not_and, Bool.not_eq_true, Bool.not_eq_false, eq_iff_iff]
      simp only [or_iff_not_imp_left]
    · simp [hb]
  · simp [hg]

theorem partClear_tracks (p : Nat) (s : State) : (partClear p s).tracks = tdrop s.tracks (fun k =>
    decide ((partRange s p).1 ≤ k) && decide (k < (partRange s p).1 + (partRange s p).2)) := rfl

/-! ### Stream contexts (R305) -/

theorem ctxOwnerWrite_eq (rq v : Nat) (s : State) : ctxOwnerWrite rq v s =
    if (privileged s rq = true ∨ ownsTmpl s rq (bits v 15 8) = true) ∧
        engBusy s (engCtx (selGet s rq R.strCtxSel)) = false
    then rput R.strCtxOwner (selGet s rq R.strCtxSel) (v &&& 0xFF01)
      { s with ring := tdrop s.ring (fun k => k / 64 == selGet s rq R.strCtxSel) }
    else countDenied rq s := by
  unfold ctxOwnerWrite
  rw [← ite_not]
  congr 1
  simp only [Bool.or_eq_true, Bool.not_eq_true', Bool.or_eq_false_iff, not_or, not_and, eq_iff_iff,
    Bool.not_eq_true, Bool.not_eq_false]
  cases privileged s rq <;> simp

/-! ### Isolation and credentials (R414, R421, R424) -/

theorem exec_isolationEpoch {s : State} (ha : alive s = true) :
    exec .isolationEpoch s = .next (keepQueue s (openEpoch s)) := act_alive _ ha rfl

/-- A write of SEC_ISO_CTRL that commits: first the host Owner's bit, then the commit, unless one is PENDING. -/
theorem isoCtrlWrite_of_commit {s s1 : State} {rq v : Nat} (hpriv : privileged s rq = true)
    (h1 : s1 = if rq = 32 then { s with sec := { s.sec with hostOwner := bit v 2 } }
      else if bit v 2 = s.sec.hostOwner then s else countDenied rq s) :
    isoCtrlWrite rq (v ||| 1) s = if s.sec.pending then countDenied rq s1 else commitIso s1 := by
  have h0 : bit (v ||| 1) 0 = true := by
    rw [bit_or, show bit 1 0 = true from rfl, Bool.or_true]
  have h2 : bit (v ||| 1) 2 = bit v 2 := by
    rw [bit_or, show bit 1 2 = false from rfl, Bool.or_false]
  simp only [isoCtrlWrite, hpriv, h0, h2, Bool.not_true, Bool.false_eq_true, if_false, if_true, ne_eq, ite_not, h1]
  rfl

theorem isoCtrlWrite_of_foreign {s : State} {rq : Nat} (v : Nat) (hpriv : privileged s rq = false) :
    isoCtrlWrite rq v s = countDenied rq s := if_pos (by simp [hpriv])

theorem commitIso_of_sound {s : State} (h : isoCheck s = none) : commitIso s = { s with
    sec := { s.sec with pending := true, errCode := 0, errTenant := 0, errWord := 0 } } := by
  rw [commitIso, h]
  rfl

theorem commitIso_of_bad {s : State} {c t k : Nat} (h : isoCheck s = some (c, t, k)) : commitIso s = { s with
    sec := { s.sec with errCode := c, errTenant := t, errWord := k } } := by
  rw [commitIso, h]
  rfl

/-! ### The service package (R486) -/

theorem exec_pkgEraseDone {s : State} (ha : alive s = true) : exec .pkgEraseDone s = .next (pkgEraseEnd s) := by
  refine act_of_pending _ ha rfl ?_
  unfold pkgEraseEnd
  split <;> rfl

theorem exec_pkgCommitDone {s : State} (ha : alive s = true) : exec .pkgCommitDone s = .next (pkgCommitEnd s) := by
  refine act_of_pending _ ha rfl ?_
  unfold pkgCommitEnd
  split
  · simp only
    split <;> rfl
  · rfl

/-- The place of a byte offset in the package window. -/
theorem placeOf_pkgWindow {s : State} {rq off : Nat} (hsees : seesRegs s rq = true) (hoff : off < 0x10000) :
    placeOf rq (0x4D0000 + off) = .pkg off := by
  rw [placeOf_of_seesRegs hsees (by omega), blockPlace, if_neg (by omega), if_neg (by omega), if_neg (by omega),
    if_pos (by omega), Nat.add_sub_cancel_left]

theorem pkgProgram_pending (rq a v : Nat) (s : State) : (pkgProgram rq a v s).pending = s.pending := by
  unfold pkgProgram
  simp only
  split <;> rfl

theorem exec_pkgWindowWrite {s : State} {rq off : Nat} (v : Word) (ha : alive s = true) (hsees : seesRegs s rq = true)
    (hp : prompt s = true) (hoff : off < 0x10000) (hal : off % 4 = 0) :
    exec (.pkgWindowWrite rq off v) s = .next (allowed (privileged s rq) rq s
      (fun s => pkgProgram rq (rget s R.bootPkgAddr 0 + off) v.toNat s)) := by
  have hrq : rq < 33 := lt_of_reaches (reaches_of_seesRegs hsees)
  have hw : wrReg rq (0x4D0000 + off) v.toNat s = allowed (privileged s rq) rq s
      (fun s => pkgProgram rq (rget s R.bootPkgAddr 0 + off) v.toNat s) := by
    rw [wrReg_of_prompt v.toNat (reaches_of_seesRegs hsees) hp (by omega), busWrite, placeOf_pkgWindow hsees hoff]
  have hx : exec (.pkgWindowWrite rq off v) s = .next (keepQueue s (wrReg rq (0x4D0000 + off) v.toNat s)) :=
    act_alive _ ha (by simp [hrq, hoff])
  rw [hx, hw]
  exact congrArg Host.Outcome.next (keepQueue_of_pending_eq
    (allowed_pending (f := fun s => pkgProgram rq (rget s R.bootPkgAddr 0 + off) v.toNat s) (pkgProgram_pending ..)))

theorem pkgCtrl_pending (rq v : Nat) (s : State) : (pkgCtrl rq v s).pending = s.pending := by
  unfold pkgCtrl
  split
  · rfl
  · split <;> rfl

theorem pkgCtrl_erase {rq : Nat} {s : State} (h : s.boot.pkgBusy = 0) :
    pkgCtrl rq 1 s = { s with boot := { s.boot with pkgBusy := 1 } } := by
  have hb : ¬(!bit 1 0 && !bit 1 1) = true := by decide
  rw [pkgCtrl, if_neg hb, if_neg (not_not.mpr h)]
  rfl

theorem pkgCtrl_commit {rq : Nat} {s : State} (h : s.boot.pkgBusy = 0) :
    pkgCtrl rq 2 s = { s with boot := { s.boot with pkgBusy := 2 } } := by
  have hb : ¬(!bit 2 0 && !bit 2 1) = true := by decide
  rw [pkgCtrl, if_neg hb, if_neg (not_not.mpr h)]
  rfl

theorem pkgCtrl_busy {rq x : Nat} {s : State} (hx : x = 1 ∨ x = 2) (h : s.boot.pkgBusy ≠ 0) :
    pkgCtrl rq x s = countDenied rq s := by
  have hb : ¬(!bit x 0 && !bit x 1) = true := by
    rcases hx with rfl | rfl <;> decide
  rw [pkgCtrl, if_neg hb, if_pos h]

end Sys2Proof.Machine

namespace Sys2Proof

open Sys2Proof.Machine

/-- Settles O25: each command is its register's write, by the branch its rights and the register's state select. -/
theorem cachesWheelsAndOwners : Obligations.CachesWheelsAndOwners := by
  unfold Obligations.CachesWheelsAndOwners
  refine ⟨⟨?cache, ?wheel⟩, ?clear, fun p s => ⟨partClear_tracks p s, rfl, rfl⟩, ?millrace, ?ctx⟩
  case cache =>
    intro s rq v ha hsees hp sl old c x hc
    have hx : exec c s = .next (keepQueue s (settle (sliceCacheWrite rq x s))) := by
      rcases hc with ⟨rfl, rfl⟩ | ⟨rfl, rfl⟩
      · exact exec_spdSliceCacheWrite v ha hsees hp
      · exact exec_cacheInv v ha hsees hp
    rw [hx]
    exact ⟨fun ⟨h8, hr⟩ => by rw [sliceCacheWrite_of_right rfl rfl h8 hr], fun h => by rw [sliceCacheWrite_of_many h]⟩
  case wheel =>
    intro s rq v ha hsees hp k old rows base
    have hk : k = selGet s rq R.spdWheelSel := rfl
    have hold : old = rget s R.spdWheelCfg k := rfl
    have hrows : rows = bits (rget s R.spdWheelSize k) 14 0 := rfl
    have hbase : base = bits v.toNat 29 16 := rfl
    clear_value k old rows base
    rw [exec_spdWheelCfgWrite v ha hsees hp]
    refine ⟨fun hr => ?_, fun hr h0 hb => ?_, fun hr h1 hb => ?_⟩
    · subst hold hrows hk
      rw [wheelCfgWrite_of_foreign hr, keepQueue_countDenied]
    · rw [hbase] at hb ⊢
      rw [wheelCfgWrite_of_disabled hk hold hrows hr h0 hb]
      refine ⟨fun hv => ?_, fun hv hsz => ?_⟩
      · simp only [hv, mod_two_of_bit false hv, Bool.false_and, Bool.false_eq_true, if_false, b2n, Nat.add_zero,
          keepQueue_rput]
      · simp only [hv, hsz, mod_two_of_bit true hv, Bool.not_true, Bool.and_false, Bool.false_eq_true, if_false,
          if_true, b2n, keepQueue_putWheel_rput]
    · rw [hbase] at hb ⊢
      rw [wheelCfgWrite_of_enabled hk hold hrows hr h1 hb]
      refine ⟨fun hv => ?_, fun hv hbusy => ?_, fun hv hbusy => ?_⟩
      · rw [if_pos hv]
        exact congrArg Host.Outcome.next (keepQueue_of_pending_eq rfl)
      · rw [if_neg (by simp [hv]), if_pos hbusy, keepQueue_countDenied]
      · rw [if_neg (by simp [hv]), if_neg (by simp [hbusy]), hb, keepQueue_rput]
  case clear =>
    intro s rq v ha hsees hp p c
    rw [exec_partitionClear v ha hsees hp, partWrite_of_clear]
    refine congrArg Host.Outcome.next (keepQueue_of_pending_eq ?_)
    split <;> rfl
  case millrace =>
    intro s rq v ha hsees hp m old
    rw [exec_mrqCfgWrite v ha hsees hp]
    refine ⟨fun hg => ?_, fun hg h0 => ?_, fun hg h1 hd => ?_, fun hg h1 hd hv => ?_, fun hg h1 hd hv => ?_⟩
    · rw [show mrqWrite rq v.toNat s = countDenied rq s from if_pos (by rw [hg]; rfl)]
    all_goals have hg' : ¬(!mrqGranted s rq m) = true := by simp [hg]
    · rw [show mrqWrite rq v.toNat s = _ from (if_neg hg').trans (if_pos (by rw [h0]; rfl))]
    all_goals have h1' : ¬(!bit old 0) = true := by simp [h1]
    · rw [show mrqWrite rq v.toNat s = _ from (if_neg hg').trans ((if_neg h1').trans (if_pos hd))]
    · rw [show mrqWrite rq v.toNat s = _ from
        (if_neg hg').trans ((if_neg h1').trans ((if_neg (not_not.mpr hd)).trans (if_pos hv)))]
    · rw [show mrqWrite rq v.toNat s = _ from
        (if_neg hg').trans ((if_neg h1').trans ((if_neg (not_not.mpr hd)).trans (if_neg (by simp [hv]))))]
  case ctx =>
    intro s rq v ha hsees hp c
    rw [exec_strCtxOwnerWrite v ha hsees hp, ctxOwnerWrite_eq]
    refine congrArg Host.Outcome.next (keepQueue_of_pending_eq ?_)
    split <;> rfl

/-- Settles O26. -/
theorem securityRegisters : Obligations.SecurityRegisters := by
  unfold Obligations.SecurityRegisters
  refine ⟨⟨?commit, ?foreign, ?noEpoch, ?epoch⟩, ?cred, ?window, ?program, ?refused, ?starts, ?denied, ?erased,
    ?committed, ?notErased, ?notCommitted⟩
  case commit =>
    intro s s1 rq v ha hsees hp hpriv h1
    have hq : s1.pending = s.pending := by
      rw [h1]
      split
      · rfl
      · split <;> rfl
    rw [exec_isoCommit v ha hsees hp, isoCtrlWrite_of_commit hpriv h1]
    refine ⟨fun hn hc => ?_, fun hn c t k hc => ?_, fun hn => ?_⟩
    · rw [hn, if_neg Bool.false_ne_true, commitIso_of_sound hc]
      exact congrArg Host.Outcome.next (keepQueue_of_pending_eq hq)
    · rw [hn, if_neg Bool.false_ne_true, commitIso_of_bad hc]
      exact congrArg Host.Outcome.next (keepQueue_of_pending_eq hq)
    · rw [hn, if_pos rfl]
      exact congrArg Host.Outcome.next (keepQueue_of_pending_eq hq)
  case foreign =>
    intro s rq v ha hsees hp hpriv
    rw [exec_isoCommit v ha hsees hp, isoCtrlWrite_of_foreign _ hpriv, keepQueue_countDenied]
  case noEpoch =>
    intro s ha hn
    rw [exec_isolationEpoch ha, openEpoch, if_neg (by simp [hn])]
    rfl
  case epoch =>
    intro s ha hn
    rw [exec_isolationEpoch ha, openEpoch, if_pos hn]
    rfl
  case cred =>
    intro s rq v ha hsees hp
    have h0 : bit (v.toNat ||| 1) 0 = true := by
      rw [bit_or, show bit 1 0 = true from rfl, Bool.or_true]
    rw [exec_credCommit v ha hsees hp]
    simp only [h0, if_true]
    rfl
  case window =>
    intro s rq off v ha hsees hp hoff hal
    exact exec_pkgWindowWrite v ha hsees hp hoff hal
  case program =>
    intro s rq a v hb he ha hd put
    rw [pkgProgram, if_neg (by simp only [hb, he, hd, ne_eq, not_true, false_or, Bool.false_eq_true, or_false]; omega),
      putPkg, modNv, modBoot]
    by_cases h0 : pkgTarget s = 0
    · simp only [if_pos h0]
      rfl
    · simp only [if_neg h0]
      rfl
  case refused =>
    intro s rq a v h
    exact if_pos (by simpa using h)
  case starts =>
    intro s rq v ha hsees hp hpriv hb
    rw [exec_pkgErase v ha hsees hp, exec_pkgCommit v ha hsees hp, hpriv, allowed, allowed, if_pos rfl, if_pos rfl,
      pkgCtrl_erase hb, pkgCtrl_commit hb]
    exact ⟨rfl, rfl⟩
  case denied =>
    intro s rq v ha hsees hp h
    have hno : ∀ x, (x = 1 ∨ x = 2) → allowed (privileged s rq) rq s (pkgCtrl rq x) = countDenied rq s := by
      intro x hx
      rcases h with h | h
      · rw [h]
        rfl
      · rw [allowed, pkgCtrl_busy hx h, ite_self]
    rw [exec_pkgErase v ha hsees hp, exec_pkgCommit v ha hsees hp, hno 1 (.inl rfl), hno 2 (.inr rfl),
      keepQueue_countDenied]
    exact ⟨rfl, rfl⟩
  case erased =>
    intro s ha hb
    rw [exec_pkgEraseDone ha, pkgEraseEnd, if_pos hb]
    by_cases h0 : pkgTarget s = 0
    · simp only [if_pos h0, putPkg]
      rfl
    · simp only [if_neg h0, putPkg]
      rfl
  case committed =>
    intro s ha hb
    rw [exec_pkgCommitDone ha, pkgCommitEnd, if_pos hb]
    by_cases h0 : pkgCheck s (pkgTarget s) = 0
    · simp only [h0, if_true]
      rfl
    · simp only [if_neg h0]
      rfl
  case notErased =>
    intro s ha hb
    rw [exec_pkgEraseDone ha, pkgEraseEnd, if_neg hb]
  case notCommitted =>
    intro s ha hb
    rw [exec_pkgCommitDone ha, pkgCommitEnd, if_neg hb]

end Sys2Proof

/-! SUPPORT. Lane registers, messages of the MSI-X table, and register access over management sessions (O28). -/

namespace Sys2Proof.Machine

/-! ### Lane registers (R380, R395) -/

theorem lane_div_mod {fn lane : Nat} (hl : lane < 16) : (16 * fn + lane) / 16 = fn ∧ (16 * fn + lane) % 16 = lane := by
  omega

/-- A lane register's write by its function reaches the lane. -/
theorem wrReg_lane {s : State} {fn lane o : Nat} (v : Nat) (hfn : fn < 32) (hl : lane < 16) (ho : o < 0x118)
    (hal : o % 4 = 0) (hr : reaches s fn = true) (hp : prompt s = true) :
    wrReg fn (laneBase fn + o + 0x1000 * lane) v s = laneWrite fn lane o v s := by
  have hoff : laneBase fn + o + 0x1000 * lane = laneBase fn + 0x1000 * lane + o := by omega
  rw [hoff, wrReg_of_prompt v hr hp (laneOffset_ok hl ho hal).2, busWrite, placeOf_lane hfn hl ho]

theorem laneWrite_cons (fn lane v : Nat) (s : State) :
    laneWrite fn lane 0x110 v s = laneConsWrite (16 * fn + lane) v s := by
  simp [laneWrite]

theorem laneWrite_cfg (fn lane v : Nat) (s : State) :
    laneWrite fn lane 0x108 v s = laneCfgWrite (16 * fn + lane) v s := by
  simp [laneWrite]

section
variable {s : State} {fn lane : Nat} (v : Word) (ha : alive s = true) (hfn : fn < 32) (hl : lane < 16)
  (hr : reaches s fn = true) (hp : prompt s = true)
include ha hfn hl hr hp

theorem exec_hostLaneConsWrite : exec (.hostLaneConsWrite fn lane v) s =
    .next (keepQueue s (laneConsWrite (16 * fn + lane) v.toNat s)) := by
  have hx : exec (.hostLaneConsWrite fn lane v) s =
      .next (keepQueue s (wrReg fn (laneBase fn + 0x110 + 0x1000 * lane) v.toNat s)) :=
    act_alive _ ha (by simp [hfn, hl])
  rw [hx, wrReg_lane v.toNat hfn hl (by decide) (by decide) hr hp, laneWrite_cons]

theorem exec_hostLaneCfgWrite : exec (.hostLaneCfgWrite fn lane v) s =
    .next (keepQueue s (laneCfgWrite (16 * fn + lane) v.toNat s)) := by
  have hx : exec (.hostLaneCfgWrite fn lane v) s =
      .next (keepQueue s (wrReg fn (laneBase fn + 0x108 + 0x1000 * lane) v.toNat s)) :=
    act_alive _ ha (by simp [hfn, hl])
  rw [hx, wrReg_lane v.toNat hfn hl (by decide) (by decide) hr hp, laneWrite_cfg]

end

/-- An index that passes more replies than there are is dropped and counted. -/
theorem laneConsWrite_of_beyond {n v : Nat} {s : State}
    (h : ((laneSt s n).replies + 2 ^ 32 - (laneSt s n).cons) % 2 ^ 32 < (v + 2 ^ 32 - (laneSt s n).cons) % 2 ^ 32) :
    laneConsWrite n v s = countDenied (n / 16) s := if_pos h

/-- Credits come back; a pending violation takes one of them for its reply. -/
theorem laneConsWrite_of_within {n v : Nat} {s : State} (l : Lane) (d : Nat) (hl : l = laneSt s n)
    (hd : d = (v + 2 ^ 32 - l.cons) % 2 ^ 32) (h : d ≤ (l.replies + 2 ^ 32 - l.cons) % 2 ^ 32) :
    laneConsWrite n v s =
      (let s1 := modLane n (fun l => { l with cons := v % 2 ^ 32, credits := l.credits + d }) s
       match l.viol with
       | some (tag, c) => if 0 < l.credits + d then
           signalReply n (ringReply n (replyRecord 0x09 0 (n % 16) tag s.now c 0 0 0)
             (modLane n (fun l => { l with viol := none, credits := l.credits - 1 }) s1)) else s1
       | none => s1) := by
  subst hl hd
  exact if_neg (Nat.not_lt.mpr h)

/-- A write to an enabled lane's configuration that would change a fixed field is counted. -/
theorem laneCfgWrite_of_enabled {n : Nat} (v : Nat) {s : State} (h : laneEn (laneSt s n) = true) :
    laneCfgWrite n v s =
      (let s1 := if v &&& 0x07FF001E = (laneSt s n).cfg.toNat &&& 0x07FF001E then s else countDenied (n / 16) s
       if bit v 0 then laneRestart n s1
       else if (laneSt s n).credits = 32 ∧ (laneSt s n).viol = none then
         modLane n (fun l => { l with cfg := BitVec.ofNat 32 ((laneSt s n).cfg.toNat - 1) }) s1
       else countDenied (n / 16) s) := by
  have hb : bit (laneSt s n).cfg.toNat 0 = true := h
  simp only [laneCfgWrite, hb, if_true, ne_eq, ite_not]

theorem laneCfgWrite_of_disabled {n : Nat} (v : Nat) {s : State} (h : laneEn (laneSt s n) = false) :
    laneCfgWrite n v s =
      (let s2 := modLane n (fun l => { l with cfg := BitVec.ofNat 32 ((v &&& 0x1F) +
          (if bits v 26 16 < msixCount (n / 16) then bits v 26 16 else bits (laneSt s n).cfg.toNat 26 16) * 65536) })
        (if bits v 26 16 < msixCount (n / 16) then s else countDenied (n / 16) s)
       if bit v 0 then laneRestart n (modLane n (fun l => { l with
         staging := [], unannounced := 0, modStart := none }) s2) else s2) := by
  have hb : bit (laneSt s n).cfg.toNat 0 = false := h
  simp only [laneCfgWrite, hb, Bool.false_eq_true, if_false, decide_eq_true_eq]

/-! ### Messages (R361) -/

theorem msixCount_le (fn : Nat) : msixCount fn ≤ 1024 := by
  unfold msixCount
  split <;> decide

theorem exec_msixUnmask {s : State} {fn vec : Nat} (ha : alive s = true) (hfn : fn < 32) (hv : vec < 1024) :
    exec (.msixUnmask fn vec) s =
      .next (keepQueue s (if vec < msixCount fn ∧ reaches s fn then unmaskVec fn vec s else s)) :=
  act_alive _ ha (by simp [hfn, hv])

/-- A function under reset or with MSI-X disabled sends nothing. -/
theorem msixEvent_of_off {fn : Nat} (vec : Nat) {s : State}
    (h : (fnSt s fn).resetting = true ∨ (fnSt s fn).msixEn = false) : msixEvent fn vec s = s := by
  refine if_pos ?_
  rcases h with h | h <;> simp [h]

theorem msixEvent_of_on {fn vec : Nat} {s : State} (hr : (fnSt s fn).resetting = false)
    (he : (fnSt s fn).msixEn = true) (hv : vec < msixCount fn) : msixEvent fn vec s =
      if msixMasked s fn vec then
        (if s.msixPend.contains (fn * 4096 + vec) then s else { s with msixPend := s.msixPend ++ [fn * 4096 + vec] })
      else hostPut fn (msixW s fn vec 0 + 2 ^ 32 * msixW s fn vec 1) (leBytes 4 (msixW s fn vec 2)) s := by
  refine if_neg ?_
  simp [hr, he, hv]

/-- An event on a masked vector waits in its pending bit. -/
theorem msixEvent_of_masked {fn vec : Nat} {s : State} (hr : (fnSt s fn).resetting = false)
    (he : (fnSt s fn).msixEn = true) (hv : vec < msixCount fn) (hm : msixMasked s fn vec = true) :
    (msixEvent fn vec s).msixPend.contains (fn * 4096 + vec) = true ∧ (msixEvent fn vec s).host0 = s.host0 ∧
      (msixEvent fn vec s).host1 = s.host1 := by
  rw [msixEvent_of_on hr he hv, if_pos hm]
  by_cases hc : s.msixPend.contains (fn * 4096 + vec) = true
  · rw [if_pos hc]
    exact ⟨hc, rfl, rfl⟩
  · rw [if_neg hc]
    exact ⟨by simp, rfl, rfl⟩

/-! ### Management sessions (R375) -/

theorem exec_regRead {s : State} {sess : Nat} (off : Nat) (ha : alive s = true) (hs : sess < 8) :
    exec (.regRead sess off) s = .next (keepQueue s (mgmtAct sess (fun _ => mgmtRegRead sess off) s)) :=
  act_alive _ ha (decide_eq_true hs)

theorem exec_regWrite {s : State} {sess : Nat} (off : Nat) (v : Word) (ha : alive s = true) (hs : sess < 8) :
    exec (.regWrite sess off v) s = .next (keepQueue s (mgmtAct sess (mgmtRegWrite sess off v.toNat) s)) :=
  act_alive _ ha (decide_eq_true hs)

theorem mgmtAct_of_open {s : State} {sess : Nat} {m : MSess} (f : MSess → State → State)
    (hm : msessAt s sess = some m) (h3 : m.stage = 3) : mgmtAct sess f s = f m (wakeDevice s) := by
  rw [mgmtAct, hm]
  exact if_pos h3

theorem mgmtAct_of_closed {s : State} {sess : Nat} (f : MSess → State → State)
    (h : ∀ m, msessAt s sess = some m → m.stage ≠ 3) : mgmtAct sess f s = s := by
  unfold mgmtAct
  split
  · next m hm => exact if_neg (h m hm)
  · rfl

theorem wakeDevice_pending (s : State) : (wakeDevice s).pending = s.pending := by
  unfold wakeDevice
  split <;> rfl

end Sys2Proof.Machine

namespace Sys2Proof

open Sys2Proof.Machine

/-- Settles O28. -/
theorem lanesMessagesManagement : Obligations.LanesMessagesManagement := by
  unfold Obligations.LanesMessagesManagement
  refine ⟨⟨?cons, ?restart, fun s n => rfl, ?enables, ?disables⟩, ⟨?window, ?unmasks, ?absent,
    fun fn vec s h => msixEvent_of_off vec h, ?pends, ?sends⟩, ?reads, ?writes, ?operator, ?closed⟩
  case cons =>
    intro s fn lane v ha hfn hl hr hp n l d
    obtain ⟨hdiv, hmod⟩ := lane_div_mod (fn := fn) hl
    rw [exec_hostLaneConsWrite v ha hfn hl hr hp]
    refine ⟨fun h => ?_, fun h hv => ?_, fun h tag c hv => ?_⟩
    · rw [laneConsWrite_of_beyond h, keepQueue_countDenied]
    · rw [laneConsWrite_of_within l d rfl rfl h]
      simp only [hv]
      rfl
    · rw [laneConsWrite_of_within l d rfl rfl h]
      simp only [hv, show n % 16 = lane from hmod]
  case restart =>
    intro s fn lane v ha hfn hl hr hp hen hv
    obtain ⟨hdiv, -⟩ := lane_div_mod (fn := fn) hl
    rw [exec_hostLaneCfgWrite v ha hfn hl hr hp, laneCfgWrite_of_enabled _ hen, hdiv]
    simp only [hv, if_true]
  case enables =>
    intro s fn lane v ha hfn hl hr hp hen n ok vec s2
    obtain ⟨hdiv, -⟩ := lane_div_mod (fn := fn) hl
    rw [exec_hostLaneCfgWrite v ha hfn hl hr hp, laneCfgWrite_of_disabled _ hen, hdiv]
    refine ⟨fun hv => ?_, fun hv => ?_⟩
    · simp only [hv, Bool.false_eq_true, if_false]
      refine congrArg Host.Outcome.next (keepQueue_of_pending_eq ?_)
      rw [modLane_pending]
      split <;> rfl
    · simp only [hv, if_true]
      rfl
  case disables =>
    intro s fn lane v ha hfn hl hr hp hen hv
    obtain ⟨hdiv, -⟩ := lane_div_mod (fn := fn) hl
    rw [exec_hostLaneCfgWrite v ha hfn hl hr hp, laneCfgWrite_of_enabled _ hen, hdiv]
    simp only [hv, Bool.false_eq_true, if_false]
    refine congrArg Host.Outcome.next (keepQueue_of_pending_eq ?_)
    split
    · rw [modLane_pending]
      split <;> rfl
    · rfl
  case window =>
    intro s fn lane ha hfn hl
    exact act_alive _ ha (by simp [hfn, hl])
  case unmasks =>
    intro s fn vec ha hfn hv hr
    rw [exec_msixUnmask ha hfn (Nat.lt_of_lt_of_le hv (msixCount_le fn)), if_pos ⟨hv, hr⟩]
    rfl
  case absent =>
    intro s fn vec ha hfn hv h
    have hno : ¬(vec < msixCount fn ∧ reaches s fn = true) := by
      rcases h with h | h
      · omega
      · simp [h]
    rw [exec_msixUnmask ha hfn hv, if_neg hno]
    rfl
  case pends =>
    intro fn vec s hr he hv hm
    refine msixEvent_of_masked hr he hv ?_
    rcases hm with hm | hm <;> simp [msixMasked, hm]
  case sends =>
    intro fn vec s hr he hv hm hb
    rw [msixEvent_of_on hr he hv, if_neg (by simp [msixMasked, hm, hb])]
  case reads =>
    intro s sess off m ha hs hm h3
    rw [exec_regRead off ha hs, mgmtAct_of_open _ hm h3, mgmtRegRead]
    by_cases h0 : off % 4 = 0
    · rw [if_neg (not_not.mpr h0), if_pos h0]
    · rw [if_pos h0, if_neg h0]
      rfl
  case writes =>
    intro s sess off v m ha hs hm h3 ho
    rw [exec_regWrite off v ha hs, mgmtAct_of_open _ hm h3, mgmtRegWrite, if_pos ho]
  case operator =>
    intro s sess off v m ha hs hm h3 ho
    rw [exec_regWrite off v ha hs, mgmtAct_of_open _ hm h3, mgmtRegWrite, if_neg (by simp [ho])]
    exact congrArg Host.Outcome.next (keepQueue_of_pending_eq (wakeDevice_pending s))
  case closed =>
    intro s sess off v ha hs h
    rw [exec_regRead off ha hs, exec_regWrite off v ha hs, mgmtAct_of_closed _ h, mgmtAct_of_closed _ h]
    exact ⟨rfl, rfl⟩

end Sys2Proof

/-! SUPPORT. The head of a source and the header checks (O29); HELLO, ECHO and CAPS_READ (O30). -/

namespace Sys2Proof.Machine

/-! ### The packet a source applies next (R379, R384) -/

/-- A source with a packet that waits applies none. -/
theorem nextPkt_of_waiter {s : State} {src : Src} (h : (waiterOf s (srcNum src)).isSome = true) :
    nextPkt s src = none := if_pos (by simp [h])

/-- A packet with a source number below 512 is a lane's. -/
theorem src_lt_of_lane {s : State} {src : Src} {p : Pkt} (hn : nextPkt s src = some p) (hp : p.src < 512) :
    ∃ f l, src = .lane f l := by
  cases src with
  | lane f l => exact ⟨f, l, rfl⟩
  | mgmt n q =>
    unfold nextPkt at hn
    split at hn
    · cases hn
    · simp only at hn
      split at hn
      · split at hn
        · obtain ⟨x, -, rfl⟩ := Option.map_eq_some_iff.mp hn
          simp only at hp
          omega
        · cases hn
      · cases hn
  | service =>
    unfold nextPkt at hn
    split at hn
    · cases hn
    · simp only at hn
      split at hn
      · cases hn
      · obtain ⟨x, -, rfl⟩ := Option.map_eq_some_iff.mp hn
        simp at hp

theorem arrives_of_lane (f l : Nat) (s : State) : arrives (.lane f l) s = s := rfl

/-- A message that is applied at once, and one of a session that is not open, does not wait. -/
theorem arrives_of_none {s : State} {src : Src}
    (h : ∀ n q, src = .mgmt n q → (msessAt s n).all (fun m => m.stage != 3) = true ∨ q = []) : arrives src s = s := by
  cases src with
  | lane f l => rfl
  | service => rfl
  | mgmt n q =>
    unfold arrives
    simp only
    split
    · next m hm =>
      refine if_neg ?_
      rintro ⟨h3, hq⟩
      rcases h n q rfl with h | h
      · rw [hm] at h
        simp [h3] at h
      · exact hq h
    · rfl

theorem arrives_of_message {s : State} {n : Nat} {q : List Word} {m : MSess} (hm : msessAt s n = some m)
    (h3 : m.stage = 3) (hq : q ≠ []) :
    arrives (.mgmt n q) s = putMsess n (some { m with packets := m.packets ++ [q] }) (wakeDevice s) := by
  unfold arrives
  simp only [hm]
  exact if_pos ⟨h3, hq⟩

/-! ### The header checks (R382) -/

theorem headCheck_of_reserved {s : State} {p : Pkt} (h : opcodes.contains (pOpcode p) = false) :
    headCheck s p = some (0x01, 0) := if_pos (by simp only [h, Bool.not_false, Bool.or_true])

/-- What a packet that passes the header checks has. -/
theorem of_headCheck_none {s : State} {p : Pkt} (h : headCheck s p = none) :
    opcodes.contains (pOpcode p) = true ∧ 1 ≤ pLength p ∧ pLength p ≤ 16 ∧ wd p.w 3 = 0 ∧
    (pOpcode p ≠ 0x01 → negotiated s p = some (pVersion p)) ∧ bits (wd p.w 2) 5 0 = p.fn ∧ roleMay s p = true ∧
    4 + needWords p ≤ 4 * pLength p := by
  unfold headCheck at h
  simp only at h
  split at h
  · cases h
  · next h1 =>
    split at h
    · cases h
    · split at h
      · cases h
      · next h3 =>
        split at h
        · cases h
        · split at h
          · cases h
          · next h5 =>
            split at h
            · cases h
            · next h6 =>
              split at h
              · cases h
              · split at h
                · cases h
                · next h8 =>
                  split at h
                  · cases h
                  · next h9 =>
                    simp only [Bool.or_eq_true, decide_eq_true_eq, Bool.not_eq_true', not_or, Bool.not_eq_false] at h1
                    obtain ⟨⟨⟨-, hl0⟩, hl16⟩, hop⟩ := h1
                    refine ⟨hop, Nat.pos_of_ne_zero hl0, Nat.le_of_not_lt hl16, not_not.mp h3, fun hne => ?_,
                      not_not.mp h6, by simpa using h8, Nat.le_of_not_lt h9⟩
                    simpa [hne] using h5

theorem countRole_eq (s : State) (p : Pkt) (e : Err) :
    countRole p e s = if p.isMgmt = true ∧ e = (0x04, 0) then cnt R.mgtCmdDenied 0 1 s else s := by
  simp only [countRole, Bool.and_eq_true, beq_iff_eq]

theorem countRole_of_ne {p : Pkt} {e : Err} (h : e ≠ (0x04, 0)) (s : State) : countRole p e s = s := by
  rw [countRole_eq, if_neg (fun hx => h hx.2)]

/-! ### A command that finds no packet of its own -/

theorem ccp_of_none {op : Nat} {src : Src} {s : State} (body : Pkt → State → Res) (h : nextPkt s src = none) :
    ccp op src body s = arrives src s := by
  rw [ccp, h]

theorem ccp_of_other {op : Nat} {src : Src} {s : State} {p : Pkt} (body : Pkt → State → Res)
    (hn : nextPkt s src = some p) (hne : pOpcode p ≠ op) (h : p.src < 512 ∨ opcodes.contains (pOpcode p) = true) :
    ccp op src body s = arrives src s := by
  rw [ccp, hn]
  exact if_pos (by rcases h with h | h <;> simp only [h, hne, ne_eq, not_false_eq_true, decide_true, Bool.true_or,
    Bool.or_true, Bool.and_self])

/-- A packet that fails a header check is answered with it. -/
theorem ccp_of_err {op : Nat} {src : Src} {s : State} {p : Pkt} {e : Err} (body : Pkt → State → Res)
    (hn : nextPkt s src = some p) (hop : pOpcode p = op ∨ (512 ≤ p.src ∧ opcodes.contains (pOpcode p) = false))
    (he : headCheck (servedState s p) p = some e) :
    ccp op src body s = settle (answerPkt p e.1 e.2 0 0 0 [] (countRole p e (servedState s p))) := by
  have hrun : ¬(decide (pOpcode p ≠ op) && (decide (p.src < 512) || opcodes.contains (pOpcode p))) = true := by
    rcases hop with h | ⟨h, hc⟩
    · simp [h]
    · simp only [hc, Bool.or_false, Bool.and_eq_true, decide_eq_true_eq, not_and]
      omega
  have he' : headCheck (served s p) p = some e := he
  rw [ccp, hn]
  simp only [if_neg hrun, he']
  rfl

/-! ### The commands of CCP -/

/-- The row is the CCP command of an opcode: its effect is the packet of its source. -/
def IsCcp (op : Nat) (src : Src) (c : Instr) (s : State) : Prop :=
  ∃ body, exec c s = .next (keepQueue s (ccp op src body s))

/-- The opcodes with their rows, but for FW_COMMIT, whose recovery restarts the device. -/
def ccpRows (src : Src) : List (Nat × Instr) :=
  [(0x01, .hello src), (0x02, .capsRead src), (0x03, .echo src), (0x10, .regionMap src), (0x11, .regionUnmap src),
   (0x12, .windowOpen src), (0x13, .windowClose src), (0x20, .graphLoad src), (0x21, .graphArm src),
   (0x22, .graphDisarm src), (0x23, .graphUnload src), (0x24, .jobSubmit src), (0x25, .jobCancel src),
   (0x30, .streamRearm src), (0x31, .queuePush src), (0x32, .queuePop src), (0x40, .sensorProfile src),
   (0x41, .sensorSettings src), (0x42, .streamStart src), (0x43, .streamStop src), (0x44, .txConfig src),
   (0x50, .sessionOpen src), (0x51, .sessionClose src), (0x52, .jobKey src), (0x60, .statsRead src),
   (0x61, .logRead src), (0x70, .fwBlock src), (0x72, .fwConfirm src), (0x73, .fwStatus src)]

theorem isCcp_of_mem {s : State} {src : Src} {op : Nat} {c : Instr} (ha : alive s = true) (hw : src.wf = true)
    (h : (op, c) ∈ ccpRows src) : IsCcp op src c s := by
  have hact := fun op body => act_alive (s := s) (ccp op src body) ha hw
  simp only [ccpRows, List.mem_cons, Prod.mk.injEq, List.not_mem_nil, or_false] at h
  rcases h with ⟨rfl, rfl⟩ | ⟨rfl, rfl⟩ | ⟨rfl, rfl⟩ | ⟨rfl, rfl⟩ | ⟨rfl, rfl⟩ | ⟨rfl, rfl⟩ | ⟨rfl, rfl⟩ | ⟨rfl, rfl⟩ |
    ⟨rfl, rfl⟩ | ⟨rfl, rfl⟩ | ⟨rfl, rfl⟩ | ⟨rfl, rfl⟩ | ⟨rfl, rfl⟩ | ⟨rfl, rfl⟩ | ⟨rfl, rfl⟩ | ⟨rfl, rfl⟩ | ⟨rfl, rfl⟩ |
    ⟨rfl, rfl⟩ | ⟨rfl, rfl⟩ | ⟨rfl, rfl⟩ | ⟨rfl, rfl⟩ | ⟨rfl, rfl⟩ | ⟨rfl, rfl⟩ | ⟨rfl, rfl⟩ | ⟨rfl, rfl⟩ | ⟨rfl, rfl⟩ |
    ⟨rfl, rfl⟩ | ⟨rfl, rfl⟩ | ⟨rfl, rfl⟩
  all_goals exact ⟨_, hact _ _⟩

theorem isCcp_fwCommit {s : State} {src : Src} (ha : alive s = true) (hw : src.wf = true) (hph : s.boot.phase ≠ 4) :
    IsCcp 0x71 src (.fwCommit src) s := by
  refine ⟨cmdFwCommit, (act_alive (fun s => bootRecovered s (ccp 0x71 src cmdFwCommit s)) ha hw).trans ?_⟩
  rw [bootRecovered, if_neg (fun h => hph h.1)]

/-! ### HELLO, ECHO and CAPS_READ (R383, R358, R389) -/

/-- A function after a change of a function: the change at that function, any other as before. -/
theorem fnSt_modFn (s : State) (n m : Nat) (f : Fn → Fn) (h : tkeys 0 s.fns = true) :
    fnSt (modFn n f s) m = if m = n then f (fnSt s n) else fnSt s m := by
  unfold fnSt modFn tmod
  simp only
  rw [tget_tset_from _ _ _ 0 _ _ _ h (fun _ => rfl)]

theorem setNegotiated_of_fn {p : Pkt} (v : Nat) (s : State) (h : p.src < 512) :
    setNegotiated p v s = modFn p.fn (fun f => { f with negotiated := some v }) s := if_pos h

theorem helloVersion_eq (neg : Option Nat) (w : Nat) : helloVersion neg w =
    if bits w 7 0 ≤ neg.getD 0x10 ∧ neg.getD 0x10 ≤ bits w 15 8 then some (neg.getD 0x10) else none := rfl

end Sys2Proof.Machine

namespace Sys2Proof

open Sys2Proof.Machine

/-- Settles O29: every row of CCP runs `ccp` of its opcode, whose branches the clauses are. -/
theorem headerChecksComeFirst : Obligations.HeaderChecksComeFirst := by
  unfold Obligations.HeaderChecksComeFirst
  refine ⟨?rows, fun s src h => arrives_of_none h, fun s n q m hm h3 hq => arrives_of_message hm h3 hq,
    fun s src h => nextPkt_of_waiter h, fun s p h => of_headCheck_none h, countRole_eq⟩
  intro s src op c ha hw hc
  obtain ⟨body, hx⟩ : IsCcp op src c s := by
    rcases hc with hc | ⟨rfl, rfl, hph⟩
    · exact isCcp_of_mem ha hw hc
    · exact isCcp_fwCommit ha hw hph
  rw [hx]
  refine ⟨fun hn => by rw [ccp_of_none body hn], fun p hn => ⟨fun st det hop he => ?_, fun hne hk => ?_,
    fun hlt hne => ?_, fun hge hk => ?_⟩⟩
  · rw [ccp_of_err body hn (.inl hop) he]
    rfl
  · rw [ccp_of_other body hn hne (.inr hk)]
  · obtain ⟨f, l, rfl⟩ := src_lt_of_lane hn hlt
    rw [ccp_of_other body hn hne (.inl hlt), arrives_of_lane]
    rfl
  · rw [ccp_of_err body hn (.inr ⟨hge, hk⟩) (headCheck_of_reserved hk), countRole_of_ne (by decide)]
    rfl

/-- Settles O30. -/
theorem helloEchoAndCapabilities : Obligations.HelloEchoAndCapabilities := by
  unfold Obligations.HelloEchoAndCapabilities
  refine ⟨⟨?hello, ?echo, ?negotiated⟩, ?caps⟩
  case hello =>
    intro s src p hs hr
    have hx : exec (.hello src) s = .next (ended s p (cmdHello p (servedState s p))) := ccpAct_of_serves cmdHello hs
    rw [hx, cmdHello, hr, checked_none, checked_nil, helloVersion_eq]
    by_cases h : bits (wd p.w 4) 7 0 ≤ (negotiated (servedState s p) p).getD 0x10 ∧
        (negotiated (servedState s p) p).getD 0x10 ≤ bits (wd p.w 4) 15 8
    · simp only [if_pos h, ended_ok]
    · simp only [if_neg h, ended_fail]
  case echo =>
    intro s src p hs hr
    have hx : exec (.echo src) s = .next (ended s p (cmdEcho p (servedState s p))) := ccpAct_of_serves cmdEcho hs
    rw [hx, cmdEcho, hr, checked_none, checked_nil, ended_ok]
  case negotiated =>
    intro s p v hlt hk
    rw [setNegotiated_of_fn v s hlt]
    refine ⟨?_, fun f hf => ?_, rfl⟩
    · rw [fnSt_modFn s _ _ _ hk, if_pos rfl]
    · rw [fnSt_modFn s _ _ _ hk, if_neg hf]
  case caps =>
    intro s src p hs hr ha h0 h1 hp0 hp hg
    have hx : exec (.capsRead src) s = .next (ended s p (cmdCaps p (servedState s p))) := ccpAct_of_serves cmdCaps hs
    have hn : (wd p.w 6 == 0 || decide (8720 < wd p.w 6)) = false := by simp; omega
    simp only [hx, cmdCaps, hr, hn, chk_false, checked_none, checked_nil, destBad_of_populated 4 ha hp0,
      destBad_of_populated 4 ha hp, destDenied_of_granted 4 hg, destNone_of_ne p ha, Bool.false_eq_true, if_false,
      ended_ite, ended_fail, ended_ok]

end Sys2Proof

/-! SUPPORT. Regions of the PCIe address space and remote windows (O31). -/

namespace Sys2Proof.Machine

theorem wakeDevice_now (s : State) : (wakeDevice s).now = s.now := by
  unfold wakeDevice
  split <;> rfl

theorem servedState_now (s : State) (p : Pkt) : (servedState s p).now = s.now := by
  unfold servedState served
  simp only
  split
  · split
    · exact wakeDevice_now s
    · exact wakeDevice_now s
  · rfl

/-! ### Regions (R303, R383) -/

theorem fnSt_modSeq (f : Seq → Seq) (s : State) (n : Nat) : fnSt (modSeq f s) n = fnSt s n := rfl

theorem unmapRegion_now (fn k : Nat) (r : Region) (s : State) : (unmapRegion fn k r s).now = s.now := rfl

/-- A region's end leaves every other region of the function, and the regions of every other function. -/
theorem fnSt_unmapRegion {s : State} (fn k f : Nat) (r : Region) (h : tkeys 0 s.fns = true) :
    fnSt (unmapRegion fn k r s) f = if f = fn then
      { fnSt s fn with regions := tset none (fnSt s fn).regions k none } else fnSt s f :=
  fnSt_modFn _ _ _ _ h

/-- No pass of another function reads through a region of this one. -/
theorem regionFree_of_no_run {s : State} {fn k : Nat} (r : Region) (h : ∀ x ∈ s.seq.runs, x.task.tenant ≠ fn) :
    waitMet (unmapRegion fn k r s) (.regionFree fn k) = true := by
  have hany : ∀ x ∈ (unmapRegion fn k r s).seq.runs, x.task.tenant ≠ fn := by
    intro x hx
    obtain ⟨y, hy, rfl⟩ := List.mem_map.mp hx
    have hne := h y hy
    simpa only [hne, if_false] using hne
  rw [waitMet, Bool.not_eq_true', List.any_eq_false]
  intro x hx
  simp [hany x hx]

/-! ### Windows (R325 to R329) -/

theorem winSt_modWin {s : State} (n m : Nat) (f : Window → Window) (h : tkeys 0 s.windows = true) :
    winSt (modWin n f s) m = if m = n then f (winSt s n) else winSt s m := by
  unfold winSt modWin
  simp only
  rw [tget_tset_from _ _ _ 0 _ _ _ h (fun _ => rfl)]
  rfl

theorem winSt_modWin_self {s : State} (n : Nat) (f : Window → Window) (h : tkeys 0 s.windows = true) :
    winSt (modWin n f s) n = f (winSt s n) := by
  rw [winSt_modWin n n f h, if_pos rfl]

theorem tkeys_modWin {s : State} (n : Nat) (f : Window → Window) (h : tkeys 0 s.windows = true) :
    tkeys 0 (modWin n f s).windows = true := tkeys_tset _ _ _ _ _ (Nat.zero_le _) h

theorem winSt_of_windows {s t : State} (h : t.windows = s.windows) (k : Nat) : winSt t k = winSt s k := by
  unfold winSt
  rw [h]

/-- The state, the writes in flight and the close point of a window, which its late writes do not touch. -/
def WinLike (k : Nat) (s t : State) : Prop :=
  tkeys 0 t.windows = true ∧ (winSt t k).st = (winSt s k).st ∧ (winSt t k).flight = (winSt s k).flight ∧
    (winSt t k).closePoint = (winSt s k).closePoint

theorem WinLike.trans {k : Nat} {s t u : State} (h : WinLike k s t) (h' : WinLike k t u) : WinLike k s u := by
  obtain ⟨-, h1, h2, h3⟩ := h
  obtain ⟨h0, h1', h2', h3'⟩ := h'
  exact ⟨h0, h1'.trans h1, h2'.trans h2, h3'.trans h3⟩

/-- A change of the window's other fields. -/
theorem winLike_of_windows {k : Nat} {s t u : State} (f : Window → Window) (h : tkeys 0 s.windows = true)
    (ht : t.windows = s.windows) (hu : u.windows = (modWin k f t).windows)
    (hf : ∀ w, (f w).st = w.st ∧ (f w).flight = w.flight ∧ (f w).closePoint = w.closePoint) : WinLike k s u := by
  have h' : tkeys 0 t.windows = true := ht ▸ h
  unfold WinLike
  rw [hu, winSt_of_windows hu, winSt_modWin_self _ _ h', winSt_of_windows ht]
  exact ⟨tkeys_modWin _ _ h', hf _⟩

theorem winLike_winLateWrite {s : State} (k req : Nat) (h : tkeys 0 s.windows = true) :
    WinLike k s (winLateWrite k req s) := by
  unfold winLateWrite
  simp only
  split
  · exact winLike_of_windows _ h ((addLog_windows _ _ _ _ _ _ _).trans (cnt_windows _ _ _ _)) rfl
      (fun _ => ⟨rfl, rfl, rfl⟩)
  · exact winLike_of_windows (t := cnt R.winLate k 1 s) (fun w => { w with late := _ }) h (cnt_windows _ _ _ _) rfl
      (fun _ => ⟨rfl, rfl, rfl⟩)

theorem winLike_lateWrites (k : Nat) : ∀ (l : List WinWrite) (s : State) (_ : tkeys 0 s.windows = true),
    WinLike k s (l.foldl (fun s f => winLateWrite k f.req s) s)
  | [], _, h => ⟨h, rfl, rfl, rfl⟩
  | f :: l, _, h =>
    have h1 := winLike_winLateWrite k f.req h
    h1.trans (winLike_lateWrites k l _ h1.1)

/-- A draining window with nothing in flight is closed at once. -/
theorem winSt_winDrain {s : State} {k : Nat} (h : tkeys 0 s.windows = true) (hd : (winSt s k).st = .draining) :
    (winSt (winDrain k s) k).st = (if (winSt s k).flight = [] then .closed else .draining) ∧
    (winSt (winDrain k s) k).flight = (winSt s k).flight ∧
    (winSt (winDrain k s) k).closePoint = (winSt s k).closePoint := by
  by_cases hf : (winSt s k).flight = []
  · have hc : ((winSt s k).st == .draining && (winSt s k).flight.isEmpty) = true := by simp [hd, hf]
    have hw : (winDrain k s).windows = (modWin k (fun w => { w with st := .closed, revoked := false }) s).windows := by
      rw [winDrain]
      simp only [hc, if_true]
      split
      · exact addLog_windows _ _ _ _ _ _ _
      · rfl
    rw [winSt_of_windows hw, winSt_modWin_self _ _ h, if_pos hf]
    exact ⟨rfl, rfl, rfl⟩
  · have hc : ((winSt s k).st == .draining && (winSt s k).flight.isEmpty) = false := by simp [hf]
    have hw : winDrain k s = s := by
      rw [winDrain]
      simp only [hc, Bool.false_eq_true, if_false]
    rw [hw, if_neg hf]
    exact ⟨hd, rfl, rfl⟩

/-- Only the writes accepted before the close point are still in flight. -/
theorem winSt_winClose {s : State} {k : Nat} (rev : Bool) (h : tkeys 0 s.windows = true)
    (ho : (winSt s k).st = .opened) :
    (winSt (winClose k rev s) k).st =
      (if (winSt s k).flight.filter (fun f => f.stamp != s.now) = [] then .closed else .draining) ∧
    (winSt (winClose k rev s) k).flight = (winSt s k).flight.filter (fun f => f.stamp != s.now) ∧
    (winSt (winClose k rev s) k).closePoint = s.now := by
  have hb : ((winSt s k).st == .opened) = true := by simp [ho]
  let s1 := modWin k (fun w => { w with
    st := .draining, closePoint := s.now, late := [], revoked := rev,
    flight := w.flight.filter (fun f => f.stamp != s.now) }) s
  let after := (winSt s k).flight.filter (fun f => f.stamp == s.now)
  have h1 : tkeys 0 s1.windows = true := tkeys_modWin _ _ h
  have hw1 : winSt s1 k = _ := winSt_modWin_self k _ h
  obtain ⟨h2, hst, hfl, hcp⟩ := winLike_lateWrites k after
    (rput R.winAccepted k (rget s R.winAccepted k - after.length) s1) h1
  have hc : winClose k rev s = winDrain k (after.foldl (fun s f => winLateWrite k f.req s)
      (rput R.winAccepted k (rget s R.winAccepted k - after.length) s1)) := by
    rw [winClose]
    simp only [hb, if_true]
    rfl
  rw [winSt_of_windows (rput_windows _ _ _ _)] at hst hfl hcp
  rw [hw1] at hst hfl hcp
  obtain ⟨d1, d2, d3⟩ := winSt_winDrain h2 hst
  rw [hc, d1, d2, d3, hfl, hcp]
  exact ⟨rfl, rfl, rfl⟩

/-- A waiter of a window's close is answered once the window is closed. -/
theorem settleWaits_windowClosed {s : State} {src k : Nat} {w : Waiter} (hw : s.waits = [(src, some w)])
    (hk : w.what = .windowClosed k) :
    settleWaits s = if (winSt s k).st = .closed then replyWait src w 0 0 w.r0 0 s else s := by
  have hm : waitMet s w.what = decide ((winSt s k).st = .closed) := by
    rw [hk]
    rfl
  rw [settleWaits, hw, List.foldl_cons, List.foldl_nil]
  simp only [hm, decide_eq_true_eq]

end Sys2Proof.Machine

namespace Sys2Proof

open Sys2Proof.Machine

/-- Settles O31. -/
theorem regionsAndWindows : Obligations.RegionsAndWindows := by
  unfold Obligations.RegionsAndWindows
  refine ⟨⟨?map, ?unmap, ?frame, fun s fn k r h => regionFree_of_no_run r h, ?apart⟩, ?opens, ?denied, ?closes,
    fun s k rev h ho => winSt_winClose rev h ho, fun s src w k hw hk => settleWaits_windowClosed hw hk⟩
  case map =>
    intro s src p a n hs hr ha hn
    have hx : exec (.regionMap src) s = .next (ended s p (cmdRegionMap p (servedState s p))) :=
      ccpAct_of_serves cmdRegionMap hs
    refine ⟨fun h => ?_, fun h0 h1 => ?_⟩
    · have hb : (a % 4096 != 0 || decide (2 ^ 64 < a + n)) = true := by simpa using h
      simp only [hx, cmdRegionMap, hr, ← ha, ← hn, hb, chk_true, checked_none, checked_some, ended_fail]
    · have hb : (a % 4096 != 0 || decide (2 ^ 64 < a + n)) = false := by simpa using ⟨h0, h1⟩
      simp only [hx, cmdRegionMap, hr, ← ha, ← hn, hb, chk_false, checked_none]
      refine ⟨fun ht => ?_, fun ht k hk => ?_, fun ht hk => ⟨fun k hf => ?_, fun hf => ?_⟩⟩
      · simp only [ht, beq_self_eq_true, chk_true, checked_some, ended_fail]
      · simp only [beq_false_of_ne ht, chk_false, checked_none, hk, Option.map_some, checked_some, ended_fail]
      · simp only [beq_false_of_ne ht, chk_false, checked_none, hk, Option.map_none, checked_nil, hf, ended_ok]
      · simp only [beq_false_of_ne ht, chk_false, checked_none, hk, Option.map_none, checked_nil, hf, ended_fail]
  case unmap =>
    intro s src p k hs hr hk
    have hx : exec (.regionUnmap src) s = .next (ended s p (cmdRegionUnmap p (servedState s p))) :=
      ccpAct_of_serves cmdRegionUnmap hs
    simp only [hx, cmdRegionUnmap, hr, ← hk, checked_none]
    refine ⟨fun ht => ?_, fun ht hn => ?_, fun ht r hn => ⟨fun hw => ?_, fun hw => ?_⟩⟩
    · simp only [ht, beq_self_eq_true, chk_true, checked_some, ended_fail]
    · simp only [beq_false_of_ne ht, chk_false, checked_none, hn, Option.isNone_none, chk_true, checked_some,
        ended_fail]
    · simp only [beq_false_of_ne ht, chk_false, checked_none, hn, Option.isNone_some, checked_nil, hw, if_true,
        ended_ok]
    · simp only [beq_false_of_ne ht, chk_false, checked_none, hn, Option.isNone_some, checked_nil, hw,
        Bool.false_eq_true, if_false, ended_wait, unmapRegion_now, servedState_now, id_eq]
  case frame =>
    intro s fn k r hf hr
    have hg : ∀ j, tget none (fnSt (unmapRegion fn k r s) fn).regions j =
        if j = k then none else tget none (fnSt s fn).regions j := by
      intro j
      rw [fnSt_unmapRegion fn k fn r hf, if_pos rfl, tget_tset_from _ _ _ 0 _ _ _ hr (fun _ => rfl)]
    exact ⟨by rw [hg, if_pos rfl], fun j hj => by rw [hg, if_neg hj],
      fun f hne => by rw [fnSt_unmapRegion fn k f r hf, if_neg hne]⟩
  case apart =>
    intro f g j k hf hg hj hk
    unfold regionDev
    omega
  case opens =>
    intro s src p hs
    have hx : exec (.windowOpen src) s = .next (ended s p (cmdWindowOpen p (servedState s p))) :=
      ccpAct_of_serves cmdWindowOpen hs
    refine ⟨fun e he => ?_, fun he => ?_⟩
    · rw [hx, cmdWindowOpen, checked_of_err he, ended_fail]
    · rw [hx, cmdWindowOpen, checked_of_ok he, ended_ok]
  case denied =>
    intro s src p hs hr h
    have hx : exec (.windowClose src) s = .next (ended s p (cmdWindowClose p (servedState s p))) :=
      ccpAct_of_serves cmdWindowClose hs
    have hb : (p.tn == 32 || decide (winCount (servedState s p) p.tn ≤ bits (wd p.w 4) 5 0)) = true := by simpa using h
    simp only [hx, cmdWindowClose, hr, hb, chk_true, checked_none, checked_some, ended_fail]
  case closes =>
    intro s src p hs hr ht hl
    have hx : exec (.windowClose src) s = .next (ended s p (cmdWindowClose p (servedState s p))) :=
      ccpAct_of_serves cmdWindowClose hs
    have hb : (p.tn == 32 || decide (winCount (servedState s p) p.tn ≤ bits (wd p.w 4) 5 0)) = false := by
      simpa using ⟨ht, hl⟩
    simp only [hx, cmdWindowClose, hr, hb, chk_false, checked_none]
    refine ⟨fun ho => ?_, fun ho => ?_⟩
    · simp only [ho, bne_self_eq_false, chk_false, checked_none, checked_nil, ended_wait]
    · simp only [bne_iff_ne.mpr ho, chk_true, checked_some, ended_fail]

end Sys2Proof

/-! SUPPORT. Graphs and templates (O32); jobs, base rings and handle queues of the host (O33). -/

namespace Sys2Proof.Machine

/-! ### Templates (R386) -/

section
variable {s : State} {p : Pkt} {t : Nat}

theorem tmplErr_of_none (h : tmplAt s t = none) : tmplErr s p t = some (0x06, 4) := by
  rw [tmplErr, h]

theorem tmplErr_of_other {v : Tmpl} (h : tmplAt s t = some v) (hv : v.tenant ≠ p.tn) :
    tmplErr s p t = some (0x04, 4) := by
  rw [tmplErr, h]
  exact if_pos hv

theorem tmplErr_of_own {v : Tmpl} (h : tmplAt s t = some v) (hv : v.tenant = p.tn) : tmplErr s p t = none := by
  rw [tmplErr, h]
  exact if_neg (not_not.mpr hv)

end

section
variable {s : State} {src : Src} {p : Pkt}

theorem exec_graphArm (hs : serves s src 0x21 p) :
    exec (.graphArm src) s = .next (ended s p (cmdGraphArm p (servedState s p))) := ccpAct_of_serves cmdGraphArm hs

theorem exec_graphDisarm (hs : serves s src 0x22 p) :
    exec (.graphDisarm src) s = .next (ended s p (cmdGraphDisarm p (servedState s p))) :=
  ccpAct_of_serves cmdGraphDisarm hs

theorem exec_graphUnload (hs : serves s src 0x23 p) :
    exec (.graphUnload src) s = .next (ended s p (cmdGraphUnload p (servedState s p))) :=
  ccpAct_of_serves cmdGraphUnload hs

/-- The three commands refuse a template that is absent or another tenant's. -/
theorem templateCommand_of_err {op mask : Nat} {c : Instr} {e : Err}
    (h : (op, mask, c) ∈ [(0x21, 0xFF, Instr.graphArm src), (0x22, 0x1FF, .graphDisarm src),
      (0x23, 0xFF, .graphUnload src)])
    (hs : serves s src op p) (hr : reservedIn p [mask] = none)
    (he : tmplErr (servedState s p) p (bits (wd p.w 4) 7 0) = some e) :
    exec c s = .next (turnedAway s p e.1 e.2 (servedState s p)) := by
  simp only [List.mem_cons, Prod.mk.injEq, List.not_mem_nil, or_false] at h
  rcases h with ⟨rfl, rfl, rfl⟩ | ⟨rfl, rfl, rfl⟩ | ⟨rfl, rfl, rfl⟩
  · simp only [exec_graphArm hs, cmdGraphArm, hr, he, checked_none, checked_some, ended_fail]
  · simp only [exec_graphDisarm hs, cmdGraphDisarm, hr, he, checked_none, checked_some, ended_fail]
  · simp only [exec_graphUnload hs, cmdGraphUnload, hr, he, checked_none, checked_some, ended_fail]

end

theorem notReady_mem : notReady ∈ statusCodes := by
  have h : ∀ k < 22, statusCodes.getD k 0x01 ∈ statusCodes := by decide
  exact h _ (Nat.mod_lt _ (by decide))

/-! ### Handle queues (R321) -/

theorem mrqQ_mrqPut {s : State} (m k : Nat) (q : List Nat) (h : tkeys 0 s.mrq = true) :
    mrqQ (mrqPut m q s) k = if k = m then q else mrqQ s k := by
  unfold mrqQ mrqPut
  simp only
  rw [tget_tset_from _ _ _ 0 _ _ _ h (fun _ => rfl)]

end Sys2Proof.Machine

namespace Sys2Proof

open Sys2Proof.Machine

/-- Settles O32. -/
theorem graphsAndTemplates : Obligations.GraphsAndTemplates := by
  unfold Obligations.GraphsAndTemplates
  refine ⟨?load, ?own, ?denied, notReady_mem⟩
  case load =>
    intro s t src p hs hr ht
    have hx : exec (.graphLoad src) s = .next (ended s p (cmdGraphLoad p (servedState s p))) :=
      ccpAct_of_serves cmdGraphLoad hs
    refine ⟨fun k nb eb u h => ?_, fun st det h => ?_⟩
    · simp only [hx, cmdGraphLoad, hr, ← ht, h, checked_none, checked_nil, ended_ok]
    · simp only [hx, cmdGraphLoad, hr, ← ht, h, checked_none, checked_nil, ended_fail]
  case own =>
    intro s t src p v ht hv hown
    have he := tmplErr_of_own (p := p) hv hown
    refine ⟨fun hs hr => ?_, fun hs hr => ?_, fun hs hr => ?_⟩
    · simp only [exec_graphArm hs, cmdGraphArm, hr, ← ht, he, checked_none]
      refine ⟨fun hb => ?_, fun hb ha => ?_, fun hb ha hd => ?_, fun hb ha hd => ⟨fun m hm => ?_, fun hm => ?_⟩⟩
      · simp only [bne_iff_ne.mpr hb, chk_true, checked_some, ended_fail]
      · simp only [hb, bne_self_eq_false, chk_false, checked_none, checked_nil, hv, ha, if_true, ended_ok]
      · simp only [hb, bne_self_eq_false, chk_false, checked_none, checked_nil, hv, ha, hd, Bool.false_eq_true,
          if_false, if_true, ended_fail]
      · simp only [hb, bne_self_eq_false, chk_false, checked_none, checked_nil, hv, ha, hd, Bool.false_eq_true,
          if_false, hm, ended_fail]
      · simp only [hb, bne_self_eq_false, chk_false, checked_none, checked_nil, hv, ha, hd, Bool.false_eq_true,
          if_false, hm, ended_ok]
    · simp only [exec_graphDisarm hs, cmdGraphDisarm, hr, ← ht, he, hv, checked_none, checked_nil]
      refine ⟨fun hb => ?_, fun hb => ?_⟩
      · simp only [hb, if_true, ended_wait]
      · simp only [hb, Bool.false_eq_true, if_false, ended_ok]
    · simp only [exec_graphUnload hs, cmdGraphUnload, hr, ← ht, he, hv, checked_none]
      refine ⟨fun ha hb => ?_, fun h => ?_⟩
      · simp only [ha, hb, Bool.or_self, chk_false, checked_none, checked_nil, ended_ok]
      · have hc : (v.armed || tmplBusy v) = true := by rcases h with h | h <;> simp only [h, Bool.true_or, Bool.or_true]
        simp only [hc, chk_true, checked_some, ended_fail]
  case denied =>
    intro s src p op mask c hc hs hr
    exact ⟨fun h => templateCommand_of_err (e := (0x06, 4)) hc hs hr (tmplErr_of_none h),
      fun v h hv => templateCommand_of_err (e := (0x04, 4)) hc hs hr (tmplErr_of_other h hv)⟩

/-- Settles O33. -/
theorem jobsRingsAndQueues : Obligations.JobsRingsAndQueues := by
  unfold Obligations.JobsRingsAndQueues
  refine ⟨?jobs, ?rearm, ?push, ?pop, fun s m q h => ⟨?_, fun k hk => ?_⟩⟩
  case jobs =>
    intro s t src p v ht hv hown
    have he := tmplErr_of_own (p := p) hv hown
    refine ⟨fun hs hr => ?_, fun hs hr hb => ?_, fun hs hr hb => ?_⟩
    · have hx : exec (.jobSubmit src) s = .next (ended s p (cmdJobSubmit p (servedState s p))) :=
        ccpAct_of_serves cmdJobSubmit hs
      simp only [hx, cmdJobSubmit, hr, ← ht, he, hv, checked_none]
      refine ⟨fun hk => ?_, fun key hkey hk => ?_⟩
      · simp only [bne_iff_ne.mpr hk, chk_true, checked_some, ended_fail]
      · simp only [hk, bne_self_eq_false, chk_false, checked_none, ← hkey]
        refine ⟨fun hj hbad => ?_, fun hok => ⟨fun ha => ?_, fun ha => ?_⟩⟩
        · have hc : (wd p.w 5 != 0 && (pSession p == 0 || key.isNone)) = true := by simpa [hj] using hbad
          simp only [hc, chk_true, checked_some, ended_fail]
        all_goals
          have hc : (wd p.w 5 != 0 && (pSession p == 0 || key.isNone)) = false := by
            rcases hok with h | ⟨h, hs⟩
            · simp [h]
            · simp [h, Option.isNone_eq_false_iff.mpr hs]
        · simp only [hc, ha, Bool.not_true, chk_false, checked_none, checked_nil, ended_wait]
        · simp only [hc, ha, Bool.not_false, chk_false, chk_true, checked_none, checked_some, ended_fail]
    all_goals
      have hx : exec (.jobCancel src) s = .next (ended s p (cmdJobCancel p (servedState s p))) :=
        ccpAct_of_serves cmdJobCancel hs
      simp only [hx, cmdJobCancel, hr, ← ht, he, hv, hb, checked_none, checked_nil, Bool.false_eq_true, if_true,
        if_false]
    · refine ⟨fun g hg => ?_, fun hg => ?_⟩
      · simp only [hg, ended_ok]
      · simp only [hg, ended_fail]
    · refine ⟨fun k hk => ?_, fun hk => ?_⟩
      · simp only [hk, ended_wait]
      · simp only [hk, ended_fail]
  case rearm =>
    intro s src p hs hr hl hf
    have hx : exec (.streamRearm src) s = .next (ended s p (cmdRearm p (servedState s p))) :=
      ccpAct_of_serves cmdRearm hs
    have hn : (decide (28 < (rearmEntries p).length) ||
        decide (64 < bits (wd p.w 4) 13 8 + (rearmEntries p).length)) = false := by simpa using ⟨hl, hf⟩
    simp only [hx, cmdRearm, hr, hn, chk_false, checked_none]
    cases ho : ownsCtx (servedState s p) p.tn (bits (wd p.w 4) 7 0) with
    | true => simp only [Bool.not_true, chk_false, checked_none, checked_nil, if_true, ended_ok]
    | false => simp only [Bool.not_false, chk_true, checked_some, Bool.false_eq_true, if_false, ended_fail]
  case push =>
    intro s src p hs hr
    have hx : exec (.queuePush src) s = .next (ended s p (cmdPush p (servedState s p))) :=
      ccpAct_of_serves cmdPush hs
    simp only [hx, cmdPush, hr, checked_none, checked_nil, Bool.and_eq_true, and_assoc, ended_ite, ended_wait, id_eq,
      servedState_now]
    cases pushCheck (servedState s p) p.tn (bits (wd p.w 4) 9 0) with
    | none => rfl
    | some e => rfl
  case pop =>
    intro s src p hs hr
    have hx : exec (.queuePop src) s = .next (ended s p (cmdPop p (servedState s p))) :=
      ccpAct_of_serves cmdPop hs
    simp only [hx, cmdPop, hr, checked_none]
    cases popCheck (servedState s p) p.tn (bits (wd p.w 4) 9 0) with
    | none => rfl
    | some e => rfl
  · rw [mrqQ_mrqPut m m q h, if_pos rfl]
  · rw [mrqQ_mrqPut m k q h, if_neg hk]

end Sys2Proof

/-! SUPPORT. Firmware images (O34); sessions of functions and job keys (O36). -/

namespace Sys2Proof.Machine

/-! ### The state a packet is served in -/

theorem wakeDevice_nv (s : State) : (wakeDevice s).nv = s.nv := by
  unfold wakeDevice
  split <;> rfl

theorem wakeDevice_boot (s : State) : (wakeDevice s).boot = s.boot := by
  unfold wakeDevice
  split <;> rfl

theorem servedState_nv (s : State) (p : Pkt) : (servedState s p).nv = s.nv := by
  unfold servedState served
  simp only
  split
  · split
    · exact wakeDevice_nv s
    · exact wakeDevice_nv s
  · rfl

theorem servedState_boot (s : State) (p : Pkt) : (servedState s p).boot = s.boot := by
  unfold servedState served
  simp only
  split
  · split
    · exact wakeDevice_boot s
    · exact wakeDevice_boot s
  · rfl

/-! ### Firmware images (R479, R482 to R485) -/

section
variable {s : State} {src : Src} {p : Pkt} (hs : serves s src 0x71 p)
include hs

/-- FW_COMMIT outside recovery. -/
theorem exec_fwCommit (hph : s.boot.phase ≠ 4) :
    exec (.fwCommit src) s = .next (ended s p (cmdFwCommit p (servedState s p))) := by
  have hx : exec (.fwCommit src) s = .next (keepQueue s (bootRecovered s (ccp 0x71 src cmdFwCommit s))) :=
    act_alive _ hs.1 hs.2.1
  rw [hx, bootRecovered, if_neg (fun h => hph h.1), ccp_of_serves cmdFwCommit hs]
  rfl

/-- In recovery an accepted image boots once the reply is written. -/
theorem exec_fwCommit_recovery (hph : s.boot.phase = 4) (hu : s.nv.updState ≠ 3) :
    exec (.fwCommit src) s = .next (keepQueue s (
      let u := settle (finishPkt p (cmdFwCommit p (servedState s p)))
      if u.nv.updState = 3 then reboot u else u)) := by
  have hx : exec (.fwCommit src) s = .next (keepQueue s (bootRecovered s (ccp 0x71 src cmdFwCommit s))) :=
    act_alive _ hs.1 hs.2.1
  rw [hx, bootRecovered, ccp_of_serves cmdFwCommit hs]
  simp only [hph, hu, ne_eq, not_false_eq_true, true_and]

end

/-! ### Sessions (R391, R401 to R405) -/

theorem firstReserved_of_head {x : Nat} (h : x &&& 0xFFFC = 0) : firstReserved [x, 0, 0, 0] [0xFFFF0003] = none := by
  simp [firstReserved, h]

/-- The head word of the second message: its step and the session's handle. -/
theorem sessionHead_step2 {h : Nat} (hh : h < 0x10000) : (2 + 0x10000 * h) &&& 0xFFFC = 0 ∧
    bits (2 + 0x10000 * h) 1 0 = 2 ∧ bits (2 + 0x10000 * h) 31 16 = h := by
  refine ⟨?_, ?_, ?_⟩
  · have hm : ((2 + 0x10000 * h) &&& 0xFFFC) % 2 ^ 16 = (2 + 0x10000 * h) % 2 ^ 16 &&& 0xFFFC % 2 ^ 16 :=
      Nat.and_mod_two_pow
    have h2 : (2 + 0x10000 * h) % 2 ^ 16 = 2 := by omega
    rw [h2, Nat.mod_eq_of_lt (Nat.lt_of_le_of_lt Nat.and_le_right (by decide))] at hm
    exact hm
  · unfold bits
    omega
  · unfold bits
    rw [Nat.shiftRight_eq_div_pow]
    omega

/-- SESSION_OPEN of a request that could be read and names no reserved bit. -/
theorem cmdSessionOpen_of_read {s u : State} {p : Pkt} {l : List Byte} {x : Nat}
    (hr : reservedIn p [fullW, 0xFFFF, fullW, fullW, 0xFFFF, fullW] = none) (ht : p.tn ≠ 32) (hn : 16 ≤ wd p.w 6)
    (hp1 : rangePopulated s p.tn (addr48 p.w 4) (wd p.w 6) = true)
    (hg1 : rangeGranted s p.tn (addr48 p.w 4) (wd p.w 6) = true)
    (hp2 : rangePopulated s p.tn (addr48 p.w 7) (wd p.w 9) = true)
    (hg2 : rangeGranted s p.tn (addr48 p.w 7) (wd p.w 9) = true)
    (hl : inGet s p (addr48 p.w 4) (wd p.w 6) = some l) (h0 : leAt l 0 4 = x) (h1 : leAt l 4 4 = 0)
    (h2 : leAt l 8 4 = 0) (h3 : leAt l 12 4 = 0) (hx : x &&& 0xFFFC = 0)
    (hu : u = inDone p (addr48 p.w 4) (wd p.w 6) s) :
    cmdSessionOpen p s =
      if bits x 1 0 = 0 ∨ bits x 1 0 = 3 then .fail 0x01 0x80000000 u
      else if bits x 1 0 = 1 then
        (if bits x 31 16 ≠ 0 then .fail 0x02 0x80000000 u else sessionStep1 p (l.drop 16) (wd p.w 9) u)
      else sessionStep2 p (bits x 31 16) (l.drop 16) (wd p.w 9) u := by
  have hw : (List.range 4).map (fun i => leAt l (4 * i) 4) = [x, 0, 0, 0] := by
    simp [List.range_succ, h0, h1, h2, h3]
  simp only [cmdSessionOpen, hr, rangeBad_of_populated _ hp1, rangeBad_of_populated _ hp2,
    rangeDenied_of_granted _ hg1, rangeDenied_of_granted _ hg2, decide_eq_false (Nat.not_lt.mpr hn),
    beq_false_of_ne ht, chk_false, checked_none, checked_nil, hl, ← hu, hw, firstReserved_of_head hx]
  rfl

theorem ended_sessionReply (s : State) (p : Pkt) (h : Nat) (l : List Byte) (cap : Nat) (t drop : State) :
    ended s p (sessionReply p h l cap t drop) =
      (let r := outPut p (addr48 p.w 7) l t
       if cap < l.length then turnedAway s p 0x02 9 drop
       else if r.1 < l.length then turnedAway s p 0x02 7 (writtenIn r.2 drop)
       else applied s p h l.length 0 r.2) := by
  simp only [sessionReply, ended_ite, ended_fail, ended_ok]

section
variable {s : State} {p : Pkt} {h : Nat}

theorem sessErr_of_none (b : Bool) (hn : sessAt s h = none) : sessErr s p h b = some (0x06, 4) := by
  rw [sessErr, hn]

theorem sessErr_of_some (b : Bool) {x : Sess} (hx : sessAt s h = some x) :
    sessErr s p h b = chk (x.fn != p.fn || (b && !x.open_)) 0x06 4 := by
  rw [sessErr, hx]

end

end Sys2Proof.Machine

namespace Sys2Proof

open Sys2Proof.Machine

/-- Settles O34. -/
theorem firmwareIsStagedCommittedConfirmed : Obligations.FirmwareIsStagedCommittedConfirmed := by
  unfold Obligations.FirmwareIsStagedCommittedConfirmed
  refine ⟨?block, ?commit, ?recovery, ?refused, ?confirm, ?status⟩
  case block =>
    intro s t src p hs hr h1 h2 h3 h4 ht hp hg
    have hx : exec (.fwBlock src) s = .next (ended s p (cmdFwBlock p (servedState s p))) :=
      ccpAct_of_serves cmdFwBlock hs
    have ho : (wd p.w 4 % 4096 != 0 || decide (0x2000000 ≤ wd p.w 4)) = false := by simpa using ⟨h1, h2⟩
    have hn : (wd p.w 5 == 0 || decide (4096 < wd p.w 5)) = false := by simpa using ⟨by omega, h4⟩
    simp only [hx, cmdFwBlock, hr, ← ht, ho, hn, rangeBad_of_populated _ hp, rangeDenied_of_granted _ hg, chk_false,
      checked_none]
    refine ⟨fun hu => ?_, fun hu u hv => ⟨fun l hl => ?_, fun hl => ?_⟩⟩
    · simp only [hu, beq_self_eq_true, chk_true, checked_some, ended_fail]
    · simp only [beq_false_of_ne hu, chk_false, checked_none, checked_nil, hl, ← hv, ended_ok]
    · simp only [beq_false_of_ne hu, chk_false, checked_none, checked_nil, hl, ← hv, ended_fail]
  case commit =>
    intro s t src p b hs hr h0 h1 hph ht hst ha hb
    have hpt : t.boot.phase ≠ 4 := by rw [ht, servedState_boot]; exact hph
    have hn : (wd p.w 4 == 0 || decide (33554432 < wd p.w 4)) = false := by simpa using ⟨by omega, h1⟩
    have hc : ((t.nv.updState != 1 && t.nv.updState != 5) || !allStaged t (wd p.w 4)) = false := by
      rcases hst with h | h <;> simp [h, ha]
    simp only [exec_fwCommit hs hph, cmdFwCommit, hr, ← ht, ← hb, hn, hc, chk_false, checked_none, checked_nil]
    refine ⟨fun hi => ?_, fun hi h2 => ?_, fun hi h2 => ⟨fun hk => ?_, fun hk => ?_⟩⟩
    · generalize imageCheck t b (wd p.w 4) = st at hi
      cases st with
      | zero => exact absurd rfl hi
      | succ k => rfl
    · simp only [hi, h2, hpt, if_false, ended_ok]
      rfl
    · simp only [hi, h2, hpt, hk, if_true, if_false, ended_fail]
    · simp only [hi, h2, hpt, hk, if_true, if_false, Bool.false_eq_true, ended_ok]
  case recovery =>
    intro s t src p b hs hr h0 h1 hph ht hst ha hb hi h2
    have hpt : t.boot.phase = 4 := by rw [ht, servedState_boot]; exact hph
    have hu : s.nv.updState ≠ 3 := by
      rw [ht, servedState_nv] at hst
      omega
    have hn : (wd p.w 4 == 0 || decide (33554432 < wd p.w 4)) = false := by simpa using ⟨by omega, h1⟩
    have hc : ((t.nv.updState != 1 && t.nv.updState != 5) || !allStaged t (wd p.w 4)) = false := by
      rcases hst with h | h <;> simp [h, ha]
    have hcmd : cmdFwCommit p t = .ok (leAt b 4 4) 0 0 (recoverImage b t) := by
      simp only [cmdFwCommit, hr, ← hb, hn, hc, chk_false, checked_none, checked_nil, hi, h2, hpt, if_false, if_true]
    rw [exec_fwCommit_recovery hs hph hu, ← ht, hcmd]
    rfl
  case refused =>
    intro s src p hs hr h0 h1 hph hst
    have hn : (wd p.w 4 == 0 || decide (33554432 < wd p.w 4)) = false := by simpa using ⟨by omega, h1⟩
    have hc : (((servedState s p).nv.updState != 1 && (servedState s p).nv.updState != 5) ||
        !allStaged (servedState s p) (wd p.w 4)) = true := by
      rw [servedState_nv]
      rcases hst with ⟨h, h'⟩ | h
      · simp [h, h']
      · simp [h]
    simp only [exec_fwCommit hs hph, cmdFwCommit, hr, hn, hc, chk_false, chk_true, checked_none, checked_some,
      ended_fail]
  case confirm =>
    intro s t src p hs hr ht
    have hx : exec (.fwConfirm src) s = .next (ended s p (cmdFwConfirm p (servedState s p))) :=
      ccpAct_of_serves cmdFwConfirm hs
    refine ⟨fun h3 hl => ?_, fun h => ?_⟩
    · have hc : (t.nv.updState != 3 || decide (600 ≤ runSecs t)) = false := by simpa using ⟨h3, hl⟩
      simp only [hx, cmdFwConfirm, hr, ← ht, hc, chk_false, checked_none, checked_nil, ended_ok]
    · have hc : (t.nv.updState != 3 || decide (600 ≤ runSecs t)) = true := by simpa using h
      simp only [hx, cmdFwConfirm, hr, ← ht, hc, chk_true, checked_none, checked_some, ended_fail]
  case status =>
    intro s src p hs hr
    have hx : exec (.fwStatus src) s = .next (ended s p (cmdFwStatus p (servedState s p))) :=
      ccpAct_of_serves cmdFwStatus hs
    simp only [hx, cmdFwStatus, hr, checked_none, checked_nil, ended_ok, servedState_nv, servedState_boot]

/-- Settles O36. -/
theorem sessionsOpenCloseAndGiveJobKeys : Obligations.SessionsOpenCloseAndGiveJobKeys := by
  unfold Obligations.SessionsOpenCloseAndGiveJobKeys
  refine ⟨?opens, ?closes, ?absent, ?noJob, ?keys⟩
  case opens =>
    intro s t u src p l msg hs hr htn hn ht hp1 hg1 hp2 hg2 hl h1 h2 h3 hu hm
    have hx : exec (.sessionOpen src) s = .next (ended s p (cmdSessionOpen p (servedState s p))) :=
      ccpAct_of_serves cmdSessionOpen hs
    have hfirst : leAt l 0 4 = 1 →
        exec (.sessionOpen src) s = .next (ended s p (sessionStep1 p msg (wd p.w 9) u)) := by
      intro h0
      rw [hx, ← ht, cmdSessionOpen_of_read hr htn hn hp1 hg1 hp2 hg2 hl h0 h1 h2 h3 rfl hu, hm]
      rfl
    have hsecond : ∀ h, leAt l 0 4 = 2 + 0x10000 * h → h < 0x10000 →
        exec (.sessionOpen src) s = .next (ended s p (sessionStep2 p h msg (wd p.w 9) u)) := by
      intro h h0 hh
      obtain ⟨hz, hb1, hb2⟩ := sessionHead_step2 hh
      rw [hx, ← ht, cmdSessionOpen_of_read hr htn hn hp1 hg1 hp2 hg2 hl h0 h1 h2 h3 hz hu, hm, hb1, hb2]
      rfl
    clear hx
    refine ⟨fun h0 he => ?_, fun h0 he hf => ?_, fun h0 he hf1 hf2 => ⟨fun hk => ?_, fun k hk => ?_⟩,
      fun h h0 hh hno => ?_, fun h x h0 hh hsx hfn hop => ⟨fun hlate => ?_, fun hsoon => ?_⟩⟩
    · simp only [hfirst h0, sessionStep1, he, Bool.not_false, if_true, ended_fail]
    · simp only [hfirst h0, sessionStep1, he, Bool.not_true, Bool.false_eq_true, if_false, hf, if_true, ended_fail]
    · have hroom := not_or.mpr ⟨Nat.not_le.mpr hf1, Nat.not_le.mpr hf2⟩
      simp only [hfirst h0, sessionStep1, he, Bool.not_true, Bool.false_eq_true, if_false, hroom, hk, ended_fail]
    · have hroom := not_or.mpr ⟨Nat.not_le.mpr hf1, Nat.not_le.mpr hf2⟩
      simp only [hfirst h0, sessionStep1, he, Bool.not_true, Bool.false_eq_true, if_false, hroom, hk,
        ended_sessionReply]
    · rw [hsecond h h0 hh, sessionStep2]
      cases hsx : sessAt u h with
      | none => rfl
      | some x =>
        simp only [if_pos (hno x hsx), ended_fail]
    · simp only [hsecond h h0 hh, sessionStep2, hsx, hfn, hop, ne_eq, not_true, Bool.false_eq_true, or_self, if_false,
        hlate, if_true, ended_fail]
    · simp only [hsecond h h0 hh, sessionStep2, hsx, hfn, hop, ne_eq, not_true, Bool.false_eq_true, or_self, if_false,
        Nat.not_le.mpr hsoon, ended_ite, ended_fail, Bool.not_eq_true']
      cases giveMemKey p.tn u with
      | none => rfl
      | some v => simp only [ended_sessionReply]
  case closes =>
    intro s t src p x hs hr ht hsx
    have hx : exec (.sessionClose src) s = .next (ended s p (cmdSessionClose p (servedState s p))) :=
      ccpAct_of_serves cmdSessionClose hs
    simp only [hx, cmdSessionClose, hr, ← ht, sessErr_of_some false hsx, checked_none, Bool.false_and, Bool.or_false]
    refine ⟨fun hf => ?_, fun hf => ?_⟩
    · simp only [hf, bne_self_eq_false, chk_false, checked_none, checked_nil, ended_ok]
    · simp only [bne_iff_ne.mpr hf, chk_true, checked_some, ended_fail]
  case absent =>
    intro s src p hn
    refine ⟨fun hs hr => ?_, fun hs hr hj => ?_⟩
    · have hx : exec (.sessionClose src) s = .next (ended s p (cmdSessionClose p (servedState s p))) :=
        ccpAct_of_serves cmdSessionClose hs
      simp only [hx, cmdSessionClose, hr, sessErr_of_none false hn, checked_none, checked_some, ended_fail]
    · have hx : exec (.jobKey src) s = .next (ended s p (cmdJobKey p (servedState s p))) :=
        ccpAct_of_serves cmdJobKey hs
      simp only [hx, cmdJobKey, hr, beq_false_of_ne hj, sessErr_of_none true hn, chk_false, checked_none, checked_some,
        ended_fail]
  case noJob =>
    intro s src p hs hr hj
    have hx : exec (.jobKey src) s = .next (ended s p (cmdJobKey p (servedState s p))) :=
      ccpAct_of_serves cmdJobKey hs
    simp only [hx, cmdJobKey, hr, hj, beq_self_eq_true, chk_true, checked_none, checked_some, ended_fail]
  case keys =>
    intro s t src p x hs hr hj ht hsx
    have hx : exec (.jobKey src) s = .next (ended s p (cmdJobKey p (servedState s p))) :=
      ccpAct_of_serves cmdJobKey hs
    simp only [hx, cmdJobKey, hr, ← ht, beq_false_of_ne hj, sessErr_of_some true hsx, chk_false, checked_none,
      Bool.true_and]
    refine ⟨fun h => ?_, fun hf ho => ?_⟩
    · have hc : (x.fn != p.fn || !x.open_) = true := by simpa using h
      simp only [hc, chk_true, checked_some, ended_fail]
    · have hc : (x.fn != p.fn || !x.open_) = false := by simp [hf, ho]
      simp only [hc, chk_false, checked_none, checked_nil]
      refine ⟨fun k hk => ?_, fun hk => ⟨fun ha => ?_, fun k ha => ?_⟩⟩
      · simp only [hk, ended_ok]
      · simp only [hk, ha, ended_fail]
      · simp only [hk, ha, ended_ok, jobKey, hsx, jobLabel]

end Sys2Proof

/-! SUPPORT. Sensor profiles and settings, streams, and transmit ports (O35). -/

namespace Sys2Proof.Machine

theorem checked_append (l m : List (Option Err)) (s : State) (f : State → Res) :
    checked (l ++ m) s f = checked l s (fun s => checked m s f) := by
  unfold checked firstErr
  rw [List.findSome?_append]
  cases List.findSome? id l <;> rfl

/-- The checks and what follows them, by the first error. -/
theorem ended_checked (s t : State) (p : Pkt) (l : List (Option Err)) (f : State → Res) :
    ended s p (checked l t f) = match firstErr l with
      | some e => turnedAway s p e.1 e.2 t
      | none => ended s p (f t) := by
  unfold checked
  cases firstErr l <;> rfl

/-- One check before others. -/
theorem ended_checked_chk (s t : State) (p : Pkt) (b : Bool) (st d : Nat) (l : List (Option Err)) (f : State → Res) :
    ended s p (checked (chk b st d :: l) t f) =
      if b = true then turnedAway s p st d t else ended s p (checked l t f) := by
  cases b <;> rfl

theorem startSlot_keeps {s : State} {v o : Stream} (p : Pkt) (h : streamAt s (bits (wd v.desc 0) 21 16) = some o) :
    (startSlot s p v).serial = o.serial ∧ (startSlot s p v).index = o.index ∧ (startSlot s p v).stops = o.stops := by
  unfold startSlot
  rw [h]
  exact ⟨rfl, rfl, rfl⟩

theorem exec_streamStop {s : State} {src : Src} {p : Pkt} (hs : serves s src 0x43 p) :
    exec (.streamStop src) s = .next (ended s p (cmdStreamStop p (servedState s p))) :=
  ccpAct_of_serves cmdStreamStop hs

end Sys2Proof.Machine

namespace Sys2Proof

open Sys2Proof.Machine

/-- Settles O35. -/
theorem cameraCommands : Obligations.CameraCommands := by
  unfold Obligations.CameraCommands
  refine ⟨⟨?profile, ?settings⟩, ⟨?starts, fun s p v o h => ⟨rfl, rfl, rfl, startSlot_keeps p h⟩, ?refused, ?stops⟩,
    ?tx⟩
  case profile =>
    intro s src p hs hr
    have hx : exec (.sensorProfile src) s = .next (ended s p (cmdProfile p (servedState s p))) :=
      ccpAct_of_serves cmdProfile hs
    simp only [hx, cmdProfile, List.cons_append, List.nil_append, hr, checked_none, checked_append, ended_checked]
    cases firstErr (profileChecks ((List.range 8).map fun i => wd p.w (5 + i))) with
    | some e => rfl
    | none =>
      simp only
      cases profileUser (servedState s p) p.tn (bits (wd p.w 4) 5 0) with
      | some st => rfl
      | none => rfl
  case settings =>
    intro s src p hs
    have hx : exec (.sensorSettings src) s = .next (ended s p (cmdSettings p (servedState s p))) :=
      ccpAct_of_serves cmdSettings hs
    simp only [hx, cmdSettings]
    cases settingsCheck (servedState s p) p.tn (params p) with
    | some e => rfl
    | none => rfl
  case starts =>
    intro s src p hs
    have hx : exec (.streamStart src) s = .next (ended s p (cmdStreamStart p (servedState s p))) :=
      ccpAct_of_serves cmdStreamStart hs
    simp only [hx, cmdStreamStart, ended_checked]
    cases firstErr (startChecks (servedState s p) p
        { streamZero with desc := (List.range 16).map (fun i => wd p.w (4 + i)) }) with
    | some e => rfl
    | none => rfl
  case refused =>
    intro s src p hs hr
    simp only [exec_streamStop hs, cmdStreamStop, hr, checked_none, ended_checked_chk]
    refine ⟨fun hg => ?_, fun hg hn => ?_⟩
    · simp only [hg, Bool.not_false, if_true]
    · simp only [hg, hn, Bool.not_true, Bool.false_eq_true, if_false, if_true]
  case stops =>
    intro s src p v hs hr hg hv
    simp only [exec_streamStop hs, cmdStreamStop, hr, checked_none, checked_nil, ended_checked_chk, hg, hv,
      Bool.not_true, Bool.false_eq_true, if_false, ended_wait]
    cases v.started with
    | true => rfl
    | false => rfl
  case tx =>
    intro s src p hs hr
    have hx : exec (.txConfig src) s = .next (ended s p (cmdTxConfig p (servedState s p))) :=
      ccpAct_of_serves cmdTxConfig hs
    simp only [hx, cmdTxConfig, hr, checked_none, checked_nil, ended_checked_chk, ended_ok, beq_iff_eq, Bool.or_eq_true,
      Bool.and_eq_true, Bool.not_eq_true', decide_eq_true_eq]

end Sys2Proof

/-! SUPPORT. Upkeep of the scratchpad: bank power, scrubbing, repair, and the poisoned rest of a wheel (O40). -/

namespace Sys2Proof.Machine

/-! ### Bank power (R292) -/

theorem bankDown_eq (slice bank : Nat) (s : State) : bankDown slice bank s =
    if s.spd.goingDown.contains (16 * slice + bank) then { s with spd := { s.spd with
      goingDown := s.spd.goingDown.filter (· != 16 * slice + bank)
      off := s.spd.off ++ [16 * slice + bank]
      upsets := s.spd.upsets.filter (fun e => e.1 / 1024 != 16 * slice + bank)
      writeback := s.spd.writeback.filter (fun r => r / 1024 != 16 * slice + bank) } } else s := by
  simp only [bankDown, guardS]

theorem bankUp_eq (slice bank : Nat) (s : State) : bankUp slice bank s =
    if s.spd.goingUp.contains (16 * slice + bank) then { s with spd := { s.spd with
      goingUp := s.spd.goingUp.filter (· != 16 * slice + bank) } } else s := by
  simp only [bankUp, guardS]

/-! ### Scrubbing (R282 to R284, R286) -/

theorem scrubPeriod_bounds (s : State) : 1000 ≤ scrubPeriod s ∧ scrubPeriod s ≤ 20000000000 := by
  unfold scrubPeriod clampN
  split
  · decide
  · split <;> omega

theorem scrub_of_early {s : State} {slice grp : Nat} (e : RowError)
    (h : s.now < tget 0 s.spd.scrubTime (4 * slice + grp) + scrubPeriod s) : scrub slice grp e s = s := if_pos h

theorem scrub_of_none {s : State} {slice grp : Nat} (e : RowError)
    (h : tget 0 s.spd.scrubTime (4 * slice + grp) + scrubPeriod s ≤ s.now)
    (hn : scrubNext s (4 * slice + grp) (tget 0 s.spd.scrubAt (4 * slice + grp)) (scrubRows s (4 * slice + grp)) =
      none) :
    scrub slice grp e s = { s with spd := { s.spd with
      scrubTime := tset 0 s.spd.scrubTime (4 * slice + grp) s.now } } := by
  rw [scrub]
  simp only [if_neg (Nat.not_lt.mpr h), hn]

/-- The state of a scrub that has read position `p`: the next position, the passes, and the slice in use. -/
def scrubRead (s : State) (slice g p : Nat) : State :=
  touchRows (16384 * slice) 1 { s with spd := { s.spd with
    scrubTime := tset 0 s.spd.scrubTime g s.now
    scrubAt := tset 0 s.spd.scrubAt g ((p + 1) % scrubRows s g)
    scrubPasses := tset 0 s.spd.scrubPasses g (sat32 (tget 0 s.spd.scrubPasses g + (p + 1) / scrubRows s g)) } }

theorem scrub_of_some {s : State} {slice grp p : Nat} (e : RowError)
    (h : tget 0 s.spd.scrubTime (4 * slice + grp) + scrubPeriod s ≤ s.now)
    (hp : scrubNext s (4 * slice + grp) (tget 0 s.spd.scrubAt (4 * slice + grp)) (scrubRows s (4 * slice + grp)) =
      some p) :
    scrub slice grp e s = match scrubRowAt s (4 * slice + grp) (p % scrubRows s (4 * slice + grp)) with
      | some row => scrubFinds row e (scrubRead s slice (4 * slice + grp) p)
      | none => scrubRead s slice (4 * slice + grp) p := by
  rw [scrub]
  simp only [if_neg (Nat.not_lt.mpr h), hp]
  rfl

theorem scrubRead_upsets (s : State) (slice g p : Nat) : (scrubRead s slice g p).spd.upsets = s.spd.upsets := by
  rw [scrubRead, touchRows_frame]

theorem scrubRead_ceWord (s : State) (slice g p : Nat) : (scrubRead s slice g p).spd.ceWord = s.spd.ceWord := by
  rw [scrubRead, touchRows_frame]

theorem scrubRead_writeback (s : State) (slice g p : Nat) :
    (scrubRead s slice g p).spd.writeback = s.spd.writeback := by
  rw [scrubRead, touchRows_frame]

/-- What the scrubber does with the row it has read. -/
theorem scrubFinds_scrubRead (s : State) (slice g p row : Nat) (e : RowError) :
    scrubFinds row e (scrubRead s slice g p) =
      match (if e = .none then tget RowError.none s.spd.upsets row else e) with
      | .none => { scrubRead s slice g p with spd := { (scrubRead s slice g p).spd with
          ceWord := tset 0 s.spd.ceWord row 0 } }
      | .single w =>
        let s2 := cnt R.spdSliceCe (row / 16384) 1 { scrubRead s slice g p with spd := {
          (scrubRead s slice g p).spd with
          ceWord := tset 0 s.spd.ceWord row (w % 128 + 1)
          writeback := if s.spd.writeback.contains row then s.spd.writeback else s.spd.writeback ++ [row] } }
        if tget 0 s.spd.ceWord row = w % 128 + 1 then queueRow row 5 s2 else s2
      | .double =>
        let s2 := { scrubRead s slice g p with spd := { (scrubRead s slice g p).spd with
          ceWord := tset 0 s.spd.ceWord row 0 } }
        if inCache s2 row = true then cacheRowBad row s2 else rowUe row s2 := by
  have hf : foundError (scrubRead s slice g p) row e =
      if e = .none then tget RowError.none s.spd.upsets row else e := by
    rw [foundError, scrubRead_upsets]
  rw [scrubFinds, hf, scrubRead_ceWord]
  cases (if e = .none then tget RowError.none s.spd.upsets row else e) with
  | none => rfl
  | single w => simp only [rowCe, scrubRead_writeback, beq_iff_eq]
  | double => rfl

/-! ### Repair (R282, R285, R286) -/

/-- A row lies in its slice alone. -/
theorem touchRows_one (r : Nat) (s : State) :
    touchRows r 1 s = { s with spd := { s.spd with lastUse := tset 0 s.spd.lastUse (r / 16384) s.now } } := by
  have h : cdiv (r + 1) 16384 - r / 16384 = 1 := by
    unfold cdiv
    omega
  simp [touchRows, h]

theorem writeBack_of_none {s : State} {slice : Nat} (h : s.spd.writeback.find? (fun r => r / 16384 == slice) = none) :
    writeBack slice s = s := by
  rw [writeBack, h]

theorem writeBack_of_some {s : State} {slice r : Nat}
    (h : s.spd.writeback.find? (fun r => r / 16384 == slice) = some r) :
    writeBack slice s = { s with spd := { s.spd with
      upsets := s.spd.upsets.filter (fun e => e.1 != r)
      writeback := s.spd.writeback.filter (· != r)
      lastUse := tset 0 s.spd.lastUse slice s.now } } := by
  have hr : r / 16384 = slice := by simpa using List.find?_some h
  have hit : ∀ x, (!(decide (r ≤ x) && decide (x < r + 1) && !false)) = (x != r) := by
    intro x
    rw [Bool.eq_iff_iff]
    simp only [Bool.not_false, Bool.and_true, Bool.not_eq_true', bne_iff_ne, ne_eq, Bool.and_eq_false_iff,
      decide_eq_false_iff_not]
    omega
  rw [writeBack, h]
  simp only [touchRows_one, freshRows, hit, hr]

theorem findCe_mem (r n : Nat) (s : State) : (findCe r n s).mem = s.mem := by
  refine (sameMemories_foldl (fun s e => ?_) s.spd.upsets s).1
  split
  · split
    · exact ⟨rfl, rfl, rfl⟩
    · exact SameMemories.refl s
  · exact SameMemories.refl s

theorem poisonFillStep_of_none {s : State} {k : Nat} (h : (wheelSt s k).fill = []) : poisonFillStep k s = s := by
  rw [poisonFillStep]
  simp only [h]

/-- A place that is neither written nor a gap nor behind the tail is poisoned once the wheel has room for it. -/
theorem poisonFillStep_of_some {s : State} {k v e : Nat} {rest : List (Nat × Nat)}
    (h : (wheelSt s k).fill = (v, e) :: rest)
    (hv : v < e) (hw : (wheelSt s k).written.contains v = false) (hg : isGap (places s k) (wheelSt s k) v = false)
    (ht : (wheelSt s k).tail ≤ v) :
    poisonFillStep k s =
      (let r := wheelBase s k + (v % max 1 (places s k)) * placeRows s k
       if wheelRoom (places s k) (wheelSt s k) v then
         putWheel k { markWritten (places s k) v (wheelSt s k) with
             fill := if e ≤ v + 1 then rest else (v + 1, e) :: rest }
           (setPoison r (r + placeRows s k) 4 (touchRows r (placeRows s k) s))
       else s) := by
  rw [poisonFillStep]
  simp only [h, if_neg (Nat.not_le.mpr hv), hw, hg, decide_eq_false (Nat.not_lt.mpr ht), Bool.or_self,
    Bool.false_eq_true, if_false]
  cases wheelRoom (places s k) (wheelSt s k) v with
  | true => rfl
  | false => rfl

theorem touchRows_pending (r n : Nat) (s : State) : (touchRows r n s).pending = s.pending := by rw [touchRows_frame]

theorem poisonedPlace_pending (k lo hi why r n : Nat) (w : Wheel) (s : State) :
    (putWheel k w (setPoison lo hi why (touchRows r n s))).pending = s.pending := touchRows_pending r n s

end Sys2Proof.Machine

namespace Sys2Proof

open Sys2Proof.Machine

/-- Settles O40. -/
theorem scratchpadUpkeep : Obligations.ScratchpadUpkeep := by
  unfold Obligations.ScratchpadUpkeep
  refine ⟨?power, ⟨?early, ?visits, ?idle, scrubPeriod_bounds⟩, ?repair, ?empty, ?fills⟩
  case power =>
    intro s slice bank ha hs hb
    have hok : (decide (slice < 64) && decide (bank < 16)) = true := by simp [hs, hb]
    refine ⟨?_, ?_⟩
    · rw [← bankDown_eq]
      refine act_of_pending _ ha hok ?_
      rw [bankDown_eq]
      split <;> rfl
    · rw [← bankUp_eq]
      refine act_of_pending _ ha hok ?_
      rw [bankUp_eq]
      split <;> rfl
  case early =>
    intro s slice grp e ha hs hg h
    have hx : exec (.scrubRow slice grp e) s = .next (keepQueue s (settle (scrub slice grp e s))) :=
      act_alive _ ha (by simp [hs, hg])
    rw [hx, scrub_of_early e h]
  case visits =>
    intro s slice grp p e ha hs hg h hp
    have hx : exec (.scrubRow slice grp e) s = .next (keepQueue s (settle (scrub slice grp e s))) :=
      act_alive _ ha (by simp [hs, hg])
    simp only [hx, scrub_of_some e h hp]
    cases scrubRowAt s (4 * slice + grp) (p % scrubRows s (4 * slice + grp)) with
    | none => rfl
    | some row =>
      simp only [scrubFinds_scrubRead]
      rfl
  case idle =>
    intro s slice grp e ha hs hg h hn
    have hx : exec (.scrubRow slice grp e) s = .next (keepQueue s (settle (scrub slice grp e s))) :=
      act_alive _ ha (by simp [hs, hg])
    rw [hx, scrub_of_none e h hn]
  case repair =>
    intro s slice ha hs
    have hok : decide (slice < 64) = true := decide_eq_true hs
    refine ⟨?_, ?_, ?_, fun r => ⟨(sameMemories_rowUe r s).1, findCe_mem r 1 s⟩⟩
    · have hx : exec (.eccWriteback slice) s = .next (keepQueue s (writeBack slice s)) := act_alive _ ha hok
      cases hf : s.spd.writeback.find? (fun r => r / 16384 == slice) with
      | none =>
        rw [hx, writeBack_of_none hf]
        rfl
      | some r =>
        rw [hx, writeBack_of_some hf]
        rfl
    · refine act_of_pending (idleRepair slice) ha hok ?_
      unfold idleRepair
      split
      · split <;> rfl
      · rfl
    · have hx : exec (.repairCopyDone slice) s = .next (keepQueue s (settle (copyDone slice s))) := act_alive _ ha hok
      rw [hx, copyDone]
      cases tget none s.spd.copying slice with
      | none => rfl
      | some r => rfl
  case empty =>
    intro s core wheel ha hc hw h
    have hx : exec (.wheelPoisonFill core wheel) s = .next (keepQueue s (poisonFillStep (wheelKey core wheel) s)) :=
      act_alive _ ha (by simp [hc, hw])
    rw [hx, poisonFillStep_of_none h]
    rfl
  case fills =>
    intro s core wheel v e rest ha hc hw h hv hn hg ht
    have hx : exec (.wheelPoisonFill core wheel) s = .next (keepQueue s (poisonFillStep (wheelKey core wheel) s)) :=
      act_alive _ ha (by simp [hc, hw])
    rw [hx, poisonFillStep_of_some h hv hn hg ht]
    refine congrArg Host.Outcome.next (keepQueue_of_pending_eq ?_)
    simp only
    split
    · exact poisonedPlace_pending ..
    · rfl

end Sys2Proof

/-! SUPPORT. Accesses of remote windows (O41). -/

namespace Sys2Proof.Machine

/-- The window that answers a request holds it, and is one of the function's. -/
theorem of_winFor {s : State} {fn off n k : Nat} (h : winFor s fn off n = some k) :
    winHolds (winSt s k) off n = true ∧ 64 * fn ≤ k ∧ k < 64 * fn + 64 := by
  have hmem : ∀ {j : Nat}, j ∈ (List.range 64).map (fun i => 64 * fn + i) → 64 * fn ≤ j ∧ j < 64 * fn + 64 := by
    intro j hj
    obtain ⟨i, hi, rfl⟩ := List.mem_map.mp hj
    have := List.mem_range.mp hi
    omega
  rw [winFor] at h
  simp only at h
  split at h
  · next j hj =>
    obtain rfl := Option.some.inj h
    have hq := List.find?_some hj
    simp only [Bool.and_eq_true] at hq
    exact ⟨hq.2, hmem (List.mem_of_find?_eq_some hj)⟩
  · have hq := List.find?_some h
    simp only [Bool.and_eq_true] at hq
    exact ⟨hq.1.2, hmem (List.mem_of_find?_eq_some h)⟩

theorem winDeny_eq (k req : Nat) (s : State) : winDeny k req s =
    addLog 0x0014 (k / 64) (engU 0x07 (portOf (k / 64))) req k 0 (cnt R.winDenied k 1 s) := rfl

/-- A posted write that a window answers (R327, R329). -/
theorem winWrite_of_some {s : State} {fn off k : Nat} (req : Nat) {data : List Byte}
    (h : winFor s fn off data.length = some k) : winWrite fn req off data s =
      if (winSt s k).st ≠ .opened then winLateWrite k req s
      else if winPermits (winSt s k) req = false then winDeny k req s
      else if (winSt s k).hbm = false ∧ (data.length ≠ 512 ∨ off % 512 ≠ 0) then cnt R.winDropShape k 1 s
      else modWin k (fun w => { w with
          flight := w.flight ++ [{ req := req, stamp := s.now, dev := w.base + (off - w.aperture), data := data }] })
        (cnt R.winAccepted k 1 s) := by
  rw [winWrite, h]
  simp only [bne_iff_ne, Bool.not_eq_true', Bool.and_eq_true, Bool.or_eq_true]

/-- A read that a window answers (R327, R412). -/
theorem winRead_of_some {s : State} {fn off k : Nat} (req len : Nat) (atomic : Bool)
    (h : winFor s fn off len = some k) :
    winRead fn req off len atomic s =
      if (winSt s k).st ≠ .opened then emit (.completion fn 4 []) s
      else if winPermits (winSt s k) req = false then emit (.completion fn 4 []) (winDeny k req s)
      else if atomic then emit (.completion fn 1 []) (cnt R.winDropShape k 1 s)
      else if (winSt s k).hbm = true ∧ (winSt s k).readEn = true then
        let a := (winSt s k).base + (off - (winSt s k).aperture)
        if keyless s fn a len = true then
          emit (.completion fn 4 []) (logAddr 0x0001 fn (engU 0x07 (portOf fn)) a s)
        else emit (.completion fn 0 (hbmGets s a len)) s
      else emit (.completion fn 4 []) (cnt R.winDropShape k 1 s) := by
  rw [winRead, h]
  simp only [bne_iff_ne, Bool.not_eq_true', Bool.and_eq_true]

/-- Nothing lands where nothing is in flight, or the oldest write was accepted at this instant. -/
theorem winLand_of_idle {s : State} {k : Nat}
    (h : (winSt s k).flight = [] ∨ ∃ f r, (winSt s k).flight = f :: r ∧ s.now ≤ f.stamp) : winLand k s = s := by
  rw [winLand]
  rcases h with h | ⟨f, r, h, hl⟩
  · simp only [h]
  · simp only [h, if_pos hl]

/-- The oldest write in flight lands (R328). -/
theorem winLand_of_flight {s : State} {k : Nat} {f : WinWrite} {r : List WinWrite} (h : (winSt s k).flight = f :: r)
    (hl : f.stamp < s.now) : winLand k s =
      (let s0 := modWin k (fun w => { w with flight := r }) s
       let counts := (winSt s k).arrEn &&
         ((winSt s k).hbm || !(bankDead s (rowOf f.dev) || rowPoison s (rowOf f.dev) == 3))
       if keyless s (k / 64) f.dev f.data.length then
         settle (winDrain k (logAddr 0x0001 (k / 64) (engU 0x07 (portOf (k / 64))) f.dev s0))
       else
         let s1 := devPut f.dev f.data s0
         settle (winDrain k (if counts then arrAdd (arrKey (winSt s k).counter) 1 s1 else s1))) := by
  rw [winLand]
  simp only [h, if_neg (Nat.not_le.mpr hl)]

section
variable {s : State} {fn : Nat} (req off : Nat) (ha : alive s = true) (hfn : fn < 32) (hn : fn < nFns s)
include ha hfn hn

theorem exec_windowWrite (data : List Byte) :
    exec (.windowWrite fn req off data) s = .next (keepQueue s (winWrite fn req off data s)) := by
  have hx : exec (.windowWrite fn req off data) s =
      .next (keepQueue s (guardS (decide (fn < nFns s)) s (winWrite fn req off data))) :=
    act_alive _ ha (decide_eq_true hfn)
  rw [hx, guardS, if_pos (decide_eq_true hn)]

theorem exec_windowRead (len : Nat) (atomic : Bool) :
    exec (.windowRead fn req off len atomic) s = .next (keepQueue s (winRead fn req off len atomic s)) := by
  have hx : exec (.windowRead fn req off len atomic) s =
      .next (keepQueue s (guardS (decide (fn < nFns s)) s (winRead fn req off len atomic))) :=
    act_alive _ ha (decide_eq_true hfn)
  rw [hx, guardS, if_pos (decide_eq_true hn)]

end

theorem exec_windowWriteLanded {s : State} {win : Nat} (ha : alive s = true) (hw : win < 2048) :
    exec (.windowWriteLanded win) s = .next (keepQueue s (winLand win s)) :=
  act_alive _ ha (decide_eq_true hw)

end Sys2Proof.Machine

namespace Sys2Proof

open Sys2Proof.Machine

/-- Settles O41. -/
theorem windowAccesses : Obligations.WindowAccesses := by
  unfold Obligations.WindowAccesses
  refine ⟨?writes, ?reads, ?idle, ?lands, ?drains⟩
  case writes =>
    intro s fn req off data ha hfn hn
    refine ⟨?_, fun k hk => of_winFor hk⟩
    rw [exec_windowWrite req off ha hfn hn data]
    cases hk : winFor s fn off data.length with
    | none =>
      rw [winWrite, hk]
    | some k =>
      rw [winWrite_of_some req hk]
      simp only [winDeny_eq]
  case reads =>
    intro s fn req off len atomic ha hfn hn
    rw [exec_windowRead req off ha hfn hn len atomic]
    cases hk : winFor s fn off len with
    | none => rw [winRead, hk]
    | some k => rw [winRead_of_some req len atomic hk]
  case idle =>
    intro s win ha hw h
    rw [exec_windowWriteLanded ha hw, winLand_of_idle h]
    rfl
  case lands =>
    intro s s0 win f r ha hw hf hl h0
    subst h0
    rw [exec_windowWriteLanded ha hw, winLand_of_flight hf hl]
    refine ⟨fun hk => ?_, fun hk => ?_⟩
    · simp only [hk, Bool.false_eq_true, if_false]
    · simp only [hk, if_true]
  case drains =>
    intro s k hd hf hk
    rw [(winSt_winDrain hk hd).1, if_pos hf]

end Sys2Proof

/-! SUPPORT. Packets of camera ports (O42); timeouts, losses and the landing of lines (O43). -/

namespace Sys2Proof.Machine

/-! ### Packets (R82 to R88) -/

/-- The state in which a packet with a header that can be read finds its port. -/
def portState (port : Nat) (ecc : Ecc) (s : State) : State :=
  if ecc = .corrected then cnt R.camPortEccCorr port 1 (catchUp port (traffic port s))
  else catchUp port (traffic port s)

section
variable (port : Nat) (p : Stream → Bool) (f : Nat → State → State) (s : State)

theorem packet_bad : packet port .bad p f s = settle (headerDrop port (catchUp port (traffic port s))) := rfl

theorem framePacket_bad : framePacket port .bad p f s = settle (headerDrop port (catchUp port (traffic port s))) := rfl

end

section
variable {port : Nat} {ecc : Ecc} {p : Stream → Bool} {s : State} {st : Nat}

theorem packet_of_one (f : Nat → State → State) (he : ecc ≠ .bad)
    (h : streamsWith (portState port ecc s) (fun v => sdPort v == port && p v) = [st]) :
    packet port ecc p f s = settle (f st (portState port ecc s)) := by
  unfold portState at h ⊢
  simp only [packet, if_neg he, h]
  rfl

theorem framePacket_of_unclaimed (f : Nat → State → State) (he : ecc ≠ .bad)
    (h : streamsWith (portState port ecc s) (fun v => sdPort v == port && p v) = []) :
    framePacket port ecc p f s = settle (cnt R.camPortUnclaimed port 1 (portState port ecc s)) := by
  unfold portState at h ⊢
  simp only [framePacket, if_neg he, h]
  rfl

/-- A packet that is one stream's alone, which has a frame open. -/
theorem framePacket_of_one {v : Stream} (f : Nat → State → State) (he : ecc ≠ .bad)
    (h : streamsWith (portState port ecc s) (fun v => sdPort v == port && p v) = [st])
    (hv : streamAt (portState port ecc s) st = some v) (ho : v.opened = true) (hf : (openFrame v).isSome = true) :
    framePacket port ecc p f s = settle (f st (corrected st ecc (touchStream st (portState port ecc s)))) := by
  have hn : (openFrame v).isNone = false := by simpa using hf
  unfold portState at h hv ⊢
  simp only [framePacket, if_neg he, h, onFrames, List.any_cons, List.any_nil, hv, ho, hf, hn, Bool.and_false,
    Bool.or_false, Bool.false_eq_true, if_false, List.foldl_cons, List.foldl_nil, Bool.and_self, if_true]
  rfl

end

section
variable {s : State} {port vc : Nat} (ha : alive s = true) (hp : port < 16) (hv : vc < 16)
include ha hp hv

theorem exec_csi2FrameStart (n : Nat) (ecc : Ecc) :
    exec (.csi2FrameStart port vc n ecc) s = .next (keepQueue s (fsPacket port vc n ecc s)) :=
  act_alive _ ha (by simp [hp, hv])

theorem exec_csi2LineStart (n : Nat) (ecc : Ecc) :
    exec (.csi2LineStart port vc n ecc) s = .next (keepQueue s (lsPacket port vc n ecc s)) :=
  act_alive _ ha (by simp [hp, hv])

theorem exec_csi2FrameEnd (n : Nat) (ecc : Ecc) :
    exec (.csi2FrameEnd port vc n ecc) s = .next (keepQueue s (fePacket port vc ecc s)) :=
  act_alive _ ha (by simp [hp, hv])

theorem exec_csi2LongPacket (dt : Nat) (data : List Byte) (ecc : Ecc) (ok : Bool) :
    exec (.csi2LongPacket port vc dt data ecc ok) s = .next (keepQueue s (linePacket port vc dt data ecc ok s)) :=
  act_alive _ ha (by simp [hp, hv])

theorem exec_embeddedData (data : List Byte) (ecc : Ecc) (ok : Bool) :
    exec (.embeddedData port vc data ecc ok) s = .next (keepQueue s (linePacket port vc 0x12 data ecc ok s)) :=
  act_alive _ ha (by simp [hp, hv])

end

/-! ### Timeouts, losses, landing (R85, R86, R107) -/

theorem checkTimeout_of_some {s : State} {st : Nat} {v : Stream} (h : streamAt s st = some v) : checkTimeout st s =
    if v.started = true ∧ (openFrame v).isSome = true ∧ v.lastPkt + sdTimeout v ≤ s.now then
      closeFrame st true (v.lastPkt + sdTimeout v) s else s := by
  rw [checkTimeout, h]
  simp only [timeoutDue, Bool.and_eq_true, decide_eq_true_eq]

theorem checkLoss_of_some {s : State} {st t : Nat} {v : Stream} (h : streamAt s st = some v) (ht : v.prevFs = some t) :
    checkLoss st s =
      if v.started = true ∧ v.opened = true ∧ sdPeriod v ≠ 0 ∧ v.lossRaised = false ∧ t + 2 * sdPeriod v ≤ s.now then
        let s1 := rput R.camStreamStat st (rget s R.camStreamStat st ||| 2)
          (addLog 0x0006 v.tenant (camEng (sdPort v)) st 0 0 (modStream st (fun v => { v with lossRaised := true }) s))
        if bit (rget s (if st < 32 then R.safStreamCritLo else R.safStreamCritHi) 0) (st % 32) then
          enterSafe 0x06 (camEng (sdPort v)) s1 else s1
      else s := by
  rw [checkLoss, h]
  simp only [ht, Bool.and_eq_true, bne_iff_ne, Bool.not_eq_true', decide_eq_true_eq, and_assoc]

end Sys2Proof.Machine

namespace Sys2Proof

open Sys2Proof.Machine

/-- Settles O42. -/
theorem cameraPacketsAreServed : Obligations.CameraPacketsAreServed := by
  unfold Obligations.CameraPacketsAreServed
  refine ⟨?bad, ?unclaimed, ?starts, ?served⟩
  case bad =>
    intro s port vc n data ok ha hp hv
    refine ⟨exec_csi2FrameStart ha hp hv n .bad, fun c hc => ?_⟩
    simp only [List.mem_cons, List.not_mem_nil, or_false] at hc
    rcases hc with rfl | rfl | rfl | rfl
    · exact exec_csi2LineStart ha hp hv n .bad
    · exact exec_csi2LongPacket ha hp hv n data .bad ok
    · exact exec_embeddedData ha hp hv data .bad ok
    · exact exec_csi2FrameEnd ha hp hv n .bad
  case unclaimed =>
    intro s s0 port vc n ha hp hv h0 hl c hc
    subst h0
    have hu := fun f => framePacket_of_unclaimed (port := port) (ecc := .good) (p := fun v => sdVc v == vc) (s := s) f
      (by decide) hl
    simp only [List.mem_cons, List.not_mem_nil, or_false] at hc
    rcases hc with rfl | rfl
    · rw [exec_csi2LineStart ha hp hv n .good, lsPacket, hu]
      rfl
    · rw [exec_csi2FrameEnd ha hp hv n .good, fePacket, hu]
      rfl
  case starts =>
    intro s s0 port vc st n ecc ha hp hv he h0 hl hl1
    have h0 : s0 = portState port ecc (wakeDevice s) := h0
    subst h0
    have hpk := packet_of_one (fun st s => takeFs st n ecc s) he hl
    have hno : ¬(ecc ≠ .bad ∧ 0 < (streamsWith (catchUp port (traffic port (wakeDevice s)))
        (fun v => sdPort v == port && sdVc v == vc)).length ∧ (streamsWith (settle (takeFs st n ecc
          (portState port ecc (wakeDevice s)))) (fun v => sdPort v == port && sdVc v == vc)).length = 0) := by
      rw [hl1]
      simp
    rw [exec_csi2FrameStart ha hp hv n ecc, fsPacket]
    simp only [hpk, if_neg hno]
  case served =>
    intro s s0 port vc dt st n v data ecc ok ha hp hv he h0 hst ho hf
    have h0 : s0 = portState port ecc s := h0
    subst h0
    refine ⟨fun hl => ⟨?_, ?_⟩, fun hl => ⟨fun hd => ?_, fun hd => ?_⟩⟩
    · rw [exec_csi2LineStart ha hp hv n ecc, lsPacket, framePacket_of_one _ he hl hst ho hf]
    · rw [exec_csi2FrameEnd ha hp hv n ecc, fePacket, framePacket_of_one _ he hl hst ho hf]
    · rw [exec_csi2LongPacket ha hp hv dt data ecc ok, linePacket,
        framePacket_of_one (p := fun v => sdVc v == vc && sdDt v == dt) _ he hl hst ho hf]
      simp only [if_neg hd]
    · subst hd
      rw [exec_embeddedData ha hp hv data ecc ok, linePacket,
        framePacket_of_one (p := fun v => sdVc v == vc && sdDt v == 0x12) _ he hl hst ho hf]
      simp only [if_true]

/-- Settles O43. -/
theorem streamsTimeOutAndLand : Obligations.StreamsTimeOutAndLand := by
  unfold Obligations.StreamsTimeOutAndLand
  refine ⟨?timeout, ?loss, ?stalls, ?lands, ?absent⟩
  case timeout =>
    intro s st v ha hst hv
    have hx : exec (.lineTimeout st) s = .next (keepQueue s (settle (checkTimeout st s))) :=
      act_alive _ ha (decide_eq_true hst)
    rw [hx, checkTimeout_of_some hv]
  case loss =>
    intro s st t v ha hst hv ht
    have hx : exec (.streamLoss st) s = .next (keepQueue s (settle (checkLoss st s))) :=
      act_alive _ ha (decide_eq_true hst)
    rw [hx, checkLoss_of_some hv ht]
  case stalls =>
    intro s st o v b rest l k w ha hst hv hb hl hk hen hwe hw ho hr
    have hx : exec (.lineLanded st) s = .next (keepQueue s (landLine st s)) := act_alive _ ha (decide_eq_true hst)
    rw [hx, landLine]
    simp only [hv, hb, ← hl, ← hk, hen, hwe, ← hw, ho, hr, Bool.not_true, Bool.or_self, Bool.false_eq_true, if_false,
      Bool.not_false, if_true]
  case lands =>
    intro s s1 st o v b rest l k w data ha hst hv hb hl hk hen hwe hw ho hr hd h1 hc
    have hx : exec (.lineLanded st) s = .next (keepQueue s (landLine st s)) := act_alive _ ha (decide_eq_true hst)
    rw [hx, landLine]
    simp only [hv, hb, ← hl, ← hk, hen, hwe, ← hw, ho, hr, ← hd, ← h1, hc, Bool.not_true, Bool.or_self,
      Bool.false_eq_true, if_false]
  case absent =>
    intro s st ha hst hn
    have hx : exec (.lineLanded st) s = .next (keepQueue s (landLine st s)) := act_alive _ ha (decide_eq_true hst)
    rw [hx, landLine, hn]
    rfl

end Sys2Proof

/-! SUPPORT. Settings of sensors and frame-sync lines (O44). -/

namespace Sys2Proof.Machine

/-! ### Settings (R95 to R99) -/

/-- The pending set moves to the writing place when that is empty. -/
def takeUpSet (v : Stream) : Stream :=
  if v.writing = none then { v with writing := v.pend, pend := none, entry := 0, attempts := 0, acked := false } else v

theorem loadSet_eq (st : Nat) (s : State) : loadSet st s = modStream st (fun v => { takeUpSet v with
    active := v.active || (takeUpSet v).writing.isSome
    sprofile := if v.active then v.sprofile else v.wprofile }) s := by
  refine congrArg (modStream st · s) (funext fun v => ?_)
  unfold takeUpSet
  cases hw : v.writing <;> rfl

section
variable {s : State} {st : Nat}

theorem exec_settingsWindowOpen (ha : alive s = true) (hst : st < 64) :
    exec (.settingsWindowOpen st) s = .next (keepQueue s (windowOpen st s)) := act_alive _ ha (decide_eq_true hst)

theorem exec_settingsWindowClose (ha : alive s = true) (hst : st < 64) :
    exec (.settingsWindowClose st) s = .next (keepQueue s (windowClose st s)) := act_alive _ ha (decide_eq_true hst)

theorem exec_sensorTransferDone (ha : alive s = true) (hst : st < 64) (ack : Bool) (n : Nat) :
    exec (.sensorTransferDone st ack n) s = .next (keepQueue s (transferDone st ack n s)) :=
  act_alive _ ha (decide_eq_true hst)

theorem exec_i2cStretchTimeout (ha : alive s = true) (hst : st < 64) (n : Nat) :
    exec (.i2cStretchTimeout st n) s = .next (keepQueue s (stretchOut st n s)) := act_alive _ ha (decide_eq_true hst)

theorem transferDone_of_ending {v : Stream} (ack : Bool) (n : Nat) (hv : streamAt s st = some v)
    (he : v.ending.isSome = true) : transferDone st ack n s = transferCut st (ack || decide (0 < n)) s := by
  rw [transferDone, hv]
  simp only [he, if_true]

/-- An acknowledged entry leads to the next one, or ends the set; the window may have passed. -/
theorem transferDone_of_ack {v : Stream} {t : Nat} {w : SetRec} (n : Nat) (hv : streamAt s st = some v)
    (he : v.ending = none) (hb : v.busy = some t) (hw : v.writing = some w) :
    transferDone st true n s =
      (let s1 := modStream st (fun v => { v with busy := none, acked := true, attempts := 0, entry := v.entry + 1 }) s
       if windowPast s v = true then failSet st s1
       else if w.entries.length ≤ v.entry + 1 then doneSet st s1 else startTransfer st s1) := by
  rw [transferDone, hv]
  simp only [he, hb, hw, Option.isSome_none, Option.isNone_some, Bool.false_eq_true, if_false, Bool.not_true]

theorem transferDone_of_refused {v : Stream} {t : Nat} (n : Nat) (hv : streamAt s st = some v)
    (he : v.ending = none) (hb : v.busy = some t) : transferDone st false n s = transferFailed st n s := by
  rw [transferDone, hv]
  simp only [he, hb, Option.isSome_none, Option.isNone_some, Bool.false_eq_true, if_false, Bool.not_false, if_true]

theorem transferFailed_of_some {v : Stream} (n : Nat) (hv : streamAt s st = some v) : transferFailed st n s =
    (let s1 := modStream st (fun v => { v with
       busy := none, acked := v.acked || decide (0 < n), attempts := v.attempts + 1 }) s
     if windowPast s v = true ∨ 3 ≤ v.attempts then failSet st s1 else startTransfer st s1) := by
  rw [transferFailed, hv]
  simp only [Bool.or_eq_true, decide_eq_true_eq, Nat.lt_add_one_iff]

theorem transferCut_of_some {v : Stream} (data : Bool) (hv : streamAt s st = some v) : transferCut st data s =
    kickBus (sdPort v) (modStream st (fun v => { v with
      ending := none, partialAt := if data then v.partialAt.or (v.ending.map Prod.fst) else v.partialAt }) s) := by
  rw [transferCut, hv]

theorem stretchOut_of_busy {v : Stream} {t : Nat} (n : Nat) (hv : streamAt s st = some v) (he : v.ending = none)
    (hb : v.busy = some t) : stretchOut st n s =
      if bits (wd v.sprofile 0) 1 0 = 2 ∧ t + 1000000 ≤ s.now then transferFailed st n s else s := by
  rw [stretchOut, hv]
  simp only [he, hb, Option.map_none, Option.or_none, Option.isSome_none, Bool.false_eq_true, if_false]

/-- Without a stream nothing happens. -/
theorem settings_of_none (ack : Bool) (n : Nat) (h : streamAt s st = none) :
    windowOpen st s = s ∧ windowClose st s = s ∧ transferDone st ack n s = s ∧ stretchOut st n s = s := by
  refine ⟨?_, ?_, ?_, ?_⟩
  · rw [windowOpen, h]
  · rw [windowClose, h]
  · rw [transferDone, h]
  · rw [stretchOut, h]

end

/-! ### Frame-sync lines (R101, R502) -/

theorem insertDue_nil (t : Nat) : insertDue t [] = [t] := rfl

theorem insertDue_cons (t x : Nat) (l : List Nat) :
    insertDue t (x :: l) = if x ≤ t then x :: insertDue t l else t :: x :: l := by
  by_cases h : x ≤ t <;> simp [insertDue, h]

theorem insertDue_perm (t : Nat) (l : List Nat) : (insertDue t l).Perm (t :: l) := by
  induction l with
  | nil => exact .refl _
  | cons x l ih =>
    rw [insertDue_cons]
    split
    · exact (ih.cons x).trans (.swap t x l)
    · exact .refl _

theorem insertDue_sorted {t : Nat} {l : List Nat} (h : l.Pairwise (· ≤ ·)) : (insertDue t l).Pairwise (· ≤ ·) := by
  induction l with
  | nil => exact List.pairwise_singleton _ _
  | cons x l ih =>
    obtain ⟨hx, hl⟩ := List.pairwise_cons.mp h
    rw [insertDue_cons]
    split
    · next hle =>
      refine List.pairwise_cons.mpr ⟨fun y hy => ?_, ih hl⟩
      rcases List.mem_cons.mp ((insertDue_perm t l).mem_iff.mp hy) with rfl | hy
      · exact hle
      · exact hx y hy
    · next hgt =>
      refine List.pairwise_cons.mpr ⟨fun y hy => ?_, h⟩
      rcases List.mem_cons.mp hy with rfl | hy
      · omega
      · have := hx y hy
        omega

theorem fsoLevel_true (f : Fso) : fsoLevel f true = !bit f.ctrl 2 := by
  unfold fsoLevel
  cases bit f.ctrl 2 <;> rfl

theorem fsoLevel_false (f : Fso) : fsoLevel f false = bit f.ctrl 2 := by
  unfold fsoLevel
  cases bit f.ctrl 2 <;> rfl

section
variable {s : State} {k : Nat}

theorem exec_fsyncOutAssert (ha : alive s = true) (hk : k < 8) :
    exec (.fsyncOutAssert k) s = .next (keepQueue s (fsoAssert k s)) := act_alive _ ha (decide_eq_true hk)

/-- A free-running output asserts at PHASE plus multiples of PERIOD. -/
theorem fsoAssert_of_free {d : Nat} {f : Fso} (hf : f = fsoSt s k) (hm : bits f.ctrl 1 0 = 1) (hp : f.period ≠ 0)
    (hs : f.phase ≤ s.now / 4) (hd : d = s.now / 4 - (s.now / 4 - f.phase) % f.period) (hl : f.lastDue ≤ d) :
    fsoAssert k s = fsoDue k { f with lastDue := d + 1 } s := by
  have hl' : f.lastDue < d + 1 := Nat.lt_succ_of_le hl
  rw [fsoAssert, ← hf]
  simp only [hm, if_true, ← hd, if_pos hl', if_pos (And.intro hp hs)]

theorem fsoAssert_of_slaved {t : Nat} {f : Fso} {r : List Nat} (hf : f = fsoSt s k) (hm : bits f.ctrl 1 0 = 2)
    (hd : f.due = t :: r) (ht : t ≤ s.now) : fsoAssert k s = fsoDue k { f with due := r } s := by
  rw [fsoAssert, ← hf]
  simp only [hm, show ¬(2 : Nat) = 1 by decide, if_false, if_true, hd, if_pos ht]

theorem fsoAssert_of_off (hm : bits (fsoSt s k).ctrl 1 0 = 0) : fsoAssert k s = s := by
  rw [fsoAssert]
  simp only [hm, show ¬(0 : Nat) = 1 by decide, show ¬(0 : Nat) = 2 by decide, if_false]

/-- The active edge of an input is stamped and gives every output it drives a due time. -/
theorem fsiEdge_of_active {n : Nat} {rising : Bool} (hr : s.pwr.st = .run)
    (he : rising ≠ bit (rget s R.camFsiCtrl 0) n) (hn : tget none s.cam.fsiEdge n = none) : fsiEdge n rising s =
      (List.range 8).foldl (fun s k =>
        if bits (fsoSt s k).ctrl 1 0 = 2 ∧ bits (fsoSt s k).ctrl 4 3 = n then
          putFso k { fsoSt s k with due := insertDue (s.now + (fsoSt s k).phase * 4) (fsoSt s k).due } s else s)
        { s with cam := { s.cam with fsiEdge := tset none s.cam.fsiEdge n (some s.now),
                                     fsiLast := tset 0 s.cam.fsiLast n s.now } } := by
  have hw : wakeDevice s = s := wakeDevice_of_not_sleep (by rw [hr]; decide)
  rw [fsiEdge, hw]
  simp only [beq_false_of_ne he, Bool.false_eq_true, if_false, hn]

end

end Sys2Proof.Machine

namespace Sys2Proof

open Sys2Proof.Machine

/-- Settles O44. -/
theorem settingsAndFrameSync : Obligations.SettingsAndFrameSync := by
  unfold Obligations.SettingsAndFrameSync
  refine ⟨⟨?opens, ?closes, ?transfers, fun s st => loadSet_eq st s, ?cut, ?inband, ?absent⟩,
    ?free, ?slaved, ?off, fun t l h => ⟨insertDue_perm t l, insertDue_sorted h⟩, ?due, ?pulse, ?wakes, ?active⟩
  case opens =>
    intro s st o c v r ha hst hv hws hw hsd ho
    rw [exec_settingsWindowOpen ha hst, windowOpen, hv]
    simp only [hws, hw, hsd, decide_eq_true ho, Bool.and_self, if_true, Option.isSome_none, Bool.false_and,
      Bool.false_eq_true, if_false]
  case closes =>
    intro s st o c v ha hst hv hw hc
    rw [exec_settingsWindowClose ha hst, windowClose, hv]
    simp only [hw, if_pos hc]
    rfl
  case transfers =>
    intro s st t n v w ha hst hv he hb hw
    refine ⟨?_, ?_, fun hm ht => ?_, fun h => ?_⟩
    · rw [exec_sensorTransferDone ha hst, transferDone_of_ack n hv he hb hw]
    · rw [exec_sensorTransferDone ha hst, transferDone_of_refused n hv he hb, transferFailed_of_some n hv]
    · rw [exec_i2cStretchTimeout ha hst, stretchOut_of_busy n hv he hb, if_pos ⟨hm, ht⟩]
    · have hno : ¬(bits (wd v.sprofile 0) 1 0 = 2 ∧ t + 1000000 ≤ s.now) := by omega
      rw [exec_i2cStretchTimeout ha hst, stretchOut_of_busy n hv he hb, if_neg hno]
      rfl
  case cut =>
    intro s st n at_ t v ack ha hst hv he
    rw [exec_sensorTransferDone ha hst, transferDone_of_ending ack n hv (by rw [he]; rfl), transferCut_of_some _ hv]
  case inband =>
    intro s port addr data ha hp
    exact act_alive _ ha (decide_eq_true hp)
  case absent =>
    intro s st n ack ha hst hn c hc
    obtain ⟨h1, h2, h3, h4⟩ := settings_of_none ack n hn
    simp only [List.mem_cons, List.not_mem_nil, or_false] at hc
    rcases hc with rfl | rfl | rfl | rfl
    · exact (exec_settingsWindowOpen ha hst).trans (congrArg (fun t => Host.Outcome.next (keepQueue s t)) h1)
    · exact (exec_settingsWindowClose ha hst).trans (congrArg (fun t => Host.Outcome.next (keepQueue s t)) h2)
    · exact (exec_sensorTransferDone ha hst ack n).trans (congrArg (fun t => Host.Outcome.next (keepQueue s t)) h3)
    · exact (exec_i2cStretchTimeout ha hst n).trans (congrArg (fun t => Host.Outcome.next (keepQueue s t)) h4)
  case free =>
    intro s k d f ha hk hf hm hp hs hd hl
    rw [exec_fsyncOutAssert ha hk, fsoAssert_of_free hf hm hp hs hd hl]
  case slaved =>
    intro s k t f r ha hk hf hm hd ht
    rw [exec_fsyncOutAssert ha hk, fsoAssert_of_slaved hf hm hd ht]
  case off =>
    intro s k ha hk hm
    rw [exec_fsyncOutAssert ha hk, fsoAssert_of_off hm]
    rfl
  case due =>
    intro s k f hf
    simp only [fsoDue, hf, Bool.false_eq_true, if_false, fsoLevel_true]
  case pulse =>
    intro s k ha hk hf
    have hx : exec (.fsyncOutDeassert k) s = .next (keepQueue s (fsoDeassert k s)) := act_alive _ ha (decide_eq_true hk)
    rw [hx, fsoDeassert]
    simp only [hf, Bool.true_and, decide_eq_true_eq, fsoLevel_false]
  case wakes =>
    intro s n rising ha hn hr
    have hx : exec (.fsyncInEdge n rising) s = .next (keepQueue s (fsiEdge n rising s)) :=
      act_alive _ ha (decide_eq_true hn)
    rw [hx, fsiEdge]
    simp only [hr, beq_self_eq_true, if_true]
  case active =>
    intro s n rising ha hn hr he hl
    have hx : exec (.fsyncInEdge n rising) s = .next (keepQueue s (fsiEdge n rising s)) :=
      act_alive _ ha (decide_eq_true hn)
    rw [hx, fsiEdge_of_active hr he hl]

end Sys2Proof

/-! SUPPORT. The sequencer's own events (O45). -/

namespace Sys2Proof.Machine

/-! ### Timers, waits, guards (R51, R59, R63) -/

theorem timerFire_of_timer {s : State} {t : Nat} {v : Tmpl} (hv : tmplAt s t = some v) (ha : v.armed = true)
    (hk : v.trigKind = 3) : timerFire t s = if v.nextFire ≤ s.now then
      settle (fireTrigger t
        { time := v.nextFire, stream := 255, serial := 0, frameNo := 0, handle := none, job := none }
        (modTmpl t (fun v => { v with nextFire := v.nextFire + max 1 v.param0 }) s)) else s := by
  rw [timerFire, hv]
  simp only [ha, hk, beq_self_eq_true, Bool.true_and, decide_eq_true_eq]

theorem timerFire_of_other {s : State} {t : Nat}
    (h : tmplAt s t = none ∨ ∃ v, tmplAt s t = some v ∧ (v.armed = false ∨ v.trigKind ≠ 3)) : timerFire t s = s := by
  rw [timerFire]
  rcases h with h | ⟨v, h, hc⟩
  · simp only [h]
  · have hb : (v.armed && v.trigKind == 3 && decide (v.nextFire ≤ s.now)) = false := by
      rcases hc with hc | hc <;> simp [hc]
    simp only [h, hb, Bool.false_eq_true, if_false]

theorem timeWait_of_time {s : State} {t k n : Nat} {second : Bool} {v : Tmpl} {nd : Node} (hv : tmplAt s t = some v)
    (hn : nodeAt v n = some nd) (hk : (if second then nd.w1Kind else nd.w0Kind) = 4) : timeWait t k n second s =
      settle ((List.range nd.stripes).foldl (fun s i => pollWait t k n i second s) s) := by
  rw [timeWait, hv]
  simp only [Option.bind_some, hn, hk, if_true]

theorem guardStart_eq (p : Nat) (s : State) : guardStart p s =
    if starved s p = true ∧ p ∉ s.seq.guard then { s with seq := { s.seq with guard := s.seq.guard ++ [p] } }
    else s := by
  simp only [guardStart, Bool.and_eq_true, Bool.not_eq_true', List.contains_eq_mem, decide_eq_false_iff_not]
  rfl

/-! ### Share windows (R65, R74) -/

/-- Accounting runs changes the shares and the busy times alone. -/
theorem exists_accountRuns : ∀ (l : List Run) (s : State), ∃ sh bu,
    l.foldl (fun s r => accountRun r s) s = { s with seq := { s.seq with share := sh, busy := bu } }
  | [], s => ⟨s.seq.share, s.seq.busy, rfl⟩
  | r :: l, s => by
    obtain ⟨sh, bu, h⟩ := exists_accountRuns l (accountRun r s)
    exact ⟨sh, bu, h⟩

/-- The busy shares of a window, shown in SEQ_BUSY. -/
def showBusy (l : Tab Nat) (s : State) : State := l.foldl (fun s e => rput R.seqBusy e.1 (min 1000 (e.2 / 1000)) s) s

theorem showBusy_frame (l : Tab Nat) (s : State) : showBusy l s = { s with regs := (showBusy l s).regs } := by
  induction l generalizing s with
  | nil => rfl
  | cons e l ih => exact ih _

theorem showBusy_regs_congr (l : Tab Nat) {s t : State} (h : s.regs = t.regs) :
    (showBusy l s).regs = (showBusy l t).regs := by
  induction l generalizing s t with
  | nil => exact h
  | cons e l ih =>
    exact ih (by simp only [rput, h])

theorem shareEnd_of_early {s : State} (h : s.now < s.seq.windowStart + 1000000) : shareEnd s = s := if_pos h

/-- At the end of a window the registers show the busy shares and the accounts restart. -/
theorem shareEnd_of_due {s : State} (h : s.seq.windowStart + 1000000 ≤ s.now) : shareEnd s = { s with
    seq := { s.seq with share := [], busy := [], windowStart := s.now / 1000000 * 1000000 }
    regs := (showBusy (s.seq.runs.foldl (fun s r => accountRun r s) s).seq.busy
      { s with regs := s.regs.filter (fun e => e.1 % 0x1000000 != R.seqBusy) }).regs } := by
  obtain ⟨sh, bu, ha⟩ := exists_accountRuns s.seq.runs s
  let a := { s with seq := { s.seq with share := sh, busy := bu }
                    regs := s.regs.filter (fun e => e.1 % 0x1000000 != R.seqBusy) }
  have hs : shareEnd s = modSeq (fun q => { q with
      share := [], busy := [], windowStart := s.now / 1000000 * 1000000 }) (showBusy bu a) := by
    rw [shareEnd, if_neg (Nat.not_lt.mpr h), ha]
    rfl
  have hr : (showBusy bu a).regs = (showBusy bu { s with
      regs := s.regs.filter (fun e => e.1 % 0x1000000 != R.seqBusy) }).regs := showBusy_regs_congr bu rfl
  rw [hs, ha, showBusy_frame bu a, hr]
  rfl

/-! ### Completions (R57, R72, R312) -/

theorem canComplete_iff (s : State) (e : Nat) (r : Run) :
    (r.worked && !r.stalled && !pushStalled s e && !(runEngines r).any (fun e => s.pwr.waking.contains e)) = true ↔
      r.worked = true ∧ r.stalled = false ∧ pushStalled s e = false ∧
        (runEngines r).all (fun e => !s.pwr.waking.contains e) = true := by
  simp only [List.not_any_eq_all_not, Bool.and_eq_true, Bool.not_eq_true', and_assoc]

theorem completeTask_of_none {s : State} {e : Nat} (h : runOn s e = none) : completeTask e s = s := by
  rw [completeTask]
  simp only [h]

theorem completeTask_of_some {s0 s : State} {e : Nat} {r0 r : Run} (h0 : runOn s0 e = some r0)
    (hs : s = if passMoved r0 = true then settle (endPass e r0 s0) else s0) (hr : runOn s e = some r) :
    completeTask e s0 =
      if r.worked = true ∧ r.stalled = false ∧ pushStalled s e = false ∧
          (runEngines r).all (fun e => !s.pwr.waking.contains e) = true then
        let sf := r.gang.foldl (fun s c => cacheFlush c s) s
        if abortAsked sf r.task.tmpl r.task.slot = true then settle sf else
        let s1 := leaveRun r (dropRun e (accountRun r sf))
        let s2 := if r.cancelled then releaseRun r s1 else stampRun (frameLate s r) s1
        let s3 := (runEngines r).foldl (fun s e => startGolden e s)
          (r.gang.foldl (fun s c => teBoundary c s) (settle s2))
        { s3 with pwr := { s3.pwr with
          engIdle := (runEngines r).foldl (fun t e => tset 0 t e (s.now + 1)) s3.pwr.engIdle } }
      else s := by
  rw [completeTask]
  simp only [h0, ← hs, hr, canComplete_iff]

theorem exec_sluiceWindowEnd {s : State} {num : Nat} (ha : alive s = true) (hn : num < 512) :
    exec (.sluiceWindowEnd num) s = .next (keepQueue s (sluiceEnd num s)) := act_alive _ ha (decide_eq_true hn)

end Sys2Proof.Machine

namespace Sys2Proof

open Sys2Proof.Machine

/-- Settles O45. -/
theorem sequencerEvents : Obligations.SequencerEvents := by
  unfold Obligations.SequencerEvents
  refine ⟨⟨?timer, ?other, ?wait, ?guard, ?early, ?share⟩, ?complete, ?noRun, ?sluice, ?unbound, ?drains⟩
  case timer =>
    intro s t v ha ht hv hm hk
    have hx : exec (.timerTrigger t) s = .next (keepQueue s (timerFire t s)) := act_alive _ ha (decide_eq_true ht)
    rw [hx, timerFire_of_timer hv hm hk]
  case other =>
    intro s t ha ht h
    have hx : exec (.timerTrigger t) s = .next (keepQueue s (timerFire t s)) := act_alive _ ha (decide_eq_true ht)
    rw [hx, timerFire_of_other h]
    rfl
  case wait =>
    intro s t k n second v nd ha ht hk hn hv hnd hw
    have hx : exec (.timeWaitExpiry t k n second) s = .next (keepQueue s (timeWait t k n second s)) :=
      act_alive _ ha (by simp [ht, hk, hn])
    rw [hx, timeWait_of_time hv hnd hw]
  case guard =>
    intro s p ha hp
    have hx : exec (.gangStarveGuard p) s = .next (keepQueue s (guardStart p s)) := act_alive _ ha (decide_eq_true hp)
    rw [hx, guardStart_eq]
    refine congrArg Host.Outcome.next (keepQueue_of_pending_eq ?_)
    split <;> rfl
  case early =>
    intro s ha h
    have hx : exec .shareWindowEnd s = .next (keepQueue s (shareEnd s)) := act_alive _ ha rfl
    rw [hx, shareEnd_of_early h]
    rfl
  case share =>
    intro s ha h
    have hx : exec .shareWindowEnd s = .next (keepQueue s (shareEnd s)) := act_alive _ ha rfl
    rw [hx, shareEnd_of_due h]
    exact ⟨_, rfl, rfl, rfl, rfl, rfl, rfl, rfl, rfl, rfl⟩
  case complete =>
    intro s0 s e r0 r ha he h0 hs hr
    have hx : exec (.taskComplete e) s0 = .next (keepQueue s0 (completeTask e s0)) := act_alive _ ha (decide_eq_true he)
    rw [hx, completeTask_of_some h0 hs hr]
  case noRun =>
    intro s e ha he hn
    have hx : exec (.taskComplete e) s = .next (keepQueue s (completeTask e s)) := act_alive _ ha (decide_eq_true he)
    rw [hx, completeTask_of_none hn]
    rfl
  case sluice =>
    intro s num t n v nd ha hnum hb hv hnd
    rw [exec_sluiceWindowEnd ha hnum, sluiceEnd]
    simp only [hb, hv, hnd, Bool.and_eq_true, beq_iff_eq, Bool.not_eq_true', decide_eq_true_eq, and_assoc] <;>
      rfl
  case unbound =>
    intro s num ha hnum hb
    rw [exec_sluiceWindowEnd ha hnum, sluiceEnd, hb]
    rfl
  case drains =>
    intro s t k i ha ht hk hi
    have hx : exec (.instanceDrained t k) s = .next (keepQueue s (drained t k s)) := act_alive _ ha (by simp [ht, hk])
    rw [hx, drained, hi]
    simp only [beq_iff_eq]

end Sys2Proof

/-! SUPPORT. An engine takes its task and runs it; the vision engines (O47, O48). -/

namespace Sys2Proof.Machine

/-! ### Dispatch (R57, R62) -/

theorem modTmpl_runs (t : Nat) (f : Tmpl → Tmpl) (s : State) : (modTmpl t f s).seq.runs = s.seq.runs := by
  unfold modTmpl
  split <;> rfl

theorem wakeEng_seq (e : Nat) (s : State) : (wakeEng e s).seq = s.seq := by
  unfold wakeEng
  split <;> rfl

theorem wakeFor_seq (es : List Nat) (b : Bool) (s : State) : (wakeFor es b s).seq = s.seq := by
  have hf : ∀ (es : List Nat) (s : State), (es.foldl (fun s e => wakeEng e s) s).seq = s.seq := by
    intro es
    induction es with
    | nil => exact fun _ => rfl
    | cons e es ih => exact fun s => (ih (wakeEng e s)).trans (wakeEng_seq e s)
  unfold wakeFor
  simp only
  split
  · exact hf es s
  · exact hf es s

theorem turnTaken_runs (cls eng : Nat) (s : State) : (turnTaken cls eng s).seq.runs = s.seq.runs := by
  unfold turnTaken
  split
  · rfl
  · split <;> rfl

theorem dispatch_runs (k : Task) (eng : Nat) (gang : List Nat) (s : State) :
    (dispatch k eng gang s).seq.runs = s.seq.runs ++ [newRun s k eng gang] := by
  unfold dispatch
  simp only [wakeFor_seq, cnt_seq, turnTaken_runs]
  split
  · rfl
  · exact modTmpl_runs ..

/-- A dispatched task runs on its engine. -/
theorem runOn_dispatch {s : State} {eng : Nat} (k : Task) (gang : List Nat) (h : runOn s eng = none) :
    runOn (dispatch k eng gang s) eng = some (newRun s k eng gang) := by
  unfold runOn at h ⊢
  rw [dispatch_runs, List.find?_append, h]
  simp [newRun]

/-! ### The step of an engine -/

/-- What an engine does with the task it has taken. -/
def runTaken (eng : Nat) (go : Run → State → State) (s : State) : State :=
  match runOn s eng with
  | some r => settle (go r s)
  | none => s

section
variable {cls eng : Nat} {pick : Option Task} {ok : Task → Bool} {go : Run → State → State} {s : State}

theorem engineStep_of_take {k : Task} (h : runOn s eng = none) (hp : pick = some k) (hk : ok k = true) :
    engineStep cls eng pick ok go s =
      runTaken eng go (readMark k.tenant (descAddr s k) (descBytes cls) (dispatch k eng [] s)) := by
  simp only [engineStep, h, hp, hk, if_true]
  rfl

theorem engineStep_of_none (h : runOn s eng = none) (hp : pick.all (fun k => !ok k) = true) :
    engineStep cls eng pick ok go s = s := by
  simp only [engineStep, h]
  cases pick with
  | none => rfl
  | some k => exact if_neg (by simpa using hp)

theorem engineStep_of_other {r : Run} (h : runOn s eng = some r)
    (hr : r.worked = true ∨ r.cancelled = true ∨ r.task.cls ≠ cls ∨ ok r.task = false) :
    engineStep cls eng pick ok go s = s := by
  have hb : (r.task.cls == cls && ok r.task && !r.worked && !r.cancelled) = false := by
    rcases hr with h | h | h | h <;> simp [h]
  simp only [engineStep, h, hb, Bool.false_eq_true, if_false]

theorem engineStep_of_run {r : Run} (h : runOn s eng = some r) (hw : r.worked = false) (hc : r.cancelled = false)
    (ht : r.task.cls = cls) (hk : ok r.task = true) : engineStep cls eng pick ok go s = settle (go r s) := by
  simp only [engineStep, h, hw, hc, ht, hk, beq_self_eq_true, Bool.not_false, Bool.and_self, if_true]

end

/-! ### The vision engines -/

/-- The commands of the vision engines of a core: class of task, engine, tasks it takes, and what it does with one. -/
def visionRows (s : State) (core e : Nat) : List (Instr × Nat × Nat × (Task → Bool) × (Run → State → State)) :=
  [(.steTask core, 1, engV core 0, fun _ => true, stGo core), (.ofeTask core, 2, engV core 1, fun _ => true, ofGo core),
    (.kpeDetect core, 3, engV core 2, kpTakes s 0, kpGo core (dtRun core)),
    (.kpeTrack core, 3, engV core 2, kpTakes s 1, kpGo core (tkRun core)),
    (.kpeMatch core, 3, engV core 2, kpTakes s 2, kpGo core (mtRun core)),
    (.wpeResample core e, 4, engV core (3 + e), fun k => asksInvert s k == false, warpGo (2 * core + e)),
    (.wpeMeshInvert core e, 4, engV core (3 + e), fun k => asksInvert s k == true, warpGo (2 * core + e)),
    (.pyeTask core, 5, engV core 5, fun _ => true, pyGo core)]

theorem exec_visionRow {s : State} {core e : Nat} (ha : alive s = true) (hc : core < 4) (he : e < 2)
    {x : Instr × Nat × Nat × (Task → Bool) × (Run → State → State)} (hx : x ∈ visionRows s core e) :
    exec x.1 s = .next (keepQueue s
      (engineStep x.2.1 x.2.2.1 (pickCore s x.2.1 core x.2.2.1) x.2.2.2.1 x.2.2.2.2 s)) := by
  have hok : decide (core < 4) = true := decide_eq_true hc
  have hok2 : (decide (core < 4) && decide (e < 2)) = true := by simp [hc, he]
  simp only [visionRows, List.mem_cons, List.not_mem_nil, or_false] at hx
  rcases hx with rfl | rfl | rfl | rfl | rfl | rfl | rfl | rfl
  · exact act_alive _ ha hok
  · exact act_alive _ ha hok
  · exact act_alive _ ha hok
  · exact act_alive _ ha hok
  · exact act_alive _ ha hok
  · exact act_alive _ ha hok2
  · exact act_alive _ ha hok2
  · exact act_alive _ ha hok

/-- The command of a vision engine that runs a task of its own. -/
theorem exec_visionRow_of_run {s : State} {core e : Nat} (ha : alive s = true) (hc : core < 4) (he : e < 2)
    {x : Instr × Nat × Nat × (Task → Bool) × (Run → State → State)} (hx : x ∈ visionRows s core e) {r : Run}
    (hr : runOn s x.2.2.1 = some r) (hw : r.worked = false) (hn : r.cancelled = false) (ht : r.task.cls = x.2.1)
    (hk : x.2.2.2.1 r.task = true) : exec x.1 s = .next (keepQueue s (settle (x.2.2.2.2 r s))) := by
  rw [exec_visionRow ha hc he hx, engineStep_of_run hr hw hn ht hk]

/-! ### Check, then run -/

/-- An access that is not permitted ends the run with its fault; a check other than 0 fails the task. -/
theorem checkThenRun (x : Chk) (c : Nat) (run : State) (fail : Nat → State) (fault : Chk → State) :
    (match x with
      | .ok => (match c with
        | 0 => run
        | st => fail st)
      | e => fault e) = if x ≠ .ok then fault x else if c = 0 then run else fail c := by
  cases x with
  | ok => cases c <;> rfl
  | _ => rfl

/-- Between the check and the run stands a read of its own. -/
theorem checkThenReadThenRun (x y : Chk) (c : Nat) (run : State) (fail : Nat → State) (fault : Chk → State) :
    (match x with
      | .ok => (match c with
        | 0 => (match y with
          | .ok => run
          | e => fault e)
        | st => fail st)
      | e => fault e) =
      if x ≠ .ok then fault x else if c ≠ 0 then fail c else if y ≠ .ok then fault y else run := by
  cases x with
  | ok =>
    cases c with
    | zero => cases y <;> rfl
    | succ c => rfl
  | _ => rfl

/-- Two reads come before the check. -/
theorem readsThenCheckThenRun (x y : Chk) (c : Nat) (run : State) (fail : Nat → State) (fault : Chk → State) :
    (match x with
      | .ok => (match y with
        | .ok => (match c with
          | 0 => run
          | st => fail st)
        | e => fault e)
      | e => fault e) =
      if x ≠ .ok then fault x else if y ≠ .ok then fault y else if c = 0 then run else fail c := by
  cases x with
  | ok =>
    cases y with
    | ok => cases c <;> rfl
    | _ => rfl
  | _ => rfl

end Sys2Proof.Machine

namespace Sys2Proof

open Sys2Proof.Machine

/-- Settles O47. -/
theorem visionEnginesTakeTheirTasks : Obligations.VisionEnginesTakeTheirTasks := by
  unfold Obligations.VisionEnginesTakeTheirTasks
  intro s core e ha hc he x hx
  have hex := exec_visionRow ha hc he hx
  refine ⟨fun k s1 hn hp hk h1 => ⟨runOn_dispatch k [] hn, ?_⟩, fun hp hn => ?_, fun r hr h => ?_,
    fun r hr hw hn ht hk => exec_visionRow_of_run ha hc he hx hr hw hn ht hk⟩
  · rw [hex, engineStep_of_take hn hp hk, ← h1]
    rfl
  · rw [hex, engineStep_of_none hn hp]
    rfl
  · rw [hex, engineStep_of_other hr h]
    rfl

/-- Settles O48. -/
theorem visionTasksAreCheckedThenRun : Obligations.VisionTasksAreCheckedThenRun := by
  unfold Obligations.VisionTasksAreCheckedThenRun
  intro s core e tn r v nd i ha hcore he hc hw hn htn
  have hrow := fun x hx => exec_visionRow_of_run ha hcore he (x := x) hx (r := r)
  have hgo : ∀ {a b : State}, a = b → Host.Outcome.next (keepQueue s (settle a)) =
      (.next (keepQueue s (settle b)) : Host.Outcome State Fault Refusal) := fun h => by rw [h]
  subst htn
  refine ⟨fun d x hd hr ht hx => ?_, fun d x hd hr ht hx => ?_, fun d x y hd hr ht hx hy o ho hk => ?_,
    fun d w u x y hd hwarp hu hx hy hr ht o ho hk => ?_, fun d x hd hr ht hx => ?_⟩
  · refine (hrow (.steTask core, 1, engV core 0, fun _ => true, stGo core) (by simp [visionRows]) hr hw hn ht
      rfl).trans (hgo ?_)
    simp only [stGo, hc, ← hd, hx]
    exact checkThenRun x _ _ (fun st => stFail core r nd d st _) (fun e => faultRun _ e s)
  · refine (hrow (.ofeTask core, 2, engV core 1, fun _ => true, ofGo core) (by simp [visionRows]) hr hw hn ht
      rfl).trans (hgo ?_)
    simp only [ofGo, hc, ← hd, hx]
    exact checkThenRun x _ _ (fun st => ofFail core r nd d st _) (fun e => faultRun _ e s)
  · have hrun : exec o.2.1 s = .next (keepQueue s (settle (kpGo core o.2.2 r s))) := by
      simp only [List.mem_cons, List.not_mem_nil, or_false] at ho
      rcases ho with rfl | rfl | rfl
      · exact hrow (.kpeDetect core, 3, engV core 2, kpTakes s 0, kpGo core (dtRun core)) (by simp [visionRows]) hr hw
          hn ht hk
      · exact hrow (.kpeTrack core, 3, engV core 2, kpTakes s 1, kpGo core (tkRun core)) (by simp [visionRows]) hr hw
          hn ht hk
      · exact hrow (.kpeMatch core, 3, engV core 2, kpTakes s 2, kpGo core (mtRun core)) (by simp [visionRows]) hr hw
          hn ht hk
    refine hrun.trans (hgo ?_)
    simp only [kpGo, hc, ← hd, hx, hy]
    exact checkThenReadThenRun x y _ _ (fun st => kpFail core r nd d st _) (fun e => faultRun _ e s)
  · have hrun : exec o.2 s = .next (keepQueue s (settle (warpGo u r s))) := by
      subst hu
      simp only [List.mem_cons, List.not_mem_nil, or_false] at ho
      rcases ho with rfl | rfl
      · exact hrow (.wpeMeshInvert core e, 4, engV core (3 + e), fun k => asksInvert s k == true, warpGo (2 * core + e))
          (by simp [visionRows]) hr hw hn ht (by simp [hk])
      · exact hrow (.wpeResample core e, 4, engV core (3 + e), fun k => asksInvert s k == false, warpGo (2 * core + e))
          (by simp [visionRows]) hr hw hn ht (by simp [hk])
    have hu2 : u / 2 = core := by omega
    have hu3 : u % 2 = e := by omega
    refine hrun.trans (hgo ?_)
    simp only [warpGo, hc, ← hd, hx, hy, hu2, hu3, ← hwarp]
    exact readsThenCheckThenRun x y _ _ (fun st => warpFail u r nd w st _) (fun e => faultRun _ e s)
  · refine (hrow (.pyeTask core, 5, engV core 5, fun _ => true, pyGo core) (by simp [visionRows]) hr hw hn ht
      rfl).trans (hgo ?_)
    simp only [pyGo, hc, ← hd, hx]
    exact checkThenRun x _ _ (fun st => pyFail core r nd d st _) (fun e => faultRun _ e s)

end Sys2Proof

/-! SUPPORT. Image cores: stripes and frame records (O49). -/

namespace Sys2Proof.Machine

section
variable {s : State} {c : Nat} (ha : alive s = true) (hc : c < 4)
include ha hc

theorem exec_icoreTask : exec (.icoreTask c) s = .next (keepQueue s (ispStep c s)) :=
  act_alive _ ha (decide_eq_true hc)

theorem exec_ispFrameRecord : exec (.ispFrameRecord c) s = .next (keepQueue s (ispFinish c s)) :=
  act_alive _ ha (decide_eq_true hc)

end

/-! ### The step of an image core (R103, R128) -/

theorem ispStep_of_run {s : State} {c : Nat} {r : Run} (h : runOn s (engI c 0) = some r) :
    ispStep c s = engineStep 0 (engI c 0) none (fun _ => true) (ispGo c) s := by
  simp only [ispStep, h]

theorem ispStep_of_take {s s1 : State} {c : Nat} {k : Task} (h : runOn s (engI c 0) = none) (hp : ispPick s c = some k)
    (h1 : s1 = if ispPressed s k = true ∧ k.prio < prioCap s k.tenant then cnt R.ispCorePress c 1 s else s) :
    ispStep c s = engineStep 0 (engI c 0) (some k) (fun _ => true) (ispGo c) s1 := by
  have hb : (ispPressed s k && decide (k.prio < prioCap s k.tenant)) = true ↔
      ispPressed s k = true ∧ k.prio < prioCap s k.tenant := by
    rw [Bool.and_eq_true, decide_eq_true_eq]
  simp only [ispStep, h, hp, hb, ← h1]

theorem ispStep_of_none {s : State} {c : Nat} (h : runOn s (engI c 0) = none) (hp : ispPick s c = none) :
    ispStep c s = s := by
  simp only [ispStep, h, hp]

/-- Counting a pressed task leaves the runs. -/
theorem runOn_pressed {s s1 : State} {c e : Nat} {p : Prop} [Decidable p]
    (h : s1 = if p then cnt R.ispCorePress c 1 s else s) : runOn s1 e = runOn s e := by
  subst h
  split <;> rfl

/-! ### A stripe (R105, R128) -/

section
variable {s : State} {c : Nat} {r : Run} (hx : r.aux ≠ 1)
include hx

theorem ispGo_of_fault {x : Chk} (h : chkAccess s r.task.tenant (descAddr s r.task) 192 false = x) (hne : x ≠ .ok) :
    ispGo c r s = faultRun (engI c 0) x s := by
  cases x with
  | ok => exact absurd rfl hne
  | _ => simp only [ispGo, if_neg hx, h]

variable (hok : chkAccess s r.task.tenant (descAddr s r.task) 192 false = .ok)
include hok

theorem ispGo_of_denied (hs : r.stalled = false)
    (hg : streamGranted s r.task.tenant (bits (wd (descWords s r.task 48) 0) 5 0) = false) :
    ispGo c r s = wantAbort r.task.tmpl r.task.slot 2 s := by
  simp only [ispGo, if_neg hx, hok, hs, hg, Bool.not_false, Bool.and_self, if_true]

/-- The stripe of a task whose stream and frame are there: its frame's context, or the parameters it binds. -/
def ispServe (s : State) (c : Nat) (r : Run) (v : Stream) (f : Frame) : State :=
  let d := descWords s r.task 48
  let st := bits (wd d 0) 5 0
  let tn := r.task.tenant
  let x := ispFind s st f.serial
  if x.serial = f.serial then
    (match ispBlock s c tn st x.slot x.pseq x.block with
     | (.ok, words) => ispStripe c r d v f x words s
     | (e, _) => faultRun (engI c 0) e s)
  else (match chkAccess s tn (addr48 d 1) 128 false with
   | .ok =>
     (match selectSlot (rdWords s tn (addr48 d 1) 32) (bindingEpoch v f) with
      | none => ispFail c r d (ispCheck s c r.task d none true) s
      | some (slot, w, early) =>
        if slotStatus w ≠ 0 then ispFail c r d (slotStatus w) s
        else (match ispBlock s c tn st slot (bits (wd w 0) 23 16) (addr48 w 1) with
         | (.ok, words) => ispFirst c r d v f x slot w early words s
         | (e, _) => faultRun (engI c 0) e s))
   | e => faultRun (engI c 0) e s)

variable {d : List Nat} {st : Nat} (hd : d = descWords s r.task 48) (hst : st = bits (wd d 0) 5 0)
  (hg : r.stalled = true ∨ streamGranted s r.task.tenant st = true)
include hd hst hg

theorem ispGo_of_granted : ispGo c r s =
    match ispCheck s c r.task d (ispPeek s c r d) false, streamAt s st, taskFrame s r.task with
    | 0, some v, some f => ispServe s c r v f
    | 0, _, _ => modRun (engI c 0) (fun r => { r with stalled := true }) s
    | e, _, _ => ispFail c r d e s := by
  have hb : (!r.stalled && !streamGranted s r.task.tenant st) = false := by
    rcases hg with h | h <;> simp [h]
  subst hst hd
  simp only [ispGo, if_neg hx, hok, hb, Bool.false_eq_true, if_false]
  rfl

theorem ispGo_of_check {e : Nat} (he : ispCheck s c r.task d (ispPeek s c r d) false = e) (hne : e ≠ 0) :
    ispGo c r s = ispFail c r d e s := by
  rw [ispGo_of_granted hx hok hd hst hg, he]
  cases e with
  | zero => exact absurd rfl hne
  | succ n => rfl

theorem ispGo_of_absent (he : ispCheck s c r.task d (ispPeek s c r d) false = 0)
    (hn : streamAt s st = none ∨ taskFrame s r.task = none) :
    ispGo c r s = modRun (engI c 0) (fun r => { r with stalled := true }) s := by
  rw [ispGo_of_granted hx hok hd hst hg, he]
  rcases hn with h | h
  · rw [h]
    rfl
  · rw [h]
    cases streamAt s st <;> rfl

theorem ispGo_of_frame {v : Stream} {f : Frame} (he : ispCheck s c r.task d (ispPeek s c r d) false = 0)
    (hv : streamAt s st = some v) (hf : taskFrame s r.task = some f) : ispGo c r s = ispServe s c r v f := by
  rw [ispGo_of_granted hx hok hd hst hg, he, hv, hf]
  rfl

end

section
variable {s : State} {c : Nat} {r : Run} {v : Stream} {f : Frame} {d : List Nat} {st : Nat} {x : IspCtx}
  (hd : d = descWords s r.task 48) (hst : st = bits (wd d 0) 5 0) (hx : x = ispFind s st f.serial)
include hd hst hx

/-- A frame that has begun goes on with the block it bound. -/
theorem ispServe_of_begun {y : Chk × List Nat} (hs : x.serial = f.serial)
    (hy : ispBlock s c r.task.tenant st x.slot x.pseq x.block = y) : ispServe s c r v f =
      if y.1 = .ok then ispStripe c r d v f x y.2 s else faultRun (engI c 0) y.1 s := by
  subst hx hst hd
  simp only [ispServe, if_pos hs, hy]
  obtain ⟨y1, y2⟩ := y
  cases y1 <;> rfl

variable (hs : x.serial ≠ f.serial)
include hs

theorem ispServe_of_ringFault {y : Chk} (hy : chkAccess s r.task.tenant (addr48 d 1) 128 false = y) (hne : y ≠ .ok) :
    ispServe s c r v f = faultRun (engI c 0) y s := by
  subst hx hst hd
  cases y with
  | ok => exact absurd rfl hne
  | _ => simp only [ispServe, if_neg hs, hy]

variable (hok : chkAccess s r.task.tenant (addr48 d 1) 128 false = .ok)
include hok

theorem ispServe_of_noSlot
    (hn : selectSlot (rdWords s r.task.tenant (addr48 d 1) 32) (bindingEpoch v f) = none) :
    ispServe s c r v f = ispFail c r d (ispCheck s c r.task d none true) s := by
  subst hx hst hd
  simp only [ispServe, if_neg hs, hok, hn]

variable {slot : Nat} {w : List Nat} {early : Bool}
  (hw : selectSlot (rdWords s r.task.tenant (addr48 d 1) 32) (bindingEpoch v f) = some (slot, w, early))
include hw

theorem ispServe_of_badSlot (hne : slotStatus w ≠ 0) : ispServe s c r v f = ispFail c r d (slotStatus w) s := by
  subst hx hst hd
  simp only [ispServe, if_neg hs, hok, hw, if_pos hne]

theorem ispServe_of_slot {y : Chk × List Nat} (h0 : slotStatus w = 0)
    (hy : ispBlock s c r.task.tenant st slot (bits (wd w 0) 23 16) (addr48 w 1) = y) : ispServe s c r v f =
      if y.1 = .ok then ispFirst c r d v f x slot w early y.2 s else faultRun (engI c 0) y.1 s := by
  subst hx hst hd
  simp only [ispServe, if_neg hs, hok, hw, if_neg (not_not.mpr h0), hy]
  obtain ⟨y1, y2⟩ := y
  cases y1 <;> rfl

end

/-! ### The frame record (R126) -/

theorem ispFinish_of_waiting {s : State} {c : Nat} {r : Run} {v : Stream} {f : Frame} (hr : runOn s (engI c 0) = some r)
    (hv : streamAt s (wd r.info 0) = some v) (hf : v.frames.find? (fun f => f.serial == wd r.info 1) = some f)
    (h : f.close = none ∨ r.task.cls ≠ 0 ∨ r.aux ≠ 1 ∨ r.worked = true ∨ r.cancelled = true) : ispFinish c s = s := by
  have hb : (r.task.cls == 0 && r.aux == 1 && !r.worked && !r.cancelled && f.close.isSome) = false := by
    rcases h with h | h | h | h | h <;> simp [h]
  simp only [ispFinish, hr, hv, hf, hb, Bool.false_eq_true, if_false]

end Sys2Proof.Machine

namespace Sys2Proof

open Sys2Proof.Machine

/-- Settles O49. -/
theorem imageCoresWorkThroughFrames : Obligations.ImageCoresWorkThroughFrames := by
  unfold Obligations.ImageCoresWorkThroughFrames
  refine ⟨?takes, ?idle, ?other, ?stripe, ?record⟩
  case takes =>
    intro s s1 s2 c k ha hc hn hp h1 h2
    have hn1 : runOn s1 (engI c 0) = none := (runOn_pressed h1).trans hn
    refine ⟨runOn_dispatch k [] hn1, ?_⟩
    rw [exec_icoreTask ha hc, ispStep_of_take hn hp h1, engineStep_of_take hn1 rfl rfl, ← h2]
    rfl
  case idle =>
    intro s c ha hc hn hp
    rw [exec_icoreTask ha hc, ispStep_of_none hn hp]
    rfl
  case other =>
    intro s c r ha hc hr h
    rw [exec_icoreTask ha hc, ispStep_of_run hr, engineStep_of_other hr (by tauto)]
    rfl
  case stripe =>
    intro s c st tn r d ha hc hr hcls hw hn haux htn hd hst
    subst htn
    have hgo : ∀ {t : State}, ispGo c r s = t → exec (.icoreTask c) s = .next (keepQueue s (settle t)) := by
      intro t ht
      rw [exec_icoreTask ha hc, ispStep_of_run hr, engineStep_of_run hr hw hn hcls rfl, ht]
    refine ⟨fun x hx hne => hgo (ispGo_of_fault haux hx hne), fun hok hs hg => ?_, fun e hok hg he => ?_⟩
    · subst hst hd
      exact hgo (ispGo_of_denied haux hok hs hg)
    · refine ⟨fun hne => hgo (ispGo_of_check haux hok hd hst hg he hne), fun h0 hab => ?_,
        fun v f x h0 hv hf hx => ?_⟩
      · exact hgo (ispGo_of_absent haux hok hd hst hg (he.trans h0) hab)
      · have hserve := ispGo_of_frame haux hok hd hst hg (he.trans h0) hv hf
        exact ⟨fun y hs hy => hgo (hserve.trans (ispServe_of_begun hd hst hx hs hy)),
          fun y hs hy hne => hgo (hserve.trans (ispServe_of_ringFault hd hst hx hs hy hne)),
          fun hs hr hsl => hgo (hserve.trans (ispServe_of_noSlot hd hst hx hs hr hsl)),
          fun slot w early hs hr hsl =>
            ⟨fun hne => hgo (hserve.trans (ispServe_of_badSlot hd hst hx hs hr hsl hne)),
              fun y h0 hy => hgo (hserve.trans (ispServe_of_slot hd hst hx hs hr hsl h0 hy))⟩⟩
  case record =>
    intro s c ha hc
    rw [exec_ispFrameRecord ha hc]
    refine ⟨fun hn => ?_, fun r st hr hst => ?_⟩
    · simp only [ispFinish, hn]
      rfl
    · subst hst
      refine ⟨fun hv => ?_, fun v hv => ⟨fun hf => ?_, fun f hf => ⟨fun h => ?_, fun hcl hcls haux hw hn => ?_⟩⟩⟩
      · simp only [ispFinish, hr, hv]
        rfl
      · simp only [ispFinish, hr, hv, hf]
        rfl
      · rw [ispFinish_of_waiting hr hv hf h]
        rfl
      · intro x d words hx hd hwords
        subst hx hd hwords
        simp only [ispFinish, hr, hv, hf, hcl, hcls, haux, hw, hn, beq_self_eq_true, Bool.not_false, Bool.and_self,
          if_true]

end Sys2Proof

/-! SUPPORT. Passes of stream contexts and the reads they issue (O53). -/

namespace Sys2Proof.Machine

/-! ### The commands of a context (R307) -/

/-- The command of a mode: copies, or tensor moves. -/
def passInstr (mode : Bool) (ctx : Nat) : Instr := if mode then .streamTensor ctx else .streamCopy ctx

section
variable {s : State} {ctx : Nat} (ha : alive s = true) (hc : ctx < 256)
include ha hc

theorem exec_passInstr (mode : Bool) : exec (passInstr mode ctx) s = .next (keepQueue s
    (engineStep 7 (engCtx ctx) (pickObj s 7 (engCtx ctx)) (passMode s mode) (passGo (engCtx ctx)) s)) := by
  cases mode with
  | true => exact act_alive _ ha (decide_eq_true hc)
  | false => exact act_alive _ ha (decide_eq_true hc)

/-- A context with nothing to take, and one whose pass is done or cancelled, does nothing. -/
theorem exec_passInstr_of_idle (mode : Bool) (h : (runOn s (engCtx ctx) = none ∧ pickObj s 7 (engCtx ctx) = none) ∨
      ∃ r, runOn s (engCtx ctx) = some r ∧ (r.task.cls ≠ 7 ∨ r.worked = true ∨ r.cancelled = true)) :
    exec (passInstr mode ctx) s = .next s := by
  rw [exec_passInstr ha hc]
  rcases h with ⟨hn, hp⟩ | ⟨r, hr, h⟩
  · rw [engineStep_of_none hn (by rw [hp]; rfl)]
    rfl
  · rw [engineStep_of_other hr (by tauto)]
    rfl

end

/-- The command of the other mode does not take a task. -/
theorem passMode_other (s : State) (k : Task) (mode : Bool) (h : bit (wd (descWords s k 1) 0) 8 = !mode) :
    passMode s mode k = false := by
  unfold passMode
  rw [h]
  cases mode <;> rfl

theorem passMode_own (s : State) (k : Task) (mode : Bool) (h : bit (wd (descWords s k 1) 0) 8 = mode) :
    passMode s mode k = true := by
  unfold passMode
  rw [h]
  cases mode <;> rfl

/-! ### A pass begins (R307 to R313) -/

section
variable {eng : Nat} {r : Run} {s : State} {w : List Nat} (hi : r.info = [])
include hi

theorem passGo_of_descFault {x : Chk} (h : chkAccess s r.task.tenant (descAddr s r.task) 128 false = x)
    (hne : x ≠ .ok) :
    passGo eng r s = streamFault eng r (chkCause x) (chkAddr x) (passLog x r.task.tenant (engRef eng) s) := by
  have hb : r.info.isEmpty = true := by rw [hi]; rfl
  cases x with
  | ok => exact absurd rfl hne
  | _ => simp only [passGo, hb, if_true, h]

variable (hw : w = descWords s r.task 32) (hd : chkAccess s r.task.tenant (descAddr s r.task) 128 false = .ok)
include hw hd

theorem passGo_of_readFault {x : Chk} (h : chkAll s r.task.tenant (passReads s r w) [] = x) (hne : x ≠ .ok) :
    passGo eng r s = faultPass eng (chkCause x) (chkAddr x)
      (passLog x r.task.tenant (engRef eng) (takePass eng (passD s eng r) 1 s)) := by
  have hb : r.info.isEmpty = true := by rw [hi]; rfl
  subst hw
  cases x with
  | ok => exact absurd rfl hne
  | _ => simp only [passGo, hb, if_true, hd, h]

/-- What a pass whose descriptor and tensors could be read does. -/
def passBegin (eng : Nat) (r : Run) (w : List Nat) (d : PassD) (s : State) : State :=
  if !ctxGranted s r.task.tenant (ctxOf eng) ||
      (bit (wd w 0) 16 && !mrqGranted s r.task.tenant (bits (wd w 0) 26 17)) then
    wantAbort r.task.tmpl r.task.slot 2 s
  else match passCheck s eng r d with
    | 0 =>
      let s1 := if d.src.wheel && !d.tensor then openCons d.src.key r (d.src.lines s d.length) s else s
      let s2 := if d.dst.wheel && !d.tensor then openProd d.dst.key r (d.dst.lines s d.length) s1 else s1
      takeSlots eng (takePass eng d (if passWhole s r d then 1 else (copyPieces d).length) s2)
    | st => failPass eng d st s

theorem passGo_of_read (h : chkAll s r.task.tenant (passReads s r w) [] = .ok) :
    passGo eng r s = passBegin eng r w (passD s eng r) s := by
  have hb : r.info.isEmpty = true := by rw [hi]; rfl
  subst hw
  simp only [passGo, hb, if_true, hd, h]
  rfl

end

section
variable {eng : Nat} {r : Run} {s : State} {w : List Nat} {d : PassD}

theorem granted_iff : (ctxGranted s r.task.tenant (ctxOf eng) &&
    (!bit (wd w 0) 16 || mrqGranted s r.task.tenant (bits (wd w 0) 26 17))) =
    !(!ctxGranted s r.task.tenant (ctxOf eng) ||
      (bit (wd w 0) 16 && !mrqGranted s r.task.tenant (bits (wd w 0) 26 17))) := by
  simp only [Bool.not_or, Bool.not_not, Bool.not_and]

theorem passBegin_of_denied (h : (ctxGranted s r.task.tenant (ctxOf eng) &&
    (!bit (wd w 0) 16 || mrqGranted s r.task.tenant (bits (wd w 0) 26 17))) = false) :
    passBegin eng r w d s = wantAbort r.task.tmpl r.task.slot 2 s := by
  rw [granted_iff, Bool.not_eq_false'] at h
  exact if_pos h

variable (h : (ctxGranted s r.task.tenant (ctxOf eng) &&
  (!bit (wd w 0) 16 || mrqGranted s r.task.tenant (bits (wd w 0) 26 17))) = true)
include h

theorem passBegin_of_refused {st : Nat} (hs : passCheck s eng r d = st) (hne : st ≠ 0) :
    passBegin eng r w d s = failPass eng d st s := by
  rw [granted_iff, Bool.not_eq_true'] at h
  cases st with
  | zero => exact absurd rfl hne
  | succ n => simp only [passBegin, h, Bool.false_eq_true, if_false, hs]

theorem passBegin_of_ok (hs : passCheck s eng r d = 0) : passBegin eng r w d s =
    (let s1 := if d.src.wheel && !d.tensor then openCons d.src.key r (d.src.lines s d.length) s else s
     let s2 := if d.dst.wheel && !d.tensor then openProd d.dst.key r (d.dst.lines s d.length) s1 else s1
     takeSlots eng (takePass eng d (if passWhole s r d then 1 else (copyPieces d).length) s2)) := by
  rw [granted_iff, Bool.not_eq_true'] at h
  simp only [passBegin, h, Bool.false_eq_true, if_false, hs]

end

theorem passGo_of_begun {eng : Nat} {r : Run} {s : State} (h : r.info ≠ []) :
    passGo eng r s = if passMoved r = true then endPass eng r s else takeSlots eng s := by
  have hb : r.info.isEmpty = false := by simpa using h
  simp only [passGo, hb, Bool.false_eq_true, if_false]

/-- A piece between addresses: read and written, or the pass faults. -/
theorem copyPiece_of_addresses {eng : Nat} {r : Run} {d : PassD} {off n : Nat} {s : State} {x : Chk}
    (h1 : d.src.wheel = false) (h2 : d.dst.wheel = false)
    (hx : passChk s r [(d.src.addr + off, n)] [(d.dst.addr + off, n)] = x) :
    copyPiece eng r d off n s =
      if x = .ok then (true, modRun eng (fun r => { r with pos := r.pos + 1, aux := 0, lent := none })
        (passWrite eng r d (d.dst.addr + off) (rdBytes (withLent r s) r.task.tenant (d.src.addr + off) n)
          (touchRead (d.src.addr + off) n s)))
      else (false, faultPass eng (chkCause x) (chkAddr x) (passLog x r.task.tenant (engRef eng) s)) := by
  have ha : ∀ (y : Side), y.wheel = false → y.at s off = y.addr + off := fun y hy => if_neg (by simp [hy])
  simp only [copyPiece, h1, h2, Bool.false_eq_true, if_false, ha d.src h1, ha d.dst h2, hx]
  cases x <;> rfl

/-! ### The reads of a pass (R40, R316) -/

section
variable {s : State} {ctx tag : Nat} (addr : Nat) (ha : alive s = true) (hc : ctx < 256) (ht : tag < 256)
include ha hc ht

theorem exec_streamReadReturn (o : ReadOutcome) :
    exec (.streamReadReturn ctx o ⟨addr, tag⟩) s = .next (keepQueue s (readReturn ctx o addr tag s)) :=
  act_alive _ ha (by simp [hc, ht])

theorem exec_pcieCompletionTimeout :
    exec (.pcieCompletionTimeout ctx ⟨addr, tag⟩) s = .next (keepQueue s (readTimeout ctx addr tag s)) :=
  act_alive _ ha (by simp [hc, ht])

end

theorem passCurrent_of_run {s : State} {ctx : Nat} {r : Run} (hr : runOn s (engCtx ctx) = some r) (hk : r.task.cls = 7)
    (hn : r.cancelled = false) : passCurrent s ctx r.task.tag = some r := by
  simp [passCurrent, hr, hk, hn]

theorem passCurrent_of_none {s : State} {ctx tag : Nat} (h : ∀ r, runOn s (engCtx ctx) = some r →
    r.task.cls ≠ 7 ∨ r.cancelled = true ∨ r.task.tag ≠ tag) : passCurrent s ctx tag = none := by
  unfold passCurrent
  cases hr : runOn s (engCtx ctx) with
  | none => rfl
  | some r =>
    have hb : (r.task.cls == 7 && !r.cancelled && r.task.tag == tag) = false := by
      rcases h r hr with h | h | h <;> simp [h]
    rw [Option.filter_some, hb]
    rfl

/-- What a read's outcome does to the pass it belongs to. -/
def readOutcome (ctx : Nat) (o : ReadOutcome) (addr : Nat) (r : Run) (s : State) : State :=
  match o with
  | .good => readDone (engCtx ctx) addr s
  | .flitCorrected => flitFixed ctx addr r s
  | .hbmRetry => hbmFails (engCtx ctx) addr r s
  | .hbmExhausted => hbmExhaust (engCtx ctx) addr s
  | .flitBad => faultPass (engCtx ctx) 1 addr s
  | .unsupported => faultPass (engCtx ctx) 3 addr s
  | .aborted => faultPass (engCtx ctx) 4 addr s
  | .poisoned => faultPass (engCtx ctx) 5 addr s
  | .envelopeBad => faultPass (engCtx ctx) 10 addr (cnt R.secEnvFail 0 1 s)

section
variable {s : State} {ctx tag addr : Nat} {r : Run}

theorem readReturn_of_stale (o : ReadOutcome) (h : passCurrent s ctx tag = none) :
    readReturn ctx o addr tag s = cnt R.seqStaleCnt 0 1 s := by
  rw [readReturn, h]

theorem readReturn_of_over (o : ReadOutcome) (h : passCurrent s ctx tag = some r)
    (hr : r.worked = true ∨ r.info = []) : readReturn ctx o addr tag s = s := by
  have hb : (r.worked || r.info.isEmpty) = true := by rcases hr with h | h <;> simp [h]
  rw [readReturn, h]
  exact if_pos hb

theorem readReturn_of_pass (o : ReadOutcome) (h : passCurrent s ctx tag = some r) (hw : r.worked = false)
    (hi : r.info ≠ []) : readReturn ctx o addr tag s = settle (readOutcome ctx o addr r s) := by
  have hb : ¬(r.worked || r.info.isEmpty) = true := by simp [hw, hi]
  rw [readReturn, h]
  exact if_neg hb

theorem readTimeout_of_stale (h : passCurrent s ctx tag = none) :
    readTimeout ctx addr tag s = cnt R.seqStaleCnt 0 1 s := by
  rw [readTimeout, h]

theorem readTimeout_of_some (h : passCurrent s ctx tag = some r) : readTimeout ctx addr tag s =
    if r.worked = true ∨ r.info = [] ∨ addr < hostBase then s else settle (faultPass (engCtx ctx) 6 addr s) := by
  rw [readTimeout, h]
  simp only [Bool.or_eq_true, List.isEmpty_iff, decide_eq_true_eq, or_assoc]

end

theorem flitFixed_eq (ctx addr : Nat) (r : Run) (s : State) : flitFixed ctx addr r s =
    if r.refetched.contains addr = true then addLog 0x0011 r.task.tenant (engRef (engCtx ctx)) ctx addr (addr / 2 ^ 32)
      (readDone (engCtx ctx) addr (countCe (engRef (engCtx ctx)) 1 s))
    else cnt R.strCtxRefetch ctx 1 (modRun (engCtx ctx)
      (fun r => { r with refetch := r.refetch + 1, refetched := addr :: r.refetched })
      (readDone (engCtx ctx) addr (countCe (engRef (engCtx ctx)) 1 s))) := rfl

theorem hbmFails_of_first {eng addr : Nat} {r : Run} (s : State) (h : r.retries.find? (fun x => x.1 == addr) = none) :
    hbmFails eng addr r s = modRun eng
      (fun r => { r with hbmRetry := r.hbmRetry + 1, retries := (addr, 1, s.now) :: r.retries }) s := by
  rw [hbmFails, h]

theorem hbmFails_of_again {eng addr n t : Nat} {r : Run} (s : State)
    (h : r.retries.find? (fun x => x.1 == addr) = some (addr, n, t)) : hbmFails eng addr r s =
      if n < 4 ∧ s.now < t + 2000 then modRun eng (fun r => { r with
        hbmRetry := r.hbmRetry + 1
        retries := (addr, n + 1, t) :: r.retries.filter (fun x => x.1 != addr) }) s
      else faultPass eng 2 addr (queueHbm addr s) := by
  rw [hbmFails, h]
  rfl

end Sys2Proof.Machine

namespace Sys2Proof

open Sys2Proof.Machine

/-- Settles O53. -/
theorem streamPassesMoveAndFault : Obligations.StreamPassesMoveAndFault := by
  unfold Obligations.StreamPassesMoveAndFault
  refine ⟨?takes, fun s ctx ha hc h => ⟨exec_passInstr_of_idle ha hc false h, exec_passInstr_of_idle ha hc true h⟩,
    ?again, ?begins, fun eng r s h => passGo_of_begun h,
    fun eng off n r d s h1 h2 x hx => copyPiece_of_addresses h1 h2 hx,
    ?reads, ?ended, ?stale⟩
  case takes =>
    intro s s1 ctx k ha hc hn hp h1
    refine ⟨runOn_dispatch k [] hn, ?_, ?_⟩
    · refine (exec_passInstr ha hc (bit (wd (descWords s k 1) 0) 8)).trans ?_
      rw [engineStep_of_take hn hp (passMode_own s k _ rfl), ← h1]
      rfl
    · have hother := passMode_other s k (!bit (wd (descWords s k 1) 0) 8) (Bool.not_not _).symm
      have hx := exec_passInstr ha hc (!bit (wd (descWords s k 1) 0) 8)
      rw [engineStep_of_none hn (by rw [hp]; exact congrArg (!·) hother)] at hx
      cases hb : bit (wd (descWords s k 1) 0) 8 with
      | true => rw [hb] at hx; exact hx
      | false => rw [hb] at hx; exact hx
  case again =>
    intro s ctx r ha hc hr hk hw hn
    refine (exec_passInstr ha hc (bit (wd (descWords s r.task 1) 0) 8)).trans ?_
    rw [engineStep_of_run hr hw hn hk (passMode_own s r.task _ rfl)]
  case begins =>
    intro eng r s w hi hw
    refine ⟨fun x hx hne => passGo_of_descFault hi hx hne, fun x hd hx => ⟨
      fun hne => passGo_of_readFault hi hw hd hx hne, fun granted d h0 hpd hg => ?_⟩⟩
    have hgo := passGo_of_read (eng := eng) hi hw hd (hx.trans h0)
    rw [← hpd] at hgo
    exact ⟨fun h => hgo.trans (passBegin_of_denied (hg.symm.trans h)),
      fun st h hs hne => hgo.trans (passBegin_of_refused (hg.symm.trans h) hs hne),
      fun h hs => hgo.trans (passBegin_of_ok (hg.symm.trans h) hs)⟩
  case reads =>
    intro s ctx addr r ha hc hr hk hw hn hi ht
    have hcur := passCurrent_of_run hr hk hn
    have hret : ∀ o, exec (.streamReadReturn ctx o ⟨addr, r.task.tag⟩) s =
        .next (keepQueue s (settle (readOutcome ctx o addr r s))) := by
      intro o
      rw [exec_streamReadReturn addr ha hc ht, readReturn_of_pass o hcur hw hi]
    refine ⟨hret .good, fun h => ?_, fun h => ?_, fun h => ?_, fun n t h => ?_, hret .hbmExhausted, fun x hx => ?_,
      hret .envelopeBad, fun h => ?_, fun h => ?_⟩
    · rw [hret, readOutcome, flitFixed_eq, if_neg (by rw [h]; decide)]
    · rw [hret, readOutcome, flitFixed_eq, if_pos h]
    · rw [hret, readOutcome, hbmFails_of_first s h]
    · rw [hret, readOutcome, hbmFails_of_again s h]
    · simp only [List.mem_cons, List.not_mem_nil, or_false] at hx
      rcases hx with rfl | rfl | rfl | rfl
      · exact hret .flitBad
      · exact hret .unsupported
      · exact hret .aborted
      · exact hret .poisoned
    · have hno : ¬(r.worked = true ∨ r.info = [] ∨ addr < hostBase) := by
        rintro (h' | h' | h')
        · rw [hw] at h'; cases h'
        · exact hi h'
        · omega
      rw [exec_pcieCompletionTimeout addr ha hc ht, readTimeout_of_some hcur, if_neg hno]
    · rw [exec_pcieCompletionTimeout addr ha hc ht, readTimeout_of_some hcur, if_pos (.inr (.inr h))]
      rfl
  case ended =>
    intro s ctx addr r o ha hc hr hk hn ht h
    have hcur := passCurrent_of_run hr hk hn
    refine ⟨?_, ?_⟩
    · rw [exec_streamReadReturn addr ha hc ht, readReturn_of_over o hcur h]
      rfl
    · rw [exec_pcieCompletionTimeout addr ha hc ht, readTimeout_of_some hcur, if_pos (by tauto)]
      rfl
  case stale =>
    intro s ctx addr tag o ha hc ht h
    have hcur := passCurrent_of_none h
    refine ⟨?_, ?_⟩
    · rw [exec_streamReadReturn addr ha hc ht, readReturn_of_stale o hcur]
      rfl
    · rw [exec_pcieCompletionTimeout addr ha hc ht, readTimeout_of_stale hcur]
      rfl

end Sys2Proof

/-! SUPPORT. Publications: Ethernet, host ring, CSI-2 (O54). -/

namespace Sys2Proof.Machine

/-- An access check decides between what follows and its fault. -/
theorem chk_ite {α : Type} (x : Chk) (a : α) (fault : Chk → α) :
    (match x with
      | .ok => a
      | e => fault e) = if x = .ok then a else fault x := by
  cases x <;> rfl

/-! ### A publication task (R363, R364) -/

theorem pubStart_of_begun {eng : Nat} {r : Run} {s : State} (h : r.info ≠ []) : pubStart eng r s = s :=
  if_pos (by simp [h])

section
variable {eng : Nat} {r : Run} {s : State} (hi : r.info = [])
include hi

theorem pubStart_of_descFault {x : Chk} (h : chkAll s r.task.tenant [(descAddr s r.task, 128)] [] = x) (hne : x ≠ .ok) :
    pubStart eng r s = pubFault eng x s := by
  have hb : (!r.info.isEmpty) = false := by rw [hi]; rfl
  cases x with
  | ok => exact absurd rfl hne
  | _ => simp only [pubStart, hb, Bool.false_eq_true, if_false, h]

variable {w : List Nat} (hw : w = descWords s r.task 32)
  (h : chkAll s r.task.tenant [(descAddr s r.task, 128)] [] = .ok)
include hw h

theorem pubStart_of_refused {st : Nat} (hc : pubCheck s r w = st) (hne : st ≠ 0) :
    pubStart eng r s = pubFail eng st s := by
  have hb : (!r.info.isEmpty) = false := by rw [hi]; rfl
  subst hw
  cases st with
  | zero => exact absurd rfl hne
  | succ n => simp only [pubStart, hb, Bool.false_eq_true, if_false, h, hc]

theorem pubStart_of_ok (hc : pubCheck s r w = 0) {y : Chk} (hy : chkAll s r.task.tenant (pubReads r w) [] = y) :
    pubStart eng r s = if y = .ok then
      modRun eng (fun r => { r with info := w }) (touchRead (descAddr s r.task) 128 s) else pubFault eng y s := by
  have hb : (!r.info.isEmpty) = false := by rw [hi]; rfl
  subst hw
  simp only [pubStart, hb, Bool.false_eq_true, if_false, h, hc, hy]
  exact chk_ite y _ (fun c => pubFault eng c s)

end

/-- A destination with its kind, engine and command, and what it does with its task. -/
def PubRow (n eng kind : Nat) (c : Instr) (go : Run → State → State) : Prop :=
  (kind = 0 ∧ eng = engU 0x08 n ∧ c = .publishEthernet n ∧ go = pubStart eng) ∨
  (kind = 1 ∧ eng = engU 0x07 n ∧ c = .publishHostRing n ∧ go = fun r s => ringCommit eng (pubStart eng r s)) ∨
  (kind = 2 ∧ eng = engU 0x06 (14 + n) ∧ c = .publishCsi2Tx n ∧ go = pubStart eng)

theorem exec_pubRow {s : State} {n eng kind : Nat} {c : Instr} {go : Run → State → State} (ha : alive s = true)
    (hn : n < 2) (h : PubRow n eng kind c go) :
    exec c s = .next (keepQueue s (engineStep 8 eng (pickObj s 8 eng) (pubDest s kind) go s)) := by
  rcases h with ⟨rfl, rfl, rfl, rfl⟩ | ⟨rfl, rfl, rfl, rfl⟩ | ⟨rfl, rfl, rfl, rfl⟩
  · exact act_alive _ ha (decide_eq_true hn)
  · exact act_alive _ ha (decide_eq_true hn)
  · exact act_alive _ ha (decide_eq_true hn)

/-! ### Commits (R366 to R371) -/

theorem ringCommit_of_none {eng : Nat} {s : State} (h : pubWaiting s eng = none) : ringCommit eng s = s := by
  rw [ringCommit, h]

theorem ringCommit_of_some {eng : Nat} {s : State} {r : Run} {slot : Nat} (hr : pubWaiting s eng = some r)
    (hs : slot = addr48 r.info 12 + pubSeqOf s r.task % max 1 (bits (wd r.info 14) 15 0) * pubSlotBytes r.info)
    {x : Chk}
    (hx : chkAll s r.task.tenant (pubReads r r.info) [(slot, 64 + pubLen s r r.info), (addr48 r.info 15, 4)] = x) :
    ringCommit eng s =
      (let p := pubPayload s r r.info
       let s1 := wrBytes r.task.tenant slot (segBytes s (pubHdr s r r.info) 0 1 0 p.1) p.2
       let s2 := wrBytes r.task.tenant (addr48 r.info 15) (leBytes 4 (w32 (pubSeqOf s r.task + 1))) s1
       if x = .ok then pubDone eng (pubFlags s r) (pubCount r.task
         (if bit (wd r.info 1) 22 then msixEvent r.task.tenant (bits (wd r.info 17) 10 0) s2 else s2))
       else pubFault eng x s) := by
  subst hs
  simp only [ringCommit, hr, hx]
  exact chk_ite x _ (fun c => pubFault eng c s)

/-- Bytes a MAC's transmit buffer holds, the frame in transmission included. -/
def txUsed (q : Mac) : Nat := macUsed q + (match q.sending with | some f => f.length | none => 0)

theorem ethCommit_of_some {m : Nat} {s : State} {r : Run} {x : Chk} {fr : List (List Byte)}
    (hr : pubWaiting s (engU 0x08 m) = some r) (hx : chkAll s r.task.tenant (pubReads r r.info) [] = x)
    (hf : fr = pubFrames s m (pubHdr s r r.info) r.info (pubPayload s r r.info).1) : ethCommit m s =
      if x ≠ .ok then settle (pubFault (engU 0x08 m) x s)
      else if macUp s m = true ∧ 2097152 < txUsed (macSt s m) + sumN (fr.map List.length) then s
      else queueFrames m (pubPcp r.info) fr (pubDone (engU 0x08 m) (pubFlags s r) (pubCount r.task (cnt R.ethTxRec m 1
        { (pubPayload s r r.info).2 with free := (pubPayload s r r.info).2.free + fr.length }))) := by
  have hb : (macUp s m && decide (2097152 < txUsed (macSt s m) + sumN (fr.map List.length))) = true ↔
      macUp s m = true ∧ 2097152 < txUsed (macSt s m) + sumN (fr.map List.length) := by
    rw [Bool.and_eq_true, decide_eq_true_eq]
  subst hf
  by_cases hne : x = .ok
  · simp only [ethCommit, hr, hx, hne, ne_eq, not_true, if_false]
    exact if_congr hb rfl rfl
  · rw [if_pos hne]
    cases x with
    | ok => exact absurd rfl hne
    | _ => simp only [ethCommit, hr, hx]

theorem csi2Commit_of_some {tx : Nat} {s : State} {r : Run} {x : Chk} (hr : pubWaiting s (engU 0x06 (14 + tx)) = some r)
    (hm : (tget txReset s.cam.tx tx).mode = 1) (hx : chkAll s r.task.tenant (pubReads r r.info) [] = x) :
    csi2Commit tx s =
      (let vc := bits (wd r.info 0) 7 4
       let p := pubPayload s r r.info
       let head := fun (h : RecHdr) (l : List Byte) => (segBytes s h 0 1 0 l).take 64
       let f : TxFrame := {
         vc := vc, dt := bits (wd r.info 18) 21 16, line := bits (wd r.info 18) 15 0, pay := p.1
         head := head (pubHdr s r r.info) p.1
         cut := head { pubHdr s r r.info with validity := validity (pubFlags s r ||| fInvalid) }
           (List.replicate p.1.length 0) }
       if x = .ok then pubDone (engU 0x06 (14 + tx)) (pubFlags s r) (pubCount r.task (emit (.csi2 (14 + tx) vc 0 [])
         { p.2 with cam := { p.2.cam with txFrame := tset none p.2.cam.txFrame tx (some f) } }))
       else settle (pubFault (engU 0x06 (14 + tx)) x s)) := by
  simp only [csi2Commit, hr, hm, ne_eq, not_true, if_false, hx]
  exact chk_ite x _ (fun c => settle (pubFault (engU 0x06 (14 + tx)) c s))

section
variable {s : State} {n : Nat} (ha : alive s = true) (hn : n < 2)
include ha hn

theorem exec_ethRecordCommit : exec (.ethRecordCommit n) s = .next (keepQueue s (ethCommit n s)) :=
  act_alive _ ha (decide_eq_true hn)

theorem exec_csi2TxCommit : exec (.csi2TxCommit n) s = .next (keepQueue s (csi2Commit n s)) :=
  act_alive _ ha (decide_eq_true hn)

end

end Sys2Proof.Machine

namespace Sys2Proof

open Sys2Proof.Machine

/-- Settles O54. -/
theorem publicationsReachTheirDestination : Obligations.PublicationsReachTheirDestination := by
  unfold Obligations.PublicationsReachTheirDestination
  refine ⟨?tasks, ?starts, fun eng s h => ringCommit_of_none h,
    fun eng s r slot hr hs x hx => ringCommit_of_some hr hs hx,
    ?ethernet, ?sent, ?notPublish, ?csi2, ?none⟩
  case tasks =>
    intro s n eng kind c go ha hn hrow
    have hex := exec_pubRow ha hn hrow
    refine ⟨fun k s1 hr hp hk h1 => ⟨runOn_dispatch k [] hr, ?_⟩, fun hr hp => ?_, fun r hr => ⟨fun ht hw hc hk => ?_,
      fun h => ?_⟩⟩
    · rw [hex, engineStep_of_take hr hp hk, ← h1]
      rfl
    · rw [hex, engineStep_of_none hr hp]
      rfl
    · rw [hex, engineStep_of_run hr hw hc ht hk]
    · rw [hex, engineStep_of_other hr (by tauto)]
      rfl
  case starts =>
    intro eng r s w hw
    exact ⟨fun h => pubStart_of_begun h, fun x hi hx => ⟨fun hne => pubStart_of_descFault hi hx hne,
      fun h0 hc => pubStart_of_refused hi hw (hx.trans h0) rfl hc,
      fun y h0 hc hy => pubStart_of_ok hi hw (hx.trans h0) hc hy⟩⟩
  case ethernet =>
    intro s m used r fr x ha hm hr hx hf hu
    have hu : used = txUsed (macSt s m) := hu
    rw [exec_ethRecordCommit ha hm, ethCommit_of_some hr hx hf, hu]
  case sent =>
    intro s m ha hm
    exact act_alive _ ha (decide_eq_true hm)
  case notPublish =>
    intro s tx r ha ht hr hm
    rw [exec_csi2TxCommit ha ht]
    simp only [csi2Commit, hr, if_pos hm]
    rfl
  case csi2 =>
    intro s tx vc r x ha ht hr hm hx hvc
    subst hvc
    rw [exec_csi2TxCommit ha ht, csi2Commit_of_some hr hm hx]
  case none =>
    intro s n ha hn
    refine ⟨fun h => ?_, fun h => ?_⟩
    · rw [exec_ethRecordCommit ha hn]
      simp only [ethCommit, h]
      rfl
    · rw [exec_csi2TxCommit ha hn]
      simp only [csi2Commit, h]
      rfl

end Sys2Proof

/-! SUPPORT. Firmware nodes (O55). -/

namespace Sys2Proof.Machine

/-- An access check, the fault first. -/
theorem chk_ite_not {α : Type} (x : Chk) (a : α) (fault : Chk → α) :
    (match x with
      | .ok => a
      | e => fault e) = if x ≠ .ok then fault x else a := by
  cases x <;> rfl

/-- The commands of the five actions. -/
def FwRow (c : Instr) (a : Nat) (go : Run → List Nat → Nat → State → State) : Prop :=
  (c = .fwSettings ∧ a = 1 ∧ go = fwSettings) ∨ (c = .fwRearm ∧ a = 2 ∧ go = fwRearm) ∨
    (c = .fwPush ∧ a = 3 ∧ go = fwPush) ∨ (c = .fwCounterSet ∧ a = 4 ∧ go = fwCounterSet) ∨
    (c = .fwNotify ∧ a = 5 ∧ go = fwNotify)

theorem exec_fwRow {s : State} {c : Instr} {a : Nat} {go : Run → List Nat → Nat → State → State} (ha : alive s = true)
    (h : FwRow c a go) :
    exec c s = .next (keepQueue s (engineStep 9 fwEng (pickObj s 9 fwEng) (fwIs s a) (fwGo go) s)) := by
  rcases h with ⟨rfl, rfl, rfl⟩ | ⟨rfl, rfl, rfl⟩ | ⟨rfl, rfl, rfl⟩ | ⟨rfl, rfl, rfl⟩ | ⟨rfl, rfl, rfl⟩
  · exact act_alive _ ha rfl
  · exact act_alive _ ha rfl
  · exact act_alive _ ha rfl
  · exact act_alive _ ha rfl
  · exact act_alive _ ha rfl

/-- A task's action: none on input flagged INVALID, otherwise its checks and its effect (R70, R71). -/
theorem fwGo_eq {r : Run} {s s0 : State} (go : Run → List Nat → Nat → State → State) {fl : Nat} {w : List Nat} {x : Chk}
    (hf : fl = outFlags s r 0) (h0 : s0 = modRun fwEng (fun x => { x with flags := fl }) s)
    (hw : w = descWords s r.task 16) (hx : chkAccess s r.task.tenant (descAddr s r.task) 64 false = x) :
    fwGo go r s =
      if bit fl 1 = true then fwDone fl s
      else if x ≠ .ok then fwFault (fwAction (descWords s r.task 1)) x s0
      else if fwCheck w ≠ 0 then fwFail (fwAction w) (fwCheck w) s0
      else go r w fl s0 := by
  subst hf h0 hw
  simp only [fwGo, hx]
  split
  · rfl
  · refine (chk_ite_not x _ (fun c => fwFault (fwAction (descWords s r.task 1)) c _)).trans ?_
    split
    · rfl
    · cases fwCheck (descWords s r.task 16) <;> rfl

/-! ### The actions (R70) -/

theorem fwSettings_eq {r : Run} (w : List Nat) {set : List Nat} (fl : Nat) {a n : Nat} {s : State} {x y : Chk}
    (ha : a = addr48 w 1) (hn : n = 1 + 2 * setCount (rdWords s r.task.tenant a 1))
    (hs : set = rdWords s r.task.tenant a n) (hx : chkAccess s r.task.tenant a 4 false = x)
    (hy : chkAccess s r.task.tenant a (4 * n) false = y) :
    fwSettings r w fl s =
      if x ≠ .ok then fwFault 1 x s
      else if y ≠ .ok then fwFault 1 y s
      else match settingsCheck s r.task.tenant set with
        | some e => fwFail 1 e.1 s
        | none => fwDone fl (settingsApply set (touchRead a (4 * n) s)) := by
  subst hs hn ha
  simp only [fwSettings, hx, hy]
  refine (chk_ite_not x _ (fun c => fwFault 1 c s)).trans (if_congr Iff.rfl rfl ?_)
  exact chk_ite_not y _ (fun c => fwFault 1 c s)

theorem fwRearm_eq {r : Run} {w e : List Nat} (fl : Nat) {ctx : Nat} {s : State} {x : Chk}
    (hx : chkAccess s r.task.tenant (addr48 w 1) 8 false = x) (he : e = rdWords s r.task.tenant (addr48 w 1) 2)
    (hc : ctx = bits (wd w 3) 7 0) :
    fwRearm r w fl s =
      if x ≠ .ok then fwFault 2 x s
      else if rearmReserved (wd e 1) = true then fwFail 2 0x01 s
      else if ownsCtx s r.task.tenant ctx = false then fwFail 2 0x04 s
      else fwDone fl (rearmEntry ctx (bits (wd w 3) 13 8) (wd e 0) (wd e 1) (touchRead (addr48 w 1) 8 s)) := by
  subst he hc
  simp only [fwRearm, hx, Bool.not_eq_true']
  exact chk_ite_not x _ (fun c => fwFault 2 c s)

theorem fwPush_eq {r : Run} {w : List Nat} (fl : Nat) {m : Nat} {s : State} {x : Chk}
    (hx : chkAccess s r.task.tenant (addr48 w 1) 4 false = x) (hm : m = bits (wd w 3) 9 0) :
    fwPush r w fl s =
      if x ≠ .ok then fwFault 3 x s
      else if mrqGranted s r.task.tenant m = false then fwFail 3 0x04 s
      else if mrqEn s m = false then fwFail 3 0x02 (cnt R.mrqDrop m 1 s)
      else presentPush { pushOf r m 0 with handle := rdN s r.task.tenant (addr48 w 1) 4 }
        (fwDone fl (touchRead (addr48 w 1) 4 s)) := by
  subst hm
  simp only [fwPush, hx, Bool.not_eq_true']
  exact chk_ite_not x _ (fun c => fwFault 3 c s)

theorem fwNotify_eq (r : Run) (w : List Nat) (fl : Nat) (s : State) :
    fwNotify r w fl s = if r.task.tenant < nFns s ∧ bits (wd w 3) 10 0 < msixCount r.task.tenant then
      fwDone fl (msixEvent r.task.tenant (bits (wd w 3) 10 0) s) else fwFail 5 0x02 s := by
  have hb : (decide (nFns s ≤ r.task.tenant) || decide (msixCount r.task.tenant ≤ bits (wd w 3) 10 0)) = true ↔
      ¬(r.task.tenant < nFns s ∧ bits (wd w 3) 10 0 < msixCount r.task.tenant) := by
    rw [Bool.or_eq_true, decide_eq_true_eq, decide_eq_true_eq]
    omega
  simp only [fwNotify, hb, ite_not]

theorem fwFail_of_run {r : Run} {s : State} (a st : Nat) (hr : runOn s fwEng = some r) :
    fwFail a st s = modRun fwEng (fun r => { r with worked := true, flags := r.flags ||| fInvalid })
      (addLog 0x0019 r.task.tenant fwEng a st 0 s) := by
  rw [fwFail, hr]

end Sys2Proof.Machine

namespace Sys2Proof

open Sys2Proof.Machine

/-- Settles O55. -/
theorem firmwareNodesAct : Obligations.FirmwareNodesAct := by
  unfold Obligations.FirmwareNodesAct
  refine ⟨?tasks, fun r s go fl s0 w x hf h0 hw hx => fwGo_eq go hf h0 hw hx,
    fun r w set fl a n s x y ha hn hs hx hy => fwSettings_eq w fl ha hn hs hx hy,
    fun r w e fl ctx s x hx he hc => fwRearm_eq fl hx he hc, fun r w fl m s x hx hm => fwPush_eq fl hx hm, ?counter,
    fwNotify_eq, fun r a st s hr => fwFail_of_run a st hr⟩
  case tasks =>
    intro s c a go ha hrow
    have hex := exec_fwRow ha hrow
    refine ⟨fun k s1 hn hp hk h1 => ⟨runOn_dispatch k [] hn, ?_⟩, fun hn hp => ?_, fun r hr => ⟨fun h => ?_,
      fun fl s0 w x ht hw hc hk hf h0 hwd hx => ?_⟩⟩
    · rw [hex, engineStep_of_take hn hp hk, ← h1]
      rfl
    · rw [hex, engineStep_of_none hn hp]
      rfl
    · rw [hex, engineStep_of_other hr (by tauto)]
      rfl
    · rw [hex, engineStep_of_run hr hw hc ht hk, fwGo_eq go hf h0 hwd hx]
  case counter =>
    intro r w fl s
    simp only [fwCounterSet, Bool.not_eq_true']

end Sys2Proof

/-! SUPPORT. Function resets and the DOE mailbox (O56), network links and received frames (O58). -/

namespace Sys2Proof.Machine

theorem resetFn_of_absent {s : State} {f : Nat} (h : nFns s ≤ f) : resetFn f s = s := if_pos h

/-- A function under reset takes no packet (R353). -/
theorem nextPkt_of_resetting {s : State} {f : Nat} (l : Nat) (h : (fnSt s f).resetting = true) :
    nextPkt s (.lane f l) = none := by
  simp only [nextPkt, h, Bool.not_true, Bool.and_false, Bool.false_eq_true, if_false, ite_self]

/-- R363: a Discovery object is answered where the mailbox is there and free. -/
theorem doeDiscover_eq (p index : Nat) (s : State) :
    doeDiscover p index s =
      if portExists s p = true ∧ (fnSt s (16 * p)).resetting = false ∧ (portSt s p).doeFree ≤ s.now then
      emit (.doe p (wordsBytes [0x00000001, 3] ++ discoveryWord index))
        (doeAnswer p (wordsBytes [0x00000001, 3] ++ discoveryWord index) s) else s := by
  simp only [doeDiscover, doeBusy, Bool.and_eq_true, Bool.not_eq_true', decide_eq_false_iff_not, Nat.not_lt, and_assoc]

theorem mayAnswer_of_mac (s : State) {m : Nat} (l : List Nat) (h : m ≠ 2) :
    mayAnswer s m l = decide ((recentTimes s.now l).length < 100) := by
  rw [mayAnswer, beq_eq_false_iff_ne.mpr h, Bool.false_or]

theorem mayAnswer_mgt (s : State) (l : List Nat) : mayAnswer s 2 l = true := rfl

theorem rxUp_of_mac (s : State) {m : Nat} (h : m ≠ 2) : rxUp s m = macUp s m := if_neg h

theorem tooLong_eq_false {s : State} {m n : Nat} : tooLong s m n = false ↔ (m < 2 → n ≤ macMtu s m) := by
  simp [tooLong]

/-- R372: an answered ARP request, or a dropped one. -/
theorem arpRequest_eq {m : Nat} (sha spa tpa : List Byte) (s : State) (hm : m ≠ 2) :
    arpRequest m sha spa tpa s = if macUp s m = false then s
      else if rget s R.ethIp4 m ≠ 0 ∧ tpa = ownIp4 s m ∧ (recentTimes s.now (macSt s m).arpTimes).length < 100 then
        queueFrames m 0 [etherFrame sha (ownMac s m) none 0x0806
          ([0x00, 0x01, 0x08, 0x00, 0x06, 0x04, 0x00, 0x02] ++ ownMac s m ++ ownIp4 s m ++ sha ++ spa)]
          (modMac m (fun q => { q with arpTimes := s.now :: recentTimes s.now q.arpTimes }) s)
      else cnt R.ethRxDrop m 1 s := by
  simp only [arpRequest, answer, rxDrop, if_neg hm, mayAnswer_of_mac s _ hm, Bool.not_eq_true']
  rw [← ite_not (p := rget s R.ethIp4 m ≠ 0 ∧ _)]
  refine if_congr Iff.rfl rfl (if_congr ?_ rfl rfl)
  simp only [Bool.or_eq_true, decide_eq_true_eq, Bool.not_eq_true', decide_eq_false_iff_not]
  tauto

/-- R372, R374: a Neighbor Solicitation asks for an address that the port has and may answer. -/
theorem solicit_refused {s : State} {m : Nat} {target : List Byte} :
    (decide (m ≠ 2 ∧ ownIp6 s m = List.replicate 16 0) || decide (target ≠ portIp6 s m) ||
      !mayAnswer s m (macSt s m).ndTimes) = true ↔
    ¬(target = portIp6 s m ∧
      (m ≠ 2 → ownIp6 s m ≠ List.replicate 16 0 ∧ (recentTimes s.now (macSt s m).ndTimes).length < 100)) := by
  by_cases hm : m = 2
  · simp [hm, mayAnswer_mgt]
  · simp only [mayAnswer_of_mac s _ hm, Bool.or_eq_true, decide_eq_true_eq, Bool.not_eq_true', decide_eq_false_iff_not]
    tauto

/-- R372, R374: an IPv6 echo request asks for an address that the port has, fits and may be answered. -/
theorem echo6_refused {s : State} {m n : Nat} {dst : List Byte} (h3 : m < 3) :
    ((m != 2 && ownIp6 s m == List.replicate 16 0) || decide (dst ≠ portIp6 s m) || tooLong s m n ||
      !mayAnswer s m (macSt s m).echoTimes) = true ↔
    ¬(dst = portIp6 s m ∧ (m ≠ 2 → ownIp6 s m ≠ List.replicate 16 0 ∧ n ≤ macMtu s m ∧
      (recentTimes s.now (macSt s m).echoTimes).length < 100)) := by
  by_cases hm : m = 2
  · simp [hm, mayAnswer_mgt, tooLong]
  · have h2 : m < 2 := by omega
    simp only [mayAnswer_of_mac s _ hm, tooLong, Bool.or_eq_true, Bool.and_eq_true, bne_iff_ne, beq_iff_eq, h2,
      decide_true, true_and, decide_eq_true_eq, Bool.not_eq_true', decide_eq_false_iff_not]
    rw [← Nat.not_lt (a := macMtu s m)]
    tauto

/-- R372: an IPv4 echo request asks for the MAC's address, fits and may be answered. -/
theorem echo4_refused {s : State} {m n : Nat} {dst : List Byte} (h2 : m < 2) :
    ((m == 2 || rget s R.ethIp4 m == 0) || decide (dst ≠ ownIp4 s m) || tooLong s m n ||
      !mayAnswer s m (macSt s m).echoTimes) = true ↔
    ¬(dst = ownIp4 s m ∧ rget s R.ethIp4 m ≠ 0 ∧ n ≤ macMtu s m ∧
      (recentTimes s.now (macSt s m).echoTimes).length < 100) := by
  have hm : m ≠ 2 := by omega
  simp only [mayAnswer_of_mac s _ hm, tooLong, Bool.or_eq_true, Bool.and_eq_true, beq_iff_eq, h2, hm, false_or,
    decide_true, true_and, decide_eq_true_eq, Bool.not_eq_true', decide_eq_false_iff_not]
  rw [← Nat.not_lt (a := macMtu s m)]
  tauto

/-- The management link answers no IPv4 echo request. -/
theorem icmpEcho4_mgt (mac src dst body : List Byte) (s : State) : icmpEcho 2 false mac src dst body s = s := by
  simp only [icmpEcho, Bool.false_eq_true, if_false, beq_self_eq_true, Bool.true_or, if_true, rxDrop, ite_self]

end Sys2Proof.Machine

namespace Sys2Proof

open Sys2Proof.Machine

/-- Settles O56. -/
theorem functionsResetTheirTenants : Obligations.FunctionsResetTheirTenants := by
  unfold Obligations.FunctionsResetTheirTenants
  refine ⟨fun s fn ha hf => ?flr, fun s port ha hp => ⟨act_alive _ ha (decide_eq_true hp),
    act_alive _ ha (decide_eq_true hp), act_alive _ ha (decide_eq_true hp)⟩, fun s f h => resetFn_of_absent h,
    fun s f h => ?there, fun s f l h => nextPkt_of_resetting l h, fun s fn ha hf => act_alive _ ha (decide_eq_true hf),
    fun s port index body ha hp hb => ?discovery, ⟨rfl, rfl⟩,
    fun s port ha hp => act_alive _ ha (decide_eq_true hp)⟩
  case flr =>
    rw [apply_ite settle]
    exact act_alive _ ha (decide_eq_true hf)
  case there =>
    simp only [resetFn, if_neg (Nat.not_le.mpr h), beq_iff_eq] <;> rfl
  case discovery =>
    rw [show exec (.doeDiscovery port index) s = _ from act_alive _ ha (decide_eq_true hp), doeDiscover_eq, hb]
    rfl

/-- Settles O58. -/
theorem networkLinksAndFrames : Obligations.NetworkLinksAndFrames := by
  unfold Obligations.NetworkLinksAndFrames
  refine ⟨⟨fun s m ha hm => ⟨act_alive _ ha (decide_eq_true hm), act_alive _ ha (decide_eq_true hm)⟩,
    fun s speed ha hs => ⟨act_alive _ ha (decide_eq_true hs), ?mgtDown⟩⟩,
    fun s m sha spa tpa ha hm h1 h2 h3 => ?arp, fun s m src target sll dst dmac ha hm h1 h2 h3 hd hdm => ?solicit,
    fun s m mac src dst body ha hm h1 h2 h3 => ?echo6, fun s m mac src dst body e ha hm h1 h2 h3 he => ?echo4,
    fun s mac src dst body ha h1 h2 h3 => ?echoMgt, fun s m frame ha hm => act_alive _ ha (decide_eq_true hm)⟩
  case mgtDown =>
    rw [show exec (.mgtLinkChange false speed) s = _ from act_alive _ ha (decide_eq_true hs)]
    simp only [mgtLink, b2n, Bool.false_eq_true, if_false, Nat.zero_add]
  case arp =>
    rw [show exec (.ethArpRequest m sha spa tpa) s = _ from act_alive _ ha (by simp [hm, h1, h2, h3]),
      arpRequest_eq sha spa tpa s (by omega)]
  case solicit =>
    rw [show exec (.ethNeighborSolicitation m src target sll) s = _ from act_alive _ ha (by simp [hm, h1, h2, h3])]
    simp only [neighborSolicit, rxDrop, solicit_refused, ite_not, Bool.not_eq_true', beq_iff_eq, hd, hdm]
  case echo6 =>
    rw [show exec (.ethIcmpEcho m true mac src dst body) s = _ from act_alive _ ha (by simp [hm, h1, h2, h3])]
    simp only [icmpEcho, rxDrop, if_true, echo6_refused hm, ite_not, Bool.not_eq_true']
    refine congrArg _ (congrArg _ (if_congr Iff.rfl rfl (ite_congr rfl (fun h => ?_) fun _ => rfl)))
    rw [h.1]
  case echo4 =>
    have hm2 : m ≠ 2 := by omega
    rw [show exec (.ethIcmpEcho m false mac src dst body) s = _ from act_alive _ ha (by simp [h1, h2, h3]; omega)]
    simp only [icmpEcho, rxDrop, Bool.false_eq_true, if_false, echo4_refused hm, ite_not, Bool.not_eq_true',
      rxUp_of_mac s hm2, if_neg hm2, answer, portMac]
    refine congrArg _ (congrArg _ (if_congr Iff.rfl rfl (ite_congr rfl (fun h => ?_) fun _ => rfl)))
    rw [h.1, he]
  case echoMgt =>
    rw [show exec (.ethIcmpEcho 2 false mac src dst body) s = _ from act_alive _ ha (by simp [h1, h2, h3]),
      icmpEcho4_mgt]
    rfl

end Sys2Proof

/-! SUPPORT. The SPDM responder: what a link takes (O59) and its management sessions (O60). -/

namespace Sys2Proof.Machine

/-- What the responder works on: the link keeps how the request came, a management message wakes the device, handshakes
older than 1 s are gone (R374, R402, R457). -/
def spdmTaken (l : SpdmLink) (q : SpdmReq) (s : State) : State :=
  modConn (linkNo l) (fun c => { c with via := q.via }) (expireMsess (if isDoe l then s else wakeDevice s))

section
variable {s : State} {l : SpdmLink} {q : SpdmReq} (f : State → State) (ha : alive s = true) (hw : l.wf = true)
include ha hw

theorem spdmAct_dropped (h : linkLive s l = false ∨ linkTakes s l q = false) : spdmAct l q s f = .next s := by
  have hb : (linkLive s l && linkTakes s l q) = false := Bool.and_eq_false_iff.mpr h
  rw [spdmAct, act_alive _ ha hw, hb]
  rfl

theorem spdmAct_long (h1 : linkLive s l = true) (h2 : linkTakes s l q = true) (h3 : 8192 < q.body.length + 2) :
    spdmAct l q s f = .next (keepQueue s (spdmError l 0x0E (spdmTaken l q s))) := by
  rw [spdmAct, act_alive _ ha hw, h1, h2]
  exact congrArg _ (congrArg _ (if_pos h3))

theorem spdmAct_taken (h1 : linkLive s l = true) (h2 : linkTakes s l q = true) (h3 : q.body.length + 2 ≤ 8192) :
    spdmAct l q s f = .next (keepQueue s (f (spdmTaken l q s))) := by
  rw [spdmAct, act_alive _ ha hw, h1, h2]
  exact congrArg _ (congrArg _ (if_neg (Nat.not_lt.mpr h3)))

end

theorem spdmConn_of_none {l : SpdmLink} {s : State} (f : State → State) (h : (connSt s (linkNo l)).algs = false) :
    spdmConn l s f = spdmError l 0x04 s := by
  rw [spdmConn, h, if_neg Bool.false_ne_true]

theorem spdmConn_of_algs {l : SpdmLink} {s : State} (f : State → State) (h : (connSt s (linkNo l)).algs = true) :
    spdmConn l s f = f s := if_pos h

/-- The commands about certificates and measurements (R398, R400), and what each does on a negotiated connection. -/
def ConnRow (l : SpdmLink) (q : SpdmReq) (c : Instr) (f : State → State) : Prop :=
  (c = .getDigests l q ∧ f = spdmDigests l q) ∨ (c = .getCertificate l q ∧ f = spdmCert l q) ∨
    (c = .challenge l q ∧ f = spdmChallenge l q) ∨ (c = .getMeasurements l q ∧ f = spdmMeasure l q)

theorem exec_connRow {l : SpdmLink} {q : SpdmReq} {c : Instr} {f : State → State} (s : State) (h : ConnRow l q c f) :
    exec c s = spdmAct l q s (fun s => spdmConn l s f) := by
  rcases h with ⟨rfl, rfl⟩ | ⟨rfl, rfl⟩ | ⟨rfl, rfl⟩ | ⟨rfl, rfl⟩
  · rfl
  · rfl
  · rfl
  · rfl

theorem exists_connRow {l : SpdmLink} {q : SpdmReq} {c : Instr}
    (h : c ∈ [Instr.getDigests l q, .getCertificate l q, .challenge l q, .getMeasurements l q]) :
    ∃ f, ConnRow l q c f := by
  simp only [List.mem_cons, List.not_mem_nil, or_false] at h
  rcases h with rfl | rfl | rfl | rfl
  · exact ⟨_, .inl ⟨rfl, rfl⟩⟩
  · exact ⟨_, .inr (.inl ⟨rfl, rfl⟩)⟩
  · exact ⟨_, .inr (.inr (.inl ⟨rfl, rfl⟩))⟩
  · exact ⟨_, .inr (.inr (.inr ⟨rfl, rfl⟩))⟩

/-- What a message within a session does where the session's link and stage are right (R402). -/
def sessEnd (l : SpdmLink) (q : SpdmReq) (_m : MSess) (s : State) : State :=
  spdmSend l 0x6C [0, 0] (endMsess q.param s)
def sessHeartbeat (l : SpdmLink) (_m : MSess) (s : State) : State := spdmSend l 0x68 [0, 0] s
def sessKeyUpdate (l : SpdmLink) (q : SpdmReq) (_m : MSess) (s : State) : State := spdmSend l 0x69 (q.body.take 2) s
def sessEncGet (l : SpdmLink) (q : SpdmReq) (m : MSess) (s : State) : State :=
  draw (spdmSend l 0x6A ([1, 0] ++ encChallenge s) (putMsess q.param (some { m with asked := encChallenge s }) s))
def sessEncPut (l : SpdmLink) (q : SpdmReq) (m : MSess) (s : State) : State :=
  let msg := q.body.drop 2
  let said := (connSt s (linkNo l)).said ++ m.asked ++ msg.take (msg.length - 2420)
  if m.asked.isEmpty then spdmError l 0x04 s
  else if msg.take 2 == [0x13, 0x03] &&
      dsaVerify m.owned (spdmSigned "requester-challenge_auth signing" said) (msg.drop (msg.length - 2420)) then
    spdmSend l 0x6B ([1, 0] ++ q.body.take 1 ++ [0, 0, 0]) (putMsess q.param (some { m with stage := 2 }) s)
  else authFail l q.param 0x01 s

/-- The commands within a session: the stage each needs, and its effect. -/
def MsessRow (l : SpdmLink) (q : SpdmReq) (c : Instr) (stage : Nat) (f : MSess → State → State) : Prop :=
  (c = .endSession l q ∧ stage = 3 ∧ f = sessEnd l q) ∨ (c = .heartbeat l q ∧ stage = 3 ∧ f = sessHeartbeat l) ∨
    (c = .keyUpdate l q ∧ stage = 3 ∧ f = sessKeyUpdate l q) ∨
    (c = .getEncapsulatedRequest l q ∧ stage = 1 ∧ f = sessEncGet l q) ∨
    (c = .deliverEncapsulatedResponse l q ∧ stage = 1 ∧ f = sessEncPut l q)

/-- A session's command over MCTP. -/
theorem exec_msessRow {l : SpdmLink} {q : SpdmReq} {c : Instr} {stage : Nat} {f : MSess → State → State} (s : State)
    (h : MsessRow l q c stage f) :
    exec c s = spdmAct l q s (fun s => if isDoe l then spdmError l 0x07 s else inMsess l q.param [stage] s f) := by
  rcases h with ⟨rfl, rfl, rfl⟩ | ⟨rfl, rfl, rfl⟩ | ⟨rfl, rfl, rfl⟩ | ⟨rfl, rfl, rfl⟩ | ⟨rfl, rfl, rfl⟩
  · rfl
  · rfl
  · rfl
  · rfl
  · rfl

theorem exists_msessRow {l : SpdmLink} {q : SpdmReq} {c : Instr}
    (h : c ∈ [Instr.endSession l q, .heartbeat l q, .keyUpdate l q, .getEncapsulatedRequest l q,
      .deliverEncapsulatedResponse l q]) : ∃ stage f, MsessRow l q c stage f := by
  simp only [List.mem_cons, List.not_mem_nil, or_false] at h
  rcases h with rfl | rfl | rfl | rfl | rfl
  · exact ⟨_, _, .inl ⟨rfl, rfl, rfl⟩⟩
  · exact ⟨_, _, .inr (.inl ⟨rfl, rfl, rfl⟩)⟩
  · exact ⟨_, _, .inr (.inr (.inl ⟨rfl, rfl, rfl⟩))⟩
  · exact ⟨_, _, .inr (.inr (.inr (.inl ⟨rfl, rfl, rfl⟩)))⟩
  · exact ⟨_, _, .inr (.inr (.inr (.inr ⟨rfl, rfl, rfl⟩)))⟩

/-- The commands of management sessions (R398, R416), and what each does over MCTP. -/
def MctpRow (l : SpdmLink) (q : SpdmReq) (c : Instr) (f : State → State) : Prop :=
  (c = .keyExchange l q ∧ f = fun s => spdmConn l s (spdmKeyExchange l q)) ∨
    (c = .finish l q ∧ f = fun s => spdmConn l s (spdmFinish l q)) ∨
    ∃ stage g, MsessRow l q c stage g ∧ f = fun s => inMsess l q.param [stage] s g

theorem exec_mctpRow {l : SpdmLink} {q : SpdmReq} {c : Instr} {f : State → State} (s : State) (h : MctpRow l q c f) :
    exec c s = spdmAct l q s (fun s => if isDoe l then spdmError l 0x07 s else f s) := by
  rcases h with ⟨rfl, rfl⟩ | ⟨rfl, rfl⟩ | ⟨stage, g, hg, rfl⟩
  · rfl
  · rfl
  · exact exec_msessRow s hg

theorem exists_mctpRow {l : SpdmLink} {q : SpdmReq} {c : Instr}
    (h : c ∈ [Instr.keyExchange l q, .finish l q, .endSession l q, .heartbeat l q, .keyUpdate l q,
      .getEncapsulatedRequest l q, .deliverEncapsulatedResponse l q]) : ∃ f, MctpRow l q c f := by
  rcases List.mem_cons.mp h with rfl | h
  · exact ⟨_, .inl ⟨rfl, rfl⟩⟩
  rcases List.mem_cons.mp h with rfl | h
  · exact ⟨_, .inr (.inl ⟨rfl, rfl⟩)⟩
  · obtain ⟨stage, g, hg⟩ := exists_msessRow h
    exact ⟨_, .inr (.inr ⟨stage, g, hg, rfl⟩)⟩

/-- Every request of the responder's reaches it the same way (R398). -/
theorem exists_spdmAct {l : SpdmLink} {q : SpdmReq} {n : Nat} {c : Instr}
    (h : c ∈ [Instr.getVersion l q, .getCapabilities l q, .negotiateAlgorithms l q, .getDigests l q,
      .getCertificate l q, .challenge l q, .getMeasurements l q, .keyExchange l q, .finish l q, .endSession l q,
      .heartbeat l q, .keyUpdate l q, .getEncapsulatedRequest l q, .deliverEncapsulatedResponse l q,
      .spdmUnsupportedRequest l n q]) : ∃ f, ∀ s, exec c s = spdmAct l q s f := by
  have hconn {c f} (h : ConnRow l q c f) : ∃ f, ∀ s, exec c s = spdmAct l q s f := ⟨_, fun s => exec_connRow s h⟩
  have hmctp {c f} (h : MctpRow l q c f) : ∃ f, ∀ s, exec c s = spdmAct l q s f := ⟨_, fun s => exec_mctpRow s h⟩
  have hsess {c stage g} (h : MsessRow l q c stage g) : ∃ f, ∀ s, exec c s = spdmAct l q s f :=
    hmctp (.inr (.inr ⟨stage, g, h, rfl⟩))
  simp only [List.mem_cons, List.not_mem_nil, or_false] at h
  rcases h with rfl | rfl | rfl | rfl | rfl | rfl | rfl | rfl | rfl | rfl | rfl | rfl | rfl | rfl | rfl
  · exact ⟨spdmVersion l q, fun _ => rfl⟩
  · exact ⟨spdmCaps l q, fun _ => rfl⟩
  · exact ⟨spdmAlgs l q, fun _ => rfl⟩
  · exact hconn (.inl ⟨rfl, rfl⟩)
  · exact hconn (.inr (.inl ⟨rfl, rfl⟩))
  · exact hconn (.inr (.inr (.inl ⟨rfl, rfl⟩)))
  · exact hconn (.inr (.inr (.inr ⟨rfl, rfl⟩)))
  · exact hmctp (.inl ⟨rfl, rfl⟩)
  · exact hmctp (.inr (.inl ⟨rfl, rfl⟩))
  · exact hsess (.inl ⟨rfl, rfl, rfl⟩)
  · exact hsess (.inr (.inl ⟨rfl, rfl, rfl⟩))
  · exact hsess (.inr (.inr (.inl ⟨rfl, rfl, rfl⟩)))
  · exact hsess (.inr (.inr (.inr (.inl ⟨rfl, rfl, rfl⟩))))
  · exact hsess (.inr (.inr (.inr (.inr ⟨rfl, rfl, rfl⟩))))
  · exact ⟨spdmError l 0x07, fun _ => rfl⟩

theorem exists_msessRow_open {l : SpdmLink} {q : SpdmReq} {c : Instr}
    (h : c ∈ [Instr.endSession l q, .heartbeat l q, .keyUpdate l q]) : ∃ f, MsessRow l q c 3 f := by
  simp only [List.mem_cons, List.not_mem_nil, or_false] at h
  rcases h with rfl | rfl | rfl
  · exact ⟨_, .inl ⟨rfl, rfl, rfl⟩⟩
  · exact ⟨_, .inr (.inl ⟨rfl, rfl, rfl⟩)⟩
  · exact ⟨_, .inr (.inr (.inl ⟨rfl, rfl, rfl⟩))⟩

theorem exists_msessRow_handshake {l : SpdmLink} {q : SpdmReq} {c : Instr}
    (h : c ∈ [Instr.getEncapsulatedRequest l q, .deliverEncapsulatedResponse l q]) : ∃ f, MsessRow l q c 1 f := by
  simp only [List.mem_cons, List.not_mem_nil, or_false] at h
  rcases h with rfl | rfl
  · exact ⟨_, .inr (.inr (.inr (.inl ⟨rfl, rfl, rfl⟩)))⟩
  · exact ⟨_, .inr (.inr (.inr (.inr ⟨rfl, rfl, rfl⟩)))⟩

theorem inMsess_of_none {l : SpdmLink} {n : Nat} {stages : List Nat} {s : State} (f : MSess → State → State)
    (h : msessAt s n = none) : inMsess l n stages s f = spdmError l 0x02 s := by
  rw [inMsess, h]

theorem inMsess_of_other {l : SpdmLink} {n stage : Nat} {s : State} {m : MSess} (f : MSess → State → State)
    (h : msessAt s n = some m) (ho : m.link ≠ linkNo l ∨ m.stage ≠ stage) :
    inMsess l n [stage] s f = spdmError l 0x04 s := by
  rw [inMsess, h]
  exact if_neg (by simpa [imp_iff_not_or] using ho)

theorem inMsess_of_some {l : SpdmLink} {n stage : Nat} {s : State} {m : MSess} (f : MSess → State → State)
    (h : msessAt s n = some m) (hl : m.link = linkNo l) (hst : m.stage = stage) :
    inMsess l n [stage] s f = f m s := by
  rw [inMsess, h]
  exact if_pos ⟨hl, by simp [hst]⟩

theorem spdmKeyExchange_of_noCred {l : SpdmLink} (q : SpdmReq) {s : State} (h : s.sec.cred = none) :
    spdmKeyExchange l q s = spdmError l 0x01 (cnt R.mgtAuthFail 0 1 s) := by
  rw [spdmKeyExchange, h]

theorem spdmKeyExchange_of_full {l : SpdmLink} (q : SpdmReq) {s : State} {c : List Byte} (h : s.sec.cred = some c)
    (hf : freeMsess s = none) : spdmKeyExchange l q s = spdmError l 0x0A s := by
  rw [spdmKeyExchange, h, hf]

theorem sessionHandshakeTimeout_of_none {s : State} {n : Nat} (ha : alive s = true) (hn : n < 65536)
    (h : sessAt s n = none) : exec (.sessionHandshakeTimeout n) s = .next s := by
  rw [show exec (.sessionHandshakeTimeout n) s = _ from act_alive _ ha (decide_eq_true hn), h]
  rfl

theorem sessionHandshakeTimeout_of_some {s : State} {n : Nat} {x : Sess} (ha : alive s = true) (hn : n < 65536)
    (h : sessAt s n = some x) :
    exec (.sessionHandshakeTimeout n) s = .next (keepQueue s (
      if x.open_ = false ∧ x.since + 1000000000 ≤ s.now then destroySession n s else s)) := by
  rw [show exec (.sessionHandshakeTimeout n) s = _ from act_alive _ ha (decide_eq_true hn), h]
  simp only [Bool.and_eq_true, Bool.not_eq_true', decide_eq_true_eq]

theorem drop_chainOf (certs : List (List Byte)) : (chainOf certs).drop 4 = sha3 Config.rootCert ++ certs.flatten := by
  rw [chainOf, List.append_assoc, leBytes]
  rfl

/-- A measurement request that names blocks the device has (R400). -/
theorem spdmMeasure_of_known {l : SpdmLink} {q : SpdmReq} {s : State} (h : q.param ≤ 8 ∨ q.param = 0xFF)
    {blocks : List Nat} {b said : List Byte}
    (hbl : blocks = (if q.param = 0 then [] else if q.param = 0xFF then [1, 2, 3, 4, 5, 6, 7, 8] else [q.param]))
    (hb : b = measBody (if q.param = 0 then 8 else 0) (blocks.map (fun n => measBlock n (measurement s n))) (nonceOf s)
      ((q.body.drop (if q.sign then 35 else 2)).take 8))
    (hs : said = (connSt s (linkNo l)).meas ++ spdmMsg 0xE0 q.body ++ spdmMsg 0x60 b) :
    spdmMeasure l q s = draw (if q.sign then
      spdmSend l 0x60 (b ++ spdmSign "responder-measurements signing" ((connSt s (linkNo l)).said ++ said) s)
        (modConn (linkNo l) (fun c => { c with meas := [] }) s)
      else spdmSend l 0x60 b (modConn (linkNo l) (fun c => { c with meas := said }) s)) := by
  have hno : ¬(8 < q.param ∧ q.param ≠ 0xFF) := by omega
  rw [apply_ite draw, hs, hb, hbl]
  exact if_neg hno

end Sys2Proof.Machine

namespace Sys2Proof

open Sys2Proof.Machine

/-- Settles O59. -/
theorem spdmConnections : Obligations.SpdmConnections := by
  unfold Obligations.SpdmConnections
  refine ⟨⟨fun s l q n ha hw c hc => ?reaches, fun s w l q ha hw h1 h2 h3 hs => ?connects⟩,
    fun s w l q ha hw h1 h2 h3 hs => ⟨fun hal c hc => ?early, fun hal chain hch => ?answers⟩,
    drop_chainOf, fun chain off len => rfl⟩
  case reaches =>
    obtain ⟨f, hf⟩ := exists_spdmAct hc
    rw [hf]
    exact ⟨spdmAct_dropped f ha hw, spdmAct_long f ha hw⟩
  case connects =>
    have htaken : ∀ f, spdmAct l q s f = .next (keepQueue s (f w)) := fun f => by
      rw [hs]
      exact spdmAct_taken f ha hw h1 h2 h3
    refine ⟨htaken _, htaken _, (htaken _).trans ?_, fun n => htaken _⟩
    simp only [spdmAlgs, Bool.not_eq_true']
  case early =>
    obtain ⟨f, hf⟩ := exists_connRow hc
    rw [exec_connRow s hf, spdmAct_taken _ ha hw h1 h2 h3, spdmTaken, ← hs, spdmConn_of_none _ hal]
  case answers =>
    have hrow : ∀ {c f}, ConnRow l q c f → exec c s = .next (keepQueue s (f w)) := fun {c f} hf => by
      rw [exec_connRow s hf, spdmAct_taken _ ha hw h1 h2 h3, spdmTaken, ← hs, spdmConn_of_algs _ hal]
    have hchain : chain = certChain w := hch
    have hdigests := hrow (.inl ⟨rfl, rfl⟩)
    have hcert := hrow (.inr (.inl ⟨rfl, rfl⟩))
    have hchallenge := hrow (.inr (.inr (.inl ⟨rfl, rfl⟩)))
    have hmeasure := hrow (.inr (.inr (.inr ⟨rfl, rfl⟩)))
    subst hchain
    rw [hdigests, hcert, hchallenge, hmeasure]
    refine ⟨rfl, fun hp ho b hb => ?_, fun h => ?_, fun hp b said hb hsaid => ?_, fun hp => ?_, fun h8 hff => ?_,
      fun h blocks b said hbl hb hsaid => ?_⟩
    · rw [spdmCert, if_neg (by omega), hb]
      rfl
    · rw [spdmCert, if_pos h]
    · rw [spdmChallenge, if_neg (not_not.mpr hp), hsaid, hb]
      rfl
    · rw [spdmChallenge, if_pos hp]
    · rw [spdmMeasure, if_pos ⟨h8, hff⟩]
    · rw [spdmMeasure_of_known h hbl hb hsaid]
      rfl

/-- Settles O60. -/
theorem managementSessionsAuthenticate : Obligations.ManagementSessionsAuthenticate := by
  unfold Obligations.ManagementSessionsAuthenticate
  refine ⟨fun s w l q ha hw h1 h2 h3 hs => ⟨fun hd c hc => ?doe, fun hd => ?mctp⟩, fun l n code w => rfl,
    fun s n ha hn => ⟨sessionHandshakeTimeout_of_none ha hn, fun x => sessionHandshakeTimeout_of_some ha hn⟩⟩
  case doe =>
    obtain ⟨f, hf⟩ := exists_mctpRow hc
    rw [exec_mctpRow s hf, spdmAct_taken _ ha hw h1 h2 h3, spdmTaken, ← hs, if_pos hd]
  case mctp =>
    have hrow : ∀ {c f}, MctpRow l q c f → exec c s = .next (keepQueue s (f w)) := fun {c f} hf => by
      rw [exec_mctpRow s hf, spdmAct_taken _ ha hw h1 h2 h3, spdmTaken, ← hs, hd, if_neg Bool.false_ne_true]
    have hwithin : ∀ {c stage g}, MsessRow l q c stage g →
        exec c s = .next (keepQueue s (inMsess l q.param [stage] w g)) := fun {c stage g} hg =>
      hrow (.inr (.inr ⟨stage, g, hg, rfl⟩))
    have hexchange : exec (.keyExchange l q) s = .next (keepQueue s (spdmConn l w (spdmKeyExchange l q))) :=
      hrow (.inl ⟨rfl, rfl⟩)
    have hfinish : exec (.finish l q) s = .next (keepQueue s (spdmConn l w (spdmFinish l q))) :=
      hrow (.inr (.inl ⟨rfl, rfl⟩))
    rw [hexchange, hfinish]
    refine ⟨fun hal => ⟨?_, ?_⟩, fun hal => ⟨fun hc => ?_, fun cred hc hf => ?_,
      fun cred n vca msg rsp hc hf hv hm hr => ?_⟩, fun hm => ⟨fun c hc => ?_, fun hal => ?_⟩, fun m hm => ?session⟩
    · rw [spdmConn_of_none _ hal]
    · rw [spdmConn_of_none _ hal]
    · rw [spdmConn_of_algs _ hal, spdmKeyExchange_of_noCred q hc]
    · rw [spdmConn_of_algs _ hal, spdmKeyExchange_of_full q hc hf]
    · rw [spdmConn_of_algs _ hal]
      simp only [spdmKeyExchange, hc, hf, exchangeSaid, hr, hm, hv, Bool.not_eq_true']
    · obtain ⟨stage, f, hr⟩ := exists_msessRow hc
      rw [hwithin hr, inMsess_of_none _ hm]
    · rw [spdmConn_of_algs _ hal, spdmFinish, inMsess_of_none _ hm]
    case session =>
      refine ⟨fun ho c hc => ?_, fun ho c hc => ?_, fun ho => ?_, fun hl hst => ⟨?_, fun msg said hmsg hsaid => ?_⟩,
        fun hl hst hal msg shared cm hmsg hsh hcm => ?_, fun hl hst => ⟨?_, ?_, ?_⟩⟩
      · obtain ⟨f, hr⟩ := exists_msessRow_open hc
        rw [hwithin hr, inMsess_of_other _ hm ho]
      · obtain ⟨f, hr⟩ := exists_msessRow_handshake hc
        rw [hwithin hr, inMsess_of_other _ hm ho]
      · cases hal : (connSt w (linkNo l)).algs
        · rw [spdmConn_of_none _ hal]
        · rw [spdmConn_of_algs _ hal, spdmFinish, inMsess_of_other _ hm ho]
      · rw [hwithin (.inr (.inr (.inr (.inl ⟨rfl, rfl, rfl⟩)))), inMsess_of_some _ hm hl hst]
        rfl
      · rw [hwithin (.inr (.inr (.inr (.inr ⟨rfl, rfl, rfl⟩)))), inMsess_of_some _ hm hl hst, hsaid, hmsg]
        simp only [sessEncPut, List.isEmpty_iff, Bool.and_eq_true, beq_iff_eq]
      · rw [spdmConn_of_algs _ hal, spdmFinish, inMsess_of_some _ hm hl hst, hcm, hsh, hmsg]
        rfl
      · rw [hwithin (.inl ⟨rfl, rfl, rfl⟩), inMsess_of_some _ hm hl hst]
        rfl
      · rw [hwithin (.inr (.inl ⟨rfl, rfl, rfl⟩)), inMsess_of_some _ hm hl hst]
        rfl
      · rw [hwithin (.inr (.inr (.inl ⟨rfl, rfl, rfl⟩))), inMsess_of_some _ hm hl hst]
        rfl

end Sys2Proof

/-! SUPPORT. Gangs of N-cores: dispatch, tenant switches and tensor operation descriptors (O51). -/

namespace Sys2Proof.Machine

/-! ### Dispatch (R63, R268, R269) -/

theorem switchGang_nil (tn : Nat) (s : State) : switchGang [] tn s = (s, 0, .ok) := rfl

theorem switchGang_concat (gang : List Nat) (c tn : Nat) (s : State) :
    switchGang (gang ++ [c]) tn s =
      (let x := switchGang gang tn s
       let y := switchCore c tn x.1
       (y.1, max x.2.1 y.2.1, if x.2.2 = .ok then y.2.2 else x.2.2)) := by
  rw [switchGang, List.foldl_append]
  rfl

theorem switchCore_same (c : Nat) (s : State) : switchCore c (coreTenant s c) s = (s, 0, .ok) := if_pos rfl

/-- A switch saves, restores, and is counted and timed; the core then names the new tenant. -/
theorem switchCore_other {c tn : Nat} {s : State} (h : coreTenant s c ≠ tn) {a : State × Bool} {b : State × Bool × Chk}
    {n : Nat} (ha : a = saveOut c (coreTenant s c) s) (hb : b = restoreIn c tn a.1) (hn : n = b2n a.2 + b2n b.2.1) :
    (switchCore c tn s).2 = (256 + cdiv (1024 * n * envClock s.pwr.env) 700, b.2.2) ∧
    ∃ ns, (switchCore c tn s).1 =
      rput R.ncCoreStat c (tn * 256) (rmax R.ncCoreSwmax c ns (cnt R.ncCoreSwitch c 1 b.1)) := by
  subst hn hb ha
  rw [switchCore, if_neg h]
  exact ⟨rfl, _, rfl⟩

/-- The cores in circular order from a pointer, each once. -/
theorem nodup_circular (p : Nat) : ((List.range 64).map (fun i => (p + i) % 64)).Nodup := by
  refine List.Nodup.map_on (fun x hx y hy h => ?_) List.nodup_range
  rw [List.mem_range] at hx hy
  omega

theorem freeCores_nodup (s : State) (k : Task) : (freeCores s k).Nodup := by
  unfold freeCores
  split
  · exact (nodup_circular _).filter _
  · exact List.nodup_nil

theorem free_of_mem_freeCores {s : State} {k : Task} {c : Nat} (h : c ∈ freeCores s k) :
    c < 64 ∧ ncoreFree s c = true := by
  unfold freeCores at h
  split at h
  · obtain ⟨hc, hfree⟩ := List.mem_filter.mp h
    obtain ⟨i, -, rfl⟩ := List.mem_map.mp hc
    exact ⟨Nat.mod_lt _ (by decide), (Bool.and_eq_true _ _ ▸ hfree).2⟩
  · exact absurd h List.not_mem_nil

theorem ncoreDispatch_of_none {s : State}
    (h : pickTask s 6 (fun k => decide (gangOf s k ≤ (freeCores s k).length)) = none) : ncoreDispatch s = s := by
  rw [ncoreDispatch, h]

/-! ### Tensor operation descriptors (R250 to R272) -/

/-- The command of each opcode. -/
def todRows (core : Nat) : List (Nat × Instr) :=
  [(0x01, Instr.todConv2d core), (0x02, .todMatmul core), (0x03, .todAttention core), (0x04, .todEltwise core),
   (0x05, .todAct core), (0x06, .todNorm core), (0x07, .todPool core), (0x08, .todResize core), (0x09, .todReduce core),
   (0x0A, .todSoftmax core), (0x0B, .todGather core), (0x0C, .todScatter core), (0x0D, .todTransform core),
   (0x0E, .todQuant core), (0x0F, .todTopk core), (0x10, .todNms core), (0x11, .todArgmax core)]

theorem exec_todRow {s : State} {core op : Nat} {c : Instr} (ha : alive s = true) (hc : core < 64)
    (h : (op, c) ∈ todRows core) : exec c s = .next (keepQueue s (todStep op core s)) := by
  have hact {o : Nat} : act (decide (core < 64)) s (todStep o core) = .next (keepQueue s (todStep o core s)) :=
    act_alive _ ha (decide_eq_true hc)
  simp only [todRows, List.mem_cons, List.not_mem_nil, or_false, Prod.mk.injEq] at h
  rcases h with ⟨rfl, rfl⟩ | ⟨rfl, rfl⟩ | ⟨rfl, rfl⟩ | ⟨rfl, rfl⟩ | ⟨rfl, rfl⟩ | ⟨rfl, rfl⟩ | ⟨rfl, rfl⟩ | ⟨rfl, rfl⟩ |
    ⟨rfl, rfl⟩ | ⟨rfl, rfl⟩ | ⟨rfl, rfl⟩ | ⟨rfl, rfl⟩ | ⟨rfl, rfl⟩ | ⟨rfl, rfl⟩ | ⟨rfl, rfl⟩ | ⟨rfl, rfl⟩ | ⟨rfl, rfl⟩
  all_goals exact hact

theorem todStep_of_free {s : State} {core : Nat} (op : Nat) (h : runOn s (engN core 32) = none) :
    todStep op core s = s := by
  rw [todStep, h]

section
variable {s : State} {core : Nat} {r : Run} (op : Nat) (hr : runOn s (engN core 32) = some r)
include hr

/-- A gang that runs no descriptor of a live task is left alone. -/
theorem todStep_of_ended (h : r.task.cls ≠ 6 ∨ r.worked = true ∨ r.cancelled = true ∨ todAddr s r = none) :
    todStep op core s = s := by
  simp only [todStep, hr]
  split
  · next hrun =>
    simp only [Bool.and_eq_true, beq_iff_eq, Bool.not_eq_true', and_assoc] at hrun
    obtain ⟨hcls, hworked, hcancelled⟩ := hrun
    have hnone : todAddr s r = none := by simpa [hcls, hworked, hcancelled] using h
    rw [hnone]
  · rfl

/-- What the gang's descriptor comes to, by its opcode. -/
theorem todStep_of_run {a count : Nat} (hcls : r.task.cls = 6) (hw : r.worked = false) (hc : r.cancelled = false)
    (ha : todAddr s r = some (a, count)) :
    todStep op core s =
      if rdN s r.task.tenant a 1 = op ∨ rdN s r.task.tenant a 1 = 0 ∨ 0x11 < rdN s r.task.tenant a 1 then
        settle (todStart r s) else s := by
  simp only [todStep, hr, hcls, hw, hc, ha, beq_self_eq_true, Bool.not_false, Bool.and_self, if_true]

end

section
variable {r : Run} {s : State} {a count lead : Nat} {d : Tod} {reads : List (Nat × Nat)}
  (ha : todAddr s r = some (a, count)) (hl : lead = (r.gang.head?).getD 0)
  (hd : d = todAt (cacheView s lead) r.task.tenant a) (hrd : reads = todReads (cacheView s lead) r.task.tenant a d)
include ha hl hd hrd

/-- A descriptor, or what it names, that cannot be read. -/
theorem todStart_of_fault {x : Chk} (hx : chkAll s r.task.tenant reads [] = x) (hne : x ≠ .ok) :
    todStart r s = faultRun r.eng x s := by
  subst hl hd hrd
  simp only [todStart, ha, hx]
  cases x
  · exact absurd rfl hne
  all_goals rfl

theorem todStart_of_bad {b : Nat × CacheLine} (hx : chkAll s r.task.tenant reads [] = .ok)
    (hb : gangBad s r.gang reads = some b) : todStart r s = dropBad b.1 b.2 s := by
  subst hl hd hrd
  simp only [todStart, ha, hx, hb]

/-- A descriptor that is read is checked after its SYNC, and carried out or failed. -/
theorem todStart_of_read {s0 s1 : State} {r1 : Run} (hx : chkAll s r.task.tenant reads [] = .ok)
    (hb : gangBad s r.gang reads = none)
    (h0 : s0 = reads.foldl (fun s x => touchRead x.1 x.2 s) (r.gang.foldl (fun s c => cacheReads c reads s) s))
    (h1 : s1 = if d.sync then cacheSync r.gang (modRun r.eng (fun r => { r with unsynced := [] }) s0) else s0)
    (hr1 : r1 = if d.sync then { r with unsynced := [] } else r) :
    todStart r s = if todCheck (cacheView s1 lead) r d = 0 then todGo r1 d count s1
      else todFail r d (todCheck (cacheView s1 lead) r d) s1 := by
  subst hr1 h1 h0 hl hd hrd
  simp only [todStart, ha, hx, hb]
  split
  · next h => exact (if_pos h).symm
  · next h => exact (if_neg h).symm

end

section
variable {r : Run} {d : Tod} {s0 : State} {reads : List (Nat × Nat)} (count : Nat)
  (hrd : reads = operandReads d (envOf s0 r))
include hrd

theorem todGo_of_bad {b : Nat × CacheLine} (hb : gangBad s0 r.gang reads = some b) :
    todGo r d count s0 = dropBad b.1 b.2 s0 := by
  subst hrd
  simp only [todGo, hb]

theorem todGo_of_fault {x : Chk} (hb : gangBad s0 r.gang reads = none) (hx : chkAll s0 r.task.tenant reads [] = x)
    (hne : x ≠ .ok) : todGo r d count s0 = faultRun r.eng x s0 := by
  subst hrd
  simp only [todGo, hb, hx]

variable {s : State} {o : TodOut} (hb : gangBad s0 r.gang reads = none)
  (hx : chkAll s0 r.task.tenant reads [] = .ok) (hs : s = gangReads d r.gang reads s0)
  (ho : o = todCompute d (envOf s r) (fun rank flat =>
    (((r.gang.map (fun c => heldAcc s c r.task.tenant)).getD rank none).map (fun a => tget 0 a.vals flat))))
include hb hx hs ho

/-- An operation that fails while it computes. -/
theorem todGo_of_failed (hst : o.status ≠ 0) :
    todGo r d count s0 = todFail r d o.status (if o.status = 2 then cnt R.ncWcompErr 0 1 s else s) := by
  subst ho hs hrd
  simp only [todGo, hb, hx, if_pos hst]

end

end Sys2Proof.Machine

namespace Sys2Proof

open Sys2Proof.Machine

/-- Settles O51. -/
theorem neuralCoresRunTheirGangs : Obligations.NeuralCoresRunTheirGangs := by
  unfold Obligations.NeuralCoresRunTheirGangs
  refine ⟨⟨fun s ha hn => ?idle, fun s s1 k taken gang eng ha hp ht hg he h1 x hx => ?dispatch,
    fun gang c tn s => ⟨switchGang_nil tn s, switchGang_concat gang c tn s⟩, fun s c => switchCore_same c s,
    fun s c tn h a b n ha hb hn => switchCore_other h ha hb hn,
    fun s k => ⟨freeCores_nodup s k, fun c hc => free_of_mem_freeCores hc⟩⟩,
    fun s core op c ha hc hrow => ?descriptors⟩
  case idle =>
    rw [show exec .ncoreTaskDispatch s = _ from act_alive _ ha rfl, ncoreDispatch_of_none hn]
    rfl
  case dispatch =>
    have hex : exec .ncoreTaskDispatch s = .next (keepQueue s (settle (
        if x.2.2 = .ok then modRun eng (fun r => { r with cycles := 64 + x.2.1 }) x.1
        else faultRun eng x.2.2 (modRun eng (fun r => { r with cycles := 64 + x.2.1 }) x.1)))) := by
      rw [show exec .ncoreTaskDispatch s = _ from act_alive _ ha rfl]
      simp only [ncoreDispatch, hp, hx, h1, he, hg, ht]
    rw [hex]
    exact ⟨fun h => by rw [if_pos h], fun h => by rw [if_neg h]⟩
  case descriptors =>
    have hex := exec_todRow ha hc hrow
    rw [hex]
    refine ⟨fun hr => by rw [todStep_of_free op hr]; rfl, fun r hr => ⟨fun h => by rw [todStep_of_ended op hr h]; rfl,
      fun a count tn hcls hw hcan hta htn => ?_⟩⟩
    subst htn
    rw [todStep_of_run op hr hcls hw hcan hta]
    refine ⟨fun h1 h2 h3 => ?other, fun hop lead d reads hl hd hrd => ?runs⟩
    case other =>
      rw [if_neg (by omega)]
      rfl
    case runs =>
      rw [if_pos hop]
      refine ⟨fun x hx hne => by rw [todStart_of_fault hta hl hd hrd hx hne],
        fun b hx hb => by rw [todStart_of_bad hta hl hd hrd hx hb], fun s0 s1 r1 hx hb h0 h1 hr1 => ?_⟩
      rw [todStart_of_read hta hl hd hrd hx hb h0 h1 hr1]
      refine ⟨fun st hst hne => by rw [hst, if_neg hne], fun from_ hok hfrom => ?_⟩
      rw [if_pos hok]
      have htn : r1.task.tenant = r.task.tenant := by
        rw [hr1]
        split <;> rfl
      rw [← htn]
      refine ⟨fun b hb => by rw [todGo_of_bad count hfrom hb], fun x hb hx hne => by
        rw [todGo_of_fault count hfrom hb hx hne], fun hb hx s2 o held h2 hheld ho => ⟨fun hst => ?_, fun hst => ?_⟩⟩
      · subst hheld
        rw [todGo_of_failed count hfrom hb hx h2 ho hst]
      · intro missing fl sats times outs stat hmiss hfl hsats htimes houts hstat writes x hwrites hxw
        -- the model's own text of what the operation reads, computes and writes, by the statement's names
        simp only [todGo, ← hfrom, hb, hx, ← h2, ← hheld, ← ho, hst, ne_eq, not_true_eq_false, if_false, ← hmiss,
          ← hfl, ← hsats, ← htimes, ← houts, ← hstat, ← hwrites, hxw]
        refine ⟨fun hne => ?_, fun b hxo hbad => ?_, fun hxo hbad cached own hcached hown => ?_⟩
        · cases x
          · exact absurd rfl hne
          all_goals rfl
        · rw [hxo, hbad]
        · rw [hxo, hbad, hown, hcached]

end Sys2Proof
